-- ==== Sys2Proof/Word.lean ====
section
/-! DEFINITION. Bytes, byte strings and the canonical sparse memories of the block model. -/

namespace Sys2Proof

/-- One byte. -/
abbrev Byte := BitVec 8

/-- A byte string, first byte first. -/
abbrev Bytes := List Byte

/-- A buffer or image: its bytes by offset, offsets strictly rising, no byte 0 listed.
An unlisted offset reads 0 (log entry 4). -/
abbrev Mem := List (Nat × Byte)

end Sys2Proof
end

