-- ==== Sys2Proof/Syntax.lean ====
section
/-! DEFINITION. The commands of the block, one constructor for each row of `spec/opcode_table.json`,
in the table's order. The table gives its rows no operand fields: an operand here is what the
outside (the host, a fob, a phone, an anchor, the bus, the supplies) brings with the event, and
nothing that the device can find in its own state. -/

namespace Sys2Proof

/-- What one anchor of the vehicle heard of a transmission: the anchor and the stamp of the
tick at which it heard it. -/
abbrev Heard := List (BitVec 6 × Nat)

/-- What one receive chain took of a UWB frame (R214, R231, R258, R259, R262). -/
structure UwbChain where
  /-- chain -/
  chain : BitVec 2
  /-- stamp of the RMARKER as received, in units, before its correction -/
  stamp : BitVec 40
  /-- first-path power in 0.25 dBm -/
  fp : Int
  /-- total received power in 0.25 dBm -/
  total : Int
  /-- phase of the first path in 0.01 degree -/
  phase : Int
  /-- exponent of the taps -/
  exp : BitVec 8
  /-- first-path position in the window, in 1/64 tap -/
  pos : BitVec 16
  /-- 64 taps, I and Q -/
  taps : List (BitVec 14 × BitVec 14)
deriving DecidableEq, Repr

/-- What this device's anchor took of a UWB frame. -/
structure UwbStamp where
  /-- key clock offset in 0.1 ppm, from the carrier offset -/
  cfo : Int
  /-- its chains that received the frame -/
  chains : List UwbChain
deriving DecidableEq, Repr

/-- What an anchor makes of a UWB frame (R214, R233, R254, R258 to R260). -/
structure UwbMeas where
  /-- anchor -/
  anchor : BitVec 6
  /-- corrected stamp in units -/
  stamp : BitVec 40
  /-- key clock offset in 0.1 ppm -/
  cfo : Int
  /-- first-path power in 0.25 dBm -/
  fp : Int
  /-- total received power in 0.25 dBm -/
  total : Int
  /-- azimuth in the anchor frame, in 0.1 degree -/
  az : Option Int
  /-- elevation in the anchor frame, in 0.1 degree -/
  el : Option Int
deriving DecidableEq, Repr

/-- The form of a UWB frame (R227). -/
structure UwbFormat where
  /-- 0 BPRF, 1 HPRF, 2 the LRP PHY, 3 the legacy rates -/
  mode : BitVec 2
  /-- payload rate: 0 is 6.81 Mbit/s, 1 is 27.24 Mbit/s, else another -/
  rate : BitVec 2
  /-- channel -/
  channel : BitVec 4
  /-- preamble code -/
  code : BitVec 6
  /-- SYNC symbols -/
  sync : BitVec 13
  /-- SFD symbols -/
  sfd : BitVec 8
  /-- STS packet configuration -/
  sts : BitVec 2
  /-- STS segments and their length in units of 512 chips -/
  segments : BitVec 3 × BitVec 9
  /-- a data frame with short addresses that carries a payload of the access service -/
  access : Bool
deriving DecidableEq, Repr

/-- One work instant of a SCHEDULE message: its stamp and its description. -/
abbrev Stamped := Nat × Bytes

/-- One measurement of a RESULT message (R616, R629). -/
structure TenderResult where
  /-- 0 POLL, 1 RESPONSE and 2 FINAL of a UWB round, 3 a set of channel sounding, 4 its LF drivers in a poll, 5 a part of
  a CIR record, 6 its LF drivers otherwise -/
  kind : BitVec 3
  /-- berth of the round or poll -/
  berth : BitVec 8
  /-- timebase stamp in ticks, which assigns the measurement to its tide; of a CIR record, the offset of the part; of a
  set of channel sounding and of the drivers, the number of the tide -/
  tick : Nat
  /-- what the tender measured of a UWB frame -/
  rx : UwbMeas
  /-- its chart antennas: sensed current in mA, 0 for one without, and whether the driver is disabled -/
  drivers : List (BitVec 4 × BitVec 11 × Bool)
  /-- the part of a CIR record -/
  cir : Bytes
  /-- a set of channel sounding: DIST, SPREAD, CHAINS and TONES -/
  cs : BitVec 16 × BitVec 16 × BitVec 4 × BitVec 7
deriving DecidableEq, Repr

/-- A key cell (R479): in SRAM CRYPTO.AES_KEY, a berth's member and authentication key, the key of the tag session, the
DRBG's key (R520), K_bind of a link, the lock keeper's two keys (R410), and of a session slot the STS, MAC and link
key and the STS counter block; in MRAM the two roots and the attestation seed. -/
inductive KeyCell where
  | aes | tag | drbg | lock | lockPrev | vehicle | fleet | seed
  | bind (n : Nat) | member (n : Nat) | auth (n : Nat) | sts (k : Nat) | mac (k : Nat) | link (k : Nat) | ctr (k : Nat)
deriving DecidableEq, Repr

/-- TAG and EPOCH of a request that a tender answers (R616, R619). -/
abbrev ReqId := BitVec 8 × BitVec 4

/-- A received CAN frame (R582). -/
structure CanFrame where
  /-- 29-bit identifier frame -/
  ext : Bool
  /-- identifier -/
  ident : BitVec 29
  /-- FD frame -/
  fdf : Bool
  /-- bit-rate switch -/
  brs : Bool
  /-- error state indicator -/
  esi : Bool
  /-- remote frame -/
  rtr : Bool
  /-- data bytes -/
  data : Bytes
deriving DecidableEq, Repr

/-- How a UHF frame was received (R294 to R296). -/
structure UhfRx where
  /-- anchor that heard it -/
  anchor : BitVec 6
  /-- its stamp in ticks -/
  stamp : Nat
  /-- UHF chain that decoded it -/
  chain : BitVec 1
  /-- received power in dBm, signed -/
  rssi : BitVec 8
  /-- its CRC-16 as received -/
  crc : BitVec 16
deriving DecidableEq, Repr

/-- What a driver senses of a pattern (R163, R170). -/
structure LfSense where
  /-- driver -/
  driver : BitVec 4
  /-- impedance of its load at the carrier, in mΩ -/
  load : BitVec 24
  /-- sensed current amplitude in mA -/
  ma : BitVec 11
  /-- sensed phase of the current in degrees -/
  phase : Int
deriving DecidableEq, Repr

/-- What a calibration senses of a driver (R167, R171). -/
structure LfCal where
  /-- driver -/
  driver : BitVec 4
  /-- current phase in degrees at each of the six steps of the search -/
  phases : List Int
  /-- found within limits -/
  ok : Bool
deriving DecidableEq, Repr

/-- Procedures that a Bluetooth LE peer may ask for (R280). -/
inductive LlProcedure where
  | dataLength | phyUpdate | phyCoded | channelMap | encryption | channelSounding
  | subrating | isochronous | pairing | attProtocol | otherSounding | other
deriving DecidableEq, Repr

/-- A PDU of a peer in a connection event (R280, R281): of a kind that the 7256 does not support, or a request. -/
inductive PeerPdu where
  | unsupportedKind
  | features (le2m : Bool)
  | channelMap (m : BitVec 37)
  | dataLength (n : Nat)
  | request (p : LlProcedure)
deriving DecidableEq, Repr

/-- What was on the air in an answer window besides its frames (R194). -/
structure AirHeard where
  /-- ticks at which sync words began -/
  syncs : List Nat
  /-- energy after a valid frame: dB above the noise floor, and for how many µs -/
  energy : List (BitVec 8 × BitVec 16)
deriving DecidableEq, Repr

/-- What the device senses at a tide boundary (R170, R221, R275, R297). -/
structure TideEnv where
  /-- die temperature in 0.125 °C, signed -/
  temp : BitVec 16
  /-- VLF in units of LF.VLF -/
  vlf : BitVec 12
  /-- VRF2 in 20 mV -/
  vrf2 : BitVec 8
  /-- UHF chains, by anchor, that stayed above -60 dBm through the whole tide with no valid frame -/
  jam : List (BitVec 6 × BitVec 2)
  /-- tamper inputs that are active: bits as KEYS.TAMPER.ACTIVE -/
  tamper : BitVec 4
deriving DecidableEq, Repr

/-- What is measured around an advertising event (R306, R307). -/
structure BleSense where
  /-- die temperature in 0.125 °C, signed -/
  temp : BitVec 16
  /-- VRF2 in 20 mV -/
  vrf2 : BitVec 8
  /-- return loss of its packets in 0.5 dB -/
  rl : BitVec 8
deriving DecidableEq, Repr

/-- One mode-2 step of a sounding procedure on one receive chain (R302). -/
structure CsTone where
  /-- channel sounding channel -/
  channel : BitVec 7
  /-- phase that this device measured, in 2^-16 turns -/
  init : Int
  /-- phase that the reflector measured -/
  refl : Int
  /-- the tone quality is high at this device -/
  high : Bool
  /-- the tone quality is high at the reflector -/
  reflHigh : Bool
deriving DecidableEq, Repr

/-- The commands. -/
inductive Instr where
  | tideBoundary (env : TideEnv)
  | wakeBoundary (env : TideEnv)
  | watchDwellExpiry
  | serviceDwellExpiry
  | powerReqWrite (v : BitVec 32)
  | registerWrite (ha : BitVec 20) (hi : BitVec 16)
  | lowHalfWrite (ha : BitVec 20) (lo : BitVec 16)
  | undefinedCommandCode (ha : BitVec 20) (hi : BitVec 16)
  | portLowHalfRead (ha : BitVec 20)
  | farAccessComplete
  | busProtocolError
  | unmappedAccess (ha : BitVec 20) (d : Option (BitVec 16))
  | bulkWindowWrite (ha : BitVec 20) (d : BitVec 16)
  | portStartAfterPor
  | hostReset (v : BitVec 32)
  | bleAdvertisement (company : BitVec 16) (typ : BitVec 8) (fleet : BitVec 32) (token : BitVec 64) (heard : Heard)
  | advertisingBurst (x : BleSense)
  | advertisingEvent (x : BleSense)
  | scanWindow
  | connectionEvent (link : Nat) (returnLoss : BitVec 8) (peer : List PeerPdu)
  | hello (link : Nat) (token : BitVec 64) (cred : BitVec 64) (gen : BitVec 8) (caps : BitVec 8) (tk : BitVec 16)
  | helloTimeout (link : Nat)
  | bleResponse (n : BitVec 8) (mac : BitVec 128)
  | encryptionRefused (n : BitVec 8)
  | ready (n : BitVec 8) (sid : BitVec 32) (mac : BitVec 64)
  | fieldFrame (n : BitVec 8) (hailTag : BitVec 16) (seq : BitVec 8) (a : BitVec 8) (field : Bytes) (mac : BitVec 32)
  | close (n : BitVec 8) (reason : BitVec 8)
  | accessFrameForeign (link : Nat) (typ : BitVec 8) (len : BitVec 8)
  | bleDisconnection (n : BitVec 8)
  | hailTimeout (n : BitVec 8)
  | quietTimeout (n : BitVec 8)
  | farTimeout (n : BitVec 8)
  | berthCast (n : BitVec 8) (v : BitVec 32)
  | bookingLoWrite (v : BitVec 32)
  | bookingHiWrite (v : BitVec 32)
  | startButtonPress (mfp : BitVec 5)
  | startDebounceEnd (mfp : BitVec 5)
  | verdictPublication
  | latchPulseEnd (mfp : BitVec 5)
  | ovrVerify
  | ovrVerifyDone
  | fireRule (rule : BitVec 8)
  | fireStart
  | ovrCancel
  | ovrNewNonce
  | ovrWindowEnd
  | vselWrite (v : BitVec 32)
  | handleTouch (mfp : BitVec 5)
  | lfFrameStart
  | lfPatternEnd (senses : List LfSense)
  | answerWindowClose (air : AirHeard)
  | slottedRoundClose (air : AirHeard)
  | lfPollingPattern
  | uhfSniff
  | wakeAnswer (rx : UhfRx) (flags : BitVec 4) (fob : BitVec 64) (idle : BitVec 8)
  | challengeResponse (rx : UhfRx) (flags : BitVec 4) (fob : BitVec 64) (counter : BitVec 32) (mac : BitVec 64)
  | buttonTelegram (rx : UhfRx) (command : BitVec 4) (fob : BitVec 64) (counter : BitVec 32) (idle : BitVec 8) (mac : BitVec 64)
  | pollReport (rx : UhfRx) (flags : BitVec 4) (hailTag : BitVec 16) (seq : BitVec 2) (resv : BitVec 6) (field : Bytes) (mac : BitVec 32)
  | fieldFit (n : BitVec 8)
  | lfCal
  | lfCalibrationDone (results : List LfCal)
  | clrIdle
  | driverTrip (d : BitVec 4)
  | vlfLow (mv : BitVec 12)
  | uwbCal
  | pllUCalDone (ok : Bool) (temp : BitVec 16)
  | pllULock
  | pllULossOfLock
  | roundPreparation (temp : BitVec 16)
  | uwbCtrlTransmit
  | uwbPoll (rx : Option UwbStamp)
  | uwbResponseTransmit (slot : BitVec 4)
  | uwbFinal (rx : Option UwbStamp)
  | uwbFinalData (begin_ : BitVec 40) (payload : Bytes)
  | uwbRoundEnd
  | roundResults
  | foreignUwbFrame (f : UwbFormat)
  | uwbTestGo (v : BitVec 32)
  | resSelWrite (v : BitVec 32)
  | cirSelWrite (v : BitVec 32)
  | nbradioCal
  | synthCalibration (which : BitVec 2)
  | synthCalDone (which : BitVec 2) (ok : Bool) (temp : BitVec 16) (irr : List (BitVec 8))
  | synthLock
  | synthLossOfLock (which : BitVec 2)
  | csProcedure (n : BitVec 8)
  | csResults (n : BitVec 8) (chains : List (List CsTone))
  | csSelWrite (v : BitVec 32)
  | nbradioTestGo (v : BitVec 32)
  | reqaPoll
  | cardActivation (uids : List (Bytes × Bool))
  | cardSelect (cid : BitVec 4) (sw : BitVec 16) (role : BitVec 8) (cred : BitVec 64)
  | cardAuthBeginResponse (cid : BitVec 4) (rb : Bytes) (macC : Bytes) (sw : BitVec 16)
  | cardAuthEndResponse (cid : BitVec 4) (sw : BitVec 16)
  | cardLeftField (cid : BitVec 4)
  | readerFieldReturn (present : List (BitVec 4))
  | nfcRescan
  | cardSelWrite (v : BitVec 32)
  | tagFieldOn
  | tagSelect
  | tagAuthBegin (kind : BitVec 8) (cred : BitVec 64) (device : BitVec 64) (ra : Bytes) (noise : Bytes)
  | tagWtx
  | harvestDelayEnd (noise : Bytes)
  | tagAuthEnd (macR : Bytes)
  | tagRead (off : BitVec 16) (len : BitVec 8)
  | tagWrite (off : BitVec 16) (data : Bytes)
  | tagReadOrig (off : BitVec 16) (len : BitVec 8)
  | tagDeactivation (cut : Bool)
  | harvTimeout
  | tagMemHostAccess (ha : BitVec 20) (d : Option (BitVec 16))
  | registerOpen
  | registerBlockCrc (crc : BitVec 32)
  | importWindowWrite (ha : BitVec 20) (d : BitVec 16)
  | registerVerify
  | registerVerifyDone
  | registerCommit
  | stagingDone (ok : Bool)
  | registerAbort
  | journalApply
  | mbLookup
  | mbScrub
  | mailboxDone
  | clockWrite (v : BitVec 32)
  | clockFloorHour
  | installRoot
  | installPub
  | setFleetId
  | pair
  | genXmss
  | genXmssDone
  | advance
  | keysReturn
  | respond
  | exportHarvest
  | keysNewNonce
  | destroy (vehicle : Bool)
  | keysAbort
  | rootRetagDone
  | pairingFrame
  | pairingTimeout
  | tamperLineRise (source : BitVec 2)
  | aesGo (v : BitVec 32)
  | aesBlockDone
  | aesJobArrival (level : BitVec 2) (cell : Option KeyCell) (master : BitVec 4) (fleet : Bool) (blocks : Nat) (feature : BitVec 5) (dir : Bool)
  | aesJobResume
  | keccakJobArrival (level : BitVec 2) (verify : Bool) (permutations : Nat) (feature : BitVec 5)
  | attest
  | signRelease (ok : Bool)
  | trngGenerate
  | trngReseed
  | setPers
  | noiseBlockDone (raw : BitVec 1024)
  | fatalRestart
  | drbgReseedTimer
  | entropyRequestTimeout
  | maskGeneratorReseed
  | ticketDelivery
  | requestTimerExpiry
  | lkChallenge (reqCtr : BitVec 8) (epoch : BitVec 8) (nonce : BitVec 48) (answerUs : BitVec 16)
  | lkStatus (engine : BitVec 2) (verdict : BitVec 2) (epoch : BitVec 8) (seq : BitVec 8) (mac : BitVec 32)
  | ticketWindowEnd
  | crankWindowEnd
  | ecuSilent
  | stenReadback (agrees : Bool)
  | lkBusOff
  | islandSupplyTrip
  | islandPowerUp (testsOk : Bool)
  | islandSelftestRetry (testsOk : Bool)
  | canFrameReceived (n : BitVec 3) (frame : CanFrame) (sof : Nat)
  | canTxRequest (n : BitVec 3) (k : BitVec 7)
  | canLoad (n : BitVec 3) (k : BitVec 7)
  | canCancel (n : BitVec 3) (k : BitVec 7)
  | canArbitrationStart (n : BitVec 3)
  | canTxSuccess (n : BitVec 3)
  | canTxAttemptFailed (n : BitVec 3) (kind : BitVec 2)
  | canBusOffRecovery (n : BitVec 3)
  | canBusIntegration (n : BitVec 3)
  | canProtocolException (n : BitVec 3)
  | canRxAck (n : BitVec 3) (c : BitVec 32)
  | canTransactTimeout (n : BitVec 3) (k : BitVec 7) (tag : BitVec 8)
  | pierPortEnable (n : BitVec 5)
  | pierTrainingComplete (n : BitVec 5) (latency : BitVec 16)
  | pierTrainingTimeout (n : BitVec 5)
  | pierRetrainTimer (n : BitVec 5)
  | pierAdrift (n : BitVec 5) (cause : BitVec 4)
  | pierRetrain (n : BitVec 5)
  | pierBlockReceived (n : BitVec 5) (seq : BitVec 4) (crcOk : Bool) (codeOk : Bool)
  | pierAck (n : BitVec 5) (sq : BitVec 4)
  | pierNak (n : BitVec 5) (sq : BitVec 4)
  | pierResendTimeout (n : BitVec 5)
  | pierMark (env : TideEnv)
  | tideMessage (number : BitVec 32) (stamp : BitVec 48) (length : BitVec 11) (power : BitVec 3) (life : BitVec 2)
  | enumerationStart
  | enum (rq : ReqId) (host : BitVec 64) (anchor : BitVec 6)
  | bind (rq : ReqId) (nh : Bytes)
  | bindFinish (rq : ReqId) (macH : Bytes)
  | pierResponse (n : BitVec 5) (typ : BitVec 8) (tag : BitVec 8) (epoch : BitVec 4) (arg : BitVec 32) (body : Bytes)
  | pierRequestTimeout (n : BitVec 5) (tag : BitVec 8)
  | slack (n : BitVec 5) (rq : ReqId)
  | wakeBeacon (n : BitVec 5)
  | pushBegin (rq : ReqId) (fw : Bool) (adopt : Bool) (serial : BitVec 32) (len : BitVec 32)
  | pushData (offset : BitVec 32) (data : Bytes) (last : Bool)
  | pushEnd (rq : ReqId)
  | commitAt (rq : ReqId) (fw : Bool) (tide : BitVec 32)
  | keyFwd (rq : ReqId) (code : BitVec 8) (body : Bytes)
  | sessionSet (header : Bytes) (body : Bytes)
  | harvestTable (header : Bytes) (body : Bytes)
  | schedule (tide : BitVec 32) (work : List Stamped)
  | resultMessage (n : BitVec 5) (results : List TenderResult)
  | eventMessage (n : BitVec 5) (kind : BitVec 8) (arg : BitVec 32) (stamp : BitVec 48) (body : Bytes)
  | tamperMessage
  | remoteRead (n : BitVec 5)
  | remoteWrite (n : BitVec 5)
  | manifestOpen
  | manifestBlockCrc (crc : BitVec 32)
  | manifestVerify
  | manifestVerifyDone
  | manifestCommit
  | manifestWriteDone (ok : Bool)
  | manifestAbort
  | claim
  | complete (v : BitVec 32)
  | pendingClear (hiReg : Bool) (v : BitVec 32)
  | enableHWrite (hiReg : Bool) (v : BitVec 32)
  | pairEnableWrite (pairB : Bool) (mask : BitVec 64)
  | trigger (v : BitVec 32)
  | powerOnReset
  | brownOut (supplies : BitVec 8)
  | supplyWarning (bit : BitVec 3) (below : Bool)
  | vioBrownOut (bank : BitVec 2)
  | watchdogExpiry
  | lockstepFault (pairB : Bool)
  | pairRejoin (pairB : Bool)
  | mainStart (env : TideEnv) (kat : BitVec 4) (cells : BitVec 6)
  | crystalChangeover
  | fwOpen
  | fwBlockCrc (crc : BitVec 32)
  | fwVerify
  | fwVerifyDone
  | fwActivate
  | fwDistributionDone (ok : Bool)
  | fwAbort
  | fwHandoverDone
  | fwTrialEnd
  | checkpoint
  | checkpointDue
  | logbookSelWrite (v : BitVec 32)
  | pairClaim (pairB : Bool)
  | pairComplete (pairB : Bool) (source : BitVec 6)
  | windowWrite (ha : BitVec 20) (d : BitVec 16)
  | canReceiveError (n : BitVec 3) (inc : Bool)
  | vioBankRelease (bank : BitVec 2)
  | coreClockStop
  | sessionIdBaseRetry
  | tenderBankWriteDone (ok : Bool)
deriving DecidableEq, Repr

end Sys2Proof
end

