-- ==== Sys2Proof/Decode.lean ====
section
/-! DEFINITION. Commands spelled by words: `spec/opcode_table.json` gives bits to none of its rows,
so no word spells a command (log entry 14). -/

namespace Sys2Proof

/-- The command that a word of `nbits` bits spells by the table's bits. -/
def decodeTableWord (_nbits _w : Nat) : Option Instr := none

end Sys2Proof
end

