-- ==== Sys2Proof/Config.lean ====
section
/-! DEFINITION. What the spec leaves to an implementation or to mathematics outside its rules:
constants without a body, so that no proof can lean on a value of one. -/

namespace Sys2Proof.Config

/-- A generalised inverse of a singular 3 by 3 normal matrix, by rows: the spec names the least-squares
step and not what it is where the terms do not fix it. DESIGN CHOICE, log entry 9. -/
opaque pseudoInverse : List (List Rat) → List (List Rat)

/-- Where the fusion starts when the holding anchor has no angles or no distance, from that anchor's
position (R328 names no point then). DESIGN CHOICE, log entry 9. -/
opaque fusionStart : Rat × Rat × Rat → Rat × Rat × Rat

/-- KIND and DATA of the logbook record of a handle touch, by its zone: R142, R197 and D9 say that the touch is
logged, and R713 lists no kind for it. DESIGN CHOICE, log entry 54. -/
opaque touchRecord (zone : Nat) : BitVec 8 × Bytes

/-- The sense in which LF.SENSE.PHASE is signed: true where a positive phase means a resonance below
the carrier (R169 and R170 do not say). DESIGN CHOICE, log entry 9. -/
opaque phaseMeansLow : Bool

/-- How long a BLE air event of kind `k` lasts, in ticks: 0 an advertising event, 1 a connection event, 2 one
transmission. The spec gives no length (R142, R276). DESIGN CHOICE, log entry 56. -/
opaque bleTicks (k : Nat) : Nat

/-- The correction of the UWB transmit gain, in 0.5 dB, that a die temperature asks for: R218 gives the steps and
not the correction. DESIGN CHOICE, log entry 57. -/
opaque txGain (temp : BitVec 16) : Int

/-- The correction of the BLE transmit gain, in 0.5 dB, for a die temperature and a VRF2: R306 gives the steps and not
the correction. DESIGN CHOICE, log entry 56. -/
opaque bleGain (temp : BitVec 16) (vrf2 : BitVec 8) : Int

/-- The low 32 bits of the counter of block `b` of the STS of index `idx`: R238 leaves the construction to the
standard. DESIGN CHOICE, log entry 57. -/
opaque stsLow (idx b : Nat) : Nat

/-- The direction of antenna tuner steps: for the two codes and the return loss, whether a step up
leads to the larger return loss, and whether in the series code (R307 does not say how it is found). Log entry 9. -/
opaque tunerStep : BitVec 5 → BitVec 5 → BitVec 8 → Bool × Bool

/-- The tuner's codes are at their best (R307 does not say how it knows): no step leads to a larger return loss. Log
entry 9. -/
opaque tunerBest : BitVec 5 → BitVec 5 → Bool

/-- The return loss in 0.5 dB of the packet number `k` that no command brings a value for: a test packet, a packet of a
sounding procedure, or one held for lock (R307). Log entry 56. -/
opaque returnLoss (k : Nat) : BitVec 8

/-- Where the receive error counter of a CAN controller goes from above 127 on a good reception:
ISO 11898-1 gives a range of 119 to 127, which is 119 plus this. Log entry 9. -/
opaque recRestart : Fin 9

/-- The root (32 bytes) of the signing tree of the seeds that GEN_XMSS drew (R470, R504): the spec leaves to RFC 8391
how the keys of the chains come from a secret seed. Log entry 8. -/
opaque treeRoot : Bytes → Bytes

/-- The signature of a message with index `idx` of the tree of the seeds (R506). Log entry 8. -/
opaque xmssSign : Bytes → Nat → Bytes → Bytes

/-- The permutations of the hash chains of an XMSS operation that starts in a tick: those of a verification depend on
the signature, and R470 and R508 bound the others by time alone. Log entry 58. -/
opaque xmssPermutations (tick : Nat) : Nat

/-- XMSS.PROGRESS, in %, so many ticks after the generation of a tree began: R470 bounds its end alone. Log entry 8. -/
opaque xmssPercent (ticks : Nat) : Fin 101

/-- The public key (68 bytes) of the Frandowa firmware authority in ROM (R502): its value is not in
the spec. Log entry 8. -/
opaque fwAuthority : Bytes

/-- The number of MRAM writes that the hold-up record of one SEQ reports as completed (R713): the
spec does not say which writes were in progress. Log entry 44. -/
opaque holdupWrites : BitVec 32 → BitVec 8

/-- A supply ramped outside its slew limits before a main start, by the number of that start (R711):
no row of the table brings it. Log entry 44. -/
opaque slewBad : Nat → Bool

/-- The content of SRAM partition `p` with `n` berths, links or messages fits into `pages` pages (R144, R149):
the spec gives no size of that content. Log entry 52. -/
opaque contentFits (p pages n : Nat) : Bool

/-- The mask generator's 256-bit state after `n` more blocks (R490 does not give its feedback). Log entry 58. -/
opaque maskRun (state : Bytes) (n : Nat) : Bytes

/-- The mask bits that the generator gives out in a state, for share `k` of a block (R490). Log entry 58. -/
opaque maskBits (state : Bytes) (k : Nat) : Bytes

/-- A persistent-record write was in progress when the hold-up that begins in this tick was detected (R506, R688):
no row of the table says so. Log entry 58. -/
opaque recordUnderWay (tick : Nat) : Bool

/-- The mask of key cell `cell` after `uses` uses of cells since main start number `start` (R479). Log entry 58. -/
opaque cellMask (start uses cell : Nat) : Bytes

/-- The key drawn at main start number `start` under which the addresses of key cells are scrambled (R479). Log
entry 58. -/
opaque scrambleKey (start : Nat) : BitVec 64

/-- The place of key cell `cell` under a scrambling key (R479 does not say how). Log entry 58. -/
opaque cellPlace (key : BitVec 64) (cell : Nat) : Nat

/-- The device storage key that is fused at test and that no master can read (R480). Log entry 58. -/
opaque storageKey : Bytes

/-- The encryption of a persistent key cell under the storage key, and its 32-bit check (R480 names neither
algorithm). Log entry 58. -/
opaque sealCell (storage key : Bytes) : Bytes × BitVec 32

end Sys2Proof.Config
end

