-- ==== Sys2Proof/Machine/State.lean ====
section
/-! DEFINITION. The state of one Idusk 7256: plain data, every register, buffer, queue, mode and
pin that the spec gives it, and the queue of commands that wait. One structure for each block of
the register index of chapter 17; every structure is followed by its value at reset. Fields whose
reset value the spec does not give are named in the log entries that INVENTORY.md cites. -/

namespace Sys2Proof.Machine

/-- Nothing in this model stops with a fault: the spec gives the block no fatal stop, and every
command has an effect in every state (log entry 2). The one constructor stands for the address
that no command can name; no meaning raises it. Safe. -/
inductive Fault where
  /-- Raised by nothing; safe. -/
  | noFault
deriving DecidableEq, Repr

/-- Why a command has no meaning. -/
inductive Refusal where
  /-- Raised by an arm of `exec` whose command has no meaning yet; safe. -/
  | notModelled (mnemonic : String)
deriving DecidableEq, Repr

/-- HOST.STATUS.MAIN (R667). -/
inductive MainState where
  | reset | starting | running
deriving DecidableEq, Repr

/-- HOST.STATUS.BULK: who holds the bulk window (R664). -/
inductive BulkHolder where
  | none | manifest | firmware
deriving DecidableEq, Repr

/-- Power states in rising order (R131). -/
inductive Power where
  | deep | standby | watch | service | drive
deriving DecidableEq, Repr

/-- Life-cycle states (R137). -/
inductive LifeCycle where
  | manufacture | provision | fleet | returned
deriving DecidableEq, Repr

/-- Role of a device under its manifest (R80). -/
inductive Role where
  | none | standalone | harbourmaster | tender
deriving DecidableEq, Repr

/-- Berth states (R30). -/
inductive BerthState where
  | free | sighted | hailed | moored | ranged | castOff
deriving DecidableEq, Repr

/-- Kinds of measurement that wait for a verdict (R313). -/
inductive MeasKind where
  | uwbDist | uwbAngle | lfFit | phaseRange
deriving DecidableEq, Repr

/-- OVR_STATUS.STATE (R346). -/
inductive OvrState where
  | idle | verifying | active
deriving DecidableEq, Repr

/-- MANIFEST.STATUS.STATE (R95). -/
inductive ImpState where
  | idle | loading | verifying | verified | writing | armed | refused
deriving DecidableEq, Repr

/-- REGISTER.STATUS.STATE (R386). -/
inductive RegState where
  | idle | loading | verifying | verified | staging | armed | refused
deriving DecidableEq, Repr

/-- What a waiting LF frame is (R196). -/
inductive LfKind where
  | wake | handle | challenge | poll | slotted | pollPattern
deriving DecidableEq, Repr

/-- State of the wake answers (R195). -/
inductive FbState where
  | window | slotted | round
deriving DecidableEq, Repr

/-- What an antenna does in a part of an LF frame (R180, R201): nothing, the carrier, the carrier in the phase of
a command bit, the carrier as it settles, the carrier with the sign of a Walsh row. -/
inductive LfLevel where
  | off | carrier | bit (b : Bool) | settle | walsh (plus : Bool)
deriving DecidableEq, Repr

/-- How far a UWB round has come (R242, R244). -/
inductive RoundPhase where
  | planned | prepared | ctrl | poll | final | air | ended | delivered
deriving DecidableEq, Repr

/-- State of a synthesiser (R225, R278). -/
inductive Pll where
  | off | locking | calibrating | locked | fail
deriving DecidableEq, Repr

/-- LOCKKEEPER.STATE.STATE (R430). -/
inductive LkState where
  | inactive | locked | requested | answered | released | running
deriving DecidableEq, Repr

/-- What the signing tree is signing (R505). -/
inductive SignWhat where
  | none | attest | checkpoint
deriving DecidableEq, Repr

/-- Who waits for random words (R522, R523). -/
inductive Requester where
  | berthNonce (n : Nat) | sidBase | ovrNonce | keysNonce | hostGenerate | hostReseed
  | genXmss | cardRa (n : Nat) | pierNh (n : Nat) | pierNt | lfSeed
deriving DecidableEq, Repr

/-- TRNG.STATUS.STATE (R518). -/
inductive TrngState where
  | starting | ready | reseeding | fatal
deriving DecidableEq, Repr

/-- NFC.STATUS.TAG (R540). -/
inductive TagState where
  | noField | field | pending0 | pending1 | secured0 | secured1
deriving DecidableEq, Repr

/-- State of a message object (R588). -/
inductive ObjState where
  | disabled | idle | pending | onAir | aground | nomem
deriving DecidableEq, Repr

/-- PIER[n].STATE.STATE (R606). -/
inductive LinkState where
  | disabled | down | training | active | slack | adrift
deriving DecidableEq, Repr

/-- PIER[n].STATE.ADMIT (R634 to R637). -/
inductive Admit where
  | none | enumerating | pushing | admitted | refused
deriving DecidableEq, Repr

/-- SYSTEM.FW_STATUS.STATE (R703). -/
inductive FwState where
  | idle | loading | verifying | verified | distributing | armed | handover | trial | refused
deriving DecidableEq, Repr

/-- A register whose written value takes force at the next boundary (R10). -/
structure Rwt (w : Nat) where
  /-- value in force -/
  force : BitVec w
  /-- value that was stored before the latest write -/
  prev : BitVec w
  /-- value last stored, which a read returns -/
  stored : BitVec w
  /-- tick of the latest write -/
  wroteAt : Nat
deriving DecidableEq, Repr

/-- The register that holds `v` throughout. -/
def Rwt.of {w : Nat} (v : BitVec w) : Rwt w :=
  { force := v, prev := v, stored := v, wroteAt := 0 }

/-- A group of output pins of R699. -/
inductive PinGroup where
  | hostData | hrdy | hirq | canTx (n : BitVec 3) | sten | lfDriver | radio | tagPort | pierTx | mfp
deriving DecidableEq, Repr

/-- What R699 says of a pin: high-impedance, left floating, driven recessive, in electrical idle, without emission,
field-powered, or as its block drives it. -/
inductive PinDrive where
  | highZ | floats | recessive | idle | quiet | fieldPowered | running
deriving DecidableEq, Repr

/-- What a job of the Keccak engine computes (R446, R497). -/
inductive KecWork where
  | other | derivation | page | manifest | delta | firmware | ticket | signing | tree
deriving DecidableEq, Repr


/-- The host port: R644 to R668, R746 (chapter 15) and the HOST registers it owns. -/
structure Port where
  /-- accesses are accepted (HCS_N sampled high since power-on reset) (R746) -/
  started : Bool
  /-- write latch: byte address of a register and its held low half (R655) -/
  latch : Option (BitVec 21 × BitVec 16)
  /-- read capture: register byte address and captured high half (R658) -/
  capture : Option (BitVec 21 × BitVec 16)
  /-- far access in progress (HRDY low), with the data of a read; none while HRDY is high (R650) -/
  far : Option (Option (BitVec 16))
  /-- data last presented on HD[15:0] by a read (R650) -/
  hd : BitVec 16
  /-- HOST.CLAMP_ADDR (R666) -/
  clampAddr : BitVec 21
  /-- HOST.CLAMP_INFO.COUNT (R666) -/
  clampCount : BitVec 16
  /-- HOST.CLAMP_INFO.KIND (R666) -/
  clampKind : BitVec 4
  /-- HOST.ERRORS.UNMAPPED (R661) -/
  errUnmapped : BitVec 8
  /-- HOST.ERRORS.ORPHAN (R657) -/
  errOrphan : BitVec 8
  /-- HOST.ERRORS.PROTOCOL (R645) -/
  errProtocol : BitVec 8
  /-- HOST.ERRORS.DROPPED (R667) -/
  errDropped : BitVec 8
  /-- HOST.SCRATCH (R682) -/
  scratch : BitVec 32
  /-- HOST.STATUS.MAIN (R667) -/
  main : MainState
  /-- HOST.STATUS.RESETS (R668) -/
  resets : BitVec 16
  /-- HOST.STATUS.BULK (R664) -/
  bulk : BulkHolder
  /-- bulk window writes waiting in the queue of 64 words (offset in the window, halfword) (R662) -/
  bulkQueue : List (Nat × BitVec 16)
  /-- staging SRAM behind the bulk window, by offset; unlisted bytes read 0 (R662) -/
  staging : Mem
  /-- core clock started for a far access in STANDBY or DEEP (R652) -/
  coreClk : Bool
  /-- tick of the latest far access (R652) -/
  lastFar : Nat
deriving DecidableEq, Repr

/-- `Port` as reset leaves it. -/
def Port.reset : Port where
  started := false
  latch := none
  capture := none
  far := none
  hd := 0#16
  clampAddr := 0#21
  clampCount := 0#16
  clampKind := 0#4
  errUnmapped := 0#8
  errOrphan := 0#8
  errProtocol := 0#8
  errDropped := 0#8
  scratch := 0#32
  main := .reset
  resets := 0#16
  bulk := .none
  bulkQueue := []
  staging := []
  coreClk := false
  lastFar := 0

/-- Interrupt controller, R669 to R682 and R745 (chapter 15): one bit per source. -/
structure Intc where
  /-- INTC.PENDING (R669) -/
  pending : BitVec 64
  /-- INTC.ENABLE_H (R670) -/
  enH : BitVec 64
  /-- INTC.ENABLE_A, set by firmware (R670) -/
  enA : BitVec 64
  /-- INTC.ENABLE_B, set by firmware (R670) -/
  enB : BitVec 64
  /-- pending sources assigned to the host, INTC.ASSIGNED_H (R671) -/
  asgH : BitVec 64
  /-- pending sources assigned to pair A (R671) -/
  asgA : BitVec 64
  /-- pending sources assigned to pair B (R671) -/
  asgB : BitVec 64
  /-- sources active at the host, INTC.ACTIVE_H (R674) -/
  actH : BitVec 64
  /-- sources active at pair A (R674) -/
  actA : BitVec 64
  /-- sources active at pair B (R674) -/
  actB : BitVec 64
  /-- sources whose previous delivery went to the host (R671) -/
  lastH : BitVec 64
  /-- sources whose previous delivery went to pair A (neither bit: pair B) (R671) -/
  lastA : BitVec 64
  /-- INTC.STRAY_COUNT.COUNT (R677) -/
  strayCount : BitVec 16
  /-- INTC.STRAY_COUNT.LAST_SOURCE (R677) -/
  straySource : BitVec 6
  /-- INTC.STRAY_COUNT.LAST_TARGET (R677) -/
  strayTarget : BitVec 2
  /-- CLAIM_H as last read: SOURCE and NONE (bit 15) (R674) -/
  claimed : BitVec 16
  /-- INTC.HIRQ_CFG.HIGH (R679) -/
  hirqHigh : Bool
  /-- INTC.HIRQ_CFG.PUSH_PULL (R679) -/
  hirqPushPull : Bool
deriving DecidableEq, Repr

/-- `Intc` as reset leaves it. -/
def Intc.reset : Intc where
  pending := 0#64
  enH := 0#64
  enA := 0#64
  enB := 0#64
  asgH := 0#64
  asgA := 0#64
  asgB := 0#64
  actH := 0#64
  actA := 0#64
  actB := 0#64
  lastH := 0#64
  lastA := 0#64
  strayCount := 0#16
  straySource := 0#6
  strayTarget := 0#2
  claimed := 0x8000#16
  hirqHigh := false
  hirqPushPull := false

/-- Tide unit: R117 to R159 (chapter 3). -/
structure Tide where
  /-- TIDE.NUMBER (R122) -/
  number : BitVec 32
  /-- TIDE.STATE.POWER (R131) -/
  power : Power
  /-- TIDE.STATE.LIFECYCLE (from the key store) (R137) -/
  life : LifeCycle
  /-- TIDE.STATE.LENGTH, length of the current tide in ms (R121) -/
  lengthMs : Nat
  /-- on a tender, the length last mirrored (R632) -/
  mirrorMs : Nat
  /-- a wake beacon has made a wake event that no EVENT has named yet (R633) -/
  beacon : Bool
  /-- own tick of the latest boundary (R121) -/
  startAt : Nat
  /-- TIDE.BOUNDARY: the stamp of the latest boundary, of the harbourmaster on a tender (R121) -/
  boundary : BitVec 48
  /-- TIDE.POWER_REQ (R159) -/
  powerReq : Rwt 3
  /-- TIDE.LENGTH_REQ (R121) -/
  lengthReq : Rwt 11
  /-- TIDE.WAKE_CAUSE.CAUSE (R126) -/
  wakeCause : BitVec 9
  /-- TIDE.WAKE_CAUSE.FIRST (R126) -/
  wakeFirst : BitVec 4
  /-- tick and bit of the first wake event of this tide, which makes a wake boundary (R124) -/
  firstWake : Option (Nat × BitVec 4)
  /-- the later wake events of this tide, tick and bit, acted on in the next (R126) -/
  wakeWaiting : List (Nat × BitVec 4)
  /-- own ticks of the latest 16 boundaries, newest first, by which a stamp is counted and its tide found (R17) (R53) -/
  starts : List Nat
  /-- tick from which the park clock counts (R135) -/
  parkStart : Nat
  /-- the device was in SERVICE or DRIVE since it last entered STANDBY (R135) -/
  parkArmed : Bool
  /-- tick of the last qualifying event of the dwell of the present state (R133) -/
  dwellFrom : Nat
  /-- POWER_REQ was written in the tick of a boundary that is due: its wake is judged in the new tide (R159) -/
  reqDue : Bool
  /-- the dwell has expired; the next boundary acts on it (R133) -/
  dwellOut : Bool
  /-- lock keeper's report "engine running" waits for its boundary (R438) -/
  engineRunning : Bool
  /-- lock keeper's report "ignition off" waits for its boundary (R438) -/
  ignitionOff : Bool
  /-- life-cycle step armed for the next boundary (R137) -/
  lifeNext : Option LifeCycle
  /-- tick of the latest LF polling pattern (R152) -/
  lfPollAt : Nat
  /-- period in ms fixed at the latest poll of this stay in STANDBY, 0 before one (R153) -/
  lfPer : Nat
  /-- tick of the latest advertising burst or event (R151) -/
  burstAt : Nat
  /-- ticks for which the timebase has stood still in STANDBY (R571) -/
  tbOff : Nat
  /-- tick of the latest UHF sniff (R140) -/
  sniffAt : Nat
deriving DecidableEq, Repr

/-- `Tide` as reset leaves it. -/
def Tide.reset : Tide where
  number := 0#32
  power := .standby
  life := .manufacture
  lengthMs := 1024
  mirrorMs := 1024
  beacon := false
  startAt := 0
  boundary := 0#48
  powerReq := Rwt.of 0#3
  lengthReq := Rwt.of 0#11
  wakeCause := 0#9
  wakeFirst := 0#4
  firstWake := none
  wakeWaiting := []
  starts := []
  parkStart := 0
  parkArmed := false
  dwellFrom := 0
  reqDue := false
  dwellOut := false
  engineRunning := false
  ignitionOff := false
  lifeNext := none
  lfPollAt := 0
  lfPer := 0
  burstAt := 0
  tbOff := 0
  sniffAt := 0

/-- One measurement of a berth that waits for the fusion of R313. -/
structure Meas where
  /-- which measurement it is (R313) -/
  kind : MeasKind
  /-- measuring anchor (R313) -/
  anchor : Nat
  /-- tide to which the measurement belongs (R313) -/
  tide : BitVec 32
  /-- distance or phase range in mm; azimuth in 0.1 degree; x of the LF fit (R313) -/
  val : Int
  /-- elevation in 0.1 degree; spread in mm; y of the LF fit (R313) -/
  val2 : Int
  /-- z of the LF fit; number of chains of a phase range (R313) -/
  val3 : Int
  /-- residual of the LF fit in 0.1 dB (R313) -/
  aux : Nat
  /-- strong antennas of the LF fit (R207) -/
  strong : Nat
  /-- a DS result (R254) -/
  ds : Bool
  /-- NLOS mark (R258) -/
  nlos : Bool
  /-- the measurement carries a value (LF fit: a position) (R206) -/
  valid : Bool
deriving DecidableEq, Repr

/-- `Meas` as reset leaves it. -/
def Meas.reset : Meas where
  kind := .uwbDist
  anchor := 0
  tide := 0#32
  val := 0
  val2 := 0
  val3 := 0
  aux := 0
  strong := 0
  ds := false
  nlos := false
  valid := false

/-- The identity part of a berth: R30, R38, R63. -/
structure BerthId where
  /-- BERTH[n].STATE.STATE (R30) -/
  st : BerthState
  /-- BERTH[n].STATE.KIND (R63) -/
  kind : BitVec 3
  /-- BERTH[n].STATE.ANCHOR (R63) -/
  anchor : BitVec 6
  /-- BERTH[n].STATE.CAUSE (R38) -/
  cause : BitVec 8
  /-- BERTH[n].CRED (R63) -/
  cred : BitVec 64
  /-- BERTH[n].MEMBER.RIGHTS (R63) -/
  rights : BitVec 16
  /-- BERTH[n].MEMBER.STATUS (R63) -/
  status : BitVec 8
  /-- BERTH[n].MEMBER.GEN (R63) -/
  gen : BitVec 8
  /-- BERTH[n].SIGHT_TIDE (R63) -/
  sightTide : BitVec 32
  /-- BERTH[n].T_MOOR (R63) -/
  tMoor : BitVec 48
  /-- tick of the entry into SIGHTED, from which the hail timeout runs (R31) -/
  sightAt : Nat
  /-- timestamp of the sighting (R26) -/
  sightStamp : Nat
  /-- tick from which the quiet timeout runs (R34) -/
  quietFrom : Nat
  /-- tick since which the zone is FAR (R34) -/
  farFrom : Option Nat
  /-- order in which berths moored (R248) -/
  moorSeq : Nat
deriving DecidableEq, Repr

/-- `BerthId` as reset leaves it. -/
def BerthId.reset : BerthId where
  st := .free
  kind := 0#3
  anchor := 0#6
  cause := 0#8
  cred := 0#64
  rights := 0#16
  status := 0#8
  gen := 0#8
  sightTide := 0#32
  tMoor := 0#48
  sightAt := 0
  sightStamp := 0
  quietFrom := 0
  farFrom := none
  moorSeq := 0

/-- One accepted fob button command (R339). -/
structure FobCmd where
  /-- COMMAND (R339) -/
  cmd : BitVec 4
  /-- tide in which it was accepted (R339) -/
  tide : BitVec 32
  /-- rules whose action it has performed (R339) -/
  done : List (BitVec 8)
  /-- a publication has evaluated it (R339) -/
  tried : Bool
deriving DecidableEq, Repr

/-- `FobCmd` as reset leaves it. -/
def FobCmd.reset : FobCmd where
  cmd := 0#4
  tide := 0#32
  done := []
  tried := false

/-- Session part of a berth: keys, nonce, link and ranging session. -/
structure BerthSess where
  /-- access token of a phone (R284) -/
  token : BitVec 64
  /-- CAPS of the HELLO frame (R289) -/
  caps : BitVec 8
  /-- T_K in µs (R242) -/
  tk : Nat
  /-- challenge nonce (5 bytes LF, 16 bytes BLE and NFC) (R189) -/
  nonce : Bytes
  /-- a challenge nonce waits for the random number generator (R523) -/
  nonceDue : Bool
  /-- HAIL_TAG (R189) -/
  hailTag : BitVec 16
  /-- working copy of the member key (class S) (R449) -/
  memberKey : Bytes
  /-- member authentication key, fob key or card key (R449) -/
  authKey : Bytes
  /-- generation of the fleet root the keys descend from (R452) -/
  parentGen : BitVec 8
  /-- its keys wait for the random number generator's first delivery (R481) -/
  keyDue : Bool
  /-- session identifier offset k (identifier SID_BASE + k) (R234) -/
  sid : Option Nat
  /-- a SESSION frame has been queued (R289) -/
  sessionSent : Bool
  /-- a READY has verified (R292) -/
  readyOk : Bool
  /-- rounds pause because ROUND_INDEX is used up (R239) -/
  paused : Bool
  /-- N of the session (R241) -/
  nResp : Nat
  /-- link-layer encryption started (R288) -/
  encrypted : Bool
  /-- the challenge has been sent (R30) -/
  challengeSent : Bool
  /-- tick of that telegram (R190) -/
  keptAt : Nat
  /-- command and counter of a telegram kept until the berth is MOORED (R190) -/
  kept : Option (BitVec 4 × BitVec 32)
  /-- accepted fob commands that wait for their rules (R339) -/
  commands : List FobCmd
  /-- counter of the telegram or response (R190) -/
  counter : BitVec 32
  /-- berth opened by a button telegram awaiting its challenge (R190) -/
  fromButton : Bool
  /-- moored by an accepted button telegram, whose COUNTER is its session nonce (R448) -/
  byTelegram : Bool
  /-- CID of the card of an NFC reader berth (R534) -/
  cid : Option (BitVec 4)
  /-- reader or phone nonce RA (R531) -/
  ra : Bytes
  /-- card nonce RB (R531) -/
  rb : Bytes
deriving DecidableEq, Repr

/-- `BerthSess` as reset leaves it. -/
def BerthSess.reset : BerthSess where
  token := 0#64
  caps := 0#8
  tk := 150
  nonce := []
  nonceDue := false
  hailTag := 0#16
  memberKey := []
  authKey := []
  parentGen := 0#8
  keyDue := false
  sid := none
  sessionSent := false
  readyOk := false
  paused := false
  nResp := 0
  encrypted := false
  challengeSent := false
  keptAt := 0
  kept := none
  commands := []
  counter := 0#32
  fromButton := false
  byTelegram := false
  cid := none
  ra := []
  rb := []

/-- LF part of a berth. -/
structure BerthLf where
  /-- antennas of the pattern that reached the fob (R189) -/
  mask : BitVec 16
  /-- expected poll count (R184) -/
  pollCount : BitVec 16
  /-- polls addressed to the key since its latest challenge (R183) -/
  pollsSent : BitVec 16
  /-- tick of the fob's last addressed frame (R203) -/
  lastAddressed : Nat
  /-- tick of the latest poll (R199) -/
  polledAt : Nat
  /-- a poll has been sent (R199) -/
  polled : Bool
  /-- tide of the latest poll (R313) -/
  pollTide : BitVec 32
  /-- a poll's report is awaited (R184) -/
  awaiting : Bool
  /-- consecutive polls whose report stayed away (R331) -/
  missed : Nat
  /-- antennas in the order of the latest poll (R200) -/
  order : List Nat
  /-- chart antennas of the latest poll, each with its driver's sensed current in mA, 0 without a regulated current (R205) -/
  sensed : List (Nat × Nat)
  /-- latest accepted report: chart antenna and its 3 field bytes (R205) -/
  report : List (Nat × Bytes)
  /-- the four strongest antennas of the previous report (R202) -/
  best : List Nat
deriving DecidableEq, Repr

/-- `BerthLf` as reset leaves it. -/
def BerthLf.reset : BerthLf where
  mask := 0#16
  pollCount := 0#16
  pollsSent := 0#16
  lastAddressed := 0
  polledAt := 0
  polled := false
  pollTide := 0#32
  awaiting := false
  missed := 0
  order := []
  sensed := []
  report := []
  best := []

/-- The verdict detail set of R352. -/
structure VView where
  /-- VPOS_XY.X (R352) -/
  x : BitVec 16
  /-- VPOS_XY.Y (R352) -/
  y : BitVec 16
  /-- VPOS_Z.Z (R352) -/
  z : BitVec 16
  /-- VPOS_Z.SIGMA (R352) -/
  sigma : BitVec 16
  /-- VDETAIL.SUPPORT (R352) -/
  support : BitVec 3
  /-- VDETAIL.STREAK (R352) -/
  streak : BitVec 4
  /-- VDETAIL.HANDLE (R352) -/
  handle : BitVec 5
  /-- VDETAIL.MARGIN (R352) -/
  margin : BitVec 16
deriving DecidableEq, Repr

/-- `VView` as reset leaves it. -/
def VView.reset : VView where
  x := 0x8000#16
  y := 0x8000#16
  z := 0x8000#16
  sigma := 0xFFFF#16
  support := 0#3
  streak := 0#4
  handle := 0x1F#5
  margin := 0xFFFF#16

/-- Fusion part of a berth: R311 to R334. -/
structure BerthFuse where
  /-- BERTH[n].VERDICT.ZONE (R63) -/
  zone : BitVec 3
  /-- BERTH[n].VERDICT.CONF (R63) -/
  conf : BitVec 2
  /-- BERTH[n].VERDICT.RELAY (R63) -/
  relay : BitVec 8
  /-- BERTH[n].VERDICT.AGE (R63) -/
  age : BitVec 8
  /-- a boundary that AGE has not counted yet, until publication (R316) -/
  ageDue : Bool
  /-- BERTH[n].VTIDE (R63) -/
  vtide : BitVec 32
  /-- BERTH[n].POSITION.RANGE (R63) -/
  range : BitVec 16
  /-- BERTH[n].POSITION.AZ (R63) -/
  az : BitVec 9
  /-- verdict details that VSEL copies (R352) -/
  view : VView
  /-- streak (R328) -/
  streak : Nat
  /-- positions of the latest verdicts, newest first, at most 4 (R328) -/
  history : List (Rat × Rat × Rat)
  /-- per relay flag, verdicts for which it stays raised (R333) -/
  held : List Nat
  /-- measurements held for the window (R313) -/
  meas : List Meas
  /-- a measurement has reached the engine since the previous boundary (R315) -/
  fresh : Bool
  /-- RULE_IDs the berth met at its latest verdict (R44) -/
  met : List (BitVec 8)
  /-- the first verdict of an NFC berth is still to come (R340) -/
  nfcFirst : Bool
  /-- anchors by first-path strength in the previous round (R245) -/
  responders : List Nat
  /-- tick of the berth's last round (R248) -/
  roundAt : Option Nat
  /-- tide for which the latest round was planned (D3) -/
  roundTide : Option (BitVec 32)
deriving DecidableEq, Repr

/-- `BerthFuse` as reset leaves it. -/
def BerthFuse.reset : BerthFuse where
  zone := 6#3
  conf := 0#2
  relay := 0#8
  age := 255#8
  ageDue := false
  vtide := 0#32
  range := 0xFFFF#16
  az := 0x1FF#9
  view := VView.reset
  streak := 0
  history := []
  held := []
  meas := []
  fresh := false
  met := []
  nfcFirst := true
  responders := []
  roundAt := none
  roundTide := none

/-- One berth of the berth table (R23 to R64), in four parts. -/
structure Berth where
  /-- identity part (R30) -/
  id : BerthId
  /-- session part (R449) -/
  se : BerthSess
  /-- LF part (R199) -/
  lf : BerthLf
  /-- fusion part (R328) -/
  fu : BerthFuse
deriving DecidableEq, Repr

/-- `Berth` as reset leaves it. -/
def Berth.reset : Berth where
  id := BerthId.reset
  se := BerthSess.reset
  lf := BerthLf.reset
  fu := BerthFuse.reset

/-- Berth table and start request: R23 to R64. -/
structure BerthTable where
  /-- the 256 berths (R23) -/
  berths : List Berth
  /-- BERTH.FULL_COUNT (R28) -/
  full : BitVec 16
  /-- BOOKING_LO last stored (R64) -/
  bookLo : BitVec 32
  /-- BOOKING_HI last stored (R64) -/
  bookHi : BitVec 32
  /-- the waiting BOOKING_HI write had no fresh BOOKING_LO (R64) -/
  bookNoLo : Bool
  /-- BOOKING_LO written since the previous BOOKING_HI write (R64) -/
  bookLoFresh : Bool
  /-- the booking in force and the 64-bit value armed for the boundary (R64) -/
  booking : Rwt 64
  /-- BERTH.START.WINNER (R55) -/
  winner : BitVec 8
  /-- BERTH.START.RESULT (R64) -/
  result : BitVec 3
  /-- BERTH.START.REASON (R64) -/
  reason : BitVec 4
  /-- pending start request: boundaries still to be tried (R57) -/
  startLeft : Option Nat
  /-- a start request waits for the publication of this boundary's verdicts (R317) -/
  startWait : Bool
  /-- a start request waits as the trigger of rules at the next publication (R341) -/
  startTrig : Bool
  /-- start-button inputs in debounce: pin and tick of the edge (R53) -/
  debounce : List (BitVec 5 × Nat)
  /-- SID_BASE, none until it is drawn (R234) -/
  sidBase : Option (BitVec 32)
  /-- tick of the latest failed draw of SID_BASE (R523) -/
  sidTryAt : Nat
  /-- identifiers SID_BASE + k not yet issued start at this k (R234) -/
  poolFresh : Nat
  /-- released identifiers in order, with their release tide (R234) -/
  poolBack : List (Nat × BitVec 32)
  /-- next ROUND_INDEX per identifier; 0 when unlisted (R236) -/
  roundIdx : List (Nat × BitVec 28)
  /-- how many berths have moored (R248) -/
  moorCount : Nat
  /-- tokens and fob identifiers sighted in the current tide (R26) -/
  sightings : List (BitVec 64 × BitVec 32)
deriving DecidableEq, Repr

/-- `BerthTable` as reset leaves it. -/
def BerthTable.reset : BerthTable where
  berths := List.replicate 256 Berth.reset
  full := 0#16
  bookLo := 0#32
  bookHi := 0#32
  bookNoLo := false
  bookLoFresh := false
  booking := Rwt.of 0#64
  winner := 0#8
  result := 0#3
  reason := 0#4
  startLeft := none
  startWait := false
  startTrig := false
  debounce := []
  sidBase := none
  sidTryAt := 0
  poolFresh := 0
  poolBack := []
  roundIdx := []
  moorCount := 0
  sightings := []

/-- One verdict computed at a boundary and not yet published (R316). -/
structure VerdictOut where
  /-- berth (R316) -/
  berth : Nat
  /-- zone (R328) -/
  zone : BitVec 3
  /-- class (R330) -/
  conf : BitVec 2
  /-- flags raised (R331) -/
  relay : BitVec 8
  /-- RANGE (R326) -/
  range : BitVec 16
  /-- AZ (R326) -/
  az : BitVec 9
  /-- details (R352) -/
  view : VView
  /-- streak (R328) -/
  streak : Nat
  /-- position history (R328) -/
  history : List (Rat × Rat × Rat)
  /-- flag hold counters (R333) -/
  held : List Nat
deriving DecidableEq, Repr

/-- `VerdictOut` as reset leaves it. -/
def VerdictOut.reset : VerdictOut where
  berth := 0
  zone := 6#3
  conf := 0#2
  relay := 0#8
  range := 0xFFFF#16
  az := 0x1FF#9
  view := VView.reset
  streak := 0
  history := []
  held := []

/-- Proximity verdict engine and override tickets: R311 to R352. -/
structure Verdict where
  /-- BERTH.VINFO.ISSUED (R352) -/
  issued : BitVec 9
  /-- BERTH.VINFO.PUBLISH (R316) -/
  publish : BitVec 10
  /-- BERTH.RELAY_SEEN.SEEN (R352) -/
  seen : BitVec 8
  /-- BERTH.RELAY_SEEN.FLAGGED (R352) -/
  flagged : BitVec 16
  /-- BERTH.VSEL (R352) -/
  vsel : BitVec 8
  /-- VPOS_XY, VPOS_Z and VDETAIL as copied (R352) -/
  view : VView
  /-- verdicts issued and not yet published (R316) -/
  out : List VerdictOut
  /-- boundary whose verdicts wait for publication (R316) -/
  outAt : Option Nat
  /-- tide that began at the latest commit of a changed CHART, while measurements of earlier tides are left out (R109) -/
  chartTide : Option (BitVec 32)
  /-- OVR_STATUS.STATE (R346) -/
  ovrState : OvrState
  /-- state before VERIFY (R346) -/
  ovrPrev : OvrState
  /-- OVR_STATUS.RESULT (R346) -/
  ovrResult : BitVec 4
  /-- OVR_STATUS.USES (R346) -/
  ovrUses : BitVec 5
  /-- timebase tick at which the window ends (R346) -/
  ovrEnd : Nat
  /-- GRANT of the active ticket (R344) -/
  ovrGrant : BitVec 8
  /-- RULES of the active ticket (R344) -/
  ovrRules : List (BitVec 8)
  /-- SERIAL of the active ticket (R344) -/
  ovrTicket : BitVec 32
  /-- OVR_SERIAL, in MRAM (R349) -/
  ovrSerial : BitVec 32
  /-- OVR_NONCE (R346) -/
  ovrNonce : BitVec 64
  /-- timebase tick at which the nonce was drawn (R344) -/
  ovrNonceAt : Nat
  /-- OVR_BUF, 3 KiB (R344) -/
  ovrBuf : Mem
  /-- tick of VERIFY (R347) -/
  ovrAt : Nat
deriving DecidableEq, Repr

/-- `Verdict` as reset leaves it. -/
def Verdict.reset : Verdict where
  issued := 0#9
  publish := 0#10
  seen := 0#8
  flagged := 0#16
  vsel := 0#8
  view := VView.reset
  out := []
  outAt := none
  chartTide := none
  ovrState := .idle
  ovrPrev := .idle
  ovrResult := 0#4
  ovrUses := 0#5
  ovrEnd := 0
  ovrGrant := 0#8
  ovrRules := []
  ovrTicket := 0#32
  ovrSerial := 0#32
  ovrNonce := 0#64
  ovrNonceAt := 0
  ovrBuf := []
  ovrAt := 0

/-- One PINS entry (chapter 2). -/
structure PinCfg where
  /-- FUNC (R82) -/
  func : BitVec 8
  /-- FLAGS (R82) -/
  flags : BitVec 8
  /-- PARAM (R78) -/
  param : BitVec 16
deriving DecidableEq, Repr

/-- `PinCfg` as reset leaves it. -/
def PinCfg.reset : PinCfg where
  func := 0#8
  flags := 0#8
  param := 0#16

/-- What the vehicle image says of one anchor, used when this device plans the vehicle. -/
structure AnchorCfg where
  /-- the anchor is part of the image (R74) -/
  present : Bool
  /-- LF_ENABLE (R178) -/
  lfEnable : BitVec 16
  /-- LF_MAX_ACTIVE (R161) -/
  lfMax : Nat
  /-- UWB_CHAINS (R216) -/
  uwbChains : BitVec 8
  /-- receive chains routed to sink 0, the ranging engine (R214) -/
  rng : BitVec 4
  /-- receive chains routed to sink 1, the angle-of-arrival engine (R246) -/
  aoa : BitVec 4
  /-- receive chains routed to sink 2, CIR capture (R262) -/
  cir : BitVec 4
  /-- a BLE chain is routed to sink 4 (R283) -/
  sink4 : Bool
  /-- a UHF chain is routed to sink 5 (R331) -/
  sink5 : Bool
  /-- UHF chains routed to sink 5 (R331) -/
  uhf : BitVec 2
  /-- sources routed to sink 6, the result export (R85) -/
  outs : BitVec 10
  /-- X, Y, Z in the chart frame, mm (R266) -/
  pos : Int × Int × Int
  /-- YAW, PITCH, ROLL in 0.1 degree (R266) -/
  rot : Int × Int × Int
  /-- TX_DELAY (R233) -/
  txDelay : Nat
  /-- RX_DELAY (R233) -/
  rxDelay : Nat
  /-- TX_CHAIN (R216) -/
  txChain : Nat
  /-- FLAGS of the chart anchor entry (R268) -/
  uwbFlags : BitVec 8
  /-- PINS of the anchor (R82) -/
  pins : List PinCfg
  /-- NFC PORTS of the anchor (R553) -/
  nfcPorts : BitVec 8
deriving DecidableEq, Repr

/-- `AnchorCfg` as reset leaves it. -/
def AnchorCfg.reset : AnchorCfg where
  present := false
  lfEnable := 0xFFFF#16
  lfMax := 4
  uwbChains := 0x3F#8
  rng := 0#4
  aoa := 0#4
  cir := 0#4
  sink4 := false
  sink5 := false
  uhf := 0#2
  outs := 0#10
  pos := (0, 0, 0)
  rot := (0, 0, 0)
  txDelay := 0
  rxDelay := 0
  txChain := 0
  uwbFlags := 0#8
  pins := []
  nfcPorts := 0#8

/-- One rule of the POLICY section. -/
structure Rule where
  /-- RULE_ID (R78) -/
  id : BitVec 8
  /-- TRIGGER (R336) -/
  trigger : BitVec 8
  /-- ZONES (R336) -/
  zones : BitVec 8
  /-- MIN_CONF (R336) -/
  minConf : BitVec 8
  /-- RELAY_VETO (R336) -/
  veto : BitVec 8
  /-- ACTION (R336) -/
  action : BitVec 8
  /-- TARGET (R90) -/
  target : BitVec 16
  /-- its 8 bytes as the image holds them (R107) -/
  raw : Bytes
deriving DecidableEq, Repr

/-- `Rule` as reset leaves it. -/
def Rule.reset : Rule where
  id := 0#8
  trigger := 0#8
  zones := 0#8
  minConf := 0#8
  veto := 0#8
  action := 0#8
  target := 0#16
  raw := []

/-- One chart antenna of R175 with its field map. -/
structure AntCfg where
  /-- ANCHOR (R175) -/
  anchor : Nat
  /-- DRIVER (R175) -/
  driver : Nat
  /-- ITARGET in mA (R175) -/
  itarget : Nat
  /-- map corner in mm (R175) -/
  box : Int × Int × Int
  /-- NX, NY, NZ (R175) -/
  grid : Nat × Nat × Nat
  /-- field bytes of the map, 3 a point (R179) -/
  map : Bytes
deriving DecidableEq, Repr

/-- `AntCfg` as reset leaves it. -/
def AntCfg.reset : AntCfg where
  anchor := 0
  driver := 0
  itarget := 0
  box := (0, 0, 0)
  grid := (0, 0, 0)
  map := []

/-- One handle zone: LF mask of R174 and geometry of R319. -/
structure HandleCfg where
  /-- MASK (R174) -/
  mask : BitVec 16
  /-- handle point in mm (R319) -/
  pos : Int × Int × Int
  /-- RULE_A (R337) -/
  ruleA : BitVec 8
  /-- RULE_B (R337) -/
  ruleB : BitVec 8
deriving DecidableEq, Repr

/-- `HandleCfg` as reset leaves it. -/
def HandleCfg.reset : HandleCfg where
  mask := 0#16
  pos := (0, 0, 0)
  ruleA := 0#8
  ruleB := 0#8

/-- The chart in force: R93, R174 to R179, R266, R319. -/
structure Chart where
  /-- GRID_MM (R179) -/
  gridMm : Nat
  /-- REF_MA (R174) -/
  refMa : Nat
  /-- POLL_MASK (R174) -/
  pollMask : BitVec 16
  /-- antennas in order (R175) -/
  antennas : List AntCfg
  /-- handles in order (R174) -/
  handles : List HandleCfg
  /-- body outline (R319) -/
  body : List (Int × Int)
  /-- cabin polygon (R319) -/
  cabin : List (Int × Int)
  /-- CABIN_ZMIN and CABIN_ZMAX (R319) -/
  cabinZ : Int × Int
  /-- APPROACH_MM (R319) -/
  approach : Nat
  /-- DOORSIDE_MM (R319) -/
  doorside : Nat
  /-- LF_GOOD (R319) -/
  lfGood : Nat
  /-- LF_BAD (R319) -/
  lfBad : Nat
  /-- PHASE_TOL_MM (R319) -/
  phaseTol : Nat
  /-- seat box: XMIN, XMAX, YMIN, YMAX, ZMIN, ZMAX (R319) -/
  seat : List Int
  /-- boot box; empty when there is no BOOT zone (R319) -/
  boot : List Int
  /-- kind 4 entries: 12 element coordinates, 4 PHASE5 and 4 PHASE9 for each anchor (R267) -/
  phase : List (List Int)
deriving DecidableEq, Repr

/-- `Chart` as reset leaves it. -/
def Chart.reset : Chart where
  gridMm := 100
  refMa := 1000
  pollMask := 0#16
  antennas := []
  handles := []
  body := []
  cabin := []
  cabinZ := (0, 0)
  approach := 6000
  doorside := 1500
  lfGood := 40
  lfBad := 60
  phaseTol := 600
  seat := []
  boot := []
  phase := []

/-- One CAN section entry. -/
structure CanCfg where
  /-- OWNER (R94) -/
  owner : BitVec 8
  /-- RETRY (R590) -/
  retry : Nat
  /-- NOMINAL in kbit/s (R563) -/
  nominal : Nat
  /-- DATA in kbit/s, 0 for classical CAN only (R563) -/
  data : Nat
  /-- SAMPLE (R564) -/
  sample : Nat
  /-- triple sampling (R568) -/
  triple : Bool
deriving DecidableEq, Repr

/-- `CanCfg` as reset leaves it. -/
def CanCfg.reset : CanCfg where
  owner := 0#8
  retry := 16
  nominal := 500
  data := 2000
  sample := 800
  triple := false

/-- The LOCK section. -/
structure LockCfg where
  /-- TICKET_S (R426) -/
  ticketS : Nat
  /-- ID_REQUEST (R418) -/
  idRequest : BitVec 32
  /-- ID_CHALLENGE (R418) -/
  idChallenge : BitVec 32
  /-- ID_ANSWER (R418) -/
  idAnswer : BitVec 32
  /-- ID_STATUS (R418) -/
  idStatus : BitVec 32
deriving DecidableEq, Repr

/-- `LockCfg` as reset leaves it. -/
def LockCfg.reset : LockCfg where
  ticketS := 30
  idRequest := 0#32
  idChallenge := 0#32
  idAnswer := 0#32
  idStatus := 0#32

/-- The RADIO section of this device's anchor. -/
structure RadioCfg where
  /-- UWB_CHANNEL (R212) -/
  uwbChannel : Nat
  /-- UWB_CHAINS (R216) -/
  uwbChains : BitVec 8
  /-- BLE_TX_MAX (R305) -/
  bleTxMax : Nat
  /-- UHF_BANDS (R294) -/
  uhfBands : BitVec 8
  /-- LF_ENABLE (R166) -/
  lfEnable : BitVec 16
  /-- LF_FREQ (R160) -/
  lfFreq : Nat
  /-- LF_MAX_ACTIVE (R161) -/
  lfMax : Nat
deriving DecidableEq, Repr

/-- `RadioCfg` as reset leaves it. -/
def RadioCfg.reset : RadioCfg where
  uwbChannel := 9
  uwbChains := 0x3F#8
  bleTxMax := 60
  uhfBands := 0x05#8
  lfEnable := 0xFFFF#16
  lfFreq := 12500
  lfMax := 4

/-- The manifest settings in force for this device (chapter 2), clamped under R78. Reset: no manifest (R70), every field at its section's default. -/
structure Settings where
  /-- a manifest is in force (R70) -/
  loaded : Bool
  /-- ROLE (R80) -/
  role : Role
  /-- own anchor number (R81) -/
  anchor : Nat
  /-- LINK_MASK (R603) -/
  linkMask : BitVec 32
  /-- SERIAL of the image (R71) -/
  serial : BitVec 32
  /-- VEHICLE_CLASS (R362) -/
  vclass : BitVec 16
  /-- TENDERS (R71) -/
  tenders : Nat
  /-- LIFECYCLE byte (R138) -/
  lifeMask : BitVec 8
  /-- MIN_FW (R701) -/
  minFw : BitVec 16
  /-- FLEET_ID of the header (R282) -/
  fleetId : BitVec 64
  /-- PINS of this anchor, MFP0 first (R82) -/
  pins : List PinCfg
  /-- RADIO (R216) -/
  radio : RadioCfg
  /-- ROUTE is present (R86) -/
  routeGiven : Bool
  /-- ROUTE entries: source and sinks (R85) -/
  route : List (Nat × BitVec 8)
  /-- MEMORY pages of partitions 0 to 6 (R87) -/
  pages : List Nat
  /-- TIDE_STANDBY, WATCH, SERVICE, DRIVE (R121) -/
  tideMs : List Nat
  /-- LF_POLL (R152) -/
  lfPoll : Bool
  /-- TIMER_OWNER 0 to 15 (R129) -/
  owners : List (BitVec 4)
  /-- berths in use; 0 without a manifest (R70) (R23) -/
  count : Nat
  /-- HAIL_MS (R34) -/
  hailMs : Nat
  /-- QUIET_S (R34) -/
  quietS : Nat
  /-- RANGING (R248) -/
  ranging : Nat
  /-- FAR_S (R34) -/
  farS : Nat
  /-- POLICY rules in ascending RULE_ID (R336) -/
  rules : List Rule
  /-- CHART (R93) -/
  chart : Chart
  /-- CAN section, controllers 0 to 7 (R111) -/
  can : List CanCfg
  /-- LOCK section of the image (R110) -/
  lock : LockCfg
  /-- NFC PORTS (R540) -/
  nfcPorts : BitVec 8
  /-- READER_ZONE (R49) -/
  readerZone : BitVec 3
  /-- READER_CONF (R49) -/
  readerConf : BitVec 2
  /-- TAG_ZONE (R49) -/
  tagZone : BitVec 3
  /-- TAG_CONF (R49) -/
  tagConf : BitVec 2
  /-- what the image says of every anchor (R75) -/
  anchors : List AnchorCfg
  /-- bytes of the CHART section (R109) -/
  chartRaw : Bytes
deriving DecidableEq, Repr

/-- `Settings` as reset leaves it. -/
def Settings.reset : Settings where
  loaded := false
  role := .none
  anchor := 0
  linkMask := 0#32
  serial := 0#32
  vclass := 0#16
  tenders := 0
  lifeMask := 0#8
  minFw := 0#16
  fleetId := 0#64
  pins := []
  radio := RadioCfg.reset
  routeGiven := false
  route := []
  pages := [128, 256, 64, 64, 256, 16, 64]
  tideMs := [1024, 64, 16, 16]
  lfPoll := false
  owners := []
  count := 0
  hailMs := 150
  quietS := 3
  ranging := 32
  farS := 30
  rules := []
  chart := Chart.reset
  can := []
  lock := LockCfg.reset
  nfcPorts := 0x07#8
  readerZone := 2#3
  readerConf := 2#2
  tagZone := 4#3
  tagConf := 3#2
  anchors := []
  chartRaw := []

/-- One manifest or firmware bank in MRAM. -/
structure Bank where
  /-- not marked invalid (R67) -/
  valid : Bool
  /-- image bytes by offset (R65) -/
  image : Mem
  /-- image length (R71) -/
  len : Nat
  /-- binding tag (R66) -/
  tag : Bytes
deriving DecidableEq, Repr

/-- `Bank` as reset leaves it. -/
def Bank.reset : Bank where
  valid := false
  image := []
  len := 0
  tag := []

/-- One copy of the manifest bank record (R65). -/
structure MfRecord where
  /-- sequence number (R65) -/
  seq : Nat
  /-- active bank (R65) -/
  active : BitVec 1
  /-- active serial (R65) -/
  serial : BitVec 32
  /-- fallback serial (R103) -/
  fallback : BitVec 32
  /-- the copy's CRC-32C is valid (R65) -/
  crcOk : Bool
deriving DecidableEq, Repr

/-- `MfRecord` as reset leaves it. -/
def MfRecord.reset : MfRecord where
  seq := 0
  active := 0#1
  serial := 0#32
  fallback := 0#32
  crcOk := true

/-- MANIFEST block: R65 to R116 and R748 to R752 (chapter 2). -/
structure Manifest where
  /-- STATUS.STATE (R95) -/
  state : ImpState
  /-- STATUS.BLOCK_RESULT (R95) -/
  blockResult : BitVec 2
  /-- STATUS.DEFERRED (R110) -/
  deferred : Bool
  /-- STATUS.LATE (R98) -/
  late : Bool
  /-- STATUS.RESULT (R95) -/
  result : BitVec 4
  /-- STATUS.DETAIL (R748) -/
  detail : BitVec 8
  /-- LOAD_LEN (R95) -/
  loadLen : BitVec 20
  /-- length taken at OPEN (R95) -/
  len : Nat
  /-- BLOCK (R95) -/
  block : BitVec 7
  /-- block map: blocks that passed (R95) -/
  good : List Nat
  /-- tick of VERIFY or COMMIT (R97) -/
  verifyAt : Nat
  /-- COMMIT_TIDE (R98) -/
  commitTide : BitVec 32
  /-- commit tide chosen at ARMED (R98) -/
  armed : BitVec 32
  /-- STAGED_SERIAL (R95) -/
  stagedSerial : BitVec 32
  /-- CLAMPS.COUNT (R78) -/
  stagedClamps : BitVec 16
  /-- CLAMPS.FIRST (R78) -/
  clampFirst : BitVec 8
  /-- COMMIT_AT (R95) -/
  commitAt : BitVec 32
  /-- links of the tenders pushed to under this commit and not yet ready (R100) -/
  pushSet : BitVec 32
  /-- links of all tenders pushed to under this commit (R100) -/
  pushAll : BitVec 32
  /-- own bank read back (R95) -/
  ownRead : Bool
  /-- bank A (R65) -/
  bankA : Bank
  /-- bank B (R65) -/
  bankB : Bank
  /-- bank record copy 1 (R65) -/
  recA : MfRecord
  /-- bank record copy 2 (R65) -/
  recB : MfRecord
  /-- ACTIVE.BANK (R95) -/
  runBank : BitVec 1
  /-- ACTIVE.FALLBACK (R69) -/
  fallback : Bool
  /-- ACTIVE.NONE (R70) -/
  noImage : Bool
  /-- UNMOORED (R112) -/
  unmoored : BitVec 32
  /-- diagnostics have lost a resource to a higher class since the latest boundary (R146) -/
  diagLost : Bool
  /-- partitions that a commit made smaller while they held content that it kept (R144) -/
  shrunk : List Nat
  /-- content of partition 5, the host mailbox (R149) -/
  mailbox : Bytes
  /-- content of partition 6, diagnostic capture (R149) -/
  capture : Bytes
  /-- UNMOORED_LATCH (R113) -/
  unmooredLatch : BitVec 32
deriving DecidableEq, Repr

/-- `Manifest` as reset leaves it. -/
def Manifest.reset : Manifest where
  state := .idle
  blockResult := 0#2
  deferred := false
  late := false
  result := 0#4
  detail := 0#8
  loadLen := 0#20
  len := 0
  block := 0#7
  good := []
  verifyAt := 0
  commitTide := 0#32
  armed := 0#32
  stagedSerial := 0#32
  stagedClamps := 0#16
  clampFirst := 0#8
  commitAt := 0#32
  pushSet := 0#32
  pushAll := 0#32
  ownRead := false
  bankA := Bank.reset
  bankB := Bank.reset
  recA := MfRecord.reset
  recB := MfRecord.reset
  runBank := 0#1
  fallback := false
  noImage := true
  unmoored := 0#32
  diagLost := false
  shrunk := []
  mailbox := []
  capture := []
  unmooredLatch := 0#32

/-- One LF driver (R160 to R173). -/
structure LfDriver where
  /-- TUNE.CODE (R162) -/
  code : BitVec 6
  /-- TUNE: OVR_EN (bit 6) and CODE_OVR (R169) -/
  ovr : Rwt 7
  /-- SENSE.IAMP (R170) -/
  iamp : BitVec 11
  /-- SENSE.PHASE, signed degrees (R170) -/
  phase : Int
  /-- OPEN (R170) -/
  opn : Bool
  /-- SHORT (R170) -/
  short : Bool
  /-- DETUNED (R170) -/
  detuned : Bool
  /-- DISABLED (R171) -/
  disabled : Bool
  /-- STATUS.LATCH (R173) -/
  latch : BitVec 4
  /-- consecutive patterns with the phase beyond 20 degrees, signed by its sign (R169) -/
  offRun : Int
  /-- consecutive patterns with the phase beyond 45 degrees (R170) -/
  detRun : Nat
  /-- pulse width D of the latest pattern, from 1/20 to 1 (R163) -/
  width : Rat
deriving DecidableEq, Repr

/-- `LfDriver` as reset leaves it. -/
def LfDriver.reset : LfDriver where
  code := 0#6
  ovr := Rwt.of 0#7
  iamp := 0#11
  phase := 0
  opn := false
  short := false
  detuned := false
  disabled := false
  latch := 0#4
  offRun := 0
  detRun := 0
  width := 1 / 20

/-- One waiting LF frame (R196). -/
structure LfWork where
  /-- what it is (R196) -/
  kind : LfKind
  /-- berth of a challenge or poll (R199) -/
  berth : Nat
  /-- chart antennas (R197) -/
  mask : BitVec 16
  /-- instant at which it falls due (R630) -/
  notBefore : Nat
  /-- what the frame says: its TYPE and the fields that follow (R181) -/
  data : Bytes
deriving DecidableEq, Repr

/-- `LfWork` as reset leaves it. -/
def LfWork.reset : LfWork where
  kind := .wake
  berth := 0
  mask := 0#16
  notBefore := 0
  data := [1#8, 0#8, 0#8]

/-- One part of a frame on the air: how long it lasts and what each chart antenna does (R180, R181, R201). -/
structure LfSlot where
  /-- its length in ticks (R181) -/
  ticks : Nat
  /-- the antennas that are driven, with what each sends (R201) -/
  drive : List (Nat × LfLevel)
deriving DecidableEq, Repr

/-- `LfSlot` as reset leaves it. -/
def LfSlot.reset : LfSlot where
  ticks := 0
  drive := []

/-- One answer window and the slotted fallback that may follow it (R195), of one wake cause. -/
structure Fallback where
  /-- number by which its slotted wakes name it (R195) -/
  no : Nat
  /-- its state; IDLE is its end (R195) -/
  state : FbState
  /-- slotted round k; STATUS.ROUND (R195) -/
  k : Nat
  /-- a fresh SEED is still to be drawn (R195) -/
  seedDue : Bool
  /-- antennas of the wake or polling pattern (R195) -/
  mask : BitVec 16
  /-- tick at which the frame of its open window or round ends (R195) -/
  windowAt : Nat
  /-- answers of the open window or round, in order: anchor, stamp, body (R195) -/
  answers : List (BitVec 6 × Nat × Bytes)
  /-- a frame that failed its CRC came in the open window or round (R194) -/
  bad : Bool
deriving DecidableEq, Repr

/-- `Fallback` as reset leaves it. -/
def Fallback.reset : Fallback where
  no := 0
  state := .window
  k := 0
  seedDue := false
  mask := 0#16
  windowAt := 0
  answers := []
  bad := false

/-- LF block: R160 to R210 (chapter 4). -/
structure Lf where
  /-- LF.DRV[0..15] (R160) -/
  drivers : List LfDriver
  /-- STATUS.BUSY (R210) -/
  busy : Bool
  /-- STATUS.CALIB (R167) -/
  calib : Bool
  /-- calibration requested for the next boundary (R166) -/
  calReq : Bool
  /-- STATUS.VLF_LOW (R170) -/
  vlfLow : Bool
  /-- tick since which VLF has stayed above 7.8 V (R172) -/
  vlfGoodFrom : Option Nat
  /-- LF.VLF (R210) -/
  vlf : BitVec 12
  /-- VLF as sensed, shown at the next tide (R210) -/
  vlfNow : BitVec 12
  /-- frames waiting (R196) -/
  queue : List LfWork
  /-- frame on the air (R196) -/
  onAir : Option LfWork
  /-- the latest frame, part by part (R181) -/
  frame : List LfSlot
  /-- answer windows and fallbacks that are not IDLE, oldest first (R195) -/
  fallbacks : List Fallback
  /-- number of the next one (R195) -/
  fallbackNo : Nat
  /-- the latest four windows and rounds closed: from tick, to tick, antennas (R195) -/
  closed : List (Nat × Nat × BitVec 16)
  /-- chart antennas whose drivers their tenders have reported as disabled (R171) -/
  farOff : BitVec 16
  /-- COLLIDE.COLLISIONS (R210) -/
  collisions : BitVec 16
  /-- COLLIDE.UNRESOLVED (R195) -/
  unresolved : BitVec 16
  /-- REJECT.STALE (R190) -/
  rejStale : BitVec 8
  /-- REJECT.MAC (R193) -/
  rejMac : BitVec 8
  /-- REJECT.REPORT (R184) -/
  rejReport : BitVec 8
  /-- REJECT.IDLE_DROP (R187) -/
  rejIdle : BitVec 8
  /-- FIT_BERTH.BERTH (R210) -/
  fitBerth : BitVec 8
  /-- FIT_BERTH.STRONG (R210) -/
  fitStrong : BitVec 5
  /-- FIT_BERTH.VALID (R206) -/
  fitValid : Bool
  /-- FIT_XY.X (R206) -/
  fitX : BitVec 16
  /-- FIT_XY.Y (R206) -/
  fitY : BitVec 16
  /-- FIT_Z.Z (R206) -/
  fitZ : BitVec 16
  /-- FIT_Z.RESIDUAL (R210) -/
  fitResidual : BitVec 16
  /-- FIT_TIDE (R210) -/
  fitTide : BitVec 32
  /-- fobs cast off with IDLE, newest first, at most 16 (R187) -/
  idleList : List (BitVec 64)
  /-- counter cache in MRAM: identifier, counter, tide of last use; most recent first (R191) -/
  cache : List (BitVec 64 × BitVec 32 × BitVec 32)
  /-- accepted telegrams: identifier, counter, tick (R190) -/
  recent : List (BitVec 64 × BitVec 32 × Nat)
  /-- the polling pattern on the air is cut, and its answers are discarded (R196) -/
  touchCut : Bool
  /-- a calibration due now waits for the pattern on the air (R168) -/
  calDue : Bool
  /-- tick at which the calibration began (R167) -/
  calAt : Nat
  /-- a start request of DRIVE lets the next tide poll every berth (D2) -/
  pollNow : Bool
deriving DecidableEq, Repr

/-- `Lf` as reset leaves it. -/
def Lf.reset : Lf where
  drivers := List.replicate 16 LfDriver.reset
  busy := false
  calib := false
  calReq := false
  vlfLow := false
  vlfGoodFrom := none
  vlf := 0#12
  vlfNow := 0#12
  queue := []
  onAir := none
  frame := []
  fallbacks := []
  fallbackNo := 0
  closed := []
  farOff := 0#16
  collisions := 0#16
  unresolved := 0#16
  rejStale := 0#8
  rejMac := 0#8
  rejReport := 0#8
  rejIdle := 0#8
  fitBerth := 0#8
  fitStrong := 0#5
  fitValid := false
  fitX := 0x8000#16
  fitY := 0x8000#16
  fitZ := 0x8000#16
  fitResidual := 0xFFFF#16
  fitTide := 0#32
  idleList := []
  cache := []
  recent := []
  touchCut := false
  calDue := false
  calAt := 0
  pollNow := false

/-- Latest UWB result of a berth at an anchor (R271). -/
structure UwbRes where
  /-- berth (R271) -/
  berth : Nat
  /-- anchor (R271) -/
  anchor : Nat
  /-- DIST (R256) -/
  dist : BitVec 16
  /-- FP_POWER (R271) -/
  fpPower : BitVec 16
  /-- AZ (R260) -/
  az : BitVec 16
  /-- EL (R260) -/
  el : BitVec 16
  /-- VALID (R271) -/
  valid : Bool
  /-- DS (R271) -/
  ds : Bool
  /-- NLOS (R258) -/
  nlos : Bool
  /-- LISTENER (R246) -/
  listener : Bool
  /-- CFO (R257) -/
  cfo : BitVec 8
  /-- TIDE (R271) -/
  tide : BitVec 16
deriving DecidableEq, Repr

/-- `UwbRes` as reset leaves it. -/
def UwbRes.reset : UwbRes where
  berth := 0
  anchor := 0
  dist := 0xFFFF#16
  fpPower := 0x8000#16
  az := 0x8000#16
  el := 0x8000#16
  valid := false
  ds := false
  nlos := false
  listener := false
  cfo := 0#8
  tide := 0#16

/-- What one anchor measured of a round. -/
structure UwbRx where
  /-- anchor (R242) -/
  anchor : Nat
  /-- corrected stamp of the POLL in units (R231) -/
  poll : Option (BitVec 40)
  /-- corrected stamp of its RESPONSE (R231) -/
  resp : Option (BitVec 40)
  /-- corrected stamp of the FINAL (R231) -/
  final : Option (BitVec 40)
  /-- key clock offset in 0.1 ppm (R254) -/
  cfo : Int
  /-- first-path power in 0.25 dBm (R258) -/
  fp : Int
  /-- total received power in 0.25 dBm (R258) -/
  total : Int
  /-- azimuth in 0.1 degree (R260) -/
  az : Option Int
  /-- elevation in 0.1 degree (R260) -/
  el : Option Int
  /-- distance in mm (R256) -/
  dist : Option Nat
  /-- the distance is a DS result (R253) -/
  isDs : Bool
deriving DecidableEq, Repr

/-- `UwbRx` as reset leaves it. -/
def UwbRx.reset : UwbRx where
  anchor := 0
  poll := none
  resp := none
  final := none
  cfo := 0
  fp := 0
  total := 0
  az := none
  el := none
  dist := none
  isDs := false

/-- One UWB round of the tide (R240 to R253). -/
structure Round where
  /-- berth (R247) -/
  berth : Nat
  /-- identifier offset (R237) -/
  sid : Nat
  /-- ROUND_INDEX of the round (R236) -/
  index : BitVec 28
  /-- anchors of slots 0 to N - 1 (R245) -/
  slots : List Nat
  /-- DS round (R241) -/
  ds : Bool
  /-- planned start of the air phase (R247) -/
  start : Nat
  /-- planned end of the air phase (R243) -/
  airEnd : Nat
  /-- how far the round has come (R244) -/
  phase : RoundPhase
  /-- its STS is ready (R238) -/
  stsReady : Bool
  /-- what the anchors measured (R242) -/
  rx : List UwbRx
  /-- a FINAL_DATA was accepted (R252) -/
  dataOk : Bool
  /-- tide that holds the POLL (R249) -/
  tide : BitVec 32
  /-- the round is lost (R253) -/
  lost : Bool
  /-- N, fixed for the session (R241) -/
  n : Nat
  /-- the session is HPRF (R229) -/
  hprf : Bool
  /-- T_K of the key in µs (R242) -/
  tk : Nat
  /-- tick at which CTRL begins (R242) -/
  ctrlAt : Nat
  /-- stamp of the CTRL that this device sent (R231) -/
  ctrlStamp : BitVec 40
  /-- STS index and sequence of each frame (R238) -/
  sts : List (Nat × Bytes)
deriving DecidableEq, Repr

/-- `Round` as reset leaves it. -/
def Round.reset : Round where
  berth := 0
  sid := 0
  index := 0#28
  slots := []
  ds := false
  start := 0
  airEnd := 0
  phase := .planned
  stsReady := false
  rx := []
  dataOk := false
  tide := 0#32
  lost := false
  n := 0
  hprf := false
  tk := 150
  ctrlAt := 0
  ctrlStamp := 0#40
  sts := []

/-- A transmission held for a synthesiser lock (R225, R278). -/
structure HeldTx where
  /-- 0 CTRL, 1 RESPONSE, 2 test (UWB); 0 advertising, 1 connection, 2 sounding, 3 test (BLE) (R226) -/
  kind : BitVec 2
  /-- planned start (R226) -/
  planned : Nat
  /-- length of the tolerance window in ticks (R226) -/
  tol : Nat
  /-- berth or link it serves (R226) -/
  ref : Nat
deriving DecidableEq, Repr

/-- `HeldTx` as reset leaves it. -/
def HeldTx.reset : HeldTx where
  kind := 0#2
  planned := 0
  tol := 0
  ref := 0

/-- UWB block: R211 to R271 (chapter 5). -/
structure Uwb where
  /-- STATUS.PLL (R225) -/
  pll : Pll
  /-- STATUS.ROUNDS (R247) -/
  rounds : BitVec 8
  /-- TEMP.NOW (R221) -/
  temp : BitVec 16
  /-- TEMP.AT_CAL (AON) (R221) -/
  tempCal : BitVec 16
  /-- TX_STATE.STATE (R225) -/
  txState : BitVec 2
  /-- TX_STATE.LAST (R225) -/
  txLast : BitVec 2
  /-- TX_STATE.CHAIN (R271) -/
  txChain : BitVec 1
  /-- TX_ATTEN.ATTEN0 (R218) -/
  atten0 : Rwt 6
  /-- temperature correction of the transmit gain in 0.5 dB (R218) -/
  gain : Int
  /-- tick at which the latest frame sent ends (R224) -/
  txUntil : Nat
  /-- TX_ATTEN.ATTEN1 (R218) -/
  atten1 : Rwt 6
  /-- COUNT.DONE (R253) -/
  done : BitVec 16
  /-- COUNT.LOST (R253) -/
  lost : BitVec 16
  /-- FAULTS.LATE (R225) -/
  late : BitVec 8
  /-- FAULTS.FOREIGN (R228) -/
  foreign : BitVec 8
  /-- FAULTS.MAC (R252) -/
  macFail : BitVec 8
  /-- FAULTS.CALS (R221) -/
  cals : BitVec 8
  /-- RES_SEL.BERTH (R271) -/
  selBerth : BitVec 8
  /-- RES_SEL.ANCHOR (R271) -/
  selAnchor : BitVec 6
  /-- latest results by berth and anchor (R271) -/
  results : List UwbRes
  /-- the set copied to RES_DIST, RES_ANGLE and RES_INFO (R271) -/
  view : UwbRes
  /-- RES_SESSION (R271) -/
  viewSid : BitVec 32
  /-- CIR_CTRL.ENABLE (R262) -/
  cirEnable : Bool
  /-- CIR_CTRL.ALL (R262) -/
  cirAll : Bool
  /-- CIR_CTRL.BERTH (R262) -/
  cirBerth : BitVec 8
  /-- CIR records, oldest first, 272 bytes each, with whether the host has copied them (R264) -/
  cirRing : List (Bytes × Bool)
  /-- CIR_STATUS.DROPPED (R264) -/
  cirDropped : BitVec 16
  /-- CIR_SEL (R265) -/
  cirSel : BitVec 16
  /-- CIR_WIN, zero beyond its bytes (R265) -/
  cirWin : Bytes
  /-- TEST.CHAIN (R226) -/
  testChain : BitVec 1
  /-- TEST.TOL (R226) -/
  testTol : BitVec 10
  /-- TEST.FRAMES (R226) -/
  testFrames : BitVec 8
  /-- tick at which the last test frame ends (R226) -/
  testUntil : Nat
  /-- frames of this anchor on the air or about to be: first chip and end (R219) -/
  airTx : List (Nat × Nat)
  /-- corrected stamp of the latest frame sent or received (R231) -/
  lastStamp : BitVec 40
  /-- calibration requested for the next boundary (R221) -/
  calReq : Bool
  /-- a calibration is due and waits for the end of an air phase (R222) -/
  calDue : Bool
  /-- failures of the present calibration (R223) -/
  calTries : Nat
  /-- rounds of the current tide, in order (R247) -/
  schedule : List Round
  /-- payload of the latest CTRL sent, 24 bytes (R250) -/
  ctrl : Bytes
  /-- transmission held for lock (R225) -/
  held : Option HeldTx
deriving DecidableEq, Repr

/-- `Uwb` as reset leaves it. -/
def Uwb.reset : Uwb where
  pll := .off
  rounds := 0#8
  temp := 0#16
  tempCal := 0x8000#16
  txState := 0#2
  txLast := 0#2
  txChain := 0#1
  atten0 := Rwt.of 0#6
  gain := 0
  txUntil := 0
  atten1 := Rwt.of 0#6
  done := 0#16
  lost := 0#16
  late := 0#8
  foreign := 0#8
  macFail := 0#8
  cals := 0#8
  selBerth := 0#8
  selAnchor := 0#6
  results := []
  view := UwbRes.reset
  viewSid := 0#32
  cirEnable := false
  cirAll := false
  cirBerth := 0#8
  cirRing := []
  cirDropped := 0#16
  cirSel := 0#16
  cirWin := []
  testChain := 0#1
  testTol := 100#10
  testFrames := 1#8
  testUntil := 0
  airTx := []
  lastStamp := 0#40
  calReq := false
  calDue := false
  calTries := 0
  schedule := []
  ctrl := []
  held := none

/-- One BLE link of this device (R285, R286). -/
structure Link where
  /-- anchor holding it (R286) -/
  anchor : Nat
  /-- berth it serves, none before a HELLO on a peripheral link (R286) -/
  berth : Option Nat
  /-- tick of the connection (R285) -/
  openAt : Nat
  /-- the 7256 is peripheral (R285) -/
  periph : Bool
  /-- connection interval in 1.25 ms (R286) -/
  interval : BitVec 8
  /-- access-service frames waiting for a connection event (R289) -/
  queue : List Bytes
  /-- frames received on the link (R289) -/
  frames : Nat
  /-- moved to LE 2M (R286) -/
  phy2m : Bool
  /-- channel map: a set bit is a data channel in use (R280) -/
  chanMap : BitVec 37
  /-- data length in bytes, up to 251 (R280) -/
  dataLen : Nat
  /-- a HELLO has come on it (R285) -/
  hello : Bool
  /-- procedures that the unsupported-feature replies of its latest event named (R281) -/
  replies : List LlProcedure
  /-- tick of the last event served, for the supervision timeout of 2 s (R286) -/
  supervision : Nat
deriving DecidableEq, Repr

/-- `Link` as reset leaves it. -/
def Link.reset : Link where
  anchor := 0
  berth := none
  openAt := 0
  periph := false
  interval := 12#8
  queue := []
  frames := 0
  phy2m := false
  chanMap := 0x1FFFFFFFFF#37
  dataLen := 27
  hello := false
  replies := []
  supervision := 0

/-- Latest channel sounding result of a berth (R310). -/
structure CsRes where
  /-- CS_RESULT.DIST (R303) -/
  dist : BitVec 16
  /-- CS_RESULT.SPREAD (R303) -/
  spread : BitVec 16
  /-- CS_INFO.VALID (R310) -/
  valid : Bool
  /-- CS_INFO.CHAINS (R310) -/
  chains : BitVec 4
  /-- CS_INFO.TONES (R310) -/
  tones : BitVec 7
  /-- CS_INFO.TIDE (R310) -/
  tide : BitVec 16
deriving DecidableEq, Repr

/-- `CsRes` as reset leaves it. -/
def CsRes.reset : CsRes where
  dist := 0xFFFF#16
  spread := 0xFFFF#16
  valid := false
  chains := 0#4
  tones := 0#7
  tide := 0#16

/-- Narrowband radio block: R272 to R310 (chapter 6). -/
structure Nb where
  /-- STATUS.BLE_PLL (R277) -/
  blePll : Pll
  /-- STATUS.UHF0_PLL (R277) -/
  uhf0Pll : Pll
  /-- STATUS.UHF1_PLL (R277) -/
  uhf1Pll : Pll
  /-- links held, STATUS.LINKS counts those of this anchor (R286) -/
  links : List Link
  /-- STATUS.TUNER (R307) -/
  tuner : BitVec 2
  /-- TUNER.LATCH (R307) -/
  tunerLatch : BitVec 2
  /-- TUNER.SERIES (R307) -/
  tunerSeries : BitVec 5
  /-- TUNER.SHUNT (R307) -/
  tunerShunt : BitVec 5
  /-- TUNER.RL (R307) -/
  tunerRl : BitVec 8
  /-- consecutive packets with return loss below 10 dB (R307) -/
  tunerRun : Nat
  /-- IRR_BLE (R274) -/
  irrBle : BitVec 32
  /-- IRR_UHF.IRR (R274) -/
  irrUhf : BitVec 16
  /-- IRR_UHF.AT_CAL: temperature at the last BLE calibration (R275) -/
  tempBle : BitVec 16
  /-- temperature at the last calibration of UHF chain 0 (R275) -/
  tempUhf0 : BitVec 16
  /-- temperature at the last calibration of UHF chain 1 (R275) -/
  tempUhf1 : BitVec 16
  /-- TX_STATE.STATE (R278) -/
  txState : BitVec 2
  /-- TX_STATE.LAST (R278) -/
  txLast : BitVec 2
  /-- TX_POWER.ADV (R305) -/
  advPower : Rwt 6
  /-- TX_POWER.CONN (R305) -/
  connPower : Rwt 6
  /-- TX_POWER.APPLIED (R306) -/
  applied : BitVec 6
  /-- die temperature measured last, in 0.125 °C (R306) -/
  temp : BitVec 16
  /-- VRF2 measured last (R306) -/
  vrf2 : BitVec 8
  /-- correction of the transmit gain in 0.5 dB (R306) -/
  gain : Int
  /-- tick at which the link event under way ends (R310) -/
  linkUntil : Nat
  /-- AD_COMPANY (R282) -/
  company : Rwt 16
  /-- CONN_INTERVAL (R286) -/
  interval : Rwt 8
  /-- COUNT.LATE (R278) -/
  late : BitVec 8
  /-- COUNT.SKIPPED (R279) -/
  skipped : BitVec 8
  /-- COUNT.FOREIGN (R289) -/
  foreign : BitVec 8
  /-- COUNT.LINK_FULL (R287) -/
  linkFull : BitVec 8
  /-- UHF.RSSI0 (R297) -/
  rssi0 : BitVec 8
  /-- UHF.RSSI1 (R297) -/
  rssi1 : BitVec 8
  /-- UHF.JAM of this device (R297) -/
  jam : BitVec 2
  /-- anchors, their chains that met R297, and tides (R331) -/
  jamTides : List (Nat × BitVec 2 × BitVec 32)
  /-- UHF_COUNT.FRAMES (R310) -/
  uhfFrames : BitVec 16
  /-- UHF_COUNT.CRC (R310) -/
  uhfCrc : BitVec 16
  /-- frames received in the last 2 ms with their stamps and anchors (R296) -/
  uhfSeen : List (Bytes × Nat × Nat)
  /-- CS_SEL (R310) -/
  csSel : BitVec 8
  /-- CS_RESULT and CS_INFO (R310) -/
  csView : CsRes
  /-- latest sounding result per berth (R310) -/
  csResults : List (Nat × CsRes)
  /-- procedure running: berth and tide of its first step (R301) -/
  csRunning : List (Nat × BitVec 32)
  /-- berths whose procedure is scheduled for this tide (R301) -/
  csWait : List Nat
  /-- berths whose procedure is tried again in the next tide (R279) -/
  csNext : List Nat
  /-- TEST.CHAN (R310) -/
  testChan : BitVec 6
  /-- TEST.FRAMES (R310) -/
  testFrames : BitVec 8
  /-- tick at which the last test packet ends (R279) -/
  testUntil : Nat
  /-- calibration requested for the next boundary (R275) -/
  calReq : Bool
  /-- synthesisers whose calibration is due: bit 0 BLE, 1 UHF 0, 2 UHF 1 (R276) -/
  calDue : BitVec 3
  /-- failures of the present calibration per synthesiser (R277) -/
  calTries : List Nat
  /-- UHF chains out of use (R277) -/
  uhfOut : BitVec 2
  /-- Manufacturer Specific Data of the latest vehicle advertisement (R282) -/
  adv : Bytes
  /-- channel of the next scan window (R283) -/
  scanChan : BitVec 6
  /-- tick at which the latest BLE air event ends (R276) -/
  airUntil : Nat
  /-- tick at which the latest scan window opened (R283) -/
  scanFrom : Nat
  /-- tick at which it closes (R283) -/
  scanUntil : Nat
  /-- tick at which the latest transmission begins (R310) -/
  txFrom : Nat
  /-- tick at which it ends (R310) -/
  txUntil : Nat
  /-- packets whose return loss the coupler has measured with no command bringing it: numbers the free values (R307) -/
  measured : Nat
  /-- transmission held for lock (R278) -/
  held : List HeldTx
deriving DecidableEq, Repr

/-- `Nb` as reset leaves it. -/
def Nb.reset : Nb where
  blePll := .off
  uhf0Pll := .off
  uhf1Pll := .off
  links := []
  tuner := 0#2
  tunerLatch := 0#2
  tunerSeries := 16#5
  tunerShunt := 16#5
  tunerRl := 0#8
  tunerRun := 0
  irrBle := 0#32
  irrUhf := 0#16
  tempBle := 0x8000#16
  tempUhf0 := 0x8000#16
  tempUhf1 := 0x8000#16
  txState := 0#2
  txLast := 0#2
  advPower := Rwt.of 60#6
  connPower := Rwt.of 60#6
  applied := 0#6
  temp := 0#16
  vrf2 := 0#8
  gain := 0
  linkUntil := 0
  company := Rwt.of 0xFFFF#16
  interval := Rwt.of 12#8
  late := 0#8
  skipped := 0#8
  foreign := 0#8
  linkFull := 0#8
  rssi0 := 0x80#8
  rssi1 := 0x80#8
  jam := 0#2
  jamTides := []
  uhfFrames := 0#16
  uhfCrc := 0#16
  uhfSeen := []
  csSel := 0#8
  csView := CsRes.reset
  csResults := []
  csRunning := []
  csWait := []
  csNext := []
  testChan := 0#6
  testFrames := 1#8
  testUntil := 0
  calReq := false
  calDue := 0#3
  calTries := [0, 0, 0]
  uhfOut := 0#2
  adv := []
  scanChan := 37#6
  airUntil := 0
  scanFrom := 0
  scanUntil := 0
  txFrom := 0
  txUntil := 0
  measured := 0
  held := []

/-- One commit record copy of R372. -/
structure CommitRec where
  /-- RECORD_SEQ (R372) -/
  rseq : BitVec 32
  /-- SEQ (R372) -/
  seq : BitVec 32
  /-- ROOT, 32 bytes (R372) -/
  root : Bytes
  /-- PROFILE_BANK (R372) -/
  profileBank : BitVec 1
  /-- JOURNAL: 0 none, 1 pending, 2 rebuild pending (R372) -/
  journal : BitVec 2
  /-- JOURNAL_PAGE (R372) -/
  jPage : Nat
  /-- JOURNAL_LEN (R372) -/
  jLen : Nat
  /-- ISSUED (R372) -/
  issued : BitVec 32
  /-- LIVE (R372) -/
  live : BitVec 23
  /-- SALT, 16 bytes; empty stands for 16 zero bytes (R372) -/
  salt : Bytes
  /-- PROFILE_DIGEST (R372) -/
  digest : Bytes
  /-- TAG, 32 bytes (R372) -/
  tag : Bytes
  /-- CRC-32C (R372) -/
  crc : BitVec 32
deriving DecidableEq, Repr

/-- `CommitRec` as reset leaves it. -/
def CommitRec.reset : CommitRec where
  rseq := 0#32
  seq := 0#32
  root := []
  profileBank := 0#1
  journal := 0#2
  jPage := 0
  jLen := 0
  issued := 0#32
  live := 0#23
  salt := []
  digest := []
  tag := []
  crc := 0#32

/-- One journal entry of R389. -/
structure JEntry where
  /-- LPAGE (R389) -/
  lpage : Nat
  /-- PPAGE, 0xFFFF for a zero page (R389) -/
  ppage : Nat
  /-- new leaf (R389) -/
  leaf : Bytes
deriving DecidableEq, Repr

/-- `JEntry` as reset leaves it. -/
def JEntry.reset : JEntry where
  lpage := 0
  ppage := 0xFFFF
  leaf := []

/-- What STAGING prepared for the commit boundary (R389). -/
structure Staged where
  /-- SEQ of the delta (R391) -/
  seq : BitVec 32
  /-- ISSUED of the delta (R391) -/
  issued : BitVec 32
  /-- REBUILD delta (R383) -/
  rebuild : Bool
  /-- journal (R389) -/
  entries : List JEntry
  /-- new ROOT (R391) -/
  root : Bytes
  /-- new SALT (R391) -/
  salt : Bytes
  /-- new LIVE (R391) -/
  live : Nat
  /-- new profile bank when the delta holds PROFILE operations (R389) -/
  profiles : Option Mem
  /-- changed logical pages with their new bytes (R379) -/
  newPages : List (Nat × Bytes)
  /-- operations without effect (R379) -/
  noop : Nat
  /-- physical pages staged, journal included (R389) -/
  pages : Nat
  /-- physical pages of the journal, the first one first (R389) -/
  jPages : List Nat
deriving DecidableEq, Repr

/-- `Staged` as reset leaves it. -/
def Staged.reset : Staged where
  seq := 0#32
  issued := 0#32
  rebuild := false
  entries := []
  root := []
  salt := []
  live := 0
  profiles := none
  newPages := []
  noop := 0
  pages := 0
  jPages := []

/-- Member register: R353 to R398 and R753 (chapter 8). -/
structure MemberReg where
  /-- bytes of the physical pages by physical address; unlisted bytes read 0 (R354) -/
  phys : Mem
  /-- MRAM page map, logical to physical; unlisted is a zero page (R355) -/
  map : List (Nat × Nat)
  /-- leaf table in MRAM; unlisted is the leaf of a zero page (R355) -/
  leaves : List (Nat × Bytes)
  /-- profile bank A (R355) -/
  profA : Mem
  /-- profile bank B (R355) -/
  profB : Mem
  /-- write counters of the physical pages (R355) -/
  wear : List (Nat × BitVec 32)
  /-- commit record copy 1 (R355) -/
  recA : CommitRec
  /-- commit record copy 2 (R355) -/
  recB : CommitRec
  /-- copy 1 is the record in force (R372) -/
  useA : Bool
  /-- pending journal in MRAM (R393) -/
  journal : List JEntry
  /-- physical pages of the pending journal (R354) -/
  jPages : List Nat
  /-- SRAM copy of the page map (R355) -/
  ramMap : List (Nat × Nat)
  /-- SRAM copy of the active profile bank (R355) -/
  ramProf : Mem
  /-- verified logical pages (R373) -/
  verified : List Nat
  /-- bad logical pages (R374) -/
  bad : List Nat
  /-- next page of the background check (R375) -/
  scan : Nat
  /-- tick at which the 24 h check round began (R375) -/
  scanFrom : Nat
  /-- HEALTH.STATE (R376) -/
  health : BitVec 2
  /-- STATUS.STATE (R386) -/
  state : RegState
  /-- STATUS.BLOCK_RESULT (R386) -/
  blockResult : BitVec 2
  /-- STATUS.LATE (R390) -/
  late : Bool
  /-- STATUS.RESULT (R386) -/
  result : BitVec 5
  /-- STATUS.DETAIL (R386) -/
  detail : BitVec 16
  /-- LOAD_LEN (R386) -/
  loadLen : BitVec 21
  /-- length taken at OPEN (R386) -/
  len : Nat
  /-- BLOCK (R386) -/
  block : BitVec 8
  /-- blocks copied (R386) -/
  good : List Nat
  /-- import window, 4 KiB (R387) -/
  window : Mem
  /-- delta in staging SRAM (R386) -/
  stage : Mem
  /-- tick of VERIFY or COMMIT (R388) -/
  startedAt : Nat
  /-- COMMIT_TIDE (R390) -/
  commitTide : BitVec 32
  /-- commit tide chosen at ARMED (R390) -/
  armed : BitVec 32
  /-- STAGED_SEQ (R386) -/
  stagedSeq : BitVec 32
  /-- COMMIT_AT (R391) -/
  commitAt : BitVec 32
  /-- LIVE_INFO.NOOP (R379) -/
  noop : BitVec 8
  /-- the staged delta (R389) -/
  staged : Option Staged
  /-- REGISTER.CLOCK at clockAt (R363) -/
  clockBase : BitVec 32
  /-- tick at which clockBase was valid (R363) -/
  clockAt : Nat
  /-- CLOCK_STATE.ESTIMATED (R365) -/
  estimated : Bool
  /-- clock floor in MRAM, first copy (R364) -/
  floor : BitVec 32
  /-- clock floor in MRAM, second copy (R355) -/
  floorCopy : BitVec 32
  /-- whole hours of running already stored (R364) -/
  floorHour : Nat
  /-- MB_CRED (R395) -/
  mbCred : BitVec 64
  /-- MB_STATUS.BUSY (R395) -/
  mbBusy : Bool
  /-- the running command is SCRUB (R395) -/
  mbScrub : Bool
  /-- MB_STATUS.RESULT (R395) -/
  mbResult : BitVec 3
  /-- MB_STATUS.ALLOWED (R395) -/
  mbAllowed : Bool
  /-- MB_STATUS.SLOT (R395) -/
  mbSlot : BitVec 23
  /-- MB_MEMBER (R395) -/
  mbMember : BitVec 32
deriving DecidableEq, Repr

/-- `MemberReg` as reset leaves it. -/
def MemberReg.reset : MemberReg where
  phys := []
  map := []
  leaves := []
  profA := []
  profB := []
  wear := []
  recA := CommitRec.reset
  recB := CommitRec.reset
  useA := true
  journal := []
  jPages := []
  ramMap := []
  ramProf := []
  verified := []
  bad := []
  scan := 0
  scanFrom := 0
  health := 0#2
  state := .idle
  blockResult := 0#2
  late := false
  result := 0#5
  detail := 0#16
  loadLen := 0#21
  len := 0
  block := 0#8
  good := []
  window := []
  stage := []
  startedAt := 0
  commitTide := 0#32
  armed := 0#32
  stagedSeq := 0#32
  commitAt := 0#32
  noop := 0#8
  staged := none
  clockBase := 0#32
  clockAt := 0
  estimated := true
  floor := 0#32
  floorCopy := 0#32
  floorHour := 0
  mbCred := 0#64
  mbBusy := false
  mbScrub := false
  mbResult := 0#3
  mbAllowed := false
  mbSlot := 0#23
  mbMember := 0#32

/-- A release ticket (R425). -/
structure Ticket where
  /-- SOURCE (R425) -/
  override : Bool
  /-- berth, 0xFF for an override (R425) -/
  berth : BitVec 8
  /-- credential, 0 for an override (R425) -/
  cred : BitVec 64
  /-- ISSUED (R425) -/
  issued : Nat
deriving DecidableEq, Repr

/-- `Ticket` as reset leaves it. -/
def Ticket.reset : Ticket where
  override := false
  berth := 0#8
  cred := 0#64
  issued := 0

/-- The lock key record of R410. -/
structure LkRecord where
  /-- current pairing key (R410) -/
  key : Bytes
  /-- its epoch, 0 for no key (R411) -/
  epoch : BitVec 8
  /-- previous pairing key (R410) -/
  prevKey : Bytes
  /-- its epoch, 0 for none (R411) -/
  prevEpoch : BitVec 8
  /-- LOCK section (R410) -/
  lock : LockCfg
  /-- CAN entry of controller 7 (R410) -/
  can : CanCfg
  /-- life-cycle state in force (R410) -/
  life : LifeCycle
deriving DecidableEq, Repr

/-- `LkRecord` as reset leaves it. -/
def LkRecord.reset : LkRecord where
  key := []
  epoch := 0#8
  prevKey := []
  prevEpoch := 0#8
  lock := LockCfg.reset
  can := CanCfg.reset
  life := .manufacture

/-- Lock keeper: R399 to R444 (chapter 9). -/
structure LockKeeper where
  /-- the island is out of reset (R406) -/
  alive : Bool
  /-- STATE.STATE (R430) -/
  state : LkState
  /-- STATE.ENGINE (R441) -/
  engine : BitVec 2
  /-- STATE.TOGGLING (R434) -/
  toggling : Bool
  /-- STATE.CAUSE (R441) -/
  cause : BitVec 3
  /-- FLAGS.BUS_OFF (R417) -/
  busOff : Bool
  /-- FLAGS.ECU_SILENT (R424) -/
  ecuSilent : Bool
  /-- FLAGS.EPOCH_UNKNOWN (R421) -/
  epochUnknown : Bool
  /-- FLAGS.STEN_FAULT (R435) -/
  stenFault : Bool
  /-- FLAGS.TAMPER_SEEN (R429) -/
  tamperSeen : Bool
  /-- ticket held and not consumed (R426) -/
  ticket : Option Ticket
  /-- ticket of the latest release (R433) -/
  viewTicket : Ticket
  /-- record in force in the island (R412) -/
  record : LkRecord
  /-- record in MRAM, as the key store last wrote it (R410) -/
  mram : LkRecord
  /-- a rewritten record awaits adoption (R412) -/
  recPending : Bool
  /-- COUNT_HS.ACCEPTED (R433) -/
  accepted : BitVec 16
  /-- COUNT_HS.REJECTS (R430) -/
  rejects : BitVec 16
  /-- COUNT_TK.EXPIRED (R430) -/
  expired : BitVec 16
  /-- COUNT_TK.REFUSED (R427) -/
  refused : BitVec 16
  /-- COUNT_CAN.RESENDS (R430) -/
  resends : BitVec 16
  /-- COUNT_CAN.BAD_MAC (R422) -/
  badMac : BitVec 16
  /-- RELEASE.AT (R441) -/
  releaseAt : BitVec 48
  /-- MAIN_RESETS (R404) -/
  mainResets : BitVec 16
  /-- LINK.SEQ (R422) -/
  seq : BitVec 8
  /-- a valid STATUS has been received since power-up (R422) -/
  seqSeen : Bool
  /-- REQ_CTR of the latest REQUEST (R419) -/
  reqCtr : BitVec 8
  /-- REQ_CTR of the next REQUEST (R419) -/
  reqNext : BitVec 8
  /-- LINK.ANSWER_US (R441) -/
  answerUs : BitVec 16
  /-- NONCE of the latest CHALLENGE (R422) -/
  nonce : BitVec 48
  /-- shadow tick at which the request timer started (R430) -/
  timerFrom : Nat
  /-- shadow tick at which the crank window started (R430) -/
  crankFrom : Nat
  /-- shadow tick of the last valid STATUS or power-up (R424) -/
  statusFrom : Nat
  /-- consecutive mismatching readings (R435) -/
  stenBad : Nat
  /-- consecutive matching readings (R435) -/
  stenGood : Nat
  /-- shadow of the timebase (R405) -/
  shadow : Nat
  /-- ticket queue, 1 entry (R403) -/
  queue : Option Ticket
  /-- handshake frames handed to controller 7, newest first, each identifier (4 bytes) then 8 data bytes (R418) -/
  tx : List Bytes
  /-- handshake frames that controller 7 has still to send, oldest first (R415) -/
  waiting : List Bytes
  /-- the first of them is on the air (R415) -/
  onAir : Bool
  /-- failed attempts of the first of them (R415) -/
  tries : Nat
  /-- tick at which the island left reset (R407) -/
  upFrom : Nat
  /-- the supply monitor holds the island in reset (R406) -/
  tripped : Bool
  /-- PAIR frames still to be sent (R466) -/
  pairLeft : Nat
  /-- shadow tick of the first PAIR frame (R466) -/
  pairFrom : Nat
  /-- the pairing exchange runs (R466) -/
  pairing : Bool
  /-- the lock keeper is paired (R138) -/
  paired : Bool
  /-- shadow tick of the latest self-test failure (R409) -/
  selftestAt : Nat
deriving DecidableEq, Repr

/-- `LockKeeper` as reset leaves it. -/
def LockKeeper.reset : LockKeeper where
  alive := false
  state := .inactive
  engine := 0#2
  toggling := false
  cause := 0#3
  busOff := false
  ecuSilent := false
  epochUnknown := false
  stenFault := false
  tamperSeen := false
  ticket := none
  viewTicket := Ticket.reset
  record := LkRecord.reset
  mram := LkRecord.reset
  recPending := false
  accepted := 0#16
  rejects := 0#16
  expired := 0#16
  refused := 0#16
  resends := 0#16
  badMac := 0#16
  releaseAt := 0#48
  mainResets := 0#16
  seq := 0#8
  seqSeen := false
  reqCtr := 0#8
  reqNext := 0#8
  answerUs := 0#16
  nonce := 0#48
  timerFrom := 0
  crankFrom := 0
  statusFrom := 0
  stenBad := 0
  stenGood := 0
  shadow := 0
  queue := none
  tx := []
  waiting := []
  onAir := false
  tries := 0
  upFrom := 0
  tripped := false
  pairLeft := 0
  pairFrom := 0
  pairing := false
  paired := false
  selftestAt := 0

/-- One root slot (R451, R457). -/
structure Root where
  /-- VALID (R451) -/
  valid : Bool
  /-- the root, 32 bytes (R447) -/
  key : Bytes
  /-- generation (R460) -/
  gen : BitVec 8
  /-- last wrap nonce accepted (R457) -/
  wrapNonce : BitVec 64
deriving DecidableEq, Repr

/-- `Root` as reset leaves it. -/
def Root.reset : Root where
  valid := false
  key := []
  gen := 0#8
  wrapNonce := 0#64

/-- One bulk session slot (R454). -/
structure SessSlot where
  /-- slot number (R454) -/
  k : Nat
  /-- STS key (R454) -/
  sts : Bytes
  /-- session MAC key (R454) -/
  mac : Bytes
  /-- link key (R454) -/
  link : Bytes
  /-- STS counter block (R454) -/
  ctr : Bytes
  /-- attribute word (R451) -/
  attr : BitVec 32
deriving DecidableEq, Repr

/-- `SessSlot` as reset leaves it. -/
def SessSlot.reset : SessSlot where
  k := 0
  sts := []
  mac := []
  link := []
  ctr := []
  attr := 0#32

/-- Key store: R445 to R487 (chapter 10). -/
structure Keys where
  /-- STATUS.STATE reads BUSY (R485) -/
  busy : Bool
  /-- PAIR runs and waits for the pairing exchange of the lock keeper (R466) -/
  pairing : Bool
  /-- STATUS.RESULT (R485) -/
  result : BitVec 5
  /-- STATUS.DETAIL (R469) -/
  detail : BitVec 8
  /-- vehicle root (R447) -/
  vr : Root
  /-- fleet root (R447) -/
  fr : Root
  /-- attestation seed (R447) -/
  seed : Bytes
  /-- previous vehicle root kept until the tags are recomputed (R462) -/
  vrPrev : Option Bytes
  /-- staged roots: kind (0 vehicle, 1 fleet), key, switch tide (R458) -/
  staged : List (BitVec 1 × Bytes × BitVec 32)
  /-- SWITCH_TIDE (R460) -/
  switchTide : BitVec 32
  /-- roots that the next boundary invalidates: bit 0 vehicle, 1 fleet (R469) -/
  destroyNext : BitVec 2
  /-- tags are being recomputed (R462) -/
  retag : Bool
  /-- bulk session slots holding a set (R454) -/
  slots : List SessSlot
  /-- FLEET_ID (R468) -/
  fleetId : BitVec 64
  /-- manifest authority public key, 68 bytes (R468) -/
  pubManifest : Bytes
  /-- register authority public key (R468) -/
  pubRegister : Bytes
  /-- override authority public key (R468) -/
  pubOverride : Bytes
  /-- VIOLATION.COUNT (R452) -/
  violation : BitVec 16
  /-- VIOLATION.MASTER (R452) -/
  violMaster : BitVec 4
  /-- TAMPER.ACTIVE (R476) -/
  tamper : BitVec 4
  /-- TAMPER.LATCH (R476) -/
  tamperLatch : BitVec 4
  /-- TAMPER.COUNT (R476) -/
  tamperCount : BitVec 16
  /-- tick since which the tamper input is inactive, while outputs are held (R148) -/
  tamperQuiet : Option Nat
  /-- latch outputs and amplifier enables are held idle (R148) -/
  tamperHold : Bool
  /-- XMSS.STATE (R470) -/
  xmss : BitVec 2
  /-- XMSS.PROGRESS (R470) -/
  xmssProgress : BitVec 7
  /-- tick at which the generation of the tree began (R470) -/
  xmssFrom : Nat
  /-- CRED (R483) -/
  cred : BitVec 64
  /-- NONCE (R471) -/
  nonce : BitVec 64
  /-- tick at which NONCE was drawn (R471) -/
  nonceAt : Nat
  /-- KEYS.OUT, zero beyond its bytes (R482) -/
  out : Bytes
  /-- KEYS.BUF, 4 KiB (R457) -/
  buf : Mem
  /-- key under which cell addresses are scrambled, drawn at power-up (R479) -/
  scramble : BitVec 64
  /-- uses of key cells since power-up, each of which re-masks the shares (R479) -/
  remasks : Nat
  /-- command held until the random number generator delivers (R481) -/
  heldCmd : Option (BitVec 32)
  /-- forwarded commands held so at a tender, with the request that each answers (R481) -/
  heldFwd : List (ReqId × BitVec 8 × Bytes)
  /-- link of the tender that a command has been forwarded to (R459) -/
  forward : Option Nat
deriving DecidableEq, Repr

/-- `Keys` as reset leaves it. -/
def Keys.reset : Keys where
  busy := false
  pairing := false
  result := 0#5
  detail := 0#8
  vr := Root.reset
  fr := Root.reset
  seed := []
  vrPrev := none
  staged := []
  switchTide := 0#32
  destroyNext := 0#2
  retag := false
  slots := []
  fleetId := 0#64
  pubManifest := []
  pubRegister := []
  pubOverride := []
  violation := 0#16
  violMaster := 0#4
  tamper := 0#4
  tamperLatch := 0#4
  tamperCount := 0#16
  tamperQuiet := none
  tamperHold := false
  xmss := 0#2
  xmssProgress := 0#7
  xmssFrom := 0
  cred := 0#64
  nonce := 0#64
  nonceAt := 0
  out := []
  buf := []
  scramble := 0#64
  remasks := 0
  heldCmd := none
  heldFwd := []
  forward := none

/-- One AES job (R492). -/
structure AesJob where
  /-- priority level (R491) -/
  level : BitVec 2
  /-- key cell it uses, none for a key of its own (R494) -/
  cell : Option KeyCell
  /-- half cycles of the CORE clock of a change of key or direction still to run, 32 for one (R489) -/
  setup : Nat
  /-- half cycles of the CORE clock that its blocks still take, 28 a block (R489) -/
  left : Nat
  /-- decryption (R488) -/
  dir : Bool
  /-- key of a host block as GO found it (R495) -/
  key : Bytes
  /-- its slot has been checked and it has run (R494) -/
  started : Bool
  /-- suspended (R493) -/
  suspended : Bool
  /-- the host block service (R495) -/
  host : Bool
  /-- master bits of the requester (R452) -/
  master : BitVec 4
  /-- world of the requester (R452) -/
  fleet : Bool
  /-- MANIFEST.UNMOORED bit of the requester, 31 where it has none (R145) -/
  feature : BitVec 5
  /-- tick of its arrival (R145) -/
  since : Nat
deriving DecidableEq, Repr

/-- `AesJob` as reset leaves it. -/
def AesJob.reset : AesJob where
  level := 0#2
  cell := none
  setup := 0
  left := 0
  dir := false
  key := []
  started := false
  suspended := false
  host := false
  master := 0#4
  fleet := false
  feature := 31#5
  since := 0

/-- One Keccak job (R497). -/
structure KecJob where
  /-- priority level (R497) -/
  level : BitVec 2
  /-- a verification (R498) -/
  verify : Bool
  /-- half cycles of the CORE clock still to run: 48 a permutation (R496) -/
  left : Nat
  /-- it has run (R497) -/
  started : Bool
  /-- what it computes (R497) -/
  work : KecWork
  /-- MANIFEST.UNMOORED bit of the requester, 31 where it has none (R145) -/
  feature : BitVec 5
  /-- tick of its arrival (R145) -/
  since : Nat
deriving DecidableEq, Repr

/-- `KecJob` as reset leaves it. -/
def KecJob.reset : KecJob where
  level := 0#2
  verify := false
  left := 0
  started := false
  work := .other
  feature := 31#5
  since := 0

/-- One signing record (R506). -/
structure SignRec where
  /-- NEXT (R506) -/
  next : Nat
  /-- AON day, signatures, attestations, newest first (R509) -/
  days : List (Nat × Nat × Nat)
  /-- CRC-32C valid (R506) -/
  crcOk : Bool
deriving DecidableEq, Repr

/-- `SignRec` as reset leaves it. -/
def SignRec.reset : SignRec where
  next := 0
  days := []
  crcOk := true

/-- Crypto engines: R488 to R512, R525, R526 (chapter 11). -/
structure Crypto where
  /-- STATUS.SELFTEST (R499) -/
  selftest : BitVec 4
  /-- STATUS.SUSPENDS (R493) -/
  suspends : BitVec 16
  /-- AES jobs; the head runs (R492) -/
  jobs : List AesJob
  /-- Keccak jobs; the head runs (R497) -/
  kjobs : List KecJob
  /-- AES_CTRL.DIR (R495) -/
  aesDir : Bool
  /-- AES_CTRL.KSIZE (R495) -/
  aesKsize : BitVec 2
  /-- AES_CTRL.BUSY (R495) -/
  aesBusy : Bool
  /-- AES_KEY, 32 bytes (R495) -/
  aesKey : Mem
  /-- AES_IN, 16 bytes (R495) -/
  aesIn : Mem
  /-- AES_OUT, zero when empty (R495) -/
  aesOut : Bytes
  /-- result that the host block queued at GO will deliver (R495) -/
  aesNext : Bytes
  /-- SIGN_STATUS.STATE (R512) -/
  signState : BitVec 2
  /-- SIGN_STATUS.RESULT (R512) -/
  signResult : BitVec 4
  /-- what is being signed (R505) -/
  signWhat : SignWhat
  /-- message under signature (R506) -/
  signMsg : Bytes
  /-- tick at which signing started (R508) -/
  signAt : Nat
  /-- signing record 1 (R506) -/
  recA : SignRec
  /-- signing record 2 (R506) -/
  recB : SignRec
  /-- secret and public seeds that the signing tree is generated from, 96 bytes (R470) -/
  seeds : Bytes
  /-- CRYPTO.PUB, zero when empty (R504) -/
  pub : Bytes
  /-- VERIFY_COUNT.PASS (R526) -/
  verPass : BitVec 16
  /-- VERIFY_COUNT.FAIL (R526) -/
  verFail : BitVec 16
  /-- CRYPTO.CHALLENGE, 16 bytes (R511) -/
  challenge : Mem
  /-- ATTEST_OUT, zero beyond its bytes (R511) -/
  attestOut : Bytes
  /-- AES blocks since the mask generator was reseeded (R490) -/
  blocksDone : Nat
  /-- AON days counted before the present count of the timebase began (R509) -/
  dayBase : Nat
  /-- a reseed of the mask generator waits for the DRBG (R490) -/
  maskDue : Bool
  /-- state of the mask generator (R490) -/
  maskSeed : Bytes
  /-- cell, key and direction that the AES engine is set up for (R489) -/
  keyed : Option (Option KeyCell × Bytes × Bool)
deriving DecidableEq, Repr

/-- `Crypto` as reset leaves it. -/
def Crypto.reset : Crypto where
  selftest := 0#4
  suspends := 0#16
  jobs := []
  kjobs := []
  aesDir := false
  aesKsize := 0#2
  aesBusy := false
  aesKey := []
  aesIn := []
  aesOut := []
  aesNext := []
  signState := 0#2
  signResult := 0#4
  signWhat := .none
  signMsg := []
  signAt := 0
  recA := SignRec.reset
  recB := SignRec.reset
  seeds := []
  pub := []
  verPass := 0#16
  verFail := 0#16
  challenge := []
  attestOut := []
  blocksDone := 0
  dayBase := 0
  maskDue := false
  maskSeed := []
  keyed := none

/-- One held request (R522). -/
structure Held where
  /-- requester (R523) -/
  who : Requester
  /-- tick of the request (R522) -/
  since : Nat
deriving DecidableEq, Repr

/-- `Held` as reset leaves it. -/
def Held.reset : Held where
  who := .hostGenerate
  since := 0

/-- Random number generator: R513 to R526 (chapter 11). -/
structure Trng where
  /-- STATUS.STATE (R518) -/
  state : TrngState
  /-- noise source running (R513) -/
  running : Bool
  /-- STATUS.RESULT (R523) -/
  result : BitVec 2
  /-- held requests, oldest first (R522) -/
  held : List Held
  /-- generate requests since the last reseed (R520) -/
  since : Nat
  /-- a reseed is due (R520) -/
  reseedDue : Bool
  /-- tick of the last reseed (R520) -/
  reseedAt : Nat
  /-- the next block is a start-up block (R515) -/
  startup : Bool
  /-- conditioning register (R514) -/
  lfsr : BitVec 256
  /-- conditioned bytes gathered for instantiation (R518) -/
  seedBits : Bytes
  /-- DRBG instantiated (R518) -/
  inst : Bool
  /-- DRBG key (R520) -/
  key : Bytes
  /-- DRBG V (R520) -/
  v : Bytes
  /-- additional input of a waiting host RESEED (R521) -/
  hostReseed : Option Bytes
  /-- TRNG.PERS, 48 bytes (R521) -/
  pers : Mem
  /-- personalisation record in MRAM, 40 bytes (R521) -/
  persRec : Bytes
  /-- HEALTH.RCT (R515) -/
  rct : BitVec 8
  /-- HEALTH.APT (R515) -/
  apt : BitVec 8
  /-- pass (false) or failure (true) of the latest 64 blocks, newest first (R517) -/
  window : List Bool
  /-- last raw bit, for the repetition count (R515) -/
  runBit : Bool
  /-- its run length (R515) -/
  runLen : Nat
  /-- HEALTH.FATAL_COUNT (R517) -/
  fatalCount : BitVec 8
  /-- tick of the fatal alarm (R517) -/
  fatalAt : Nat
  /-- fatal alarm in force (R517) -/
  fatal : Bool
  /-- RATE.KBPS (R526) -/
  kbps : BitVec 12
  /-- DROPS.EXPIRED (R522) -/
  drops : BitVec 16
  /-- GEN_LEN.WORDS (R526) -/
  genLen : BitVec 7
  /-- TRNG.OUT, zero beyond its bytes (R526) -/
  out : Bytes
  /-- blocks left of the 64 after a fatal restart in which one failure raises the alarm again (R517) -/
  afterFatal : Nat
  /-- a host command is held (R526) -/
  hostHeld : Bool
  /-- tick of the latest raw block (R526) -/
  lastBlockAt : Nat
deriving DecidableEq, Repr

/-- `Trng` as reset leaves it. -/
def Trng.reset : Trng where
  state := .starting
  running := false
  result := 0#2
  held := []
  since := 0
  reseedDue := false
  reseedAt := 0
  startup := true
  lfsr := 0#256
  seedBits := []
  inst := false
  key := []
  v := []
  hostReseed := none
  pers := []
  persRec := []
  rct := 0#8
  apt := 0#8
  window := []
  runBit := false
  runLen := 0
  fatalCount := 0#8
  fatalAt := 0
  fatal := false
  kbps := 0#12
  drops := 0#16
  genLen := 1#7
  out := []
  afterFatal := 0
  hostHeld := false
  lastBlockAt := 0

/-- One active card (R534). -/
structure Card where
  /-- UID (R534) -/
  uid : Bytes
  /-- CID (R534) -/
  cid : BitVec 4
  /-- answered SELECT with ROLE 0 (R555) -/
  access : Bool
  /-- berth (R535) -/
  berth : Option Nat
  /-- to be reactivated after a field drop (R537) -/
  fresh : Bool
deriving DecidableEq, Repr

/-- `Card` as reset leaves it. -/
def Card.reset : Card where
  uid := []
  cid := 0#4
  access := false
  berth := none
  fresh := false

/-- The set of R555. -/
structure CardView where
  /-- UID_LEN (R555) -/
  uidLen : BitVec 4
  /-- CID (R555) -/
  cid : BitVec 3
  /-- ACCESS (R555) -/
  access : Bool
  /-- BERTH (R555) -/
  berth : BitVec 9
  /-- UID bytes (R555) -/
  uid : Bytes
deriving DecidableEq, Repr

/-- `CardView` as reset leaves it. -/
def CardView.reset : CardView where
  uidLen := 0#4
  cid := 0#3
  access := false
  berth := 0x1FF#9
  uid := []

/-- NFC block: R527 to R555 (chapter 12). -/
structure Nfc where
  /-- STATUS.READER (R555) -/
  reader : BitVec 2
  /-- card list (R534) -/
  cards : List Card
  /-- tick of the latest REQA poll (R533) -/
  lastReqa : Nat
  /-- an extra poll is asked for at the next boundary (R533) -/
  rescan : Bool
  /-- the extra poll is due (R533) -/
  rescanDue : Bool
  /-- tick at which the dropped field may return (R537) -/
  fieldBack : Option Nat
  /-- a field is at the tag port (R540) -/
  tagField : Bool
  /-- STATUS.TAG (R540) -/
  tagState : TagState
  /-- powered mode (STATUS.MODE 0) (R540) -/
  tagPowered : Bool
  /-- an ISO-DEP session is active (R547) -/
  tagSession : Bool
  /-- tick at which the latest frame at the tag port ends (R546) -/
  tagFrameEnd : Nat
  /-- the far access in progress waits for the tag's frame (R546) -/
  hostWaiting : Bool
  /-- image before the latest WRITE, until its response has been sent (R548) -/
  undo : Option Mem
  /-- berth of KIND 4 (R539) -/
  tagBerth : Option Nat
  /-- key of the running authentication (R530) -/
  tagKey : Bytes
  /-- RA (R530) -/
  tagRa : Bytes
  /-- RB (R530) -/
  tagRb : Bytes
  /-- CRED of the authentication (R530) -/
  tagCred : BitVec 64
  /-- end of the failure delay (R550) -/
  delayUntil : Option Nat
  /-- tick at which HARV went on (R551) -/
  harvOn : Option Nat
  /-- index of the record whose on-time is still open (R552) -/
  harvRec : Option Nat
  /-- non-volatile tag memory image, 8 KiB (R543) -/
  image : Mem
  /-- pending host writes in order (oldest first) (R547) -/
  hostWrites : List (Nat × Byte)
  /-- next harvest record of the ring (R552) -/
  recNext : Nat
  /-- tag UID, from test (R555) -/
  uid : BitVec 56
  /-- originality record, from test (R542) -/
  orig : Bytes
  /-- CARD_SEL (R555) -/
  cardSel : BitVec 2
  /-- CARD_INFO and CARD_UID (R555) -/
  cardView : CardView
  /-- COUNT.COLLISIONS (R555) -/
  collisions : BitVec 8
  /-- COUNT.FOREIGN (R528) -/
  foreign : BitVec 8
  /-- COUNT.OVERFLOW (R534) -/
  overflow : BitVec 8
  /-- COUNT.REACTIVATE (R537) -/
  reactivate : BitVec 8
  /-- TAG_COUNT.AUTH_FAIL (R555) -/
  authFail : BitVec 8
  /-- TAG_COUNT.ROLLBACKS (R548) -/
  rollbacks : BitVec 8
  /-- TAG_COUNT.HOST_WAITS (R546) -/
  hostWaits : BitVec 16
  /-- latest response of the tag, status word last (R529) -/
  response : Bytes
deriving DecidableEq, Repr

/-- `Nfc` as reset leaves it. -/
def Nfc.reset : Nfc where
  reader := 0#2
  cards := []
  lastReqa := 0
  rescan := false
  rescanDue := false
  fieldBack := none
  tagField := false
  tagState := .noField
  tagPowered := true
  tagSession := false
  tagFrameEnd := 0
  hostWaiting := false
  undo := none
  tagBerth := none
  tagKey := []
  tagRa := []
  tagRb := []
  tagCred := 0#64
  delayUntil := none
  harvOn := none
  harvRec := none
  image := []
  hostWrites := []
  recNext := 0
  uid := 0#56
  orig := []
  cardSel := 0#2
  cardView := CardView.reset
  collisions := 0#8
  foreign := 0#8
  overflow := 0#8
  reactivate := 0#8
  authFail := 0#8
  rollbacks := 0#8
  hostWaits := 0#16
  response := []

/-- One queued received frame (R586). -/
structure CanEntry where
  /-- word 0 (R586) -/
  id : BitVec 32
  /-- word 1 (R586) -/
  info : BitVec 32
  /-- stamp (R569) -/
  stamp : BitVec 48
  /-- low 16 bits of its tide number (R570) -/
  tide : BitVec 16
  /-- data bytes (R586) -/
  data : Bytes
deriving DecidableEq, Repr

/-- `CanEntry` as reset leaves it. -/
def CanEntry.reset : CanEntry where
  id := 0#32
  info := 0#32
  stamp := 0#48
  tide := 0#16
  data := []

/-- One outstanding transaction (R593). -/
structure CanTxn where
  /-- TAG (R593) -/
  tag : BitVec 8
  /-- EPOCH (R593) -/
  epoch : BitVec 4
  /-- tide of its stamp (R595) -/
  tide : BitVec 32
deriving DecidableEq, Repr

/-- `CanTxn` as reset leaves it. -/
def CanTxn.reset : CanTxn where
  tag := 0#8
  epoch := 0#4
  tide := 0#32

/-- One message object (R572 to R576). -/
structure MObj where
  /-- CFG as written (R573) -/
  cfg : Rwt 32
  /-- ID as written (R573) -/
  idr : Rwt 32
  /-- configuration in force (R573) -/
  cfgForce : BitVec 32
  /-- identifier in force (R573) -/
  idForce : BitVec 32
  /-- STATUS.CFG_PENDING (R573) -/
  cfgPending : Bool
  /-- STATUS.STATE (R588) -/
  st : ObjState
  /-- STATUS.TRIES (R588) -/
  tries : BitVec 8
  /-- CTRL.LEN (R575) -/
  len : BitVec 7
  /-- content of the transmit entry (R576) -/
  data : Bytes
  /-- length of the content last loaded (R576) -/
  loaded : Nat
  /-- a CANCEL waits for the end of the attempt (R591) -/
  cancel : Bool
  /-- the controller has changed owner while the object is on the air (R111) -/
  gone : Bool
  /-- the request waits for a power state that admits transmission (R560) -/
  heldReq : Bool
  /-- owned entries, oldest first (R581) -/
  queue : List CanEntry
  /-- pool entries allocated (R572) -/
  entries : Nat
  /-- next TAG (R593) -/
  tagNext : BitVec 8
  /-- outstanding requests (R593) -/
  txns : List CanTxn
deriving DecidableEq, Repr

/-- `MObj` as reset leaves it. -/
def MObj.reset : MObj where
  cfg := Rwt.of 0x01000100#32
  idr := Rwt.of 0#32
  cfgForce := 0x01000100#32
  idForce := 0#32
  cfgPending := false
  st := .disabled
  tries := 0#8
  len := 0#7
  data := []
  loaded := 0
  cancel := false
  gone := false
  heldReq := false
  queue := []
  entries := 0
  tagNext := 0#8
  txns := []

/-- One CAN controller (R556 to R600). -/
structure CanCtl where
  /-- CTRL.MODE (R600) -/
  mode : Rwt 2
  /-- STATUS.OWNER in force (R558) -/
  owner : BitVec 8
  /-- STATUS.STATE (R592) -/
  state : BitVec 2
  /-- STATUS.PROTO_EXC (R556) -/
  protoExc : Bool
  /-- STATUS.TEC (R592) -/
  tecN : Nat
  /-- STATUS.REC (R592) -/
  recN : Nat
  /-- EVENTS (R599) -/
  events : BitVec 8
  /-- IRQ_EN (R599) -/
  irqEn : BitVec 8
  /-- CLASH_COUNT (R589) -/
  clash : BitVec 16
  /-- COUNT.OVERRUN (R584) -/
  overrun : BitVec 8
  /-- COUNT.UNMATCHED (R579) -/
  unmatched : BitVec 8
  /-- COUNT.STALE (R594) -/
  stale : BitVec 8
  /-- FILT_CTRL.LEN (R577) -/
  filtLen : BitVec 7
  /-- FILT_CTRL.ACTIVE_LEN (R577) -/
  activeLen : BitVec 7
  /-- FILT_CTRL.ARMED (R577) -/
  armed : Bool
  /-- tick at which the swap was armed (R10) -/
  armedAt : Nat
  /-- LEN of an earlier write of the tide that had armed the swap already (R10) -/
  armedBefore : Option (BitVec 7)
  /-- shadow filter list (R577) -/
  shadow : Mem
  /-- active filter list (R577) -/
  active : Mem
  /-- filter list of the tide before the latest boundary, for frames stamped before it (R577) -/
  prevActive : Mem
  /-- its length (R577) -/
  prevLen : BitVec 7
  /-- RXSEL (R585) -/
  rxsel : BitVec 7
  /-- TXBUF (R576) -/
  txbuf : Mem
  /-- MOBJ[0..127] (R572) -/
  objs : List MObj
  /-- object on the air (R587) -/
  onAir : Option Nat
  /-- stamp of its start of frame (R569) -/
  onAirAt : Nat
deriving DecidableEq, Repr

/-- `CanCtl` as reset leaves it. -/
def CanCtl.reset : CanCtl where
  mode := Rwt.of 0#2
  owner := 0#8
  state := 0#2
  protoExc := false
  tecN := 0
  recN := 0
  events := 0#8
  irqEn := 0#8
  clash := 0#16
  overrun := 0#8
  unmatched := 0#8
  stale := 0#8
  filtLen := 0#7
  activeLen := 0#7
  armed := false
  armedAt := 0
  armedBefore := none
  shadow := []
  active := []
  prevActive := []
  prevLen := 0#7
  rxsel := 0#7
  txbuf := []
  objs := List.replicate 128 MObj.reset
  onAir := none
  onAirAt := 0

/-- The CAN block. -/
structure CanBlk where
  /-- CAN[0..7] (R600) -/
  ctl : List CanCtl
  /-- CAN.POOL.FREE (R572) -/
  free : Nat
  /-- CAN.POOL.TOTAL (R572) -/
  total : Nat
deriving DecidableEq, Repr

/-- `CanBlk` as reset leaves it. -/
def CanBlk.reset : CanBlk where
  ctl := List.replicate 8 CanCtl.reset
  free := 0
  total := 0

/-- One outstanding request (R618). -/
structure PierReq where
  /-- TAG (R618) -/
  tag : BitVec 8
  /-- EPOCH (R619) -/
  epoch : BitVec 4
  /-- TYPE (R616) -/
  typ : BitVec 8
  /-- ARG (R616) -/
  arg : BitVec 32
  /-- tide in which it was sent (R620) -/
  tide : BitVec 32
deriving DecidableEq, Repr

/-- `PierReq` as reset leaves it. -/
def PierReq.reset : PierReq where
  tag := 0#8
  epoch := 0#4
  typ := 0#8
  arg := 0#32
  tide := 0#32

/-- One message waiting to be sent (R615). -/
structure PierMsg where
  /-- TYPE (R615) -/
  typ : BitVec 8
  /-- TAG (R615) -/
  tag : BitVec 8
  /-- EPOCH, LAST and PROTECTED (R615) -/
  flags : BitVec 8
  /-- ARG (R615) -/
  arg : BitVec 32
  /-- body (R615) -/
  body : Bytes
deriving DecidableEq, Repr

/-- `PierMsg` as reset leaves it. -/
def PierMsg.reset : PierMsg where
  typ := 0#8
  tag := 0#8
  flags := 0#8
  arg := 0#32
  body := []

/-- One pier link (R601 to R643). -/
structure Pier where
  /-- STATE.STATE (R606) -/
  st : LinkState
  /-- first part of a CIR record that is arriving (R617) -/
  cirPart : Bytes
  /-- STATE.ADMIT (R643) -/
  admission : Admit
  /-- STATE.CAUSE (R634) -/
  cause : BitVec 4
  /-- STATE.BOUND (R622) -/
  bound : Bool
  /-- STATE.ANCHOR (R643) -/
  anchor : BitVec 6
  /-- PEER_LO and PEER_HI (R616) -/
  peerId : BitVec 64
  /-- PEER_SERIAL (R616) -/
  peerSerial : BitVec 32
  /-- PEER_INFO.FW (R616) -/
  peerFw : BitVec 16
  /-- PEER_INFO.LIFECYCLE (R616) -/
  peerLife : BitVec 2
  /-- PEER_INFO.READY (R616) -/
  peerReady : BitVec 7
  /-- FLEET_ID of the peer (R634) -/
  peerFleet : BitVec 64
  /-- LATENCY (R606) -/
  latency : BitVec 16
  /-- TRAIN.TIME (R643) -/
  trainTime : BitVec 16
  /-- TRAIN.FAILS (R606) -/
  trainFails : BitVec 16
  /-- BLOCKS.RESENT (R611) -/
  resent : BitVec 16
  /-- BLOCKS.NAK (R610) -/
  nak : BitVec 16
  /-- ERRORS.CRC (R610) -/
  crc : BitVec 16
  /-- ERRORS.CODE (R612) -/
  code : BitVec 16
  /-- TXN.STALE (R619) -/
  stale : BitVec 8
  /-- TXN.TIMEOUT (R620) -/
  timeout : BitVec 8
  /-- TXN.MARK_MISSED (R628) -/
  markMissed : BitVec 8
  /-- TXN.LATE_SCHED (R630) -/
  lateSched : BitVec 8
  /-- ADRIFT.COUNT (R643) -/
  adriftCount : BitVec 16
  /-- ADRIFT.LAST (R643) -/
  adriftLast : BitVec 4
  /-- EVENTS (R642) -/
  events : BitVec 8
  /-- IRQ_EN (R642) -/
  irqEn : BitVec 8
  /-- RADDR (R640) -/
  raddr : BitVec 20
  /-- RDATA (R640) -/
  rdata : BitVec 32
  /-- RSTATUS.BUSY (R640) -/
  rbusy : Bool
  /-- RSTATUS.RESULT (R640) -/
  rresult : BitVec 3
  /-- tick of the latest change of state (R606) -/
  since : Nat
  /-- the first retraining after going adrift has been made (R608) -/
  firstRetry : Bool
  /-- SEQ expected (R610) -/
  rxSeq : BitVec 4
  /-- a NAK for the present gap has been sent (R610) -/
  nakSent : Bool
  /-- SEQ of the next new block (R611) -/
  txSeq : BitVec 4
  /-- unacknowledged blocks, oldest first, with how often each has been sent again (R611) -/
  window : List (Nat × List PierMsg)
  /-- tick since which no ACK has advanced the window (R611) -/
  ackFrom : Nat
  /-- next TAG (R618) -/
  tagNext : BitVec 8
  /-- outstanding requests (R618) -/
  reqs : List PierReq
  /-- requests that wait for one of the 32 to retire (R618) -/
  waiting : List PierMsg
  /-- messages waiting, in class order (R617) -/
  msgs : List PierMsg
  /-- NH (R622) -/
  nh : Bytes
  /-- NT (R622) -/
  nt : Bytes
  /-- K_bind (R622) -/
  kbind : Bytes
  /-- COUNTER of the next protected message sent (R623) -/
  txCtr : BitVec 64
  /-- COUNTER last accepted (R623) -/
  rxCtr : Option (BitVec 64)
  /-- the image has been pushed since the latest enumeration (R635) -/
  pushed : Bool
  /-- the tender joins service at the next boundary (R637) -/
  joins : Bool
  /-- SLACK has been sent (R631) -/
  slackAsked : Bool
  /-- the binding waits for the random number generator (R622) -/
  bindDue : Bool
  /-- the push under way is a firmware image (R707) -/
  fwPush : Bool
deriving DecidableEq, Repr

/-- `Pier` as reset leaves it. -/
def Pier.reset : Pier where
  st := .disabled
  cirPart := []
  admission := .none
  cause := 0#4
  bound := false
  anchor := 0#6
  peerId := 0#64
  peerSerial := 0#32
  peerFw := 0#16
  peerLife := 0#2
  peerReady := 0#7
  peerFleet := 0#64
  latency := 0#16
  trainTime := 0#16
  trainFails := 0#16
  resent := 0#16
  nak := 0#16
  crc := 0#16
  code := 0#16
  stale := 0#8
  timeout := 0#8
  markMissed := 0#8
  lateSched := 0#8
  adriftCount := 0#16
  adriftLast := 0#4
  events := 0#8
  irqEn := 0#8
  raddr := 0#20
  rdata := 0#32
  rbusy := false
  rresult := 0#3
  since := 0
  firstRetry := false
  rxSeq := 0#4
  nakSent := false
  txSeq := 0#4
  window := []
  ackFrom := 0
  tagNext := 0#8
  reqs := []
  waiting := []
  msgs := []
  nh := []
  nt := []
  kbind := []
  txCtr := 0#64
  rxCtr := none
  pushed := false
  joins := false
  slackAsked := false
  bindDue := false
  fwPush := false

/-- All pier links and the global registers. -/
structure PierBlk where
  /-- PIER[0..31] (R643) -/
  links : List Pier
  /-- START.ENUMERATED (R643) -/
  enumerated : BitVec 6
  /-- START.NEXT: 63 when none (reset of the register is 0 until enumeration is first planned) (R643) -/
  next : BitVec 6
  /-- enumeration has begun (R634) -/
  started : Bool
  /-- links still to be enumerated, in order (R634) -/
  order : List Nat
  /-- SERVING (R637) -/
  serving : BitVec 32
  /-- upstream port of a tender (R603) -/
  upstream : Option (BitVec 5)
  /-- links whose tender is owed a copy of the harvest key table (R553) -/
  harvDue : BitVec 32
deriving DecidableEq, Repr

/-- `PierBlk` as reset leaves it. -/
def PierBlk.reset : PierBlk where
  links := List.replicate 32 Pier.reset
  enumerated := 0#6
  next := 63#6
  started := false
  order := []
  serving := 0#32
  upstream := none
  harvDue := 0#32

/-- An image being received from the harbourmaster (R635, R707). -/
structure Push where
  /-- a firmware image (R707) -/
  fw : Bool
  /-- serial announced (R616) -/
  serial : BitVec 32
  /-- length announced (R616) -/
  len : Nat
  /-- bytes received in order (R621) -/
  got : Nat
  /-- the image (R635) -/
  data : Mem
  /-- a gap discarded it (R621) -/
  bad : Bool
  /-- the image verified (R636) -/
  done : Bool
  /-- pushed under enumeration, to be adopted from SRAM (R636) -/
  adopt : Bool
deriving DecidableEq, Repr

/-- `Push` as reset leaves it. -/
def Push.reset : Push where
  fw := false
  serial := 0#32
  len := 0
  got := 0
  data := []
  bad := false
  done := false
  adopt := false

/-- What the device keeps when it is a tender (chapter 14). -/
structure Tender where
  /-- push in progress or received (R635) -/
  push : Option Push
  /-- verified image pushed under enumeration, to be adopted at the next boundary (R636) -/
  adopt : Option Push
  /-- its bank is being written (R636) -/
  writing : Bool
  /-- TAG and EPOCH of the PUSH_END of a commit that waits for the read-back (R636) -/
  pushRq : Option (BitVec 8 × BitVec 4)
  /-- adopted image that runs from SRAM until its bank is written (R636) -/
  own : Option Push
  /-- serial of an adopted image in its bank, which the bank record names at the next boundary (R102) -/
  recordDue : Option (BitVec 32)
  /-- a TIDE has come since the link last trained, so that the tide number is the harbourmaster's (R626) -/
  synced : Bool
  /-- commit tide given by COMMIT_AT (R99) -/
  commitTide : Option (BitVec 32)
  /-- firmware switch tide (R707) -/
  fwTide : Option (BitVec 32)
  /-- own stamp of MARK not yet followed by TIDE (R626) -/
  markAt : Option Nat
  /-- timebase phase correction applied so far, in ticks (R627) -/
  phase : Int
  /-- work instants of the tide and their descriptions (R630) -/
  sched : List (Nat × Bytes)
  /-- harbourmaster's DEVICE_ID (R616) -/
  hostDev : BitVec 64
  /-- anchor number given by ENUM (R81) -/
  enumAnchor : Nat
  /-- harvest table copy to be taken at the next tag idle: NKEYS, then the table (R553) -/
  harvPend : Mem
  /-- bytes of a harvest table received without a gap; none while no table arrives (R621) -/
  harvGot : Option Nat
  /-- such a copy waits (R553) -/
  harvHave : Bool
  /-- TAG and EPOCH of the BIND that waits for NT (R622) -/
  bindReq : BitVec 8 × BitVec 4
deriving DecidableEq, Repr

/-- `Tender` as reset leaves it. -/
def Tender.reset : Tender where
  push := none
  adopt := none
  writing := false
  pushRq := none
  own := none
  recordDue := none
  synced := false
  commitTide := none
  fwTide := none
  markAt := none
  phase := 0
  sched := []
  hostDev := 0#64
  enumAnchor := 0
  harvPend := []
  harvGot := none
  harvHave := false
  bindReq := (0#8, 0#4)

/-- Supplies, resets, watchdog and core pairs: R683 to R711 (chapter 16). -/
structure Sys where
  /-- RESET_CAUSE.CAUSE (R691) -/
  cause : BitVec 3
  /-- cause of the reset whose main start is to come (R691) -/
  causeNext : BitVec 3
  /-- RESET_CAUSE.SUPPLY (R718) -/
  supply : BitVec 8
  /-- supplies in brown-out of the reset in progress (R718) -/
  supplyNext : BitVec 8
  /-- RESET_CAUSE.PAIR_RESTARTS (R692) -/
  pairRestarts : BitVec 16
  /-- SUPPLY.LOW (R718) -/
  low : BitVec 7
  /-- SUPPLY.LATCH (R718) -/
  lowLatch : BitVec 7
  /-- VIO banks in brown-out: bit 0 host, 1 MFP, 2 CAN (R686) -/
  vioLow : BitVec 3
  /-- tick of the release of the main-domain reset (R684) -/
  resetAt : Nat
  /-- tide in which the latest reset fell (R710) -/
  resetTide : BitVec 32
  /-- a second fault fell before the restart boundary (R710) -/
  faulted : Bool
  /-- the reset followed a brown-out (R688) -/
  brown : Bool
  /-- tick of the detection that started the latest hold-up (R688) -/
  brownAt : Nat
  /-- main starts so far, to which the free value of the slew check applies (R711) -/
  powerUps : Nat
  /-- clean marker present in MRAM (R690) -/
  clean : Bool
  /-- VAON reached 2.90 V during a hold-up (R711) -/
  holdupDeep : Bool
  /-- tick of the latest watchdog service (R693) -/
  wdAt : Nat
  /-- tides since the latest service (R693) -/
  wdTides : Nat
  /-- pair A runs (R692) -/
  pairAUp : Bool
  /-- pair B runs (R692) -/
  pairBUp : Bool
  /-- tick at which pair A stopped (R692) -/
  pairAAt : Nat
  /-- tick at which pair B stopped (R692) -/
  pairBAt : Nat
  /-- lockstep faults: pair and tide (R691) -/
  pairFault : List (Nat × BitVec 32)
  /-- the AON domain counts on the crystal (R739) -/
  crystal : Bool
  /-- the current tide is the restart tide (R696) -/
  restartTide : Bool
  /-- verdicts are issued (from the boundary that ends the restart tide) (R697) -/
  verdictsFrom : Bool
deriving DecidableEq, Repr

/-- `Sys` as reset leaves it. -/
def Sys.reset : Sys where
  cause := 0#3
  causeNext := 0#3
  supply := 0#8
  supplyNext := 0#8
  pairRestarts := 0#16
  low := 0#7
  lowLatch := 0#7
  vioLow := 0#3
  resetAt := 64000
  resetTide := 0#32
  faulted := false
  brown := false
  brownAt := 0
  powerUps := 0
  clean := false
  holdupDeep := false
  wdAt := 0
  wdTides := 0
  pairAUp := false
  pairBUp := false
  pairAAt := 0
  pairBAt := 0
  pairFault := []
  crystal := false
  restartTide := false
  verdictsFrom := false

/-- One copy of the firmware bank record (R700). -/
structure FwRecord where
  /-- sequence number (R700) -/
  seq : Nat
  /-- active bank (R700) -/
  active : BitVec 1
  /-- TRIAL (R700) -/
  trial : Bool
  /-- version floor (R700) -/
  floor : BitVec 16
  /-- version in bank A (R700) -/
  verA : BitVec 16
  /-- version in bank B (R700) -/
  verB : BitVec 16
  /-- CRC valid (R700) -/
  crcOk : Bool
deriving DecidableEq, Repr

/-- `FwRecord` as reset leaves it. -/
def FwRecord.reset : FwRecord where
  seq := 0
  active := 0#1
  trial := false
  floor := 0#16
  verA := 0#16
  verB := 0#16
  crcOk := true

/-- Firmware import and banks: R700 to R707 (chapter 16). -/
structure Fw where
  /-- record copy 1 (R700) -/
  recA : FwRecord
  /-- record copy 2 (R700) -/
  recB : FwRecord
  /-- bank A (R700) -/
  bankA : Bank
  /-- bank B (R700) -/
  bankB : Bank
  /-- FW_STATUS.STATE (R703) -/
  state : FwState
  /-- BLOCK_RESULT (R703) -/
  blockResult : BitVec 2
  /-- RESULT (R703) -/
  result : BitVec 4
  /-- DETAIL (R703) -/
  detail : BitVec 8
  /-- FW_LEN (R702) -/
  fwLen : BitVec 22
  /-- length taken at OPEN (R702) -/
  len : Nat
  /-- FW_BLOCK (R702) -/
  block : BitVec 9
  /-- good blocks (R702) -/
  good : List Nat
  /-- tick of VERIFY or ACTIVATE (R704) -/
  verifyAt : Nat
  /-- FW_SWITCH_TIDE (R703) -/
  switchTide : BitVec 32
  /-- switch tide chosen (R703) -/
  armed : BitVec 32
  /-- FW_INFO.STAGED (R718) -/
  stagedVer : BitVec 16
  /-- FLOOR of the staged image (R701) -/
  stagedFloor : BitVec 16
  /-- FW_TRIAL.LEFT (R718) -/
  left : BitVec 11
  /-- pair B runs the new bank (R705) -/
  hoB : Bool
  /-- pair A runs the new bank (R705) -/
  hoA : Bool
  /-- links pushed to and not ready (R703) -/
  pushSet : BitVec 32
  /-- links of all tenders pushed to (R703) -/
  pushAll : BitVec 32
  /-- own bank read back (R703) -/
  ownRead : Bool
deriving DecidableEq, Repr

/-- `Fw` as reset leaves it. -/
def Fw.reset : Fw where
  recA := FwRecord.reset
  recB := FwRecord.reset
  bankA := Bank.reset
  bankB := Bank.reset
  state := .idle
  blockResult := 0#2
  result := 0#4
  detail := 0#8
  fwLen := 0#22
  len := 0
  block := 0#9
  good := []
  verifyAt := 0
  switchTide := 0#32
  armed := 0#32
  stagedVer := 0#16
  stagedFloor := 0#16
  left := 0#11
  hoB := false
  hoA := false
  pushSet := 0#32
  pushAll := 0#32
  ownRead := false

/-- One logbook record (R712). -/
structure LogRec where
  /-- SEQ (R712) -/
  seq : BitVec 32
  /-- tide number (R712) -/
  tide : BitVec 32
  /-- timebase (R712) -/
  stamp : BitVec 48
  /-- KIND (R713) -/
  kind : BitVec 8
  /-- DATA, 44 bytes (zero-filled) (R713) -/
  data : Bytes
  /-- CRC-32C valid (R714) -/
  crcOk : Bool
deriving DecidableEq, Repr

/-- `LogRec` as reset leaves it. -/
def LogRec.reset : LogRec where
  seq := 0#32
  tide := 0#32
  stamp := 0#48
  kind := 0#8
  data := []
  crcOk := true

/-- Logbook: R712 to R718 (chapter 16). -/
structure Logbook where
  /-- records held, newest first, at most 32,768 (R712) -/
  ring : List LogRec
  /-- HEAD (R718) -/
  head : BitVec 32
  /-- TAIL (R718) -/
  tail : BitVec 32
  /-- MARK (R716) -/
  mark : BitVec 32
  /-- CP_SEQ (R718) -/
  cpSeq : BitVec 32
  /-- last SEQ the latest checkpoint covers (R715) -/
  cpLast : BitVec 32
  /-- DIGEST of the latest checkpoint (R715) -/
  digest : Bytes
  /-- SEQ of the checkpoint record under signature (R715) -/
  cpNew : BitVec 32
  /-- LAST_SEQ of the checkpoint under signature (R715) -/
  cpNewLast : BitVec 32
  /-- DIGEST of the checkpoint under signature (R715) -/
  cpNewDigest : Bytes
  /-- STATUS.DUE (R715) -/
  due : Bool
  /-- the host demanded the due checkpoint (note D10) (R140) -/
  demand : Bool
  /-- the due checkpoint has been deferred for its budget (R509) -/
  deferred : Bool
  /-- tick from which time in WATCH, SERVICE or DRIVE is counted (R715) -/
  activeFrom : Nat
  /-- ticks spent in those states since the latest checkpoint fell due (R715) -/
  activeSpent : Nat
  /-- SEL (R718) -/
  sel : BitVec 32
  /-- RECORD as copied (R718) -/
  record : Bytes
deriving DecidableEq, Repr

/-- `Logbook` as reset leaves it. -/
def Logbook.reset : Logbook where
  ring := []
  head := 0#32
  tail := 0#32
  mark := 0#32
  cpSeq := 0#32
  cpLast := 0#32
  digest := []
  cpNew := 0#32
  cpNewLast := 0#32
  cpNewDigest := []
  due := false
  demand := false
  deferred := false
  activeFrom := 0
  activeSpent := 0
  sel := 0#32
  record := []

/-- Multi-function and other pins of this device (R699, chapter 2). -/
structure Pins where
  /-- MFP input levels as active (after polarity) (R699) -/
  inputs : BitVec 24
  /-- MFP outputs active (R699) -/
  outputs : BitVec 24
  /-- MFP outputs are driven (not high-impedance) (R699) -/
  driven : Bool
  /-- running latch pulses: pin and tick of the end (R342) -/
  pulses : List (BitVec 5 × Nat)
  /-- amplifier enables: pin, from tick, to tick (R219) -/
  windows : List (Nat × Nat × Nat)
  /-- rule actions performed at the latest publication: RULE_ID and cause berth, in order (R341) -/
  actions : List (BitVec 8 × Nat)
deriving DecidableEq, Repr

/-- `Pins` as reset leaves it. -/
def Pins.reset : Pins where
  inputs := 0#24
  outputs := 0#24
  driven := false
  pulses := []
  windows := []
  actions := []

/-- What Frandowa test writes (R682). -/
structure Ident where
  /-- DEVICE_ID (R682) -/
  device : BitVec 64
deriving DecidableEq, Repr

/-- `Ident` as reset leaves it. -/
def Ident.reset : Ident where
  device := 1#64

/-- The whole state of one Idusk 7256 and the queue of commands that wait for it. -/
structure State where
  /-- commands waiting, first in first out (the model's own) -/
  pending : List Instr
  /-- timebase in ticks of 15.625 ns; its low 48 bits are the 48-bit counter (R15) -/
  now : Nat
  /-- host port (R644) -/
  port : Port
  /-- interrupt controller (R669) -/
  intc : Intc
  /-- tide unit (R121) -/
  tide : Tide
  /-- berth table (R23) -/
  bt : BerthTable
  /-- proximity verdict engine (R311) -/
  ver : Verdict
  /-- manifest settings in force (R102) -/
  cfg : Settings
  /-- MANIFEST block (R95) -/
  mf : Manifest
  /-- low-frequency field block (R160) -/
  lf : Lf
  /-- ultra-wideband block (R211) -/
  uwb : Uwb
  /-- narrowband radio block (R272) -/
  nb : Nb
  /-- member register (R353) -/
  reg : MemberReg
  /-- lock keeper (R399) -/
  lk : LockKeeper
  /-- key store (R445) -/
  keys : Keys
  /-- crypto engines (R488) -/
  cry : Crypto
  /-- random number generator (R513) -/
  trng : Trng
  /-- NFC block (R527) -/
  nfc : Nfc
  /-- CAN controllers (R556) -/
  can : CanBlk
  /-- pier links (R601) -/
  pier : PierBlk
  /-- tender side (R118) -/
  tend : Tender
  /-- supplies and resets (R683) -/
  sys : Sys
  /-- firmware banks (R700) -/
  fw : Fw
  /-- logbook (R712) -/
  log : Logbook
  /-- pins (R699) -/
  pins : Pins
  /-- identity (R682) -/
  ident : Ident
deriving DecidableEq, Repr

/-- `State` as reset leaves it. -/
def State.reset : State where
  pending := []
  now := 0
  port := Port.reset
  intc := Intc.reset
  tide := Tide.reset
  bt := BerthTable.reset
  ver := Verdict.reset
  cfg := Settings.reset
  mf := Manifest.reset
  lf := Lf.reset
  uwb := Uwb.reset
  nb := Nb.reset
  reg := MemberReg.reset
  lk := LockKeeper.reset
  keys := Keys.reset
  cry := Crypto.reset
  trng := Trng.reset
  nfc := Nfc.reset
  can := CanBlk.reset
  pier := PierBlk.reset
  tend := Tender.reset
  sys := Sys.reset
  fw := Fw.reset
  log := Logbook.reset
  pins := Pins.reset
  ident := Ident.reset

end Sys2Proof.Machine
end

