-- ==== Sys2Proof/Machine/Bits.lean ====
section
/-! DEFINITION. Bits, bytes, byte order, counters and sparse memories: the small words in which
the meanings are written. -/

namespace Sys2Proof.Machine

/-- `v` with bit `n` made `b`. -/
def setBit {w : Nat} (v : BitVec w) (n : Nat) (b : Bool) : BitVec w :=
  if b then v ||| (1#w <<< n) else v &&& ~~~(1#w <<< n)

/-- The word with bit `n` alone. -/
def bitMask (w n : Nat) : BitVec w := 1#w <<< n

/-- The counter that stays at its largest value. -/
def satInc {w : Nat} (v : BitVec w) : BitVec w :=
  if v = BitVec.allOnes w then v else v + 1#w

/-- `k` counts at once of a counter that stays at its largest value. -/
def satAdd {w : Nat} (v : BitVec w) (k : Nat) : BitVec w :=
  BitVec.ofNat w (min (v.toNat + k) (2 ^ w - 1))

/-- The bit-field `v[hi:lo]` as a number. -/
def fieldN {w : Nat} (v : BitVec w) (hi lo : Nat) : Nat := v.toNat / 2 ^ lo % 2 ^ (hi + 1 - lo)

/-- The value `n` placed at bit `lo` of a 32-bit register. -/
def at32 (lo : Nat) (n : Nat) : BitVec 32 := BitVec.ofNat 32 (n * 2 ^ lo)

/-- A register value put together from its fields. -/
def fields32 (fs : List (Nat × Nat)) : BitVec 32 :=
  fs.foldl (fun v f => v ||| at32 f.1 f.2) 0#32

/-- A Bool as a bit-field. -/
def b2n (b : Bool) : Nat := if b then 1 else 0

/-- The numbers of the bits set in `v`, lowest first. -/
def bitsOf {w : Nat} (v : BitVec w) : List Nat := (List.range w).filter (fun n => v.getLsbD n)

/-- The word with the listed bits set. -/
def ofBits (w : Nat) (l : List Nat) : BitVec w := l.foldl (fun v n => v ||| bitMask w n) 0#w

/-- How many bits of `v` are set. -/
def popCount {w : Nat} (v : BitVec w) : Nat := (bitsOf v).length

/-- An integer as a two's complement word, clamped to its range. -/
def clampInt (w : Nat) (v : Int) : BitVec w :=
  BitVec.ofInt w (max (-(2 ^ (w - 1) : Int)) (min v (2 ^ (w - 1) - 1)))

/-- A number as a word, clamped at its largest value. -/
def clampNat (w : Nat) (n : Nat) : BitVec w := BitVec.ofNat w (min n (2 ^ w - 1))

/-! Byte strings (R20: little-endian). -/

/-- `n` bytes of `v`, least significant first (R20). -/
def le (n v : Nat) : Bytes := (List.range n).map fun i => BitVec.ofNat 8 (v / 256 ^ i)

/-- The number that little-endian bytes hold (R20). -/
def ofLe (b : Bytes) : Nat := b.foldr (fun x acc => x.toNat + 256 * acc) 0

/-- `n` bytes of `v`, most significant first. -/
def be (n v : Nat) : Bytes := (le n v).reverse

/-- The number that big-endian bytes hold. -/
def ofBe (b : Bytes) : Nat := ofLe b.reverse

/-- Bytes `off` up to `off + n` of `b`, 0 beyond its end. -/
def slice (b : Bytes) (off n : Nat) : Bytes :=
  let t := (b.drop off).take n
  t ++ List.replicate (n - t.length) 0#8

/-- Little-endian number at an offset of a byte string. -/
def leAt (b : Bytes) (off n : Nat) : Nat := ofLe (slice b off n)

/-- Byte `i` of a byte string, 0 beyond its end. -/
def byteAt (b : Bytes) (i : Nat) : Nat := (b.getD i 0#8).toNat

/-- `b` cut or zero-filled to `n` bytes. -/
def padTo (n : Nat) (b : Bytes) : Bytes := slice b 0 n

/-- Exclusive or of two byte strings, as long as the shorter. -/
def xorBytes (a b : Bytes) : Bytes := List.zipWith (· ^^^ ·) a b

/-- The bytes of a text. -/
def ascii (s : String) : Bytes := s.toList.map fun c => BitVec.ofNat 8 c.toNat

/-- A signed 16-bit number at an offset. -/
def i16At (b : Bytes) (off : Nat) : Int := (BitVec.ofNat 16 (leAt b off 2)).toInt

/-- `b` cut into pieces of `n` bytes (the last may be shorter), at most `fuel` of them. -/
def chunks (n : Nat) : Nat → Bytes → List Bytes
  | 0, _ => []
  | fuel + 1, b => if b.isEmpty then [] else b.take n :: chunks n fuel (b.drop n)

/-! Sparse memories. -/

/-- The canonical form: offsets strictly rising and no byte 0 listed. -/
def Mem.wf : Mem → Bool
  | [] => true
  | [(_, v)] => v != 0#8
  | (a, v) :: (b, w) :: r => v != 0#8 && a < b && Mem.wf ((b, w) :: r)

/-- The byte at offset `a`: 0 where nothing is listed (log entry 4). -/
def Mem.read : Mem → Nat → Byte
  | [], _ => 0#8
  | (b, v) :: r, a => if a = b then v else Mem.read r a

/-- The memory with nothing listed at offset `a`. -/
def Mem.without (m : Mem) (a : Nat) : Mem := m.filter fun p => p.1 != a

/-- The memory with `v` listed at offset `a`, before what lies above it. -/
def Mem.put : Mem → Nat → Byte → Mem
  | [], a, v => [(a, v)]
  | p :: r, a, v => if a < p.1 then (a, v) :: p :: r else p :: Mem.put r a v

/-- The memory with `v` at offset `a`. -/
def Mem.write (m : Mem) (a : Nat) (v : Byte) : Mem :=
  if v = 0#8 then Mem.without m a else Mem.put (Mem.without m a) a v

/-- The memory with the bytes of `d` from offset `a`. -/
def Mem.store (m : Mem) (a : Nat) : Bytes → Mem
  | [] => m
  | v :: r => Mem.store (Mem.write m a v) (a + 1) r

/-- `n` bytes from offset `a`. -/
def Mem.load (m : Mem) (a n : Nat) : Bytes := (List.range n).map fun i => Mem.read m (a + i)

/-- Little-endian number of `n` bytes from offset `a` (R20). -/
def Mem.num (m : Mem) (a n : Nat) : Nat := ofLe (Mem.load m a n)

/-- A 16-bit half word at an even offset (R646). -/
def Mem.half (m : Mem) (a : Nat) : BitVec 16 := BitVec.ofNat 16 (Mem.num m a 2)

/-- The memory with a 16-bit half word stored at an even offset (R646). -/
def Mem.setHalf (m : Mem) (a : Nat) (d : BitVec 16) : Mem := Mem.store m a (le 2 d.toNat)

/-! Small tables kept as lists of a key and a value, newest binding first. -/

/-- The value bound to `k`. -/
def tableGet {α β : Type} [DecidableEq α] (l : List (α × β)) (k : α) : Option β :=
  (l.find? (fun p => p.1 = k)).map (·.2)

/-- `l` without a binding of `k`. -/
def unbind {α β : Type} [DecidableEq α] (l : List (α × β)) (k : α) : List (α × β) :=
  l.filter (fun p => p.1 ≠ k)

/-- `l` with `k` bound to `v`. -/
def bindTo {α β : Type} [DecidableEq α] (l : List (α × β)) (k : α) (v : β) : List (α × β) :=
  (k, v) :: unbind l k

/-- Element `n` of a list changed by `f`. -/
def modAt {α : Type} (l : List α) (n : Nat) (f : α → α) : List α := l.modify n f

/-- `x` put before the first element that it precedes under `before`. -/
def insertBefore {α : Type} (before : α → α → Bool) (x : α) : List α → List α
  | [] => [x]
  | y :: r => if before x y then x :: y :: r else y :: insertBefore before x r

/-- A list in the order of `before`, a strict order; elements that neither precedes keep their order. -/
def orderBy {α : Type} (before : α → α → Bool) (l : List α) : List α :=
  l.foldl (fun acc x => insertBefore before x acc) []

/-! Registers of access code RWT (R9, R10). -/

/-- A write of `v` at tick `t`: of the writes in one tide the last counts. -/
def Rwt.write {w : Nat} (r : Rwt w) (t : Nat) (v : BitVec w) : Rwt w :=
  if r.wroteAt = t then { r with stored := v }
  else { r with prev := r.stored, stored := v, wroteAt := t }

/-- The value that takes force at a boundary at tick `t`: a write that completes in the
boundary's own tick waits for the following boundary (R10). -/
def Rwt.due {w : Nat} (r : Rwt w) (t : Nat) : BitVec w := if r.wroteAt = t then r.prev else r.stored

/-- The register where no value is `v` any more: zero stands for it. -/
def Rwt.without {w : Nat} (r : Rwt w) (v : BitVec w) : Rwt w :=
  let f (x : BitVec w) : BitVec w := if x = v then 0#w else x
  { r with force := f r.force, prev := f r.prev, stored := f r.stored }

/-- The register after a boundary at tick `t`. -/
def Rwt.boundary {w : Nat} (r : Rwt w) (t : Nat) : Rwt w := { r with force := r.due t }

end Sys2Proof.Machine
end

