-- ==== Sys2Proof/Machine/Hash.lean ====
section
/-! DEFINITION. The algorithms that the spec names by their standards: CRC-32C, AES of FIPS 197,
AES-CMAC, CTR_DRBG of SP 800-90A, SHAKE256 of FIPS 202, KMAC256 of SP 800-185 and XMSS_verify of
RFC 8391 with the SHAKE256 sets of SP 800-208. The spec gives the names and parameters; the inner
steps come from the standards (PRESUMED, log entry 8). -/

namespace Sys2Proof.Machine

/-! Checksums. -/

/-- One byte into a reflected CRC of width `w` with reflected polynomial `p`. -/
def crcByte {w : Nat} (p : BitVec w) (c : BitVec w) (b : Byte) : BitVec w :=
  (List.range 8).foldl (fun c _ => if c.getLsbD 0 then (c >>> 1) ^^^ p else c >>> 1)
    (c ^^^ b.setWidth w)

/-- CRC-32C (Castagnoli) of a byte string. -/
def crc32c (b : Bytes) : BitVec 32 := ~~~(b.foldl (crcByte 0x82F63B78#32) 0xFFFFFFFF#32)

/-! AES (R488). -/

/-- Doubling in the field of FIPS 197. -/
def xtime (a : Byte) : Byte := if a.getLsbD 7 then (a <<< 1) ^^^ 0x1B#8 else a <<< 1

/-- Product in the field of FIPS 197. -/
def gmul (a b : Byte) : Byte :=
  ((List.range 8).foldl
    (fun (s : Byte × Byte) i => (if b.getLsbD i then s.1 ^^^ s.2 else s.1, xtime s.2)) (0#8, a)).1

/-- The inverse of the field, 0 for 0. -/
def ginv (a : Byte) : Byte :=
  let sq (x : Byte) := gmul x x
  let a2 := sq a; let a4 := sq a2; let a8 := sq a4; let a16 := sq a8
  let a32 := sq a16; let a64 := sq a32; let a128 := sq a64
  gmul a2 (gmul a4 (gmul a8 (gmul a16 (gmul a32 (gmul a64 a128)))))

/-- The S-box of FIPS 197. -/
def sbox (a : Byte) : Byte :=
  let b := ginv a
  b ^^^ b.rotateLeft 1 ^^^ b.rotateLeft 2 ^^^ b.rotateLeft 3 ^^^ b.rotateLeft 4 ^^^ 0x63#8

/-- The inverse S-box of FIPS 197. -/
def invSbox (a : Byte) : Byte :=
  ginv (a.rotateLeft 1 ^^^ a.rotateLeft 3 ^^^ a.rotateLeft 6 ^^^ 0x05#8)

/-- Word `i` of the key schedule from the words before it (newest first). -/
def keyWord (nk i : Nat) (ws : List Bytes) : Bytes :=
  let prev := ws.getD 0 []
  let t :=
    if i % nk = 0 then
      let r := ((prev.drop 1) ++ prev.take 1).map sbox
      xorBytes r [(List.range (i / nk - 1)).foldl (fun c _ => xtime c) 1#8, 0#8, 0#8, 0#8]
    else if nk > 6 ∧ i % nk = 4 then prev.map sbox
    else prev
  xorBytes (ws.getD (nk - 1) []) t

/-- The round keys of FIPS 197, 16 bytes each, for a key of 16, 24 or 32 bytes. -/
def roundKeys (key : Bytes) : List Bytes :=
  let nk := key.length / 4
  let n := 4 * (nk + 7)
  let ws := (List.range (n - nk)).foldl (fun ws j => keyWord nk (nk + j) ws :: ws)
    (chunks 4 nk key).reverse
  chunks 16 n (ws.reverse.flatten)

/-- Rows of the state turned left by their number; `k` is 1 for the cipher and 3 for its inverse. -/
def shiftRows (k : Nat) (b : Bytes) : Bytes :=
  (List.range 16).map fun i => b.getD (4 * ((i / 4 + k * (i % 4)) % 4) + i % 4) 0#8

/-- One column times the circulant matrix of `m`. -/
def mixCol (m : List Byte) (c : Bytes) : Bytes :=
  (List.range 4).map fun r =>
    (List.range 4).foldl (fun acc j => acc ^^^ gmul (m.getD ((j + 4 - r) % 4) 0#8) (c.getD j 0#8)) 0#8

/-- All four columns times the matrix of `m`. -/
def mixCols (m : List Byte) (b : Bytes) : Bytes := ((chunks 4 4 b).map (mixCol m)).flatten

/-- The cipher of FIPS 197 on one block of 16 bytes. -/
def aesEnc (key block : Bytes) : Bytes :=
  match roundKeys key with
  | [] => block
  | k0 :: ks =>
    let s := (ks.dropLast).foldl
      (fun s k => xorBytes (mixCols [2#8, 3#8, 1#8, 1#8] (shiftRows 1 (s.map sbox))) k)
      (xorBytes block k0)
    xorBytes (shiftRows 1 (s.map sbox)) (ks.getLastD [])

/-- The inverse cipher of FIPS 197 on one block of 16 bytes. -/
def aesDec (key block : Bytes) : Bytes :=
  match (roundKeys key).reverse with
  | [] => block
  | k0 :: ks =>
    let s := (ks.dropLast).foldl
      (fun s k => mixCols [14#8, 11#8, 13#8, 9#8] (xorBytes ((shiftRows 3 s).map invSbox) k))
      (xorBytes block k0)
    xorBytes ((shiftRows 3 s).map invSbox) (ks.getLastD [])

/-- Doubling of a 16-byte block in the field of AES-CMAC. -/
def cmacDouble (b : Bytes) : Bytes :=
  let v : BitVec 128 := BitVec.ofNat 128 (ofBe b)
  be 16 (if v.getLsbD 127 then (v <<< 1) ^^^ 0x87#128 else v <<< 1).toNat

/-- AES-CMAC, 16 bytes. -/
def cmac (key msg : Bytes) : Bytes :=
  let k1 := cmacDouble (aesEnc key (List.replicate 16 0#8))
  let n := (msg.length + 15) / 16
  let full := n ≠ 0 ∧ msg.length % 16 = 0
  let last := if full then xorBytes (msg.drop (16 * (n - 1))) k1
    else xorBytes (padTo 16 (msg.drop (16 * (n - 1)) ++ [0x80#8])) (cmacDouble k1)
  let x := (chunks 16 (n - 1) msg).foldl (fun x b => aesEnc key (xorBytes x b))
    (List.replicate 16 0#8)
  aesEnc key (xorBytes x last)

/-- Key stream of AES in counter mode from a 16-byte big-endian counter block, `n` bytes. -/
def ctrStream (key ctr : Bytes) (n : Nat) : Bytes :=
  (((List.range ((n + 15) / 16)).map fun i => aesEnc key (be 16 (ofBe ctr + i))).flatten).take n

/-- CBC-MAC of whole blocks. -/
def cbcMac (key : Bytes) (bs : List Bytes) : Bytes :=
  bs.foldl (fun x b => aesEnc key (xorBytes x b)) (List.replicate 16 0#8)

/-- `b` filled with zero bytes to whole blocks of 16. -/
def pad16 (b : Bytes) : Bytes := padTo ((b.length + 15) / 16 * 16) b

/-- The tag of CCM before its encryption: 13-byte nonce, 16-byte tag, 2-byte length (SP 800-38C). -/
def ccmMac (key nonce aad msg : Bytes) : Bytes :=
  let b0 := (if aad.isEmpty then 0x39#8 else 0x79#8) :: (nonce ++ be 2 msg.length)
  let a := if aad.isEmpty then [] else pad16 (be 2 aad.length ++ aad)
  cbcMac key (chunks 16 4096 (b0 ++ a ++ pad16 msg))

/-- The counter block `i` of CCM. -/
def ccmCtr (nonce : Bytes) (i : Nat) : Bytes := 1#8 :: (nonce ++ be 2 i)

/-- CCM encryption: the ciphertext followed by its 16-byte tag. -/
def ccmSeal (key nonce aad msg : Bytes) : Bytes :=
  xorBytes msg (ctrStream key (ccmCtr nonce 1) msg.length) ++
    xorBytes (ccmMac key nonce aad msg) (aesEnc key (ccmCtr nonce 0))

/-- CCM decryption, none where the tag fails. -/
def ccmOpen (key nonce aad sealed : Bytes) : Option Bytes :=
  let n := sealed.length - 16
  let msg := xorBytes (sealed.take n) (ctrStream key (ccmCtr nonce 1) n)
  if 16 ≤ sealed.length ∧
      xorBytes (ccmMac key nonce aad msg) (aesEnc key (ccmCtr nonce 0)) = sealed.drop n then some msg
  else none

/-! SHAKE256 and KMAC256 (R496). -/

/-- Rotation offsets of the lanes, lane x + 5 y. -/
def keccakRot : List Nat :=
  [0, 1, 62, 28, 27, 36, 44, 6, 55, 20, 3, 10, 43, 25, 39, 41, 45, 15, 21, 8, 18, 2, 61, 56, 14]

/-- Round constants. -/
def keccakRc : List (BitVec 64) :=
  [0x0000000000000001#64, 0x0000000000008082#64, 0x800000000000808A#64, 0x8000000080008000#64,
   0x000000000000808B#64, 0x0000000080000001#64, 0x8000000080008081#64, 0x8000000000008009#64,
   0x000000000000008A#64, 0x0000000000000088#64, 0x0000000080008009#64, 0x000000008000000A#64,
   0x000000008000808B#64, 0x800000000000008B#64, 0x8000000000008089#64, 0x8000000000008003#64,
   0x8000000000008002#64, 0x8000000000000080#64, 0x000000000000800A#64, 0x800000008000000A#64,
   0x8000000080008081#64, 0x8000000000008080#64, 0x0000000080000001#64, 0x8000000080008008#64]

/-- One round of Keccak-f[1600] on 25 lanes. -/
def keccakRound (a : List (BitVec 64)) (rc : BitVec 64) : List (BitVec 64) :=
  let l (a : List (BitVec 64)) (i : Nat) := a.getD i 0#64
  let c := (List.range 5).map fun x => l a x ^^^ l a (x+5) ^^^ l a (x+10) ^^^ l a (x+15) ^^^ l a (x+20)
  let d := (List.range 5).map fun x => l c ((x + 4) % 5) ^^^ (l c ((x + 1) % 5)).rotateLeft 1
  let t := (List.range 25).map fun i => (l a i ^^^ l d (i % 5)).rotateLeft (keccakRot.getD i 0)
  -- lane (x, y) of B comes from lane (x + 3 y, x) of the turned state
  let b := (List.range 25).map fun i => l t ((i % 5 + 3 * (i / 5)) % 5 + 5 * (i % 5))
  (List.range 25).map fun i =>
    let v := l b i ^^^ (~~~(l b ((i + 1) % 5 + 5 * (i / 5))) &&& l b ((i + 2) % 5 + 5 * (i / 5)))
    if i = 0 then v ^^^ rc else v

/-- Keccak-f[1600]. -/
def keccakF (a : List (BitVec 64)) : List (BitVec 64) := keccakRc.foldl keccakRound a

/-- One block of 136 bytes absorbed. -/
def keccakAbsorb (a : List (BitVec 64)) (block : Bytes) : List (BitVec 64) :=
  keccakF (a.mapIdx fun i v => if i < 17 then v ^^^ BitVec.ofNat 64 (leAt block (8 * i) 8) else v)

/-- `n` bytes squeezed, block by block. -/
def keccakSqueeze : Nat → List (BitVec 64) → Nat → Bytes
  | 0, _, _ => []
  | fuel + 1, a, n =>
    let out := (((a.take 17).map fun v => le 8 v.toNat).flatten).take n
    if n ≤ 136 then out else out ++ keccakSqueeze fuel (keccakF a) (n - 136)

/-- The sponge at rate 136 with domain byte `d`. -/
def sponge (d : Byte) (msg : Bytes) (n : Nat) : Bytes :=
  let pad := 136 - msg.length % 136
  let tail := if pad = 1 then [d ||| 0x80#8] else d :: (List.replicate (pad - 2) 0#8 ++ [0x80#8])
  let full := msg ++ tail
  keccakSqueeze (n / 136 + 1)
    ((chunks 136 (full.length / 136) full).foldl keccakAbsorb (List.replicate 25 0#64)) n

/-- SHAKE256 of FIPS 202, `n` bytes. -/
def shake256 (msg : Bytes) (n : Nat) : Bytes := sponge 0x1F#8 msg n

/-- How many bytes a number takes, at least 1. -/
def byteLen (n : Nat) : Nat := if n < 256 then 1 else if n < 65536 then 2 else if n < 16777216 then 3 else 4

/-- left_encode of SP 800-185 (numbers below 2^32). -/
def leftEncode (n : Nat) : Bytes := BitVec.ofNat 8 (byteLen n) :: be (byteLen n) n

/-- right_encode of SP 800-185 (numbers below 2^32). -/
def rightEncode (n : Nat) : Bytes := be (byteLen n) n ++ [BitVec.ofNat 8 (byteLen n)]

/-- encode_string of SP 800-185. -/
def encodeString (b : Bytes) : Bytes := leftEncode (8 * b.length) ++ b

/-- bytepad of SP 800-185 at rate 136. -/
def bytepad (b : Bytes) : Bytes :=
  let t := leftEncode 136 ++ b
  padTo ((t.length + 135) / 136 * 136) t

/-- KMAC256 of SP 800-185 with customisation `label`, `n` bytes. -/
def kmac256 (key msg : Bytes) (n : Nat) (label : Bytes) : Bytes :=
  sponge 0x04#8 (bytepad (encodeString (ascii "KMAC") ++ encodeString label) ++
    bytepad (encodeString key) ++ msg ++ rightEncode (8 * n)) n

/-- A derived key: derive(parent, label, context, L) of R445. -/
def derive (parent : Bytes) (label : String) (context : Bytes) (n : Nat) : Bytes :=
  kmac256 parent context n (ascii label)

/-! CTR_DRBG with AES-256 and the derivation function (R520). -/

/-- CTR_DRBG_Update of SP 800-90A: the new key and V. -/
def drbgUpdate (key v data : Bytes) : Bytes × Bytes :=
  let t := xorBytes (ctrStream key (be 16 (ofBe v + 1)) 48) data
  (t.take 32, t.drop 32)

/-- Block_Cipher_df of SP 800-90A, 48 bytes. -/
def drbgDf (input : Bytes) : Bytes :=
  let s0 := be 4 input.length ++ be 4 48 ++ input ++ [0x80#8]
  let s := padTo ((s0.length + 15) / 16 * 16) s0
  let k := (List.range 32).map (BitVec.ofNat 8)
  let bcc (i : Nat) := (chunks 16 (s.length / 16 + 1) (be 4 i ++ List.replicate 12 0#8 ++ s)).foldl
    (fun x b => aesEnc k (xorBytes x b)) (List.replicate 16 0#8)
  let t := bcc 0 ++ bcc 1 ++ bcc 2
  let k2 := t.take 32
  let x1 := aesEnc k2 ((t.drop 32).take 16)
  let x2 := aesEnc k2 x1
  x1 ++ x2 ++ aesEnc k2 x2

/-- Instantiation from entropy, nonce and personalisation string: key and V. -/
def drbgInit (entropy nonce pers : Bytes) : Bytes × Bytes :=
  drbgUpdate (List.replicate 32 0#8) (List.replicate 16 0#8) (drbgDf (entropy ++ nonce ++ pers))

/-- A reseed from entropy and additional input. -/
def drbgReseed (kv : Bytes × Bytes) (entropy extra : Bytes) : Bytes × Bytes :=
  drbgUpdate kv.1 kv.2 (drbgDf (entropy ++ extra))

/-- `n` bytes of output, and the state after them. -/
def drbgGenerate (kv : Bytes × Bytes) (n : Nat) : Bytes × (Bytes × Bytes) :=
  let v1 := be 16 (ofBe kv.2 + 1)
  let out := ctrStream kv.1 v1 n
  let v2 := be 16 (ofBe kv.2 + (n + 15) / 16)
  (out, drbgUpdate kv.1 v2 (List.replicate 48 0#8))

/-! XMSS_verify (R500, R501). -/

/-- OID of a tree height (R500), 0 for a height that has none. -/
def xmssOid (h : Nat) : Nat := if h = 10 then 0x10 else if h = 16 then 0x11 else if h = 20 then 0x12 else 0

/-- Signature size of a tree height (R500). -/
def xmssSize (h : Nat) : Nat := 4 + 32 + 67 * 32 + 32 * h

/-- A hash of RFC 8391 with the domain number `d`. -/
def xmssHash (d : Nat) (key msg : Bytes) : Bytes := shake256 (be 32 d ++ key ++ msg) 32

/-- An address of RFC 8391: layer and tree 0, the type and its four words. -/
def xmssAdrs (typ a b c k : Nat) : Bytes :=
  be 4 0 ++ be 8 0 ++ be 4 typ ++ be 4 a ++ be 4 b ++ be 4 c ++ be 4 k

/-- The keyed hash with mask of one 32-byte value: a step of a chain. -/
def xmssF (seed : Bytes) (adrs : Nat → Bytes) (x : Bytes) : Bytes :=
  xmssHash 0 (xmssHash 3 seed (adrs 0)) (xorBytes x (xmssHash 3 seed (adrs 1)))

/-- RAND_HASH of two 32-byte values. -/
def xmssRandHash (seed : Bytes) (adrs : Nat → Bytes) (l r : Bytes) : Bytes :=
  xmssHash 1 (xmssHash 3 seed (adrs 0))
    (xorBytes l (xmssHash 3 seed (adrs 1)) ++ xorBytes r (xmssHash 3 seed (adrs 2)))

/-- The 67 base-16 digits of a digest with its checksum. -/
def wotsDigits (m : Bytes) : List Nat :=
  let d := (m.map fun b => [b.toNat / 16, b.toNat % 16]).flatten
  let c := d.foldl (fun acc x => acc + (15 - x)) 0
  d ++ [c / 256 % 16, c / 16 % 16, c % 16]

/-- The 67 public values of a one-time signature. -/
def wotsPk (seed : Bytes) (idx : Nat) (m sig : Bytes) : List Bytes :=
  (wotsDigits m).mapIdx fun i d =>
    (List.range (15 - d)).foldl
      (fun x j => xmssF seed (fun k => xmssAdrs 0 idx i (d + j) k) x) (slice sig (32 * i) 32)

/-- One level of an L-tree. -/
def ltreeLevel (seed : Bytes) (idx h : Nat) (i : Nat) : List Bytes → List Bytes
  | l :: r :: rest =>
    xmssRandHash seed (fun k => xmssAdrs 1 idx h i k) l r :: ltreeLevel seed idx h (i + 1) rest
  | l => l

/-- The L-tree root of the 67 values: 7 levels. -/
def ltree (seed : Bytes) (idx : Nat) (pk : List Bytes) : Bytes :=
  ((List.range 7).foldl (fun l h => ltreeLevel seed idx h 0 l) pk).getD 0 []

/-- The root that a leaf and its authentication path lead to. -/
def xmssRoot (seed : Bytes) (idx h : Nat) (leaf auth : Bytes) : Bytes :=
  (List.range h).foldl (fun node k =>
    let sib := slice auth (32 * k) 32
    let adrs := fun km => xmssAdrs 2 0 k (idx / 2 ^ (k + 1)) km
    if idx / 2 ^ k % 2 = 0 then xmssRandHash seed adrs node sib else xmssRandHash seed adrs sib node)
    leaf

/-- XMSS_verify under the parameter set of height `h` (R501). -/
def xmssVerify (pub : Bytes) (h : Nat) (msg sig : Bytes) : Bool :=
  let root := slice pub 4 32
  let seed := slice pub 36 32
  let idx := ofBe (sig.take 4)
  let m := xmssHash 2 (slice sig 4 32 ++ root ++ be 32 idx) msg
  let leaf := ltree seed idx (wotsPk seed idx m (sig.drop 36))
  pub.length = 68 ∧ xmssOid h ≠ 0 ∧ ofBe (pub.take 4) = xmssOid h ∧ sig.length = xmssSize h ∧
    idx < 2 ^ h ∧ xmssRoot seed idx h leaf (sig.drop (36 + 67 * 32)) = root

end Sys2Proof.Machine
end

