-- ==== Sys2Proof/Machine/Ops.lean ====
section
/-! DEFINITION. Operations that every block shares: changing one part of the state, time, the
interrupt controller's latch (R669 to R675) and the notices of source 60 (R666). -/

namespace Sys2Proof.Machine

/-- The state with its `port` changed by `f`. -/
@[simps] def State.upPort (s : State) (f : Port → Port) : State := { s with port := f s.port }

/-- The state with its `intc` changed by `f`. -/
@[simps] def State.upIntc (s : State) (f : Intc → Intc) : State := { s with intc := f s.intc }

/-- The state with its `tide` changed by `f`. -/
@[simps] def State.upTide (s : State) (f : Tide → Tide) : State := { s with tide := f s.tide }

/-- The state with its `bt` changed by `f`. -/
@[simps] def State.upBt (s : State) (f : BerthTable → BerthTable) : State := { s with bt := f s.bt }

/-- The state with its `ver` changed by `f`. -/
@[simps] def State.upVer (s : State) (f : Verdict → Verdict) : State := { s with ver := f s.ver }

/-- The state with its `cfg` changed by `f`. -/
@[simps] def State.upCfg (s : State) (f : Settings → Settings) : State := { s with cfg := f s.cfg }

/-- The state with its `mf` changed by `f`. -/
@[simps] def State.upMf (s : State) (f : Manifest → Manifest) : State := { s with mf := f s.mf }

/-- The state with its `lf` changed by `f`. -/
@[simps] def State.upLf (s : State) (f : Lf → Lf) : State := { s with lf := f s.lf }

/-- The state with its `uwb` changed by `f`. -/
@[simps] def State.upUwb (s : State) (f : Uwb → Uwb) : State := { s with uwb := f s.uwb }

/-- The state with its `nb` changed by `f`. -/
@[simps] def State.upNb (s : State) (f : Nb → Nb) : State := { s with nb := f s.nb }

/-- The state with its `reg` changed by `f`. -/
@[simps] def State.upReg (s : State) (f : MemberReg → MemberReg) : State := { s with reg := f s.reg }

/-- The state with its `lk` changed by `f`. -/
@[simps] def State.upLk (s : State) (f : LockKeeper → LockKeeper) : State := { s with lk := f s.lk }

/-- The state with its `keys` changed by `f`. -/
@[simps] def State.upKeys (s : State) (f : Keys → Keys) : State := { s with keys := f s.keys }

/-- The state with its `cry` changed by `f`. -/
@[simps] def State.upCry (s : State) (f : Crypto → Crypto) : State := { s with cry := f s.cry }

/-- The state with its `trng` changed by `f`. -/
@[simps] def State.upTrng (s : State) (f : Trng → Trng) : State := { s with trng := f s.trng }

/-- The state with its `nfc` changed by `f`. -/
@[simps] def State.upNfc (s : State) (f : Nfc → Nfc) : State := { s with nfc := f s.nfc }

/-- The state with its `can` changed by `f`. -/
@[simps] def State.upCan (s : State) (f : CanBlk → CanBlk) : State := { s with can := f s.can }

/-- The state with its `pier` changed by `f`. -/
@[simps] def State.upPier (s : State) (f : PierBlk → PierBlk) : State := { s with pier := f s.pier }

/-- The state with its `tend` changed by `f`. -/
@[simps] def State.upTend (s : State) (f : Tender → Tender) : State := { s with tend := f s.tend }

/-- The state with its `sys` changed by `f`. -/
@[simps] def State.upSys (s : State) (f : Sys → Sys) : State := { s with sys := f s.sys }

/-- The state with its `fw` changed by `f`. -/
@[simps] def State.upFw (s : State) (f : Fw → Fw) : State := { s with fw := f s.fw }

/-- The state with its `log` changed by `f`. -/
@[simps] def State.upLog (s : State) (f : Logbook → Logbook) : State := { s with log := f s.log }

/-- The state with its `pins` changed by `f`. -/
@[simps] def State.upPins (s : State) (f : Pins → Pins) : State := { s with pins := f s.pins }

/-- The state with its `ident` changed by `f`. -/
@[simps] def State.upIdent (s : State) (f : Ident → Ident) : State := { s with ident := f s.ident }

/-- The state at a later tick (log entry 1). -/
@[simps] def State.atTick (s : State) (t : Nat) : State := { s with now := t }

/-! Time: ticks of 15.625 ns (R15). -/

/-- Ticks of `n` microseconds. -/
def us (n : Nat) : Nat := 64 * n

/-- Ticks of `n` milliseconds. -/
def ms (n : Nat) : Nat := 64000 * n

/-- Ticks of `n` seconds. -/
def sec (n : Nat) : Nat := 64000000 * n

/-- The timebase at tick `t` (R15, R571): it stands still in STANDBY while no controller receives. -/
def State.baseAt (s : State) (t : Nat) : Nat := t - s.tide.tbOff

/-- The 48-bit timebase (R15). -/
def State.stamp (s : State) : BitVec 48 := BitVec.ofNat 48 (s.baseAt s.now)

/-- `d` ticks have passed since tick `t`. -/
def State.elapsed (s : State) (t d : Nat) : Bool := t + d ≤ s.now

/-- The core clock is stopped but for a far access (R652). -/
def Power.asleep : Power → Bool
  | .deep => true
  | .standby => true
  | _ => false

/-- A power state that a wake event can end (R124). -/
def Power.low (p : Power) : Bool := p == .deep || p == .standby || p == .watch

/-- The tick of the latest cycle of the AON clock of 32.768 kHz: a cycle is 15625/8 ticks. -/
def aonEdge (t : Nat) : Nat := t * 8 / 15625 * 15625 / 8

/-- `d` ticks have passed on a tide timer since tick `t` (R128, R156): in DEEP and STANDBY it counts cycles of
the AON clock, else ticks of the timebase; its phase stays across a change of power state. -/
def State.timerElapsed (s : State) (t d : Nat) : Bool :=
  t + d ≤ (if s.tide.power.asleep then aonEdge s.now else s.now)

/-- The boundaries that have come after tick `t`. -/
def State.boundariesSince (s : State) (t : Nat) : Nat := s.tide.starts.countP fun b => t < b

/-- The number of the tide that holds an event stamped `t` (R16, R17). -/
def State.tideOf (s : State) (t : Nat) : BitVec 32 := s.tide.number - BitVec.ofNat 32 (s.boundariesSince t)

/-! The interrupt controller's latch. Targets: 0 host, 1 pair A, 2 pair B (R670). -/

/-- Enables of a target (R670). -/
def Intc.enables (i : Intc) : Nat → BitVec 64
  | 0 => i.enH
  | 1 => i.enA
  | _ => i.enB

/-- The target of the previous delivery of a source (R671). -/
def Intc.last (i : Intc) (n : Nat) : Nat :=
  if i.lastH.getLsbD n then 0 else if i.lastA.getLsbD n then 1 else 2

/-- Source `n` waits for no target and is active at none. -/
def Intc.free (i : Intc) (n : Nat) : Bool :=
  !(i.asgH.getLsbD n || i.asgA.getLsbD n || i.asgB.getLsbD n ||
    i.actH.getLsbD n || i.actA.getLsbD n || i.actB.getLsbD n)

/-- The first enabled target after the one that took the previous delivery (R671). -/
def Intc.choose (i : Intc) (n : Nat) : Option Nat :=
  ((List.range 3).map fun k => (i.last n + 1 + k) % 3).find? fun t => (i.enables t).getLsbD n

/-- Source `n` assigned to target `t`, which moves its round robin (R671). -/
def Intc.assignTo (i : Intc) (n : Nat) : Nat → Intc
  | 0 => { i with asgH := setBit i.asgH n true, lastH := setBit i.lastH n true,
                  lastA := setBit i.lastA n false }
  | 1 => { i with asgA := setBit i.asgA n true, lastH := setBit i.lastH n false,
                  lastA := setBit i.lastA n true }
  | _ => { i with asgB := setBit i.asgB n true, lastH := setBit i.lastH n false,
                  lastA := setBit i.lastA n false }

/-- Source `n` is assigned if it is pending, unassigned, nowhere active and enabled at a target
(R671, R672, R675). -/
def Intc.settle (i : Intc) (n : Nat) : Intc :=
  if i.pending.getLsbD n && i.free n then
    match i.choose n with
    | some t => i.assignTo n t
    | none => i
  else i

/-- An event of source `n` (R669, R671, R675): a pending bit that is already set takes it in. -/
def Intc.event (i : Intc) (n : Nat) : Intc :=
  ({ i with pending := setBit i.pending n true }).settle n

/-- An event of interrupt source `n`. -/
def State.latch (s : State) (n : Nat) : State := s.upIntc fun i => i.event n

/-- An event of interrupt source `n` where `b` holds. -/
def State.latchIf (s : State) (b : Bool) (n : Nat) : State := if b then s.latch n else s

/-- The power-on reset has not ended (R684, R699). -/
def State.powerReset (s : State) : Bool := s.port.main == .reset && s.sys.causeNext == 0#3

/-- HIRQ is asserted while a pending source is assigned to the host (R678). -/
def State.hirq (s : State) : Bool := s.intc.asgH != 0#64

/-- The level that the 7256 drives on HIRQ, none where it leaves the pin to the board's pull-up (R679, R699): in a
power-on reset, and released as an open drain. -/
def State.hirqPin (s : State) : Option Bool :=
  if s.powerReset then none
  else if s.hirq then some s.intc.hirqHigh
  else if s.intc.hirqPushPull then some (!s.intc.hirqHigh) else none

/-! Notices (R666). -/

/-- A host write at byte address `a` that is not carried out exactly as written: a notice of
kind `kind` and source 60 (R666). -/
def State.notice (s : State) (kind : Nat) (a : Nat) : State :=
  (s.upPort fun p => { p with
    clampAddr := BitVec.ofNat 21 a
    clampKind := BitVec.ofNat 4 kind
    clampCount := satInc p.clampCount }).latch 60

/-- A notice where `b` holds. -/
def State.noticeIf (s : State) (b : Bool) (kind a : Nat) : State :=
  if b then s.notice kind a else s

/-- What one access did: of its notices one counts (R666). `s` is the state before it, `t` after it; the
kind that stands is the one made last. -/
def State.oneNotice (s t : State) : State :=
  t.upPort fun p => { p with
    clampCount := if (satInc s.port.clampCount).toNat < p.clampCount.toNat then satInc s.port.clampCount else p.clampCount }

/-- The outcome of a command whose condition is `b`: its effect, or no event at all where the
condition does not hold (log entry 2). -/
def State.whenDo (s : State) (b : Bool) (t : State) : Host.Outcome State Fault Refusal :=
  if b then .next t else .next s

/-! The logbook writer (R712, R716). -/

/-- A logbook record of kind `kind` with DATA `data` (R712, R713): it takes the next SEQ, and in a
full ring it overwrites the oldest. Source 61 latches when 24,576 records stand after MARK (R716). -/
def State.logRecord (s : State) (kind : Nat) (data : Bytes) : State :=
  let seq := s.log.head + 1#32
  let r : LogRec := { seq := seq, tide := s.tide.number, stamp := s.stamp
                      kind := BitVec.ofNat 8 kind, data := padTo 44 data, crcOk := true }
  let ring := (r :: s.log.ring).take 32768
  (s.upLog fun l => { l with ring := ring, head := seq, tail := seq - BitVec.ofNat 32 (ring.length - 1) }
    ).latchIf ((seq - s.log.mark).toNat = 24576) 61

/-- The 64 bytes of a logbook record (R712). -/
def LogRec.bytes (r : LogRec) : Bytes :=
  let b := le 4 r.seq.toNat ++ le 4 r.tide.toNat ++ le 6 r.stamp.toNat ++ [r.kind, 0#8] ++ padTo 44 r.data
  b ++ le 4 (crc32c b).toNat

/-- A UWB round of this tide is in its air phase (R242). -/
def State.inAir (s : State) : Bool := s.uwb.schedule.any fun r =>
  r.phase == .ctrl || r.phase == .poll || r.phase == .final || r.phase == .air

/-- The feature of bit `b` of MANIFEST.UNMOORED is not unmoored (R112, R114). -/
def State.moored (s : State) (b : Nat) : Bool := !s.mf.unmoored.getLsbD b

/-- A timer of the TIDE section names an owner code (R129). -/
def State.timer (s : State) (code : BitVec 4) : Bool := s.cfg.owners.contains code

/-- Key cells are used: their shares are re-masked (R479). -/
def State.useCells (s : State) : State := s.upKeys fun k => { k with remasks := k.remasks + 1 }

/-- One of the listed sources of this tender is routed to sink 6, the export of results (R85, R86). -/
def State.exports (s : State) (srcs : List Nat) : Bool :=
  !s.cfg.routeGiven || s.cfg.route.any fun r => srcs.contains r.1 && r.2.getLsbD 6

/-! Wake events (R124, R126, R133). -/

/-- A wake event of bit `bit` at tick `now` is noted (R126): the first of a tide that began in DEEP, STANDBY or
WATCH will make a wake boundary, later ones act in the new tide. Of a tide that no event cuts short only those
of the latest tick are kept, which may be that of a boundary (R17). -/
def Tide.noteWake (t : Tide) (now : Nat) (bit : BitVec 4) : Tide :=
  match t.firstWake with
  | none => { t with firstWake := some (now, bit) }
  | some (t0, _) =>
    if !t.power.low && t0 != now then { t with firstWake := some (now, bit), wakeWaiting := [] }
    else { t with wakeWaiting := t.wakeWaiting ++ [(now, bit)] }

/-- A wake event with its WAKE_CAUSE bit `bit`: recorded, and the dwell of WATCH restarts (R133). At a
harbourmaster every link leaves SLACK (R633). In DEEP the inputs are suspended and only the host's request
(bit 7) wakes (R124). -/
def State.wake (s : State) (bit : Nat) : State :=
  if s.tide.power = .deep ∧ bit ≠ 7 then s
  else (s.upPier fun p => { p with links := p.links.map fun l =>
      if l.st = .slack ∧ s.cfg.role = .harbourmaster then { l with st := .active, since := s.now } else l }
    ).upTide fun t =>
    let t := { t with wakeCause := setBit t.wakeCause bit true
                      dwellFrom := if t.power = Power.watch then s.now else t.dwellFrom
                      dwellOut := t.dwellOut && t.power != Power.watch }
    t.noteWake s.now (BitVec.ofNat 4 bit)

end Sys2Proof.Machine
end

