-- ==== Sys2Proof/Machine/Table.lean ====
section
/-! DEFINITION. The berth table's shared operations (R23 to R39): reading and changing a berth,
opening one, casting one off. -/

namespace Sys2Proof.Machine

/-- A chain of the anchor is routed to sink 0, the ranging engine (R85, R86, R214). -/
def AnchorCfg.sink0 (c : AnchorCfg) : Bool := c.rng != 0#4

/-- A chain of the anchor is routed to sink 1, the angle-of-arrival engine (R85, R86, R246). -/
def AnchorCfg.sink1 (c : AnchorCfg) : Bool := c.aoa != 0#4

/-- Berth `n` of the table. -/
def State.berth (s : State) (n : Nat) : Berth := s.bt.berths.getD n Berth.reset

/-- The state with berth `n` changed by `f`. -/
def State.modBerth (s : State) (n : Nat) (f : Berth → Berth) : State :=
  s.upBt fun b => { b with berths := b.berths.modify n f }

/-- The state with the identity part of berth `n` changed. -/
def State.modId (s : State) (n : Nat) (f : BerthId → BerthId) : State :=
  s.modBerth n fun b => { b with id := f b.id }

/-- The state with the session part of berth `n` changed. -/
def State.modSe (s : State) (n : Nat) (f : BerthSess → BerthSess) : State :=
  s.modBerth n fun b => { b with se := f b.se }

/-- The state with the LF part of berth `n` changed. -/
def State.modBlf (s : State) (n : Nat) (f : BerthLf → BerthLf) : State :=
  s.modBerth n fun b => { b with lf := f b.lf }

/-- The state with the fusion part of berth `n` changed. -/
def State.modFu (s : State) (n : Nat) (f : BerthFuse → BerthFuse) : State :=
  s.modBerth n fun b => { b with fu := f b.fu }

/-- Only the harbourmaster and a standalone device keep a berth table (R23). -/
def State.keepsBerths (s : State) : Bool := s.cfg.role == .standalone || s.cfg.role == .harbourmaster

/-- The device is a tender, whose BERTH and REGISTER blocks read as zero and ignore writes (R62, R353). -/
def State.isTender (s : State) : Bool := s.cfg.role == .tender

/-- The main domain runs (R667). -/
def State.mainUp (s : State) : Bool := s.port.main == .running

/-- The berth numbers that may open, lowest first (R23, R106). -/
def State.openNos (s : State) : List Nat := List.range (min s.cfg.count 256)

/-- All berth numbers: a live berth runs on above a lowered COUNT (R106). -/
def berthNos : List Nat := List.range 256

/-- A live berth is one whose state is not FREE (R25). -/
def BerthState.live (b : BerthState) : Bool := b != .free

/-- A live berth that has not been cast off. -/
def BerthState.held (b : BerthState) : Bool := b != .free && b != .castOff

/-- MOORED or RANGED. -/
def BerthState.moored? (b : BerthState) : Bool := b == .moored || b == .ranged

/-- Berth `n` is in use and in state `st`. -/
def State.berthIs (s : State) (n : Nat) (st : BerthState) : Bool := (s.berth n).id.st == st

/-- The live berths. -/
def State.liveBerths (s : State) : List Nat := berthNos.filter fun n => (s.berth n).id.st.live

/-- The live berths not cast off. -/
def State.heldBerths (s : State) : List Nat := berthNos.filter fun n => (s.berth n).id.st.held

/-- The berths MOORED or RANGED. -/
def State.mooredBerths (s : State) : List Nat := berthNos.filter fun n => (s.berth n).id.st.moored?

/-- The BLE link of a berth, by its place in the list of links. -/
def State.linkOf (s : State) (n : Nat) : Option Nat :=
  s.nb.links.findIdx? fun l => l.berth == some n

/-- The state with link `k` changed. -/
def State.modLink (s : State) (k : Nat) (f : Link → Link) : State :=
  s.upNb fun b => { b with links := b.links.modify k f }

/-- An access-service frame of TYPE `typ` for a berth's link, to go at a connection event (R289). -/
def State.queueFrame (s : State) (n : Nat) (typ : Nat) (body : Bytes) : State :=
  match s.linkOf n with
  | none => s
  | some k => s.modLink k fun l =>
      { l with queue := l.queue ++ [BitVec.ofNat 8 typ :: BitVec.ofNat 8 body.length :: body] }

/-- Berth `n` is cast off with cause `cause` (R30, R38), where it is live and not cast off already.
A phone's link carries CLOSE with the cause (R289). The dwell of SERVICE runs on from here when the
berth was MOORED or RANGED (R133). -/
def State.castOff (s : State) (n : Nat) (cause : BitVec 8) : State :=
  if (s.berth n).id.st.held then
    let was := (s.berth n).id.st.moored?
    ((s.modId n fun b => { b with st := .castOff, cause := cause }).queueFrame n 7 [cause]).upTide
      fun t => if was && t.power == .service then { t with dwellFrom := s.now } else t
  else s

/-- Every berth of a list is cast off with one cause. -/
def State.castAll (s : State) (l : List Nat) (cause : BitVec 8) : State :=
  l.foldl (fun s n => s.castOff n cause) s

/-- The lowest-numbered FREE berth (R27). -/
def State.freeBerth (s : State) : Option Nat := s.openNos.find? fun n => s.berthIs n .free

/-- A berth opens or moors: the dwell of its state starts again (R133). -/
def State.dwellBroken (s : State) : State := s.upTide fun t => { t with dwellOut := false, dwellFrom := s.now }

/-- A berth opens: a qualifying event of WATCH, not of SERVICE, whose dwell counts from MOORED and RANGED berths (R131,
R133). -/
def State.sightDwell (s : State) : State := if s.tide.power = .watch then s.dwellBroken else s

/-- A sighting of kind `kind` at anchor `anchor`, stamped `stamp`: the lowest FREE berth opens
(R27, R30; source 4), or the sighting is dropped, counted and source 11 latches (R28). -/
def State.sight (s : State) (kind : Nat) (anchor : BitVec 6) (stamp : Nat) : State × Option Nat :=
  match s.freeBerth with
  | none => ((s.upBt fun b => { b with full := satInc b.full }).latch 11, none)
  | some n =>
    (((s.modBerth n fun _ => { Berth.reset with
        id := { BerthId.reset with
          st := .sighted, kind := BitVec.ofNat 3 kind, anchor := anchor
          sightTide := s.tideOf stamp, sightAt := s.now, sightStamp := stamp, quietFrom := s.now } }
      ).sightDwell.latch 4), some n)

/-- A measurement has reached berth `n`, or a frame of its fob: the quiet timeout restarts (R34). -/
def State.unquiet (s : State) (n : Nat) : State := s.modId n fun b => { b with quietFrom := s.now }

end Sys2Proof.Machine
end

