-- ==== Sys2Proof/Machine/Access.lean ====
section
/-! DEFINITION. What every host access does on its way to a block (R644 to R667): the port must have
started, a far access holds HRDY low, an earlier access and the queued bulk writes come first, a
main-domain reset drops far writes. The effect on the block comes at the command; HRDY stays low
until FAR_ACCESS_COMPLETE (log entry 10). -/

namespace Sys2Proof.Machine

/-- The port takes accesses: it has started since power-on reset (R746), and the host bank's pins
are not in brown-out (R686). -/
def State.portUp (s : State) : Bool := s.port.started && !s.sys.vioLow.getLsbD 0

/-- The MFP inputs are seen: their bank VIO_M is not in brown-out (R686). -/
def State.mfpSeen (s : State) : Bool := !s.sys.vioLow.getLsbD 1

/-- Queued bulk window writes reach staging in order (R653, R662). -/
def State.drainBulk (s : State) : State :=
  s.upPort fun p => { p with
    staging := p.bulkQueue.foldl (fun m w => Mem.setHalf m w.1 w.2) p.staging
    bulkQueue := [] }


/-- A far access begins (R650, R652, R653); `d` is the data it will carry if it is a read. An access
that the port still showed as in progress has completed (log entry 10). -/
def State.beginFar (s : State) (d : Option (BitVec 16)) : State :=
  (s.drainBulk.upNfc fun c => { c with hostWaiting := false }).upPort fun p => { p with
    hd := match p.far with
      | some (some h) => h
      | _ => p.hd
    far := some d
    lastFar := s.now
    coreClk := p.coreClk || s.tide.power.asleep }

/-- The write latch after a commit to the register at byte address `a` (R655). -/
def Port.unlatch (p : Port) (a : Nat) : Port :=
  { p with latch := match p.latch with
      | some (b, lo) => if b.toNat = a then none else some (b, lo)
      | none => none }

/-- The blocks that a main-domain reset leaves accessible: HOST, INTC and LOCKKEEPER (R667). -/
def alwaysServed (a : Nat) : Bool := a < 0x2000 || (0x8000 ≤ a && a < 0x10000)

/-- A far write reaches its register at byte address `a`: `eff` is what the register does. During a
main-domain reset it is ignored and counted (R667). -/
def State.farWrite (s : State) (a : Nat) (eff : State → State) : State :=
  if s.portUp then
    let s := (s.beginFar none).upPort fun p => p.unlatch a
    if s.mainUp || alwaysServed a then eff s
    else s.upPort fun p => { p with errDropped := satInc p.errDropped }
  else s

/-- A near write reaches its register (R649, R650). -/
def State.nearWrite (s : State) (a : Nat) (eff : State → State) : State :=
  if s.portUp then eff (s.upPort fun p => p.unlatch a) else s

/-- A write of one half word into a window at byte address `a` (R660): far, and outside the latch. -/
def State.windowAccess (s : State) (a : Nat) (eff : State → State) : State :=
  if s.portUp then
    let s := s.beginFar none
    if s.mainUp || alwaysServed a then eff s
    else s.upPort fun p => { p with errDropped := satInc p.errDropped }
  else s

/-- A 32-bit value put together from its halves. -/
def joinHalves (hi lo : BitVec 16) : BitVec 32 := BitVec.ofNat 32 (lo.toNat + 65536 * hi.toNat)

/-- The upper half of a 32-bit value. -/
def hiHalf (v : BitVec 32) : BitVec 16 := BitVec.ofNat 16 (v.toNat / 65536)

/-- The lower half of a 32-bit value. -/
def loHalf (v : BitVec 32) : BitVec 16 := BitVec.ofNat 16 v.toNat

end Sys2Proof.Machine
end

