-- ==== Sys2Proof/Machine/Intc.lean ====
section
/-! DEFINITION. The commands of the interrupt controller (R669 to R681, R745) and the plainest
events of the host port (R645, R650, R663, R746). -/

namespace Sys2Proof.Machine

/-- The sources assigned to a target. -/
def Intc.assigned (i : Intc) : Nat → BitVec 64
  | 0 => i.asgH
  | 1 => i.asgA
  | _ => i.asgB

/-- The sources active at a target. -/
def Intc.active (i : Intc) : Nat → BitVec 64
  | 0 => i.actH
  | 1 => i.actA
  | _ => i.actB

/-- The sources assigned to target `t` changed. -/
def Intc.setAssigned (i : Intc) (v : BitVec 64) : Nat → Intc
  | 0 => { i with asgH := v }
  | 1 => { i with asgA := v }
  | _ => { i with asgB := v }

/-- The sources active at target `t` changed. -/
def Intc.setActive (i : Intc) (v : BitVec 64) : Nat → Intc
  | 0 => { i with actH := v }
  | 1 => { i with actA := v }
  | _ => { i with actB := v }

/-- The enables of target `t` changed. -/
def Intc.setEnables (i : Intc) (v : BitVec 64) : Nat → Intc
  | 0 => { i with enH := v }
  | 1 => { i with enA := v }
  | _ => { i with enB := v }

/-- The highest-numbered pending source assigned to target `t` (R674). -/
def Intc.top (i : Intc) (t : Nat) : Option Nat := (bitsOf (i.assigned t &&& i.pending)).getLast?

/-- A claim at target `t` (R674): the source claimed, and the controller after it. -/
def Intc.claim (i : Intc) (t : Nat) : Option Nat × Intc :=
  match i.top t with
  | none => (none, i)
  | some n =>
    (some n, (({ i with pending := setBit i.pending n false }).setAssigned
      (setBit (i.assigned t) n false) t).setActive (setBit (i.active t) n true) t)

/-- A completion of source `n` at target `t` (R675, R677). -/
def Intc.complete (i : Intc) (t n : Nat) : Intc :=
  if (i.active t).getLsbD n then (i.setActive (setBit (i.active t) n false) t).settle n
  else { i with strayCount := satInc i.strayCount, straySource := BitVec.ofNat 6 n
                strayTarget := BitVec.ofNat 2 t }

/-- Source `n` loses its enable at target `t`: where it waited for `t` it goes to the next enabled target (R672). -/
def Intc.release (i : Intc) (t n : Nat) : Intc :=
  let i := i.setEnables (setBit (i.enables t) n false) t
  if (i.assigned t).getLsbD n then (i.setAssigned (setBit (i.assigned t) n false) t).settle n else i

/-- Source `n` is enabled or disabled at target `t` (R672): one that waited for nobody is assigned at once; one that waits
for a target that has no enable for it stays there (R673). -/
def Intc.enable (i : Intc) (t : Nat) (on : Bool) (n : Nat) : Intc :=
  if on then (i.setEnables (setBit (i.enables t) n true) t).settle n
  else if (i.enables t).getLsbD n then i.release t n
  else i

/-- The host's enable of source `n` is written (R673). -/
def Intc.enableHost (i : Intc) (on : Bool) (n : Nat) : Intc :=
  let i := if on then { i with enA := setBit i.enA n false, enB := setBit i.enB n false } else i
  i.enable 0 on n

/-- The enables of a pair are written for every source (R670, R673): never one that the host has. -/
def Intc.enablePair (i : Intc) (t : Nat) (mask : BitVec 64) : Intc :=
  (List.range 64).foldl (fun i n => i.enable t (mask.getLsbD n && !i.enH.getLsbD n) n) i

/-- A pair's enables are disabled, and every source that waits for it, those the host enabled since among them, passes on
(R672, R692, R745). -/
def Intc.stopTarget (i : Intc) (t : Nat) : Intc := (List.range 64).foldl (fun i n => i.release t n) i

/-- Source `n` is cleared by a 1 in PENDING unless a pair holds it (R681). -/
def Intc.clearBit (i : Intc) (n : Nat) : Intc :=
  if i.asgA.getLsbD n || i.asgB.getLsbD n then i
  else { i with pending := setBit i.pending n false, asgH := setBit i.asgH n false }

/-- The source numbers that the bits of half `hi` of a pair of registers name. -/
def sourcesOf (hi : Bool) (v : BitVec 32) : List Nat := (bitsOf v).map fun n => if hi then n + 32 else n

/-- A far read: `get` gives the register at byte address `a` and what reading it does. In a
main-domain reset the read returns 0 (R667). The read capture takes the high half (R658). -/
def State.farRead (s : State) (a : Nat) (get : State → BitVec 32 × State) : State :=
  if s.portUp then
    let s := s.beginFar none
    let (v, s) := if s.mainUp || alwaysServed a then get s else (0#32, s)
    s.upPort fun p => { p with far := some (some (loHalf v)), capture := some (BitVec.ofNat 21 a, hiHalf v) }
  else s

/-- The claim of the host (R674): CLAIM_H as the read returns it. -/
def State.claimHost (s : State) : BitVec 32 × State :=
  let (n, i) := s.intc.claim 0
  let v : BitVec 16 := match n with
    | some n => BitVec.ofNat 16 n
    | none => 0x8000#16
  (v.setWidth 32, s.upIntc fun _ => { i with claimed := v })

/-- CLAIM (R674): a low-half read of INTC.CLAIM_H. -/
def execClaim (s : State) : Host.Outcome State Fault Refusal := .next (s.farRead 0x1030 State.claimHost)

/-- COMPLETE (R677). -/
def execComplete (v : BitVec 32) (s : State) : Host.Outcome State Fault Refusal :=
  .next (s.farWrite 0x1034 fun s => s.upIntc fun i => i.complete 0 (fieldN v 5 0))

/-- A write of PENDING_LO or PENDING_HI (R681). -/
def State.pendingWrite (s : State) (hi : Bool) (v : BitVec 32) : State :=
  let held := (sourcesOf hi v).any fun n => s.intc.asgA.getLsbD n || s.intc.asgB.getLsbD n
  (s.upIntc fun i => (sourcesOf hi v).foldl Intc.clearBit i).noticeIf held 3 (if hi then 0x1004 else 0x1000)

/-- PENDING_CLEAR (R681). -/
def execPendingClear (hiReg : Bool) (v : BitVec 32) (s : State) : Host.Outcome State Fault Refusal :=
  .next (s.farWrite (if hiReg then 0x1004 else 0x1000) fun s => s.pendingWrite hiReg v)

/-- A write of ENABLE_H_LO or ENABLE_H_HI (R672, R673). -/
def State.enableHost (s : State) (hi : Bool) (v : BitVec 32) : State :=
  s.upIntc fun i => (List.range 32).foldl
    (fun i n => i.enableHost (v.getLsbD n) (if hi then n + 32 else n)) i

/-- ENABLE_H_WRITE (R673). -/
def execEnableHWrite (hiReg : Bool) (v : BitVec 32) (s : State) : Host.Outcome State Fault Refusal :=
  .next (s.farWrite (if hiReg then 0x100C else 0x1008) fun s => s.enableHost hiReg v)

/-- A service core pair runs. -/
def State.pairUp (s : State) (b : Bool) : Bool := if b then s.sys.pairBUp else s.sys.pairAUp

/-- The target number of a pair (R670). -/
def pairTarget (b : Bool) : Nat := if b then 2 else 1

/-- PAIR_ENABLE_WRITE (R670): firmware writes its pair's enables. -/
def execPairEnableWrite (pairB : Bool) (mask : BitVec 64) (s : State) : Host.Outcome State Fault Refusal :=
  s.whenDo (s.pairUp pairB) (s.upIntc fun i => i.enablePair (pairTarget pairB) mask)

/-- PAIR_CLAIM (R674, R745). -/
def execPairClaim (pairB : Bool) (s : State) : Host.Outcome State Fault Refusal :=
  s.whenDo (s.pairUp pairB) (s.upIntc fun i => (i.claim (pairTarget pairB)).2)

/-- PAIR_COMPLETE (R677). -/
def execPairComplete (pairB : Bool) (source : BitVec 6) (s : State) : Host.Outcome State Fault Refusal :=
  s.whenDo (s.pairUp pairB) (s.upIntc fun i => i.complete (pairTarget pairB) source.toNat)

/-- A write of INTC.TRIGGER (R682). -/
def State.triggerWrite (s : State) (v : BitVec 32) : State :=
  if v.getLsbD 8 then
    if s.tide.life = .manufacture ∨ s.tide.life = .provision then s.latch (fieldN v 5 0)
    else s.notice 3 0x1040
  else s

/-- TRIGGER (R682). -/
def execTrigger (v : BitVec 32) (s : State) : Host.Outcome State Fault Refusal :=
  .next (s.farWrite 0x1040 fun s => s.triggerWrite v)

/-! The host port. -/

/-- FAR_ACCESS_COMPLETE (R650): HRDY rises, in a read with the data; an access to the tag memory
window waits for the tag (R546). -/
def execFarAccessComplete (s : State) : Host.Outcome State Fault Refusal :=
  match s.port.far with
  | none => .next s
  | some d =>
    s.whenDo (!(s.nfc.hostWaiting && decide (s.now < s.nfc.tagFrameEnd)))
      ((s.upPort fun p => { p with far := none, hd := d.getD p.hd }).upNfc fun c => { c with hostWaiting := false })

/-- BUS_PROTOCOL_ERROR (R645). -/
def execBusProtocolError (s : State) : Host.Outcome State Fault Refusal :=
  s.whenDo s.portUp (s.upPort fun p => { p with errProtocol := satInc p.errProtocol })

/-- The import that holds the bulk window is LOADING, with this length (R663). -/
def State.bulkLen (s : State) : Option Nat :=
  match s.port.bulk with
  | .none => none
  | .manifest => if s.mf.state = .loading then some s.mf.len else none
  | .firmware => if s.fw.state = .loading then some s.fw.len else none

/-- A write of one half word at offset `o` of the bulk window (R96, R662, R663): queued, or refused
with KIND 4. With the queue full the port waits until it has drained. -/
def State.bulkWrite (s : State) (o : Nat) (d : BitVec 16) : State :=
  match s.bulkLen with
  | some n =>
    if o < n then
      let s := if 64 ≤ s.port.bulkQueue.length then s.drainBulk.upPort fun p => { p with coreClk := true } else s
      s.upPort fun p => { p with bulkQueue := p.bulkQueue ++ [(o, d)] }
    else s.notice 4 (0x100000 + o)
  | none => s.notice 4 (0x100000 + o)

/-- BULK_WINDOW_WRITE (R662): addresses outside the window are no bulk window write. -/
def execBulkWindowWrite (ha : BitVec 20) (d : BitVec 16) (s : State) : Host.Outcome State Fault Refusal :=
  s.whenDo (s.portUp && decide (0x80000 ≤ ha.toNat)) (s.bulkWrite (2 * ha.toNat - 0x100000) d)

/-- PORT_START_AFTER_POR (R746): HCS_N is sampled high. -/
def execPortStartAfterPor (s : State) : Host.Outcome State Fault Refusal :=
  s.whenDo (!s.port.started) (s.upPort fun p => { p with started := true })

end Sys2Proof.Machine
end

