-- ==== Sys2Proof/Machine/Engine.lean ====
section
/-! DEFINITION. The attribute words of the key store and the queues of the AES and Keccak engines (R447, R451 to
R453, R479, R480, R488 to R498): what every use of a key and every hash passes through. -/

namespace Sys2Proof.Machine

/-! Key cells (R451 to R455, R479). -/

/-- The code of a life-cycle state (TIDE.STATE). -/
def LifeCycle.code : LifeCycle → Nat
  | .manufacture => 0
  | .provision => 1
  | .fleet => 2
  | .returned => 3

/-- The keys of the tree (R447). -/
inductive TreeKey where
  | vehicle | manifest | register | pairing | pier | vehicleRewrap | seed | transport | fleet | fleetRewrap | backend
  | member | auth | fob | card | harvest | session | sts | ctr | mac | link
deriving DecidableEq, Repr

/-- The column Masters of R447, in the bits of MASTERS (R451). -/
def TreeKey.masters : TreeKey → Nat
  | .vehicle | .seed | .fleet => 0
  | .pairing => 1
  | .manifest | .register | .pier | .vehicleRewrap | .transport | .fleetRewrap | .backend | .card => 2
  | .member | .auth | .fob | .session | .sts | .ctr | .mac | .link => 4
  | .harvest => 8

/-- The column World of R447: true for Fleet. -/
def TreeKey.world : TreeKey → Bool
  | .vehicle | .manifest | .register | .pairing | .pier | .vehicleRewrap | .seed | .transport | .fleet
  | .fleetRewrap => false
  | .backend | .member | .auth | .fob | .card | .harvest | .session | .sts | .ctr | .mac | .link => true

/-- The column Class of R447: true for S. -/
def TreeKey.classS : TreeKey → Bool
  | .member | .auth | .fob | .card | .harvest | .session | .sts | .ctr | .mac | .link => true
  | _ => false

/-- LIFECYCLE of a key (R453): PROVISION and FLEET, and MANUFACTURE for the attestation seed and the transport key. -/
def TreeKey.life : TreeKey → Nat
  | .seed | .transport => 7
  | _ => 6

/-- USE of a key by the column Used for of R447 (R451): 0 derivation only, 1 AES, 2 KMAC, 3 export. -/
def TreeKey.use : TreeKey → Nat
  | .vehicle | .seed | .fleet | .member | .session => 0
  | .pairing | .auth | .fob | .card | .sts | .ctr | .mac | .link => 1
  | .manifest | .register | .pier | .vehicleRewrap | .transport | .fleetRewrap | .backend => 2
  | .harvest => 3

/-- The attribute word of a key that descends from generation `gen` of its root (R451). -/
def TreeKey.attr (k : TreeKey) (gen : BitVec 8) : BitVec 32 :=
  0x80000000#32 ||| at32 0 k.masters ||| at32 4 (b2n k.world) ||| at32 8 k.life ||| at32 12 k.use ||| at32 16 gen.toNat

/-- The session slot `k` of the key store (R454). -/
def State.slot (s : State) (k : Nat) : Option SessSlot := s.keys.slots.find? fun x => x.k == k

/-- The number of a key cell. -/
def cellNumber : KeyCell → Nat
  | .aes => 0
  | .tag => 1
  | .drbg => 2
  | .lock => 3
  | .lockPrev => 4
  | .vehicle => 5
  | .fleet => 6
  | .seed => 7
  | .bind n => 8 + 7 * n
  | .member n => 9 + 7 * n
  | .auth n => 10 + 7 * n
  | .sts k => 11 + 7 * k
  | .mac k => 12 + 7 * k
  | .link k => 13 + 7 * k
  | .ctr k => 14 + 7 * k

/-- The key that a cell holds. -/
def State.cellKey (s : State) : KeyCell → Bytes
  | .aes => Mem.load s.cry.aesKey 0 32
  | .tag => s.nfc.tagKey
  | .drbg => s.trng.key
  | .lock => s.lk.record.key
  | .lockPrev => s.lk.record.prevKey
  | .vehicle => s.keys.vr.key
  | .fleet => s.keys.fr.key
  | .seed => s.keys.seed
  | .bind n => (s.pier.links.getD n Pier.reset).kbind
  | .member n => (s.berth n).se.memberKey
  | .auth n => (s.berth n).se.authKey
  | .sts k => ((s.slot k).map SessSlot.sts).getD []
  | .mac k => ((s.slot k).map SessSlot.mac).getD []
  | .link k => ((s.slot k).map SessSlot.link).getD []
  | .ctr k => ((s.slot k).map SessSlot.ctr).getD []

/-- The two shares that stand in a cell (R479): a mask, fresh after each use, and the key masked by it. -/
def State.cellShares (s : State) (c : KeyCell) : Bytes × Bytes :=
  let m := padTo (s.cellKey c).length (Config.cellMask s.sys.powerUps s.keys.remasks (cellNumber c))
  (m, xorBytes (s.cellKey c) m)

/-- Where a cell stands, its address scrambled (R479). -/
def State.cellPlace (s : State) (c : KeyCell) : Nat := Config.cellPlace s.keys.scramble (cellNumber c)

/-- What stands in MRAM for a persistent key: encrypted under the device storage key, with its check (R480). -/
def sealedCell (key : Bytes) : Bytes × BitVec 32 := Config.sealCell Config.storageKey key

/-- The persistent cells as they stand in MRAM (R480): the roots, the vehicle root before a switch, the attestation
seed, the seeds of the signing tree and the lock key record's two keys. -/
def State.mramCells (s : State) : List (Bytes × BitVec 32) :=
  ([s.keys.vr.key, s.keys.vrPrev.getD [], s.keys.fr.key, s.keys.seed, s.cry.seeds, s.lk.mram.key, s.lk.mram.prevKey].filter
    fun k => !k.isEmpty).map sealedCell

/-- What authenticates the holder of berth `n` (R447), by its KIND. -/
def State.authTree (s : State) (n : Nat) : TreeKey :=
  if (s.berth n).id.kind = 0#3 then .auth
  else if (s.berth n).id.kind = 1#3 ∨ (s.berth n).id.kind = 2#3 then .fob
  else .card

/-- The attribute word that a cell's key would carry; K_bind has that of the pier key it descends from, with AES as its
use (log entry 58). -/
def State.cellWord (s : State) : KeyCell → BitVec 32
  | .aes => 0x80001F08#32
  | .drbg => 0x80001F0F#32
  | .tag => TreeKey.card.attr s.keys.fr.gen
  | .lock | .lockPrev => TreeKey.pairing.attr s.keys.vr.gen
  | .vehicle => TreeKey.vehicle.attr s.keys.vr.gen
  | .fleet => TreeKey.fleet.attr s.keys.fr.gen
  | .seed => TreeKey.seed.attr 0#8
  | .bind _ => 0x80001602#32 ||| at32 16 s.keys.vr.gen.toNat
  | .member n => TreeKey.member.attr (s.berth n).se.parentGen
  | .auth n => (s.authTree n).attr (s.berth n).se.parentGen
  | .sts k | .mac k | .link k | .ctr k => ((s.slot k).map SessSlot.attr).getD 0#32

/-- The attribute word of a cell (R451): without VALID where it holds no key. -/
def State.cellAttr (s : State) (c : KeyCell) : BitVec 32 := if (s.cellKey c).isEmpty then 0#32 else s.cellWord c

/-- The attribute word of a session set (R447, R451, R453, R454). -/
def sessAttr (gen : BitVec 8) : BitVec 32 := TreeKey.sts.attr gen

/-- A berth that is live holds session identifier `k`. -/
def State.slotLive (s : State) (k : Nat) : Bool :=
  s.liveBerths.any fun n => (s.berth n).se.sid == some k

/-- A cell keeps the key of a live berth, which the generation test of R452 exempts. A tender holds the sets of its
harbourmaster's live berths (R456), and the tag's key is that of the berth of its activation. An invalidation empties
all of them (R473). -/
def State.cellLive (s : State) : KeyCell → Bool
  | .member n | .auth n => (s.berth n).id.st.live || s.isTender
  | .sts k | .mac k | .link k | .ctr k => s.slotLive k || s.isTender
  | .tag => true
  | _ => false

/-- The current generation of the root that a cell's key descends from. -/
def State.cellGen (s : State) : KeyCell → Nat
  | .lock | .lockPrev | .vehicle | .bind _ => s.keys.vr.gen.toNat
  | .seed => 0
  | _ => s.keys.fr.gen.toNat

/-- A use of a cell by a master in a world is admitted (R452): VALID, masters, world, life cycle, use and generation.
The host's key and the DRBG's key are of no tree (R495, R520). -/
def State.useAdmits (s : State) (c : KeyCell) (master : BitVec 4) (fleet : Bool) (use : Nat) : Bool :=
  c == .aes || c == .drbg ||
    (let a := s.cellAttr c
     a.getLsbD 31 && (a.setWidth 4 &&& master) != 0#4 && a.getLsbD 4 == fleet &&
      a.getLsbD (8 + s.tide.life.code) && fieldN a 13 12 == use &&
      (fieldN a 23 16 == s.cellGen c || s.cellLive c))

/-- A refused use (R452): counted, and source 47 latches. -/
def State.violation (s : State) (master : BitVec 4) : State :=
  (s.upKeys fun k => { k with violation := satInc k.violation, violMaster := master }).latch 47

/-- A cell of class S, or the host's key, which a tamper event zeroes (R477, R495). -/
def cellZeroed : KeyCell → Bool
  | .aes | .tag | .member _ | .auth _ | .sts _ | .mac _ | .link _ | .ctr _ => true
  | _ => false

/-! The AES queue (R488 to R494): jobs in the order in which they will run, the head runs. -/

/-- Of two requests of one class, the earlier holds the engine; of two in one tick, the one whose feature has
the lower MANIFEST.UNMOORED bit (R145). -/
def holds (since : Nat) (feature : BitVec 5) (since' : Nat) (feature' : BitVec 5) : Bool :=
  since != since' || decide (feature.toNat ≤ feature'.toNat)

/-- A job joins the waiting ones: behind the jobs above its level, the one of its level that was suspended and
those of its level that hold their place (R145, R492, R493). -/
def insertJob (j : AesJob) (l : List AesJob) : List AesJob :=
  let keep (x : AesJob) : Bool := decide (j.level.toNat < x.level.toNat) ||
    (j.level == x.level && (x.started || holds x.since x.feature j.since j.feature))
  l.takeWhile keep ++ j :: l.dropWhile keep

/-- A job joins the queue. The head keeps the engine, but for a request of its own level and tick whose feature has the
lower bit (R145). -/
def placeJob (j : AesJob) : List AesJob → List AesJob
  | [] => [j]
  | h :: t =>
    if h.started && !(h.level == j.level && !h.suspended && !holds h.since h.feature j.since j.feature) then
      h :: insertJob j t
    else insertJob j ({ h with started := h.suspended } :: t)

/-- The entries of a level's queue, which has 8 beside the job in progress (R492). -/
def Crypto.queued (c : Crypto) (level : BitVec 2) : List AesJob :=
  (c.jobs.filter fun j => !j.started && j.level == level).take 8

/-- The jobs whose requesters wait in hardware until an entry of their level frees (R492). -/
def Crypto.waitsInHardware (c : Crypto) (level : BitVec 2) : List AesJob :=
  (c.jobs.filter fun j => !j.started && j.level == level).drop 8

/-- `n` blocks pass through the AES engine (R490): the mask generator runs on. -/
def Crypto.blocks (c : Crypto) (n : Nat) : Crypto :=
  { c with blocksDone := c.blocksDone + n, maskSeed := Config.maskRun c.maskSeed n }

/-- The three shares in which the datapath holds a value (R490): two from the mask generator, and the rest. -/
def Crypto.aesShares (c : Crypto) (x : Bytes) : Bytes × Bytes × Bytes :=
  let a := padTo x.length (Config.maskBits c.maskSeed 0)
  let b := padTo x.length (Config.maskBits c.maskSeed 1)
  (a, b, xorBytes (xorBytes x a) b)

/-- What the engine is set up for when a job runs (R489): its cell, the key and the direction. -/
def State.setUp (s : State) (j : AesJob) : Option KeyCell × Bytes × Bool :=
  (j.cell, if j.host then j.key else (j.cell.map s.cellKey).getD [], j.dir)

/-- Half cycles that a change of key or of direction adds before a job's first block: none where the engine still
holds both from the job before; a job under a key of its own always changes it (R489). -/
def State.keyChange (s : State) (j : AesJob) : Nat :=
  if s.cry.keyed = some (s.setUp j) ∧ j.cell.isSome then 0 else 32

/-- A job's cell admits its requester (R452, R494). -/
def State.jobAdmitted (s : State) (j : AesJob) : Bool :=
  match j.cell with
  | none => true
  | some c => s.useAdmits c j.master j.fleet 1

/-- The rounds prepared on session slot `k` have no STS any more (R238). -/
def State.stsLost (s : State) (k : Nat) : State :=
  s.upUwb fun u => { u with schedule := u.schedule.map fun r =>
    if r.sid = k ∧ r.phase = .prepared then { r with stsReady := false } else r }

/-- A job is aborted without a result (R494): an STS generation leaves its round without one. -/
def State.jobAborted (s : State) (j : AesJob) : State :=
  match j.cell with
  | some (.sts k) => if j.level = 3#2 then s.stsLost k else s
  | _ => s

/-- The head of the queue starts (R489): its cell is checked, and a refused job is aborted (R494). -/
def State.startJobs : Nat → State → State
  | 0, s => s
  | fuel + 1, s =>
    match s.cry.jobs with
    | [] => s
    | j :: rest =>
      if j.started then s
      else if s.jobAdmitted j then s.useCells.upCry fun c => { c with
        jobs := { j with started := true, setup := s.keyChange j } :: rest, keyed := some (s.setUp j) }
      else State.startJobs fuel (((s.upCry fun c => { c with jobs := rest }).violation j.master).jobAborted j)

/-- The head starts, or the first that is admitted. -/
def State.startHead (s : State) : State := State.startJobs s.cry.jobs.length s

/-- The job in progress is suspended where it stands at a block boundary and a job of a higher level waits (R493); it
will pay the key change again, ahead of the others of its level. -/
def State.yieldHead (s : State) : State :=
  match s.cry.jobs with
  | [] => s
  | h :: t =>
    let above (x : AesJob) : Bool := decide (h.level.toNat < x.level.toNat)
    if h.started && !h.suspended && h.left != 0 && h.left % 28 == 0 && t.any above then
      (s.upCry fun c => { c with
        jobs := t.takeWhile above ++ { h with suspended := true, setup := 32 } :: t.dropWhile above
        suspends := satInc c.suspends }).startHead
    else s

/-- A job reaches the AES engine (R491 to R493). -/
def State.addJob (s : State) (j : AesJob) : State :=
  (s.upCry fun c => { c with jobs := placeJob j c.jobs }).startHead.yieldHead

/-- AES_JOB_ARRIVAL (R145, R493). -/
def execAesJobArrival (level : BitVec 2) (cell : Option KeyCell) (master : BitVec 4) (fleet : Bool)
    (blocks : Nat) (feature : BitVec 5) (dir : Bool) (s : State) : Host.Outcome State Fault Refusal :=
  .next (s.addJob { AesJob.reset with
    feature := feature, since := s.now, dir := dir
    level := level, cell := cell, left := 28 * blocks, master := master, fleet := fleet })

/-- The suspended job at the head of the queue runs again if its cell is still admitted, else it is
aborted (R494). -/
def State.resumeJob (s : State) : State :=
  match s.cry.jobs with
  | [] => s
  | j :: rest =>
    if s.jobAdmitted j then s.useCells.upCry fun c => { c with
        jobs := { j with suspended := false } :: rest, keyed := some (s.setUp j) }
    else (((s.upCry fun c => { c with jobs := rest }).violation j.master).jobAborted j).startHead

/-- The head of the AES queue. -/
def State.headJob (s : State) : Option AesJob := s.cry.jobs.head?

/-- AES_JOB_RESUME (R494): no job of a higher level is left before the suspended one. -/
def execAesJobResume (s : State) : Host.Outcome State Fault Refusal :=
  s.whenDo (s.headJob.any (·.suspended)) s.resumeJob

/-- The head's change of key and blocks advance by `h` half cycles; its blocks that end are counted (R489, R490). -/
def State.advanceHead (s : State) (h : Nat) : State :=
  match s.cry.jobs with
  | [] => s
  | j :: rest =>
    let left := j.left - (h - j.setup)
    s.upCry fun c => { c.blocks ((j.left + 27) / 28 - (left + 27) / 28) with
      jobs := { j with setup := j.setup - h, left := left } :: rest }

/-- The AES engine runs for `h` half cycles of the CORE clock (R489, R493): the head up to its end, or up to its next
block boundary where a job of a higher level waits. A host block ends with AES_BLOCK_DONE, and a suspended job waits
for AES_JOB_RESUME. -/
def State.aesRun : Nat → Nat → State → State
  | 0, _, s => s
  | fuel + 1, h, s =>
    match s.cry.jobs with
    | [] => s
    | j :: rest =>
      let above := rest.any fun x => decide (j.level.toNat < x.level.toNat)
      let goal := j.setup + if above && j.left % 28 != 0 then j.left % 28 else j.left
      if j.suspended then s
      else if h < goal ∨ (j.host && j.setup + j.left ≤ h) then s.advanceHead h
      else
        let s := s.advanceHead goal
        let s := if j.setup + j.left ≤ goal then (s.upCry fun c => { c with jobs := c.jobs.tail }).startHead
          else s.yieldHead
        State.aesRun fuel (h - goal) s

/-- One tick of the AES engine: 25 half cycles of the CORE clock (R489). -/
def State.aesTick (s : State) : State :=
  if s.cry.selftest.getLsbD 0 then s else State.aesRun (s.cry.jobs.length + 1) 25 s

/-- The AES engine's work for a use of a cell's key over `len` bytes (R488, R491). -/
def State.keyJob (s : State) (c : KeyCell) (level : BitVec 2) (master : BitVec 4) (feature : BitVec 5) (len : Nat) : State :=
  s.addJob { AesJob.reset with
    level := level, cell := some c, left := 28 * ((len + 15) / 16), master := master, fleet := true
    feature := feature, since := s.now }

/-- The key store and the AES engine serve uses of keys: the engine has not failed its test (R499), and the random number
generator has delivered since the main start (R481). -/
def State.keysServe (s : State) : Bool := !s.cry.selftest.getLsbD 0 && s.trng.inst

/-- A use of a fleet-world key by a feature, through the AES engine (R452, R455, R491): a refused use aborts what asked
for it, and `eff` gets the key. The result is taken at once, and the engine is busy for its time; a use that is not
served comes to nothing (DESIGN CHOICE, log entry 58). -/
def State.withKey (s : State) (c : KeyCell) (level : BitVec 2) (master : BitVec 4) (feature : BitVec 5) (len : Nat)
    (eff : Bytes → State → State) : State :=
  if !s.keysServe then s
  else if s.useAdmits c master true 1 then eff (s.cellKey c) (s.keyJob c level master feature len)
  else s.violation master

/-! The Keccak queue (R446, R496 to R498). -/

/-- Signatures can be verified and made: neither the Keccak engine nor XMSS has failed its known-answer test (R499). -/
def State.canVerify (s : State) : Bool := !s.cry.selftest.getLsbD 1 && !s.cry.selftest.getLsbD 2

/-- Keys can be derived: the Keccak engine has not failed its test (R446, R499). -/
def State.canDerive (s : State) : Bool := !s.cry.selftest.getLsbD 1

/-- A waiting job keeps its place before one that arrives: by level, verification ahead of signing (R498), the one that
was suspended and the earlier first (R145). -/
def KecJob.before (a b : KecJob) : Bool :=
  b.level.toNat < a.level.toNat || (a.level == b.level && (a.verify || !b.verify) &&
    (a.verify != b.verify || a.started || holds a.since a.feature b.since b.feature))

/-- A job joins the waiting ones of the Keccak engine. -/
def insertKec (j : KecJob) (l : List KecJob) : List KecJob :=
  l.takeWhile (·.before j) ++ j :: l.dropWhile (·.before j)

/-- A job joins the queue: the head keeps the engine, but for a request of its own kind and tick whose feature has the
lower bit (R145), and for one of a higher level at a permutation boundary (R497). -/
def placeKec (j : KecJob) : List KecJob → List KecJob
  | [] => [{ j with started := true }]
  | h :: t =>
    let mine := !(h.level == j.level && h.verify == j.verify && !holds h.since h.feature j.since j.feature)
    if mine && !(decide (h.level.toNat < j.level.toNat) && h.left % 48 == 0) then h :: insertKec j t
    else { j with started := true } :: { h with started := mine } :: t

/-- The Keccak engine runs for `h` half cycles (R496, R497): the head up to its end, or up to its next permutation
boundary where a job of a higher level waits, behind which it is then suspended. -/
def kecRun : Nat → Nat → List KecJob → List KecJob
  | 0, _, l => l
  | _, _, [] => []
  | fuel + 1, h, j :: t =>
    let above (x : KecJob) : Bool := decide (j.level.toNat < x.level.toNat)
    let goal := if t.any above then j.left % 48 else j.left
    if h < goal then { j with left := j.left - h } :: t
    else
      let rest := if j.left ≤ goal then t
        else t.takeWhile above ++ { j with left := j.left - goal } :: t.dropWhile above
      kecRun fuel (h - goal) (rest.modify 0 fun k => { k with started := true })

/-- One tick of the Keccak engine (R496). -/
def State.kecTick (s : State) : State :=
  if s.cry.selftest.getLsbD 1 then s
  else s.upCry fun c => { c with kjobs := kecRun (2 * c.kjobs.length + 1) 25 c.kjobs }

/-- A job reaches the Keccak engine (R446, R497); none where its test has failed (R499). -/
def State.kecAsk (s : State) (j : KecJob) : State :=
  if s.canDerive then s.upCry fun c => { c with kjobs := placeKec { j with since := s.now } c.kjobs } else s

/-- KECCAK_JOB_ARRIVAL (R145, R497): a running job of a lower level is suspended at a permutation
boundary. -/
def execKeccakJobArrival (level : BitVec 2) (verify : Bool) (permutations : Nat) (feature : BitVec 5) (s : State) :
    Host.Outcome State Fault Refusal :=
  .next (s.kecAsk { KecJob.reset with level := level, verify := verify, left := 48 * permutations, feature := feature })

/-- `n` derivations of the tree at level `level` (R446, R497): KMAC256 absorbs its name, the key and the input, a block
of 136 bytes each. The key is taken at once, and the engine is busy for its time (DESIGN CHOICE, log entry 58). -/
def State.derivations (s : State) (n : Nat) (level : BitVec 2) (feature : BitVec 5) : State :=
  s.kecAsk { KecJob.reset with level := level, left := 48 * (3 * n), feature := feature, work := .derivation }

/-- A signature over a message of `len` bytes is verified at level 2 (R497, R503): the message is absorbed, and the
permutations of the chains depend on the signature (log entry 58). -/
def State.verification (s : State) (work : KecWork) (len : Nat) : State :=
  s.kecAsk { KecJob.reset with
    level := 2#2, verify := true, left := 48 * (len / 136 + 1 + Config.xmssPermutations s.now), work := work }

/-- Checkpoint and attestation signing and the generation of the tree run at level 0 (R497, R508). -/
def State.signingJob (s : State) (work : KecWork) (feature : BitVec 5) : State :=
  s.kecAsk { KecJob.reset with left := 48 * Config.xmssPermutations s.now, work := work, feature := feature }

/-- The engine's job of a kind is done, or given up. -/
def State.kecDone (s : State) (work : KecWork) : State :=
  s.upCry fun c => { c with kjobs := (c.kjobs.filter fun j => j.work != work).modify 0 fun k => { k with started := true } }

end Sys2Proof.Machine
end

