-- ==== Sys2Proof/Machine/Links.lean ====
section
/-! DEFINITION. The transaction layer of the pier links (R609 to R624): events, the message queues,
requests and their tags, blocks and their window, protected messages, binding. Message bodies are
packed in the order in which R616 lists their parts (log entry 28). -/

namespace Sys2Proof.Machine

/-- Link `n`. -/
def State.link (s : State) (n : Nat) : Pier := s.pier.links.getD n Pier.reset

/-- The state with link `n` changed. -/
def State.modPier (s : State) (n : Nat) (f : Pier → Pier) : State :=
  s.upPier fun p => { p with links := p.links.modify n f }

/-- Bit `b` of PIER[n].EVENTS is set; a rise whose IRQ_EN bit is set latches the link's source
(R642). -/
def State.pierEvent (s : State) (n b : Nat) : State :=
  let rises := !(s.link n).events.getLsbD b && (s.link n).irqEn.getLsbD b
  (s.modPier n fun l => { l with events := setBit l.events b true }).latchIf rises (48 + n / 4)

/-- The tender on link `n` is served: one that is refused for want of a binding in FLEET receives only ENUM, BIND and
BIND_FINISH (R624). -/
def State.linkServed (s : State) (n : Nat) : Bool :=
  !(s.tide.life == .fleet && (s.link n).admission == .refused && (s.link n).cause == 4#4)

/-- The class of a message (R617); ENUM, BIND_FINISH and SLACK travel in the second, CIR records in the fourth. -/
def msgClass (m : PierMsg) : Nat :=
  let t := m.typ.toNat % 128
  if t = 0x08 ∨ t = 0x23 then 1
  else if t = 0x10 ∨ t = 0x11 ∨ t = 0x12 ∨ t = 0x13 ∨ t = 0x18 ∨ t = 0x30 ∨ t = 0x1A then 3
  else if t = 0x21 ∧ byteAt m.body 0 = 5 then 4
  else 2

/-- A message joins its class (R617). -/
def insertMsg (m : PierMsg) (l : List PierMsg) : List PierMsg :=
  l.takeWhile (fun x => msgClass x ≤ msgClass m) ++ m :: l.dropWhile (fun x => msgClass x ≤ msgClass m)

/-- The messages that fit a block of 256 bytes, from the front of the queue (R615). -/
def packBlock : Nat → List PierMsg → List PierMsg × List PierMsg
  | _, [] => ([], [])
  | room, m :: rest =>
    if 8 + m.body.length ≤ room then
      let (a, b) := packBlock (room - 8 - m.body.length) rest
      (m :: a, b)
    else ([], m :: rest)

/-- Blocks are packed and sent while the window of 8 has room (R611). -/
def Pier.pump (t : Nat) : Nat → Pier → Pier
  | 0, l => l
  | fuel + 1, l =>
    if l.msgs.isEmpty ∨ 8 ≤ l.window.length then l
    else
      let (b, rest) := packBlock 256 l.msgs
      if b.isEmpty then l
      else Pier.pump t fuel { l with
        msgs := rest, window := l.window ++ [(0, b)], txSeq := l.txSeq + 1#4
        ackFrom := if l.window.isEmpty then t else l.ackFrom }

/-- A harbourmaster's links leave SLACK, and what waits on them goes out: it keeps every link ACTIVE while a manifest or
register commit or a root switch is armed (R631), and pushes need them (DESIGN CHOICE, log entry 28). -/
def State.leaveSlack (s : State) : State :=
  if s.cfg.role = .harbourmaster then
    s.upPier fun p => { p with links := p.links.map fun l =>
      if l.st = .slack then ({ l with st := .active, since := s.now }).pump s.now 8 else l }
  else s

/-- A message is queued on link `n`, and blocks go out where the link is ACTIVE. -/
def State.pierSend (s : State) (n : Nat) (m : PierMsg) : State :=
  s.modPier n fun l =>
    let l := { l with msgs := insertMsg m l.msgs }
    if l.st = .active then l.pump s.now 8 else l

/-- The EPOCH of a message sent now (R615). -/
def State.epoch (s : State) : BitVec 4 := s.tide.number.setWidth 4

/-- A posted message (R616). -/
def State.pierPost (s : State) (n typ : Nat) (arg : BitVec 32) (body : Bytes) (last : Bool := false) : State :=
  s.pierSend n { typ := BitVec.ofNat 8 typ, tag := 0#8
                 flags := s.epoch.setWidth 8 ||| (if last then 0x10#8 else 0#8), arg := arg, body := body }

/-- The 8-byte header of a message (R615). -/
def PierMsg.header (m : PierMsg) : Bytes :=
  [m.typ, m.tag, m.flags, BitVec.ofNat 8 m.body.length] ++ le 4 m.arg.toNat

/-- The CCM nonce of a protected message (R623). -/
def ccmNonce (toHost : Bool) (ctr : BitVec 64) : Bytes :=
  (if toHost then 1#8 else 0#8) :: (le 8 ctr.toNat ++ List.replicate 4 0#8)

/-- A protected posted message; a link that is not bound carries none (R623, R624). -/
def State.pierProtected (s : State) (n typ : Nat) (arg : BitVec 32) (body : Bytes) (last : Bool := false) : State :=
  let l := s.link n
  if l.bound then
    let s := s.useCells
    let m : PierMsg :=
      { typ := BitVec.ofNat 8 typ, tag := 0#8
        flags := s.epoch.setWidth 8 ||| 0x20#8 ||| (if last then 0x10#8 else 0#8)
        arg := arg, body := List.replicate (24 + body.length) 0#8 }
    let sealed := ccmSeal l.kbind (ccmNonce (s.cfg.role == .tender) l.txCtr) m.header body
    (s.pierSend n { m with body := le 8 l.txCtr.toNat ++ sealed }).modPier n fun l =>
      { l with txCtr := l.txCtr + 1#64 }
  else s

/-- A protected message is received on link `n`: its plain text where COUNTER rises and the tag
verifies, else it is dropped and counted (R623). -/
def State.pierOpen (s : State) (n : Nat) (header body : Bytes) : Option Bytes × State :=
  let l := s.link n
  let ctr := BitVec.ofNat 64 (leAt body 0 8)
  let fresh := match l.rxCtr with
    | none => true
    | some c => c.toNat < ctr.toNat
  let s := if l.bound && fresh then s.useCells else s
  match if l.bound && fresh then ccmOpen l.kbind (ccmNonce (s.cfg.role != .tender) ctr) header (body.drop 8)
        else none with
  | some p => (some p, s.modPier n fun l => { l with rxCtr := some ctr })
  | none => (none, s.modPier n fun l => { l with stale := satInc l.stale })

/-- The next TAG that is not outstanding (R618). -/
def freeTag (reqs : List PierReq) : Nat → BitVec 8 → BitVec 8
  | 0, t => t
  | fuel + 1, t => if reqs.any (fun r => r.tag == t) then freeTag reqs fuel (t + 1#8) else t

/-- A request (R616, R618): it takes a TAG, or waits while 32 are outstanding. -/
def State.pierRequest (s : State) (n typ : Nat) (arg : BitVec 32) (body : Bytes) : State :=
  let l := s.link n
  let m : PierMsg := { typ := BitVec.ofNat 8 typ, tag := 0#8, flags := s.epoch.setWidth 8, arg := arg, body := body }
  if 32 ≤ l.reqs.length then s.modPier n fun l => { l with waiting := l.waiting ++ [m] }
  else
    let tag := freeTag l.reqs 256 l.tagNext
    (s.modPier n fun l => { l with
      tagNext := tag + 1#8
      reqs := l.reqs ++ [{ tag := tag, epoch := s.epoch, typ := m.typ, arg := m.arg, tide := s.tide.number }] }).pierSend n
        { m with tag := tag }

/-- A request retires, and the next waiting one goes (R618). -/
def State.retire (s : State) (n : Nat) (tag : BitVec 8) : State :=
  let s := s.modPier n fun l => { l with reqs := l.reqs.filter fun r => r.tag != tag }
  match (s.link n).waiting with
  | [] => s
  | m :: rest => (s.modPier n fun l => { l with waiting := rest }).pierRequest n m.typ.toNat m.arg m.body

/-- A tender's response to a request (R616): TYPE + 0x80, with its TAG and EPOCH. -/
def State.pierAnswer (s : State) (n typ : Nat) (rq : ReqId) (arg : BitVec 32) (body : Bytes) : State :=
  s.pierSend n { typ := BitVec.ofNat 8 (typ + 0x80), tag := rq.1, flags := rq.2.setWidth 8, arg := arg, body := body }

/-- The upstream port of a tender (R603). -/
def State.upPort? (s : State) : Option Nat := s.pier.upstream.map (·.toNat)

/-- The upstream link carries messages (R119). -/
def State.upLive (s : State) : Bool := match s.upPort? with
  | some n => (s.link n).st == .active || (s.link n).st == .slack
  | none => false

/-- The pier key of link `n` (R447). -/
def State.pierKey (s : State) (n : Nat) : Bytes := derive s.keys.vr.key "PIER" (le 1 n) 32

/-- K_bind, MAC_T and MAC_H of a link (R622). -/
def State.bindKeys (s : State) (n : Nat) (nh nt : Bytes) (dt dh : BitVec 64) : Bytes × Bytes × Bytes :=
  let k := derive (s.pierKey n) "BIND" (padTo 16 nh ++ padTo 16 nt) 32
  (k, derive k "BNDT" (le 8 dt.toNat ++ le 8 dh.toNat) 16, derive k "BNDH" (le 8 dh.toNat ++ le 8 dt.toNat) 16)

/-- The tender's anchor number on link `n` less one is the number of the link at the harbourmaster
(R601). -/
def State.hostLink (s : State) : Nat := s.tend.enumAnchor - 1

/-- The harbourmaster has drawn NH: BIND goes out (R622). -/
def State.sendBind (s : State) (n : Nat) (nh : Bytes) : State :=
  (s.modPier n fun l => { l with nh := nh, bindDue := false }).pierRequest n 0x02 0#32 nh

/-- The tender has drawn NT: BIND is answered with NT and MAC_T (R622), where the Keccak engine works (R499). -/
def State.bindReply (s : State) (nt : Bytes) : State :=
  match s.upPort? with
  | none => s
  | some n =>
    let (k, macT, _) := s.bindKeys s.hostLink (s.link n).nh nt s.ident.device s.tend.hostDev
    let rq : ReqId := s.tend.bindReq
    if s.canDerive then
      ((s.derivations 4 3#2 26#5).modPier n fun l => { l with nt := nt, kbind := k, bindDue := false }).pierAnswer
        n 0x02 rq 0#32 (nt ++ macT)
    else s

/-! SCHEDULE (R616, R630). -/

/-- The entries of a SCHEDULE message: each instant's stamp, the length of its description and the
description (log entry 28). -/
def scheduleBody (work : List (Nat × Bytes)) : Bytes :=
  work.flatMap fun w => le 6 w.1 ++ (BitVec.ofNat 8 w.2.length :: w.2)

/-- The work of one tender's tide is posted to it (R630). -/
def State.postSchedule (s : State) (n : Nat) (work : List (Nat × Bytes)) : State :=
  if work.isEmpty then s else s.pierPost n 0x20 s.tide.number (scheduleBody work)

/-- The numbers of the LF frames in a SCHEDULE description. -/
def LfKind.code : LfKind → Nat
  | .wake => 0
  | .handle => 1
  | .challenge => 2
  | .poll => 3
  | .slotted => 4
  | .pollPattern => 5

/-- What a wake frame says (R181): TYPE, SLOTS and SEED. -/
def wakeData (typ slots seed : Nat) : Bytes := [BitVec.ofNat 8 typ, BitVec.ofNat 8 slots, BitVec.ofNat 8 seed]

/-- The links of the tenders in service that own an antenna of a mask (R196). -/
def State.lfLinks (s : State) (m : BitVec 16) : List Nat :=
  (List.range 32).filter fun n => s.pier.serving.getLsbD n &&
    (bitsOf m).any fun i => (s.cfg.chart.antennas.getD i AntCfg.reset).anchor == n + 1 && i < s.cfg.chart.antennas.length

/-- The chart antennas that take part in a frame (R200, R201): those of its mask, and of a poll those of its groups. -/
def LfWork.reach (w : LfWork) : BitVec 16 :=
  w.mask ||| (if w.kind = .poll then ofBits 16 (((w.data.drop 6).map (·.toNat)).filter fun a => decide (a < 16)) else 0#16)

/-- A frame joins the LF work (R196). Where a tender's drivers take part, it is told the instant, which
lies 500 µs ahead, the antennas and what the frame says (R630, log entry 38). -/
def State.lfQueue (s : State) (w : LfWork) : State :=
  let links := if s.cfg.role = .harbourmaster then s.lfLinks w.reach else []
  let w := if links.isEmpty then w else { w with notBefore := max w.notBefore (s.now + us 500) }
  let s := links.foldl (fun s n => s.postSchedule n
    [(w.notBefore, [1#8, BitVec.ofNat 8 w.kind.code, BitVec.ofNat 8 w.berth] ++ le 2 w.mask.toNat ++ w.data)]) s
  s.upLf fun l => { l with queue := l.queue ++ [w] }

/-- The tenders that take part in a polling pattern on the antennas `m` cut it (R196): an entry of kind 6. -/
def State.cutTenders (s : State) (m : BitVec 16) : State :=
  if s.cfg.role = .harbourmaster then
    (s.lfLinks m).foldl (fun s n => s.postSchedule n [(s.now + us 500, [1#8, 6#8])]) s
  else s

end Sys2Proof.Machine
end

