-- ==== Sys2Proof/Machine/Trng.lean ====
section
/-! DEFINITION. The random number generator (R513 to R526): noise blocks and their health tests,
CTR_DRBG, the queue of held requests, and what each requester does with its words. -/

namespace Sys2Proof.Machine

/-! Delivery (R520 to R523). -/

/-- The generator delivers now: instantiated, with no reseed due and no fatal alarm. -/
def Trng.serves (t : Trng) : Bool := t.state == .ready && !t.reseedDue

/-- A reseed falls due (R520). -/
def Trng.dueReseed (t : Trng) : Trng :=
  { t with reseedDue := true, state := if t.state = .ready then .reseeding else t.state }

/-- The DRBG's work of `n` blocks on the AES engine, at level 3 under the key in its own cell (R491, R520). -/
def State.drbgJob (s : State) (n : Nat) : State :=
  s.addJob { AesJob.reset with level := 3#2, cell := some .drbg, left := 28 * n, since := s.now }

/-- One generate request of `n` bytes (R520), which takes a block for each 16 bytes and three for its update: the
4,096th since the last reseed makes one due. -/
def State.draw (s : State) (n : Nat) : Bytes × State :=
  let (out, kv) := drbgGenerate (s.trng.key, s.trng.v) n
  (out, (s.drbgJob ((n + 15) / 16 + 3)).upTrng fun t =>
    let t := { t with key := kv.1, v := kv.2, since := t.since + 1 }
    if t.since ≥ 4096 then t.dueReseed else t)

/-- How many bytes a requester draws at once. -/
def State.drawSize (s : State) : Requester → Nat
  | .berthNonce n => if (s.berth n).id.kind = 0#3 then 16 else 5
  | .sidBase => 4
  | .ovrNonce => 8
  | .keysNonce => 8
  | .hostGenerate => 4 * s.trng.genLen.toNat
  | .hostReseed => 0
  | .genXmss => 96
  | .cardRa _ => 16
  | .pierNh _ => 16
  | .pierNt => 16
  | .lfSeed => 1

/-- The HAIL_TAG of a nonce: its low 16 bits, the LF nonce most significant bit first and the BLE
nonce little-endian (R189, R291). -/
def hailTagOf (phone : Bool) (nonce : Bytes) : BitVec 16 :=
  BitVec.ofNat 16 (if phone then leAt nonce 0 2 else ofBe nonce)

/-- No other live berth holds the HAIL_TAG `h` (R189). -/
def State.tagFree (s : State) (n : Nat) (h : BitVec 16) : Bool :=
  s.liveBerths.all fun m => m == n || (s.berth m).se.nonce.isEmpty || (s.berth m).se.hailTag != h

/-- The nonce of a berth has been drawn: the challenge goes to the phone's link or, on the antennas
that reached the fob, to the LF queue (R30, R189, R291). -/
def State.giveNonce (s : State) (n : Nat) (nonce : Bytes) : State :=
  let phone := (s.berth n).id.kind = 0#3
  let s := s.modSe n fun b => { b with nonce := nonce, hailTag := hailTagOf phone nonce
                                       nonceDue := false, challengeSent := true }
  let s := s.modBlf n fun b => { b with pollsSent := 0#16, pollCount := 1#16 }
  if phone then s.queueFrame n 2 nonce
  else s.lfQueue { LfWork.reset with
    kind := .challenge, berth := n, mask := (s.berth n).lf.mask, data := 3#8 :: padTo 5 nonce }

/-- The SEED of a fallback has been drawn: its slotted wake joins the LF work (R195). -/
def State.giveSeed (s : State) (seed : Nat) : State :=
  match s.lf.fallbacks.find? (·.seedDue) with
  | none => s
  | some f =>
    (s.upLf fun l => { l with fallbacks := l.fallbacks.map fun g => if g.no = f.no then { g with seedDue := false } else g }
      ).lfQueue { LfWork.reset with kind := .slotted, berth := f.no, mask := f.mask, data := wakeData 2 f.k (seed % 64) }

/-- Draws for a berth until the HAIL_TAG differs from every other live berth's, at most `fuel` times
(R189); the berth then still waits, and draws again at the next boundary. -/
def State.drawNonce (n : Nat) : Nat → State → State
  | 0, s => s.modSe n fun b => { b with nonceDue := true }
  | fuel + 1, s =>
    let (out, s) := s.draw (s.drawSize (.berthNonce n))
    if s.tagFree n (hailTagOf ((s.berth n).id.kind = 0#3) out) then s.giveNonce n out
    else State.drawNonce n fuel s

/-- What a requester does with its words (R523). -/
def State.deliver (s : State) (who : Requester) : State :=
  match who with
  | .berthNonce n =>
    if (s.berthIs n .hailed || (s.berth n).id.st.moored?) && (s.berth n).se.nonceDue then State.drawNonce n 256 s else s
  | .hostReseed =>
    (s.upTrng fun t => { t with result := 1#2, hostHeld := false, hostReseed := none }).latch 42
  | _ =>
    let (out, s) := s.draw (s.drawSize who)
    match who with
    | .sidBase => s.upBt fun b => { b with sidBase := some (BitVec.ofNat 32 (leAt out 0 4 / 4096 * 4096)) }
    | .ovrNonce => s.upVer fun v => { v with ovrNonce := BitVec.ofNat 64 (leAt out 0 8), ovrNonceAt := s.baseAt s.now }
    | .keysNonce =>
      (s.upKeys fun k => { k with nonce := BitVec.ofNat 64 (leAt out 0 8), nonceAt := s.now
                                  result := 1#5, busy := false }).latch 44
    | .hostGenerate =>
      (s.upTrng fun t => { t with out := out, result := 1#2, hostHeld := false }).latch 42
    | .genXmss => ((s.upKeys fun k => { k with xmss := 1#2, xmssFrom := s.now, xmssProgress := 0#7 }).upCry fun c =>
        { c with seeds := out }).signingJob .tree 31#5
    | .cardRa n => s.modSe n fun b => { b with ra := out, nonceDue := false }
    | .pierNh n => s.sendBind n out
    | .pierNt => s.bindReply out
    | .lfSeed => s.giveSeed (byteAt out 0)
    | _ => s

/-- What a requester does that is answered NO_ENTROPY (R523). The table has no row for the SEED of a fallback: it waits
and is drawn again at the next boundary, as a berth's nonce is (DESIGN CHOICE, log entry 79). -/
def State.noEntropy (s : State) (who : Requester) : State :=
  let s := s.upTrng fun t => { t with drops := satInc t.drops }
  match who with
  | .sidBase => s.upBt fun b => { b with sidTryAt := s.now }
  | .keysNonce => (s.upKeys fun k => { k with result := 1#5, busy := false }).latch 44
  | .hostGenerate => (s.upTrng fun t => { t with result := 2#2, hostHeld := false }).latch 42
  | .hostReseed =>
    (s.upTrng fun t => { t with result := 2#2, hostHeld := false, hostReseed := none }).latch 42
  | .genXmss => ((s.upKeys fun k => { k with xmss := 0#2, xmssProgress := 0#7 }).latch 45).latch 44
  | _ => s

/-- A request for random words (R522): served at once where the generator delivers and nobody waits
before it, else held; a 65th is answered NO_ENTROPY at once. -/
def State.request (s : State) (who : Requester) : State :=
  if s.trng.serves && s.trng.held.isEmpty then s.deliver who
  else if s.trng.held.length < 64 then
    s.upTrng fun t => { t with held := t.held ++ [{ who := who, since := s.now }] }
  else s.noEntropy who

/-- Held requests served in order while the generator delivers (R522). -/
def State.serveHeld : List Held → State → State
  | [], s => s.upTrng fun t => { t with held := [] }
  | h :: rest, s =>
    if s.trng.serves then State.serveHeld rest (s.deliver h.who)
    else s.upTrng fun t => { t with held := h :: rest }

/-- The mask generator is reseeded, where that is due, once the generator delivers (R490). -/
def State.reseedMask (s : State) : State :=
  if s.cry.maskDue && s.trng.serves then
    let (out, s) := s.draw 32
    s.upCry fun c => { c with maskDue := false, maskSeed := out, blocksDone := 0 }
  else s

/-! Noise blocks (R514 to R518). -/

/-- The longest state of the repetition count over the block, and whether it reached 41 (R515). -/
def rctBlock (raw : BitVec 1024) (bit : Bool) (len : Nat) : Bool × Nat × Bool :=
  (List.range 1024).foldl (fun (a : Bool × Nat × Bool) i =>
    let b := raw.getLsbD i
    let len := if b == a.1 then a.2.1 + 1 else 1
    (b, len, a.2.2 || len == 41)) (bit, len, false)

/-- The adaptive proportion test: 840 or more bits equal to the first (R515). -/
def aptFails (raw : BitVec 1024) : Bool :=
  840 ≤ ((List.range 1024).filter fun i => raw.getLsbD i == raw.getLsbD 0).length

/-- The conditioning register after a block (R514): feedback of stages 256, 254, 251 and 246 with
the raw bit, bit 0 of the block first (log entry 15). -/
def lfsrBlock (reg : BitVec 256) (raw : BitVec 1024) : BitVec 256 :=
  (List.range 1024).foldl (fun r i =>
    let f := (r.getLsbD 255 ^^ r.getLsbD 253 ^^ r.getLsbD 250 ^^ r.getLsbD 245) ^^ raw.getLsbD i
    setBit (r <<< 1) 0 f) reg

/-- The personalisation string: device identifier and the record (R521). -/
def State.persString (s : State) : Bytes := le 8 s.ident.device.toNat ++ padTo 40 s.trng.persRec

/-- A block fails a health test (R516): it is discarded and the source restarts; the fourth failure
within 64 blocks, or one within 64 blocks of a fatal restart, is fatal (R517). -/
def State.blockFails (s : State) (rct apt : Bool) : State :=
  let fatal := 4 ≤ (s.trng.window.filter (·)).length || 0 < s.trng.afterFatal
  let s := s.upTrng fun t => { (t.dueReseed) with
    startup := true, runLen := 0
    rct := if rct then satInc t.rct else t.rct
    apt := if apt then satInc t.apt else t.apt }
  let s := s.latch 43
  if fatal then
    let s := (s.upTrng fun t => { t with state := .fatal, fatal := true, fatalAt := s.now
                                         running := false }).latch 63
    s.logRecord 0x28 [s.trng.rct, s.trng.apt, BitVec.ofNat 8 (min 4 (s.trng.window.filter (·)).length),
      s.trng.fatalCount]
  else s

/-- Blocks of the derivation function over `n` bytes of input (R520): three chains over a counter block, eight bytes of
lengths, the input and its padding, and three blocks of output. -/
def dfBlocks (n : Nat) : Nat := 3 * (1 + (n + 9 + 15) / 16) + 3

/-- A conditioned block reaches the DRBG (R513, R517, R518, R520): it clears a fatal alarm, instantiates
with the second of two (a host RESEED that waits stays due, and the source of a start in STANDBY or DEEP has
done its work), or reseeds; held requests are then served. -/
def State.conditioned (s : State) (block : Bytes) : State :=
  let s := if s.trng.fatal then
      (s.upTrng fun t => { t with fatal := false, fatalCount := satInc t.fatalCount
                                  state := if t.inst then .reseeding else .starting }).latch 43
    else s
  let s :=
    if s.trng.inst then
      if s.trng.state = .reseeding ∨ s.trng.reseedDue then
        let more := s.trng.hostReseed.getD []
        let kv := drbgReseed (s.trng.key, s.trng.v) block more
        (s.drbgJob (dfBlocks (32 + more.length) + 3)).upTrng fun t => { t with
          key := kv.1, v := kv.2, state := .ready, reseedDue := false, reseedAt := s.now, since := 0 }
      else s
    else
      let bits := s.trng.seedBits ++ block
      if bits.length < 64 then s.upTrng fun t => { t with seedBits := bits }
      else
        let kv := drbgInit (bits.take 48) ((bits.drop 48).take 16) s.persString
        let more := s.trng.hostReseed.isSome
        (s.drbgJob (dfBlocks (64 + s.persString.length) + 3)).upTrng fun t => { t with
          inst := true, key := kv.1, v := kv.2, seedBits := [], state := if more then .reseeding else .ready
          reseedDue := more, reseedAt := s.now, since := 0, running := t.running && (more || !s.tide.power.asleep) }
  if s.trng.serves then (State.serveHeld s.trng.held s).reseedMask else s

/-- A raw block of 1,024 bits completes (R514 to R517). -/
def State.noiseBlock (s : State) (raw : BitVec 1024) : State :=
  let (bit, len, rct) := rctBlock raw s.trng.runBit s.trng.runLen
  let apt := aptFails raw
  let s := s.upTrng fun t => { t with
    runBit := bit, runLen := len, lastBlockAt := s.now
    kbps := clampNat 12 (65536000 / max 1 (s.now - t.lastBlockAt))
    window := ((rct || apt) :: t.window).take 64 }
  if rct || apt then s.blockFails rct apt
  else
    let s := s.upTrng fun t => { t with afterFatal := t.afterFatal - 1 }
    if s.trng.startup then s.upTrng fun t => { t with startup := false }
    else
      let reg := lfsrBlock s.trng.lfsr raw
      (s.upTrng fun t => { t with lfsr := reg }).conditioned (le 32 reg.toNat)

/-- The noise source starts (R513, R518): the start-up test runs first. -/
def Trng.start (t : Trng) : Trng := { t with running := true, startup := true, runLen := 0 }

/-- The DRBG is available: its test and that of the AES engine on which it runs have passed (R499, R520). -/
def Crypto.drbgOk (c : Crypto) : Bool := !c.selftest.getLsbD 0 && !c.selftest.getLsbD 3

/-- The power state leaves STANDBY (R513, R519): the source starts, and the DRBG is reseeded before it delivers;
a source stopped by a fatal alarm waits for FATAL_RESTART, and a DRBG that failed its test stays unavailable. -/
def State.wakeNoise (s : State) : State :=
  if s.trng.fatal || !s.cry.drbgOk then s else s.upTrng fun t => t.start.dueReseed

/-- FATAL_RESTART (R517): 1 s after the alarm the source restarts; STANDBY and DEEP stop it except during a
main-domain start (R513). -/
def execFatalRestart (s : State) : Host.Outcome State Fault Refusal :=
  s.whenDo (s.trng.fatal && !s.trng.running && s.elapsed s.trng.fatalAt (sec 1) && (!s.tide.power.asleep || !s.trng.inst))
    (s.upTrng fun t => { t.start with afterFatal := 64 })

/-- DRBG_RESEED_TIMER (R520): 1 s since the last reseed, in WATCH, SERVICE or DRIVE. -/
def execDrbgReseedTimer (s : State) : Host.Outcome State Fault Refusal :=
  s.whenDo (s.trng.inst && !s.tide.power.asleep && !s.trng.reseedDue && s.elapsed s.trng.reseedAt (sec 1))
    (s.upTrng Trng.dueReseed)

/-- ENTROPY_REQUEST_TIMEOUT (R522): the oldest held request has waited 10 ms. -/
def execEntropyRequestTimeout (s : State) : Host.Outcome State Fault Refusal :=
  match s.trng.held with
  | [] => .next s
  | h :: rest =>
    s.whenDo (s.elapsed h.since (ms 10)) ((s.upTrng fun t => { t with held := rest }).noEntropy h.who)

/-- MASK_GENERATOR_RESEED (R490): after 2^20 AES blocks. -/
def execMaskGeneratorReseed (s : State) : Host.Outcome State Fault Refusal :=
  s.whenDo (2 ^ 20 ≤ s.cry.blocksDone) ((s.upCry fun c => { c with maskDue := true }).reseedMask)

/-! Host commands (R526). -/

/-- Byte address of TRNG.CMD. -/
def trngCmdAddr : Nat := 0x70000

/-- TRNG.CMD GENERATE (R520, R526): OUT is zeroed at each command; one that comes while another is
held ends BUSY. -/
def State.hostGenerate (s : State) : State :=
  let s := s.upTrng fun t => { t with out := [] }
  if s.trng.hostHeld then (s.upTrng fun t => { t with result := 3#2 }).latch 42
  else (s.upTrng fun t => { t with hostHeld := true, result := 0#2 }).request .hostGenerate

/-- TRNG_GENERATE (R520). -/
def execTrngGenerate (s : State) : Host.Outcome State Fault Refusal :=
  .next (s.farWrite trngCmdAddr State.hostGenerate)

/-- TRNG.CMD RESEED (R520, R521): a reseed falls due with PERS as its additional input, and the
command waits for it. -/
def State.hostReseedCmd (s : State) : State :=
  let s := s.upTrng fun t => { t with out := [] }
  if s.trng.hostHeld then (s.upTrng fun t => { t with result := 3#2 }).latch 42
  else (s.upTrng fun t => { t.dueReseed with
      hostHeld := true, result := 0#2, hostReseed := some (Mem.load t.pers 0 48) }).request .hostReseed

/-- TRNG_RESEED (R520). -/
def execTrngReseed (s : State) : Host.Outcome State Fault Refusal :=
  .next (s.farWrite trngCmdAddr State.hostReseedCmd)

/-- TRNG.CMD SET_PERS (R521): bytes 0 to 39 of PERS become the record. -/
def State.setPersCmd (s : State) : State :=
  let s := s.upTrng fun t => { t with out := [] }
  if s.trng.hostHeld then s.upTrng fun t => { t with result := 3#2 }
  else s.upTrng fun t => { t with persRec := Mem.load t.pers 0 40, result := 1#2 }

/-- SET_PERS (R521). -/
def execSetPers (s : State) : Host.Outcome State Fault Refusal :=
  .next (s.farWrite trngCmdAddr State.setPersCmd)

/-- SESSION_ID_BASE_RETRY (R523): the session identifier base is drawn again while there is none. -/
def execSessionIdBaseRetry (s : State) : Host.Outcome State Fault Refusal :=
  s.whenDo (s.mainUp && s.bt.sidBase.isNone && !(s.trng.held.any fun h => h.who == .sidBase) &&
      s.elapsed s.bt.sidTryAt (ms 1))
    (s.request .sidBase)

end Sys2Proof.Machine
end

