-- ==== Sys2Proof/Machine/Crypto.lean ====
section
/-! DEFINITION. The host block service of the AES engine, and signing with the device's XMSS tree (R495, R499 to R512,
R715). -/

namespace Sys2Proof.Machine

/-! The host block service (R495). -/

/-- Key size in bytes of a KSIZE code (R526). -/
def keyBytes (k : BitVec 2) : Nat := if k = 0#2 then 16 else if k = 1#2 then 24 else 32

/-- What a host block of AES_IN under AES_KEY gives (R495). -/
def Crypto.hostBlock (c : Crypto) : Bytes :=
  let key := Mem.load c.aesKey 0 (keyBytes c.aesKsize)
  let block := Mem.load c.aesIn 0 16
  if c.aesDir then aesDec key block else aesEnc key block

/-- A commit to CRYPTO.AES_CTRL (R495, R526): DIR and KSIZE are stored, and GO queues one block unless
one is queued or running. -/
def State.aesCtrl (s : State) (v : BitVec 32) : State :=
  let size3 := fieldN v 5 4 = 3
  let s := s.upCry fun c => { c with
    aesDir := v.getLsbD 1, aesKsize := if size3 then 2#2 else BitVec.ofNat 2 (fieldN v 5 4) }
  if v.getLsbD 0 then
    if s.cry.aesBusy then (if size3 then s.notice 1 0x60004 else s.notice 3 0x60004)
    else
      (((s.upCry fun c => { c with
        aesBusy := true, aesOut := [], aesNext := c.hostBlock }).addJob
        { AesJob.reset with level := 2#2, cell := some .aes, host := true, left := 28, master := 8#4, since := s.now
                            dir := v.getLsbD 1, key := Mem.load s.cry.aesKey 0 (keyBytes s.cry.aesKsize) })).noticeIf size3 1 0x60004
  else s.noticeIf size3 1 0x60004

/-- AES_GO (R495). -/
def execAesGo (v : BitVec 32) (s : State) : Host.Outcome State Fault Refusal :=
  .next (s.farWrite 0x60004 fun s => s.aesCtrl v)

/-- AES_BLOCK_DONE (R525): the host block at the head has run its cycles; source 40. -/
def execAesBlockDone (s : State) : Host.Outcome State Fault Refusal :=
  s.whenDo (s.headJob.any (fun j => j.host && !j.suspended && j.setup + j.left ≤ 25) && !s.cry.selftest.getLsbD 0)
    (((s.advanceHead 25).upCry fun c => { c with aesOut := c.aesNext, aesBusy := false, jobs := c.jobs.tail }).startHead.latch
      40)

/-! Signing (R504 to R512). -/

/-- The signing record in force: the valid one with the higher NEXT (R506). -/
def Crypto.signRec (c : Crypto) : SignRec :=
  if c.recB.crcOk && (!c.recA.crcOk || c.recA.next < c.recB.next) then c.recB else c.recA

/-- The current AON day (R509). -/
def State.aonDay (s : State) : Nat := s.cry.dayBase + s.now / sec 86400

/-- Signatures and attestations in the current day and the 29 days before it (R509). -/
def State.signWindow (s : State) : Nat × Nat :=
  (s.cry.signRec.days.filter fun d => s.aonDay < d.1 + 30).foldl
    (fun a d => (a.1 + d.2.1, a.2 + d.2.2)) (0, 0)

/-- The record after one more signature on day `day` (R506, R509). -/
def SignRec.next' (r : SignRec) (day : Nat) (attest : Bool) : SignRec :=
  let a := b2n attest
  { next := r.next + 1, crcOk := true
    days := match r.days with
      | (d, n, m) :: rest => if d = day then (d, n + 1, m + a) :: rest else (day, 1, a) :: (d, n, m) :: rest.take 29
      | [] => [(day, 1, a)] }

/-- Byte address of CRYPTO.SIGN_CMD. -/
def signCmdAddr : Nat := 0x60080

/-- SIGN_CMD ATTEST (R505, R509, R510, R512): refused with its RESULT, or it waits for a boundary. -/
def State.attestCmd (s : State) : State :=
  let fail (r : BitVec 4) := (s.upCry fun c => { c with signResult := r }).latch 41
  if s.cry.signState ≠ 0#2 then fail 2#4
  else if s.tide.life ≠ .provision ∧ s.tide.life ≠ .fleet then fail 6#4
  else if s.keys.xmss ≠ 2#2 then fail 3#4
  else if 1048576 ≤ s.cry.signRec.next then fail 5#4
  else if 3840 ≤ s.signWindow.1 ∨ 3584 ≤ s.signWindow.2 then fail 4#4
  else if !s.canVerify then fail 7#4
  else s.upCry fun c => { c with signState := 1#2, signWhat := .attest, signResult := 0#4 }

/-- ATTEST (R511). -/
def execAttest (s : State) : Host.Outcome State Fault Refusal :=
  .next (s.farWrite signCmdAddr State.attestCmd)

/-- The firmware version of the bank in force (R682, R700). -/
def Fw.cur (f : Fw) : FwRecord :=
  if f.recB.crcOk && (!f.recA.crcOk || f.recA.seq < f.recB.seq) then f.recB else f.recA

/-- The version of the active firmware. -/
def State.fwVersion (s : State) : BitVec 16 :=
  if s.fw.cur.active = 0#1 then s.fw.cur.verA else s.fw.cur.verB

/-- The attestation statement of R511. -/
def State.statement (s : State) : Bytes :=
  let b := le 4 0x54535441 ++ le 2 1 ++ le 1 s.tide.life.code ++ [0#8] ++ le 8 s.ident.device.toNat ++
    le 4 s.tide.number.toNat ++ le 4 s.cfg.serial.toNat ++
    le 4 (if s.reg.useA then s.reg.recA.seq else s.reg.recB.seq).toNat ++
    le 2 s.fwVersion.toNat ++ le 2 0 ++ Mem.load s.cry.challenge 0 16 ++
    le 8 s.stamp.toNat ++ le 4 s.cry.signRec.next
  b ++ le 4 (crc32c b).toNat

/-- The checkpoint that covers every record after the previous one: FIRST_SEQ, LAST_SEQ and DIGEST
(R715). -/
def State.checkpointOf (s : State) : BitVec 32 × BitVec 32 × Bytes :=
  let l := s.log
  let first := if l.cpSeq = 0#32 then l.tail else l.cpSeq + 1#32
  let covered := (l.ring.takeWhile fun r => r.seq.toNat ≥ first.toNat).reverse
  (first, l.head, shake256 (padTo 32 l.digest ++ (covered.map LogRec.bytes).flatten) 32)

/-- The signature that waits or runs is given up, and no leaf is used. -/
def State.signIdle (s : State) : State :=
  (s.kecDone .signing).upCry fun c => { c with signState := 0#2, signWhat := .none, signMsg := [] }

/-- A signature of the waiting kind starts (R508): the message is fixed, a checkpoint record is
written. -/
def State.startSigning (s : State) : State :=
  match s.cry.signWhat with
  | .attest =>
    (s.upCry fun c => { c with signState := 2#2, signMsg := s.statement, signAt := s.now }).signingJob .signing 31#5
  | .checkpoint =>
    let (first, last, dig) := s.checkpointOf
    let s := s.logRecord 0x40 (le 4 first.toNat ++ le 4 last.toNat ++ dig ++ le 4 s.cry.signRec.next)
    let msg := ((s.log.ring.head?.map LogRec.bytes).getD []).take 0x3C
    (s.upLog fun l => { l with cpNew := l.head, cpNewLast := last, cpNewDigest := dig }).upCry
      (fun c => { c with signState := 2#2, signMsg := msg, signAt := s.now }) |>.signingJob .signing 24#5
  | .none => s

/-- A verification is queued at some level of the Keccak engine (R508). -/
def State.verifyQueued (s : State) : Bool :=
  s.cry.kjobs.any (·.verify) || s.mf.state == .verifying || s.reg.state == .verifying ||
    s.fw.state == .verifying || s.ver.ovrState == .verifying

/-- Checkpoints are made here: not while they are unmoored (bit 24), in STANDBY only where the host demanded
one, in DEEP none (R114, R140, note D10). -/
def State.checkpoints (s : State) : Bool :=
  s.moored 24 && match s.tide.power with
    | .deep => false
    | .standby => s.log.demand
    | _ => true

/-- What a boundary does for signing (R508 to R510, R715): a due checkpoint that the tree and the
budget allow waits for its turn, and the waiting request starts unless a verification is queued. -/
def State.signBoundary (s : State) : State :=
  let able := (s.tide.life == .provision || s.tide.life == .fleet) && s.keys.xmss == 2#2 && s.canVerify &&
    s.cry.signRec.next < 1048576
  let s :=
    if s.cry.signWhat == .checkpoint && ((s.cry.signState == 1#2 && !s.checkpoints) || !s.moored 24) then s.signIdle
    else s
  let s :=
    if s.log.due && s.checkpoints && s.cry.signState == 0#2 && able then
      if 3840 ≤ s.signWindow.1 then (s.upLog fun l => { l with deferred := true }).latchIf (!s.log.deferred) 41
      else (s.upLog fun l => { l with deferred := false }).upCry fun c => { c with signState := 1#2, signWhat := .checkpoint }
    else s
  if s.cry.signState == 1#2 && !s.verifyQueued then s.startSigning else s

/-- The signature of the message under way (R506). -/
def State.signature (s : State) : Bytes :=
  padTo 2820 (Config.xmssSign s.cry.seeds s.cry.signRec.next s.cry.signMsg)

/-- The 65 continuation records of a signature (R713, R715). -/
def State.logSignature (s : State) (sig : Bytes) : State :=
  (chunks 44 65 sig).foldl (fun s b => s.logRecord 0x41 b) s

/-- The signing record after the present signature, in the other copy (R506). -/
def State.advanceSign (s : State) : State :=
  let r := s.cry.signRec.next' s.aonDay (s.cry.signWhat == .attest)
  s.upCry fun c => if c.signRec = c.recA then { c with recB := r } else { c with recA := r }

/-- A hold-up lets the write of the next signing record end where it was in progress, though its signature is never
released (R506, R507, R688). -/
def State.signCut (s : State) : State :=
  if s.cry.signState = 2#2 ∧ Config.recordUnderWay s.now then s.advanceSign else s

/-- The signature is released after its record was written and read back (R506), or signing failed. -/
def State.releaseSign (s : State) (ok : Bool) : State :=
  let sig := s.signature
  let what := s.cry.signWhat
  let msg := s.cry.signMsg
  if ok then
    let s := s.advanceSign.signIdle
    match what with
    | .attest => (s.upCry fun c => { c with signResult := 1#4, attestOut := msg ++ sig }).latch 41
    | _ =>
      ((s.logSignature sig).upLog fun l => { l with
        cpSeq := l.cpNew, cpLast := l.cpNewLast, digest := l.cpNewDigest, due := false, demand := false }).latch 61
  else
    let s := s.signIdle
    match what with
    | .attest => (s.upCry fun c => { c with signResult := 7#4 }).latch 41
    | _ => s

/-- SIGN_RELEASE (R506): `ok` says whether the record was read back. A checkpoint whose feature is unmoored is given up
(R114). -/
def execSignRelease (ok : Bool) (s : State) : Host.Outcome State Fault Refusal :=
  s.whenDo (s.cry.signState == 2#2)
    (if s.cry.signWhat == .checkpoint && !s.moored 24 then s.signIdle else s.releaseSign ok)

/-! Logbook commands (R715, R718). -/

/-- LOGBOOK.CMD makes a checkpoint due on the host's demand (R715); one while checkpoints are unmoored is discarded
(R114). -/
def State.checkpointDemand (s : State) : State :=
  if s.moored 24 then s.upLog fun l => { l with due := true, demand := true } else s

/-- CHECKPOINT (R715). -/
def execCheckpoint (s : State) : Host.Outcome State Fault Refusal :=
  .next (s.farWrite 0xC0000 State.checkpointDemand)

/-- Time spent in WATCH, SERVICE and DRIVE since a checkpoint last fell due so (R715). -/
def State.activeTime (s : State) : Nat :=
  s.log.activeSpent + if s.tide.power.asleep then 0 else s.now - s.log.activeFrom

/-- CHECKPOINT_DUE (R715): 15 minutes in those states. -/
def execCheckpointDue (s : State) : Host.Outcome State Fault Refusal :=
  s.whenDo (decide (sec 900 ≤ s.activeTime))
    (s.upLog fun l => { l with due := l.due || s.moored 24, activeSpent := 0, activeFrom := s.now })

/-- A write of LOGBOOK.SEL (R718): the named record is copied as one unit; a SEQ that is not held
stores HEAD. -/
def State.logSel (s : State) (v : BitVec 32) : State :=
  let out := v.toNat < s.log.tail.toNat ∨ s.log.head.toNat < v.toNat
  let q := if out then s.log.head else v
  (s.upLog fun l => { l with
    sel := q, record := ((l.ring.find? fun r => r.seq == q).map LogRec.bytes).getD [] }).noticeIf out 1 0xC0018

/-- LOGBOOK_SEL_WRITE (R718). -/
def execLogbookSelWrite (v : BitVec 32) (s : State) : Host.Outcome State Fault Refusal :=
  .next (s.farWrite 0xC0018 fun s => s.logSel v)

end Sys2Proof.Machine
end

