-- ==== Sys2Proof/Machine/Lock.lean ====
section
/-! DEFINITION. The lock keeper (chapter 9): tickets, the handshake with the engine controller, the
start-enable pair, the lock key record. Every window runs on the shadow of the timebase (R405). -/

namespace Sys2Proof.Machine

/-! The CAN controllers, one of which may be the lock keeper's (chapters 9 and 13). -/

/-- Controller `n`. -/
def State.ctl (s : State) (n : Nat) : CanCtl := s.can.ctl.getD n CanCtl.reset

/-- The state with controller `n` changed. -/
def State.modCtl (s : State) (n : Nat) (f : CanCtl → CanCtl) : State :=
  s.upCan fun c => { c with ctl := c.ctl.modify n f }

/-- The controller is on the bus: error active or error passive (R600). -/
def CanCtl.onBus (c : CanCtl) : Bool := c.state == 1#2 || c.state == 2#2

/-- The state of fault confinement for the counters (ISO 11898-1). -/
def errState (tec rec : Nat) : BitVec 2 := if 256 ≤ tec then 3#2 else if 128 ≤ tec ∨ 128 ≤ rec then 2#2 else 1#2

/-! The island. -/

/-- A source of the lock keeper latches unless the main domain is in reset (R443). -/
def State.lkLatch (s : State) (n : Nat) : State := s.latchIf (s.port.main != .reset) n

/-- The lock keeper holds a release (R436). -/
def LkState.released? (k : LkState) : Bool := k == .released || k == .running

/-- The lock keeper's state code (R441). -/
def LkState.code : LkState → Nat
  | .inactive => 0
  | .locked => 1
  | .requested => 2
  | .answered => 3
  | .released => 4
  | .running => 5

/-- The window of a ticket has not closed yet (R426, R427). -/
def LockKeeper.windowOpen (k : LockKeeper) (t : Ticket) : Bool := decide (k.shadow < t.issued + sec k.record.lock.ticketS)

/-- A logbook record of a lock keeper event: while the main domain is in reset there is none (R443). -/
def State.lkLog (s : State) (kind : Nat) (data : Bytes) : State :=
  if s.port.main = .reset then s else s.logRecord kind data

/-- The pairing key of an epoch that the lock keeper holds (R410, R411). -/
def LockKeeper.keyOf (k : LockKeeper) (epoch : BitVec 8) : Option Bytes :=
  if epoch = 0#8 then none
  else if k.record.epoch = epoch then some k.record.key
  else if k.record.prevEpoch = epoch then some k.record.prevKey
  else none

/-- A frame is handed to controller 7 (R415, R418), where it waits to be sent. -/
def State.lkSend (s : State) (ident : BitVec 32) (b : Bytes) : State :=
  let frame := le 4 ident.toNat ++ padTo 8 b
  s.upLk fun k => { k with tx := (frame :: k.tx).take 16, waiting := k.waiting ++ [frame] }

/-- The ticket that the status view shows (R433, R441): the held one, or that of the latest release. -/
def LockKeeper.shown (k : LockKeeper) : Ticket := k.ticket.getD k.viewTicket

/-- The lock keeper owns controller 7 (R402, R412): its record in force says so. -/
def LockKeeper.ownsCan (k : LockKeeper) : Bool := k.record.can.owner == 2#8

/-- A REQUEST goes out and the request timer starts (R418, R419, R430). -/
def State.sendRequest (s : State) (t : Ticket) : State :=
  let k := s.lk
  (s.lkSend k.record.lock.idRequest
    [1#8, k.reqNext, k.record.epoch, if t.override then 1#8 else 0#8]).upLk fun k =>
      { k with reqCtr := k.reqNext, reqNext := k.reqNext + 1#8, timerFrom := k.shadow, state := .requested }

/-- The ticket in the queue reaches the lock keeper (R427, R430): accepted in LOCKED while its window
is open and controller 7 is not bus-off, else refused. -/
def State.ticketIn (s : State) (t : Ticket) : State :=
  let s := s.upLk fun k => { k with queue := none }
  if s.lk.state = .locked ∧ ¬ s.lk.busOff ∧ s.lk.windowOpen t then
    (((s.upLk fun k => { k with ticket := some t }).sendRequest t)).lkLatch 56
  else
    let s := ((s.upBt fun b => if s.port.main = .reset then b else { b with result := 4#3, reason := 4#4 }).upLk
      fun k => { k with refused := k.refused + 1#16 }).lkLatch 56
    (s.lkLog 0x03 ([t.berth] ++ le 8 t.cred.toNat ++ [4#8])).latchIf (s.port.main != .reset && !t.override) 10

/-- TICKET_DELIVERY (R427). -/
def execTicketDelivery (s : State) : Host.Outcome State Fault Refusal :=
  match s.lk.queue with
  | none => .next s
  | some t => s.whenDo s.lk.alive (s.ticketIn t)

/-- An unconsumed ticket is discarded and the lock keeper is LOCKED again. -/
def State.dropTicket (s : State) : State := s.upLk fun k => { k with ticket := none, state := .locked }

/-- A handshake is under way. -/
def LkState.asking (k : LkState) : Bool := k == .requested || k == .answered

/-- TICKET_WINDOW_END (R426, R430). -/
def execTicketWindowEnd (s : State) : Host.Outcome State Fault Refusal :=
  match s.lk.ticket with
  | none => .next s
  | some t =>
    s.whenDo (s.lk.state.asking && decide (t.issued + sec s.lk.record.lock.ticketS ≤ s.lk.shadow))
      ((s.dropTicket.upLk fun k => { k with expired := k.expired + 1#16 }).lkLatch 56)

/-- REQUEST_TIMER_EXPIRY (R430): a new REQUEST inside the window. -/
def execRequestTimerExpiry (s : State) : Host.Outcome State Fault Refusal :=
  match s.lk.ticket with
  | none => .next s
  | some t =>
    s.whenDo (s.lk.state.asking && decide (s.lk.timerFrom + ms 100 ≤ s.lk.shadow) && s.lk.windowOpen t)
      ((s.upLk fun k => { k with
        resends := if k.state = .requested then k.resends + 1#16 else k.resends }).sendRequest t)

/-- ANSWER with RESULT `r` (R418). -/
def State.sendAnswer (s : State) (r : Nat) (ctr : BitVec 8) (mac : Bytes) : State :=
  s.lkSend s.lk.record.lock.idAnswer ([BitVec.ofNat 8 r, ctr] ++ padTo 6 mac)

/-- The answer to a challenge under the key of its epoch (R420), or EPOCH (R421). -/
def State.answer (s : State) (ctr epoch : BitVec 8) (nonce : BitVec 48) : State :=
  match s.lk.keyOf epoch with
  | some key =>
    (s.sendAnswer 0 ctr ((cmac key (le 6 nonce.toNat ++ [ctr, epoch] ++ le 8 s.ident.device.toNat)).take 6)).upLk
      fun k => { k with epochUnknown := false }
  | none => ((s.sendAnswer 2 ctr []).upLk fun k => { k with epochUnknown := true }).lkLatch 59

/-- A CHALLENGE of the engine controller (R430, R439). -/
def State.challenge (s : State) (ctr epoch : BitVec 8) (nonce : BitVec 48) (us : BitVec 16) : State :=
  let s := s.upLk fun k => { k with nonce := nonce }
  let timed (s : State) := s.upLk fun k => { k with answerUs := us }
  match s.lk.state with
  | .inactive =>
    if s.lk.record.life = .provision then timed (s.sendAnswer 1 ctr []) else s
  | .locked => timed (s.sendAnswer 1 ctr [])
  | .requested =>
    if ctr = s.lk.reqCtr then (timed (s.answer ctr epoch nonce)).upLk fun k => { k with state := .answered }
    else s
  | .answered => s
  | .released => timed (s.answer ctr epoch nonce)
  | .running => timed (s.answer ctr epoch nonce)

/-- LK_CHALLENGE (R416, R430): controller 7 delivers a frame whose identifier is ID_CHALLENGE. -/
def execLkChallenge (reqCtr epoch : BitVec 8) (nonce : BitVec 48) (answerUs : BitVec 16) (s : State) :
    Host.Outcome State Fault Refusal :=
  s.whenDo (s.lk.alive && s.lk.ownsCan) (s.challenge reqCtr epoch nonce answerUs)

/-- A STATUS is valid (R422). -/
def State.statusValid (s : State) (engine verdict : BitVec 2) (epoch seq : BitVec 8) (mac : BitVec 32) : Bool :=
  match s.lk.keyOf epoch with
  | none => false
  | some key =>
    let t := cmac key ([engine.setWidth 8, verdict.setWidth 8, epoch, seq] ++ le 6 s.lk.nonce.toNat ++
      le 8 s.ident.device.toNat)
    let d := (seq - s.lk.seq).toNat
    t.take 4 == le 4 mac.toNat && (!s.lk.seqSeen || (1 ≤ d && d ≤ 127))

/-- The lock keeper reports engine running to the tide unit (R438), which knows it until ignition off. -/
def State.reportRunning (s : State) : State :=
  (s.upTide fun t => { t with engineRunning := true, ignitionOff := false }).lkLatch 58

/-- A release begins or ends is logged with the lock keeper's state (R713). -/
def State.logRelease (s : State) : State :=
  s.lkLog 0x07 (BitVec.ofNat 8 s.lk.state.code :: le 8 s.lk.viewTicket.cred.toNat)

/-- A release begins: the handshake was accepted (R413, R428, R430, R433). -/
def State.release (s : State) (engine : BitVec 2) (epoch : BitVec 8) : State :=
  let s := s.upLk fun k =>
    let t := k.shown
    let drop (r : LkRecord) := if epoch = r.epoch then { r with prevKey := [], prevEpoch := 0#8 } else r
    { k with
      ticket := none, viewTicket := t, accepted := k.accepted + 1#16, toggling := true
      crankFrom := k.shadow, releaseAt := BitVec.ofNat 48 k.shadow, tamperSeen := false
      record := drop k.record, mram := drop k.mram
      state := if engine = 3#2 then .running else .released }
  let s := ((s.lkLatch 56).lkLatch 57).logRelease
  if engine = 3#2 then s.reportRunning else s

/-- A release ends: STEN static, LOCKED (R430, R436). -/
def State.endRelease (s : State) : State :=
  ((s.upLk fun k => { k with toggling := false, state := .locked }).lkLatch 57).logRelease

/-- The pairing exchange is over (R466). The command PAIR ends, unless a main-domain reset has ended it: the
exchange itself goes on through one (R404). -/
def State.pairDone (s : State) (result : BitVec 5) : State :=
  let s := s.upLk fun k => { k with pairing := false, pairLeft := 0 }
  if s.keys.pairing then (s.upKeys fun k => { k with busy := false, pairing := false, result := result }).latch 44 else s

/-- What a valid STATUS does in each state (R430, R432, R436, R466, log entry 49). A REJECT is counted and latches
source 59 in every state (R441, R444). -/
def State.statusAct (s : State) (engine verdict : BitVec 2) (epoch : BitVec 8) : State :=
  let s := if verdict = 2#2 then (s.upLk fun k => { k with rejects := k.rejects + 1#16 }).lkLatch 59 else s
  match s.lk.state with
  | .answered =>
    if verdict = 1#2 then s.release engine epoch
    else if verdict = 2#2 then s.dropTicket.lkLatch 56
    else s
  | .released =>
    if engine = 3#2 then (s.upLk fun k => { k with state := .running }).reportRunning
    else if verdict = 2#2 ∨ engine = 0#2 then s.endRelease
    else s
  | .running =>
    if engine = 0#2 then
      (s.endRelease.upTide fun t => { t with ignitionOff := true, engineRunning := false }).lkLatch 58
    else s
  | .inactive =>
    if s.lk.pairing ∧ ¬ s.lk.recPending ∧ verdict = 1#2 ∧ epoch = s.lk.record.epoch then
      (s.upLk fun k => { k with paired := true }).pairDone 1#5
    else s
  | _ => s

/-- A STATUS of the engine controller (R422, R424, R430). -/
def State.status (s : State) (engine verdict : BitVec 2) (epoch seq : BitVec 8) (mac : BitVec 32) : State :=
  if s.statusValid engine verdict epoch seq mac then
    (s.upLk fun k => { k with engine := engine, seq := seq, seqSeen := true, statusFrom := k.shadow
                              ecuSilent := false }).statusAct engine verdict epoch
  else s.upLk fun k => { k with badMac := k.badMac + 1#16 }

/-- LK_STATUS (R416, R422): controller 7 delivers a frame whose identifier is ID_STATUS. -/
def execLkStatus (engine verdict : BitVec 2) (epoch seq : BitVec 8) (mac : BitVec 32) (s : State) :
    Host.Outcome State Fault Refusal :=
  s.whenDo (s.lk.alive && s.lk.ownsCan) (s.status engine verdict epoch seq mac)

/-- CRANK_WINDOW_END (R430): 60 s without ENGINE 3. -/
def execCrankWindowEnd (s : State) : Host.Outcome State Fault Refusal :=
  s.whenDo (s.lk.state == .released && decide (s.lk.crankFrom + sec 60 ≤ s.lk.shadow)) s.endRelease

/-- ECU_SILENT (R424): no valid STATUS for 1 s. -/
def execEcuSilent (s : State) : Host.Outcome State Fault Refusal :=
  s.whenDo (s.lk.alive && !s.lk.ecuSilent && decide (s.lk.statusFrom + sec 1 ≤ s.lk.shadow))
    ((s.upLk fun k => { k with ecuSilent := true }).lkLatch 59)

/-- A reading of the start-enable pins (R435). -/
def State.readback (s : State) (agrees : Bool) : State :=
  if agrees then
    s.upLk fun k => { k with stenGood := k.stenGood + 1, stenBad := 0
                             stenFault := k.stenFault && k.stenGood + 1 < 3 }
  else
    let rises := !s.lk.stenFault && s.lk.stenBad + 1 ≥ 3
    let s := s.upLk fun k => { k with stenBad := k.stenBad + 1, stenGood := 0
                                      stenFault := k.stenFault || rises }
    if rises then s.lkLatch 59 else s

/-- STEN_READBACK (R435). -/
def execStenReadback (agrees : Bool) (s : State) : Host.Outcome State Fault Refusal :=
  s.whenDo s.lk.alive (s.readback agrees)

/-- Controller 7 of the lock keeper with its error counters at `tec` and `rec`: with a transmit count of 256 it is
bus-off, which raises BUS_OFF and latches source 59 (R415, R417). -/
def State.lkErrors (s : State) (tec rec : Nat) : State :=
  let off := decide (256 ≤ tec)
  let s := s.modCtl 7 fun c => { c with
    tecN := min tec 255, recN := min rec 255, state := if c.state = 0#2 then 0#2 else errState tec rec }
  if off && !s.lk.busOff then (s.upLk fun k => { k with busOff := true }).lkLatch 59 else s

/-- LK_BUS_OFF (R417): controller 7, which the lock keeper owns, enters bus-off. -/
def execLkBusOff (s : State) : Host.Outcome State Fault Refusal :=
  s.whenDo (s.lk.alive && s.lk.ownsCan && !s.lk.busOff) (s.lkErrors 256 (s.ctl 7).recN)

/-- A handshake frame has been sent, or has been given up (R415): the next one's turn. -/
def LockKeeper.sent (k : LockKeeper) : LockKeeper := { k with waiting := k.waiting.tail, onAir := false, tries := 0 }

/-- The first handshake frame goes on the air (R415). -/
def State.lkArbitrates (s : State) : Host.Outcome State Fault Refusal :=
  s.whenDo (s.lk.alive && (s.ctl 7).onBus && !s.lk.waiting.isEmpty && !s.lk.onAir) (s.upLk fun k => { k with onAir := true })

/-- A handshake frame has been sent (R415). -/
def State.lkSent (s : State) : Host.Outcome State Fault Refusal :=
  s.whenDo s.lk.onAir ((s.upLk LockKeeper.sent).lkErrors ((s.ctl 7).tecN - 1) (s.ctl 7).recN)

/-- An attempt of a handshake frame fails, by the kinds of CAN_TX_ATTEMPT_FAILED; after RETRY attempts in a row it goes
aground, and the next request timer sends another (R415). -/
def State.lkFailed (s : State) (kind : BitVec 2) : Host.Outcome State Fault Refusal :=
  let tries := s.lk.tries + (if kind = 3#2 then 0 else 1)
  let t := s.upLk fun k =>
    if kind ≠ 3#2 ∧ k.record.can.retry ≤ tries then k.sent else { k with onAir := false, tries := tries }
  s.whenDo s.lk.onAir
    (if kind = 0#2 ∨ kind = 1#2 then t.lkErrors ((s.ctl 7).tecN + 8) (s.ctl 7).recN else t)

/-- The state and INACTIVE cause that a record leads to (R430, R440, R474). -/
def LkRecord.stateOf (r : LkRecord) : LkState × BitVec 3 :=
  if r.life = .returned then (.inactive, 3#3)
  else if r.epoch = 0#8 then (.inactive, 1#3)
  else if r.can.owner ≠ 2#8 then (.inactive, 2#3)
  else if r.life ≠ .fleet then (.inactive, 3#3)
  else (.locked, 0#3)

/-- The supply monitor trips (R406): the island is held in reset, and ticket, release and engine state go. A PAIR that
waits for the exchange ends as one without an answer. -/
def State.islandTrip (s : State) : State :=
  ((s.pairDone 14#5).upLk fun k => { LockKeeper.reset with
    mram := k.mram, record := k.record, paired := k.paired, shadow := k.shadow, tripped := true
    }).upTide fun t => { t with engineRunning := false, ignitionOff := false }

/-- STEN_P and STEN_N are high-impedance (R406, R407, R434): the island is in reset, or left it less than 0.1 ms ago. -/
def State.stenHiZ (s : State) : Bool := !s.lk.alive && (s.lk.tripped || decide (s.now < s.lk.upFrom + us 100))

/-- The levels of STEN_P and STEN_N at this tick, none while they are high-impedance (R434). While a release is held
they are a square wave of 1 kHz from the start of the toggling on. -/
def State.sten (s : State) : Option (Bool × Bool) :=
  if s.stenHiZ then none
  else
    let high := s.lk.toggling && (s.lk.shadow - s.lk.crankFrom) / us 500 % 2 == 1
    some (high, !high)

/-- VAON has reached 2.90 V: within the 500 µs of a hold-up, that is the HOLDUP condition (R688, R711). -/
def State.deepHoldup (s : State) : State :=
  s.upSys fun y => { y with holdupDeep := y.holdupDeep || (y.brown && s.port.main == .reset && s.now < y.brownAt + us 500) }

/-- ISLAND_SUPPLY_TRIP (R406). -/
def execIslandSupplyTrip (s : State) : Host.Outcome State Fault Refusal := .next s.islandTrip.deepHoldup

/-- The rewritten record is adopted (R412). In PROVISION the pairing exchange begins where its key is a new one (R466);
a controller 7 that is given up is no longer bus-off. -/
def LockKeeper.adopt (k : LockKeeper) : LockKeeper :=
  let (st, cause) := k.mram.stateOf
  let pairs : Bool := k.mram.life == .provision && k.mram.epoch != 0#8 && k.mram.epoch != k.record.epoch
  { k with record := k.mram, recPending := false, state := st, cause := cause
           busOff := k.busOff && k.mram.can.owner == 2#8
           pairing := k.pairing || pairs, pairLeft := if pairs then 10 else k.pairLeft }

/-- Controller 7 is configured from the record and on the bus (R407, R414). -/
def State.islandCan (s : State) : State :=
  if s.lk.ownsCan then s.modCtl 7 fun c => { c with owner := 2#8, state := 1#2, tecN := 0, recN := 0, protoExc := false }
  else s

/-- The island's sequence from the ROM digest check on (R407, R409): the record is read and adopted, LOCKED or
INACTIVE; a failed self-test leaves it INACTIVE with cause SELFTEST, with the record it had. -/
def State.islandSequence (s : State) (testsOk : Bool) : State :=
  if testsOk then (s.upLk LockKeeper.adopt).islandCan
  else s.upLk fun k => { k with state := .inactive, cause := 4#3, selftestAt := k.shadow }

/-- The island powers up (R407, R442): its registers at their reset values, then the sequence. -/
def State.islandUp (s : State) (testsOk : Bool) : State :=
  (s.upLk fun k => { LockKeeper.reset with
    alive := true, mram := k.mram, record := k.record, paired := k.paired, recPending := k.record != k.mram
    shadow := s.baseAt s.now, statusFrom := s.baseAt s.now, upFrom := k.upFrom }).islandSequence testsOk

/-- ISLAND_POWER_UP (R407). -/
def execIslandPowerUp (testsOk : Bool) (s : State) : Host.Outcome State Fault Refusal :=
  s.whenDo (!s.lk.alive) (s.islandUp testsOk)

/-- ISLAND_SELFTEST_RETRY (R409, R442): 1 s after a failure the sequence is repeated; the registers stand, since this
is no power-up of the island. -/
def execIslandSelftestRetry (testsOk : Bool) (s : State) : Host.Outcome State Fault Refusal :=
  s.whenDo (s.lk.alive && s.lk.state == .inactive && s.lk.cause == 4#3 && decide (s.lk.selftestAt + sec 1 ≤ s.lk.shadow))
    (s.islandSequence testsOk)

/-- A tide boundary at the lock keeper (R405, R412): the shadow is aligned, and a rewritten record is
adopted when neither a release nor a ticket is held. -/
def State.lkBoundary (s : State) : State :=
  if s.lk.alive then
    s.upLk fun k =>
      let k := { k with shadow := s.baseAt s.now }
      if k.recPending ∧ ¬ k.state.released? ∧ k.ticket.isNone ∧ ¬ (k.state = .inactive ∧ k.cause = 4#3) then k.adopt
      else k
  else s

/-- The key store rewrites the lock key record (R410, R465). -/
def State.writeRecord (s : State) (f : LkRecord → LkRecord) : State :=
  s.upLk fun k => { k with mram := f k.mram, recPending := true }

/-- A tamper event at the lock keeper (R429, R430). -/
def State.lkTamper (s : State) : State :=
  let waits := s.lk.queue.isSome
  let s := (s.upLk fun k => { k with queue := none })
  let s := if waits then s.lkLatch 56 else s
  if s.lk.state.asking then s.dropTicket.lkLatch 56
  else if s.lk.state.released? then s.upLk fun k => { k with tamperSeen := true }
  else s

/-- The next PAIR frame goes out (R466). It is no REQUEST: its byte 1 is the counter as it stands (R419). -/
def State.pairFrame (s : State) : State :=
  let k := s.lk
  let ctr := k.reqNext
  let mac := (cmac k.record.key (ascii "PAIRCHK" ++ [ctr, k.record.epoch] ++ le 8 s.ident.device.toNat)).take 5
  (s.lkSend k.record.lock.idRequest ([2#8, ctr, k.record.epoch] ++ mac)).upLk fun k =>
    { k with pairLeft := k.pairLeft - 1
             pairFrom := if k.pairLeft = 10 then k.shadow else k.pairFrom }

/-- PAIRING_FRAME (R466): every 100 ms, up to 10 times, after the record was adopted. -/
def execPairingFrame (s : State) : Host.Outcome State Fault Refusal :=
  s.whenDo (s.lk.alive && s.lk.pairing && !s.lk.recPending && 0 < s.lk.pairLeft &&
      (s.lk.pairLeft == 10 || decide (s.lk.pairFrom + ms (100 * (10 - s.lk.pairLeft)) ≤ s.lk.shadow)))
    s.pairFrame

/-- PAIRING_TIMEOUT (R466): 1 s after the first PAIR frame. -/
def execPairingTimeout (s : State) : Host.Outcome State Fault Refusal :=
  s.whenDo (s.lk.pairing && s.lk.pairLeft < 10 && decide (s.lk.pairFrom + sec 1 ≤ s.lk.shadow)) (s.pairDone 14#5)

/-- A release ticket is put into the queue to the lock keeper (R56, R403, R425); source 9. -/
def State.issueTicket (s : State) (override : Bool) (berth : BitVec 8) (cred : BitVec 64) : State :=
  ((s.upLk fun k => { k with queue := some { override := override, berth := berth, cred := cred, issued := s.baseAt s.now } }
    ).latch 9).logRecord 0x03 ([berth] ++ le 8 cred.toNat ++ [if override then 1#8 else 0#8])

/-- A start request is ignored: one is pending, or a ticket is valid and not consumed (R58). -/
def State.startBusy (s : State) : Bool :=
  s.bt.startLeft.isSome || s.bt.startWait || s.lk.ticket.isSome || s.lk.queue.isSome

end Sys2Proof.Machine
end

