-- ==== Sys2Proof/Machine/Reg.lean ====
section
/-! DEFINITION. The member register (chapter 8): storage, lookup, integrity, deltas, commit,
mailbox and clock, with the meaning of every REGISTER command. -/

namespace Sys2Proof.Machine

/-! Storage (R354 to R360). -/

/-- The commit record in force (R372). -/
def MemberReg.cur (r : MemberReg) : CommitRec := if r.useA then r.recA else r.recB

/-- REGISTER.CLOCK at tick `t` (R363). -/
def MemberReg.clock (r : MemberReg) (t : Nat) : BitVec 32 :=
  r.clockBase + BitVec.ofNat 32 ((t - r.clockAt) / sec 1)

/-- The placement salt of a record (R372). -/
def CommitRec.saltBytes (c : CommitRec) : Bytes := padTo 16 c.salt

/-- The profile bank in force (R372), in MRAM. -/
def MemberReg.profiles (r : MemberReg) : Mem := if r.cur.profileBank = 0#1 then r.profA else r.profB

/-- FLOOR: the greater of the two copies (R355, R364). -/
def MemberReg.floorNow (r : MemberReg) : BitVec 32 := if r.floor.toNat < r.floorCopy.toNat then r.floorCopy else r.floor

/-! Commit records (R372, R447, R462). -/

/-- Bytes 0x00 to 0x67 of a commit record (R372). -/
def CommitRec.body (c : CommitRec) : Bytes :=
  le 4 c.rseq.toNat ++ le 4 c.seq.toNat ++ padTo 32 c.root ++ [c.profileBank.setWidth 8, c.journal.setWidth 8] ++ le 2 0 ++
    le 2 c.jPage ++ le 2 c.jLen ++ le 4 c.issued.toNat ++ le 4 c.live.toNat ++ c.saltBytes ++ padTo 32 c.digest

/-- The register integrity key of a vehicle root (R447). -/
def registerKey (root : Bytes) : Bytes := derive root "REGI" [] 32

/-- TAG of a commit record under a vehicle root (R372). -/
def CommitRec.tagUnder (c : CommitRec) (root : Bytes) : Bytes := kmac256 (registerKey root) c.body 32 []

/-- A commit record with its TAG under a vehicle root, and its CRC (R372). -/
def CommitRec.sealedUnder (c : CommitRec) (root : Bytes) : CommitRec :=
  let t := c.tagUnder root
  { c with tag := t, crc := crc32c (c.body ++ t) }

/-- CRC and TAG of a commit record verify under a vehicle root (R372). -/
def CommitRec.validUnder (c : CommitRec) (root : Bytes) : Bool :=
  c.crc == crc32c (c.body ++ padTo 32 c.tag) && c.tag == c.tagUnder root

/-- A commit record whose TAG verifies under the old vehicle root takes its TAG under the new one (R462). -/
def CommitRec.retag (c : CommitRec) (old new : Bytes) : CommitRec :=
  if c.validUnder old then c.sealedUnder new else c

/-- Both commit records with their TAGs under the new vehicle root (R462). -/
def MemberReg.retag (r : MemberReg) (old new : Bytes) : MemberReg :=
  { r with recA := r.recA.retag old new, recB := r.recB.retag old new }

/-! Pages (R354, R371, R373, R374). -/

/-- 4,096 zero bytes. -/
def zeroPage : Bytes := List.replicate 4096 0#8

/-- The bytes of logical page `k` (R354). -/
def MemberReg.page (r : MemberReg) (k : Nat) : Bytes :=
  match tableGet r.ramMap k with
  | some p => Mem.load r.phys (4096 * p) 4096
  | none => zeroPage

/-- Leaf `k` of the Merkle tree over a page's bytes (R371). -/
def leafOf (k : Nat) (page : Bytes) : Bytes := shake256 (0#8 :: (le 2 k ++ page)) 32

/-- The leaf of page `k`: the leaf table's entry (R355), or what the pending journal will make of it (R391, R393). -/
def MemberReg.leaf (r : MemberReg) (k : Nat) : Bytes :=
  match if r.cur.journal = 0#2 then none else r.journal.find? fun e => e.lpage == k with
  | some e => e.leaf
  | none => if r.cur.journal = 2#2 then leafOf k zeroPage else (tableGet r.leaves k).getD (leafOf k zeroPage)

/-- The node of the Merkle tree above `2 ^ d` leaves from leaf `i * 2 ^ d` (R371). -/
def merkle (f : Nat → Bytes) : Nat → Nat → Bytes
  | 0, i => if i < 15360 then f i else List.replicate 32 0#8
  | d + 1, i => shake256 (1#8 :: (merkle f d (2 * i) ++ merkle f d (2 * i + 1))) 32

/-- The root of the tree of 16,384 leaves (R371). -/
def merkleRoot (f : Nat → Bytes) : Bytes := merkle f 14 0

/-- Page `k` does not match its leaf, or is known to be bad (R373, R374). -/
def MemberReg.pageBad (r : MemberReg) (k : Nat) : Bool :=
  r.bad.contains k || (!r.verified.contains k && leafOf k (r.page k) != r.leaf k)

/-- Page `k` is touched: an unverified page is checked against its leaf (R373), a job of level 2 (R497), and none
where the Keccak engine has failed (R499). The first bad page
latches source 34 and is logged (R374). -/
def State.touchPage (s : State) (k : Nat) : State :=
  let checked := s.kecAsk { KecJob.reset with level := 2#2, left := 48 * (4096 / 136 + 1), work := .page }
  if s.reg.verified.contains k || s.reg.bad.contains k || !s.canDerive then s
  else if s.reg.pageBad k then
    let first := s.reg.bad.isEmpty
    let s := checked.upReg fun r => { r with bad := k :: r.bad }
    if first then (s.latch 34).logRecord 0x24 (le 2 k) else s
  else checked.upReg fun r => { r with verified := k :: r.verified }

/-- The logical pages that hold slot `n` (R356). -/
def slotPages (n : Nat) : List Nat :=
  if 12 * n / 4096 = (12 * n + 11) / 4096 then [12 * n / 4096] else [12 * n / 4096, 12 * n / 4096 + 1]

/-- A slot's 12 bytes out of pages given by `page` (R356). -/
def slotBytes (page : Nat → Bytes) (n : Nat) : Bytes :=
  ((slotPages n).map page).flatten.drop (12 * n % 4096) |>.take 12

/-- CRED of a slot (R356). -/
def slotCred (b : Bytes) : BitVec 64 := BitVec.ofNat 64 (leAt b 0 8)

/-- The two buckets of a credential under a salt (R366). -/
def buckets (salt : Bytes) (cred : BitVec 64) : Nat × Nat :=
  let h := shake256 (salt ++ le 8 cred.toNat) 16
  (leAt h 0 8 * 655360 / 2 ^ 64, leAt h 8 8 * 655360 / 2 ^ 64)

/-- Slot `i` of bucket `b` of table `t` (R366). -/
def slotNo (t b i : Nat) : Nat := 2621440 * t + 4 * b + i

/-- The slots that a lookup visits, in order (R366). -/
def lookupSlots (salt : Bytes) (cred : BitVec 64) : List Nat :=
  let (b0, b1) := buckets salt cred
  (List.range 4).map (slotNo 0 b0) ++ (List.range 4).map (slotNo 1 b1)

/-- The search of R366 over the slots left to visit: one on a page known to be bad is passed over, and the pages of
any other are touched. -/
def State.lookupIn (cred : BitVec 64) : List Nat → State → Option Nat × State
  | [], s => (none, s)
  | n :: rest, s =>
    if (slotPages n).any s.reg.bad.contains then State.lookupIn cred rest s
    else
      let s := (slotPages n).foldl State.touchPage s
      if (slotPages n).any s.reg.bad.contains then State.lookupIn cred rest s
      else if slotCred (slotBytes s.reg.page n) = cred then (some n, s)
      else State.lookupIn cred rest s

/-- The lookup of R366: the slot of a credential. While the register is FAILED every lookup returns
absent (R376). -/
def State.lookup (s : State) (cred : BitVec 64) : Option Nat × State :=
  if cred = 0#64 ∨ s.reg.health = 2#2 then (none, s)
  else State.lookupIn cred (lookupSlots s.reg.cur.saltBytes cred) s

/-- What a slot says of its member: RIGHTS, STATUS, GEN (R356). -/
structure Member where
  /-- RIGHTS -/
  rights : BitVec 16
  /-- STATUS -/
  status : BitVec 8
  /-- GEN -/
  gen : BitVec 8
deriving DecidableEq, Repr

/-- The member of slot `n`. -/
def MemberReg.member (r : MemberReg) (n : Nat) : Member :=
  let b := slotBytes r.page n
  { rights := BitVec.ofNat 16 (leAt b 8 2), status := BitVec.ofNat 8 (byteAt b 10)
    gen := BitVec.ofNat 8 (byteAt b 11) }

/-- check() of R362: the rights class allows this vehicle now. -/
def State.rightsAllow (s : State) (rights : BitVec 16) : Bool :=
  let p := Mem.load s.reg.ramProf (48 * (rights.toNat % 1024)) 48
  let now := (s.reg.clock s.now).toNat
  let flags := byteAt p 4
  let notAfter := leAt p 0xC 4
  let notBefore := leAt p 8 4
  let local_ : Int := (now : Int) + 60 * i16At p 6
  let day := (local_ / 86400 + 3) % 7
  let h := (24 * day + local_ % 86400 / 3600).toNat
  if flags % 2 = 0 then false
  else if s.cfg.vclass &&& BitVec.ofNat 16 (leAt p 2 2) ≠ BitVec.ofNat 16 (leAt p 0 2) then false
  else if notAfter ≠ 0 ∧ now ≥ notAfter then false
  else if s.reg.estimated then true
  else if notBefore ≠ 0 ∧ now < notBefore then false
  else if flags / 2 % 2 = 1 then true
  else byteAt p (0x10 + h / 8) / 2 ^ (h % 8) % 2 = 1

/-! Deltas (R377 to R385): a working copy on which the operations act in order. -/

/-- The working copy of a delta's walk. -/
structure RegWork where
  /-- REBUILD: it starts from an empty register (R383) -/
  rebuild : Bool
  /-- pages written so far -/
  pages : List (Nat × Bytes)
  /-- pages that a PAGE operation replaced (R381) -/
  replaced : List Nat
  /-- profiles written so far -/
  profs : List (Nat × Bytes)
  /-- salt -/
  salt : Bytes
  /-- LIVE -/
  live : Nat
  /-- operations without effect (R379) -/
  noop : Nat
  /-- pages of the register that the operations have read (R373, R381) -/
  reads : List Nat
deriving DecidableEq, Repr

/-- A page of the working copy. -/
def RegWork.page (w : RegWork) (r : MemberReg) (k : Nat) : Bytes :=
  match tableGet w.pages k with
  | some b => b
  | none => if w.rebuild then zeroPage else r.page k

/-- A page whose reading refuses the delta (R381). -/
def RegWork.badPage (w : RegWork) (r : MemberReg) (k : Nat) : Bool :=
  !w.rebuild && !w.replaced.contains k && r.pageBad k

/-- The working copy with bytes `b` in slot `n`. -/
def RegWork.setSlot (w : RegWork) (r : MemberReg) (n : Nat) (b : Bytes) : RegWork :=
  (List.range 12).foldl (fun w i =>
    let a := 12 * n + i
    let p := w.page r (a / 4096)
    { w with pages := bindTo w.pages (a / 4096) (p.set (a % 4096) (b.getD i 0#8)) }) w

/-- Slots `l` are read, out of the register where no PAGE operation replaced their page (R381). -/
def RegWork.note (w : RegWork) (l : List Nat) : RegWork :=
  if w.rebuild then w
  else { w with reads := w.reads ++ (l.flatMap slotPages).filter fun k => !w.replaced.contains k }

/-- The first bad page among the pages of slots `l`. -/
def RegWork.badOf (w : RegWork) (r : MemberReg) (l : List Nat) : Option Nat :=
  (l.map slotPages).flatten.find? (w.badPage r)

/-- A slot of the working copy. -/
def RegWork.slot (w : RegWork) (r : MemberReg) (n : Nat) : Bytes := slotBytes (w.page r) n

/-- Why a delta is refused: RESULT and DETAIL. -/
abbrev Refused := Nat × Nat

/-- The slot that holds a credential, reading no page after it (R366, R381). -/
def RegWork.findIn (w : RegWork) (r : MemberReg) (cred : BitVec 64) : List Nat → Except Refused (Option Nat)
  | [] => .ok none
  | n :: rest =>
    match w.badOf r [n] with
    | some k => .error (9, k)
    | none => if slotCred (w.slot r n) = cred then .ok (some n) else w.findIn r cred rest

/-- The lowest empty slot of a bucket (R369). -/
def RegWork.empty (w : RegWork) (r : MemberReg) (t b : Nat) : Option Nat :=
  ((List.range 4).map (slotNo t b)).find? fun n => slotCred (w.slot r n) = 0#64

/-- The slots of a bucket. -/
def bucketSlots (t b : Nat) : List Nat := (List.range 4).map (slotNo t b)

/-- The entries of the path move one place on, from the last to the first: slot `d` is vacant, and
`path` lists the slots from the last moved back to the credential's own bucket (R369). -/
def RegWork.shift (w : RegWork) (r : MemberReg) (d : Nat) (new : Bytes) : List Nat → RegWork
  | [] => w.setSlot r d new
  | n :: rest => (w.setSlot r d (w.slot r n)).shift r n new rest

/-- One bucket of the search of R369: its four entries in turn. -/
def RegWork.expand (w : RegWork) (r : MemberReg) (new : Bytes) (t b : Nat) (path : List Nat) :
    List Nat → List (Nat × Nat × List Nat) → List (Nat × Nat) →
    Except Refused (Sum RegWork (List (Nat × Nat × List Nat) × List (Nat × Nat)))
  | [], queue, seen => .ok (.inr (queue, seen))
  | i :: rest, queue, seen =>
    let n := slotNo t b i
    let (b0, b1) := buckets w.salt (slotCred (w.slot r n))
    let u := 1 - t
    let c := if u = 0 then b0 else b1
    match w.badOf r (bucketSlots u c) with
    | some k => .error (9, k)
    | none =>
      match w.empty r u c with
      | some d =>
        .ok (.inl ((w.note (((u, c) :: seen).flatMap fun x => bucketSlots x.1 x.2)).shift r d new (n :: path)))
      | none =>
        if seen.contains (u, c) then w.expand r new t b path rest queue seen
        else w.expand r new t b path rest (queue ++ [(u, c, n :: path)]) ((u, c) :: seen)

/-- The search for a vacancy, at most `fuel` buckets (R369): at most 512 are seen. -/
def RegWork.search (w : RegWork) (r : MemberReg) (new : Bytes) (idx : Nat) :
    Nat → List (Nat × Nat × List Nat) → List (Nat × Nat) → Except Refused RegWork
  | 0, _, _ => .error (11, idx)
  | _ + 1, [], _ => .error (11, idx)
  | fuel + 1, (t, b, path) :: queue, seen =>
    if seen.length ≤ 512 then
      match w.expand r new t b path [0, 1, 2, 3] queue seen with
      | .error e => .error e
      | .ok (.inl w') => .ok w'
      | .ok (.inr (queue', seen')) => w.search r new idx fuel queue' seen'
    else .error (11, idx)

/-- place() of R369: a new entry `new` for a credential that no slot holds. -/
def RegWork.place (w : RegWork) (r : MemberReg) (cred : BitVec 64) (new : Bytes) (idx : Nat) :
    Except Refused RegWork :=
  let (b0, b1) := buckets w.salt cred
  match w.badOf r (bucketSlots 0 b0 ++ bucketSlots 1 b1) with
  | some k => .error (9, k)
  | none =>
    match w.empty r 0 b0, w.empty r 1 b1 with
    | some n, _ => .ok ((w.note (bucketSlots 0 b0)).setSlot r n new)
    | none, some n => .ok ((w.note (bucketSlots 0 b0 ++ bucketSlots 1 b1)).setSlot r n new)
    | none, none => w.search r new idx 600 [(0, b0, []), (1, b1, [])] [(0, b0), (1, b1)]

/-- How many slots that page `k` touches are live. -/
def RegWork.liveOn (w : RegWork) (r : MemberReg) (k : Nat) : Nat :=
  let lo := 4096 * k / 12
  let hi := min ((4096 * k + 4095) / 12) 5242879
  ((List.range (hi + 1 - lo)).filter fun i => slotCred (w.slot r (lo + i)) ≠ 0#64).length

/-- Bytes `l` are all 0. -/
def allZero (l : Bytes) : Bool := l.all (· = 0#8)

/-- The profile of a PROFILE operation passes R380. -/
def profileOk (p : Bytes) : Bool :=
  byteAt p 4 < 4 && byteAt p 5 = 0 && allZero (p.drop 0x25) &&
    (-900 ≤ i16At p 6 ∧ i16At p 6 ≤ 900)

/-- The size of an operation by its CODE, none for an unknown one (R378). -/
def opSize (code : Nat) : Option Nat :=
  match code with
  | 0x01 => some 16
  | 0x02 => some 16
  | 0x03 => some 16
  | 0x10 => some 64
  | 0x20 => some 4112
  | 0x30 => some 32
  | _ => none

/-- An operation has a fault of R380 other than an unknown CODE (R378, R380). -/
def opFault (w : RegWork) (b : Bytes) : Bool :=
  match byteAt b 0 with
  | 0x01 => byteAt b 3 ≠ 0 || !allZero (slice b 6 2) || leAt b 8 8 = 0
  | 0x02 => !allZero (slice b 2 6) || leAt b 8 8 = 0
  | 0x03 => !allZero (slice b 1 7) || leAt b 8 8 = 0
  | 0x10 => !allZero (slice b 1 3) || leAt b 4 2 > 1023 || !allZero (slice b 6 10) || !profileOk (slice b 16 48)
  | 0x20 => !allZero (slice b 1 5) || leAt b 6 2 > 15359 || !allZero (slice b 8 8)
  | _ => !allZero (slice b 1 15) || w.live ≠ 0

/-- The slots that a search has read when it found `n`. -/
def slotsTo (n : Option Nat) (l : List Nat) : List Nat :=
  match n with
  | none => l
  | some n => l.takeWhile (· != n) ++ [n]

/-- The effect of one operation that has passed R380 (R379). -/
def RegWork.apply (w : RegWork) (r : MemberReg) (b : Bytes) (idx : Nat) : Except Refused RegWork :=
  let cred := BitVec.ofNat 64 (leAt b 8 8)
  let slots := lookupSlots w.salt cred
  let found := w.findIn r cred slots
  let w := match found with
    | .ok n => if byteAt b 0 < 4 then w.note (slotsTo n slots) else w
    | .error _ => w
  match byteAt b 0 with
  | 0x01 =>
    let new := le 8 cred.toNat ++ slice b 4 2 ++ [b.getD 1 0#8, b.getD 2 0#8]
    match found with
    | .error e => .error e
    | .ok (some n) => .ok (w.setSlot r n new)
    | .ok none => (w.place r cred new idx).map fun w => { w with live := w.live + 1 }
  | 0x02 =>
    match found with
    | .error e => .error e
    | .ok (some n) => .ok (w.setSlot r n ((w.slot r n).set 10 (b.getD 1 0#8)))
    | .ok none => .ok { w with noop := w.noop + 1 }
  | 0x03 =>
    match found with
    | .error e => .error e
    | .ok (some n) => .ok { w.setSlot r n (List.replicate 12 0#8) with live := w.live - 1 }
    | .ok none => .ok { w with noop := w.noop + 1 }
  | 0x10 => .ok { w with profs := bindTo w.profs (leAt b 4 2) (slice b 16 48) }
  | 0x20 =>
    let k := leAt b 6 2
    let w' := { w with pages := bindTo w.pages k (slice b 16 4096), replaced := k :: w.replaced }
    .ok { w' with live := w.live + w'.liveOn r k - w.liveOn r k }
  | _ => .ok { w with salt := slice b 16 16 }

/-- The walk over the operations from offset `off` (R385, step 7); `n` operations are done. A refusal comes with the
pages read so far. -/
def RegWork.walk (r : MemberReg) (d : Mem) (fin : Nat) :
    Nat → Nat → Nat → RegWork → Except (Refused × List Nat) (RegWork × Nat)
  | 0, _, n, w => .ok (w, n)
  | fuel + 1, off, n, w =>
    if fin ≤ off then .ok (w, n)
    else
      let idx := min n 0xFFFE
      match opSize (Mem.read d off).toNat with
      | none => .error ((10, idx), w.reads)
      | some size =>
        let b := Mem.load d off size
        if opFault w b then .error ((10, idx), w.reads)
        else if fin < off + size then .error ((2, idx), w.reads)
        else
          match w.apply r b idx with
          | .error e => .error (e, if e.1 = 9 then w.reads ++ [e.2] else w.reads)
          | .ok w' => RegWork.walk r d fin fuel (off + size) (n + 1) w'

/-- The pages that the delta changes (R382): a PAGE operation also changes a bad page whose bytes it leaves (R374). -/
def RegWork.changed (w : RegWork) (r : MemberReg) : List (Nat × Bytes) :=
  w.pages.filter fun p => p.2 != (if w.rebuild then zeroPage else r.page p.1) ||
    (!w.rebuild && w.replaced.contains p.1 && r.pageBad p.1)

/-- The physical pages in use (R354). -/
def MemberReg.usedPages (r : MemberReg) : List Nat :=
  (r.ramMap.map (·.2) ++ r.map.map (·.2) ++ (r.journal.map (·.ppage)).filter (· < 16384) ++
    (if r.cur.journal = 0#2 then [] else r.jPages)).eraseDups

/-- PAGES.FREE (R354, R398). -/
def MemberReg.freePages (r : MemberReg) : Nat := 16384 - r.usedPages.length

/-- The header checks of R385, steps 1 to 6. -/
def State.deltaHeader (s : State) (d : Mem) : Except Refused Unit :=
  let r := s.reg
  let num := Mem.num d
  let h := num 6 1
  let sz := xmssSize h
  let length := num 8 4
  let rebuild := num 7 1 % 2 = 1
  let good := xmssOid h ≠ 0
  if s.tide.life = .manufacture ∨ s.tide.life = .returned then .error (13, 0)
  else if num 0 4 ≠ 0x4C444752 ∨ num 4 2 ≠ 1 then .error (3, 0)
  else if num 0x3C 4 ≠ (crc32c (Mem.load d 0 0x3C)).toNat then .error (4, 0)
  else if num 7 1 ≥ 2 then .error (10, 0xFFFF)
  else if length < 2564 ∨ length > 1048576 ∨ length ≠ r.len ∨ (good ∧ length < 64 + sz) then .error (2, 0)
  else if ¬ good then .error (5, 0)
  else if ¬ xmssVerify s.keys.pubRegister h (Mem.load d 0 (length - sz)) (Mem.load d (length - sz) sz) then
    .error (5, 0)
  else if num 0x10 8 ≠ s.keys.fleetId.toNat then .error (6, 0)
  else if num 0xC 4 ≤ r.cur.seq.toNat then .error (7, 0)
  else if ¬ rebuild ∧ num 0xC 4 ≠ r.cur.seq.toNat + 1 then .error (8, 0)
  else if ¬ rebuild ∧ (r.health = 2#2 ∨ Mem.load d 0x20 16 ≠ (padTo 32 r.cur.root).take 16) then .error (9, 0)
  else .ok ()

/-- Where the walk over a delta's operations starts (R383). -/
def State.walkDelta (s : State) : Except (Refused × List Nat) (RegWork × Nat) :=
  let r := s.reg
  let d := r.stage
  let rebuild := Mem.num d 7 1 % 2 = 1
  RegWork.walk r d (Mem.num d 8 4 - xmssSize (Mem.num d 6 1)) 65536 0x40 0
    { rebuild := rebuild, pages := [], replaced := [], profs := []
      salt := if rebuild then List.replicate 16 0#8 else r.cur.saltBytes
      live := if rebuild then 0 else r.cur.live.toNat, noop := 0, reads := [] }

/-- The pages that the checks of a delta read, and so verify or find bad (R373, R374, R381). -/
def State.deltaReads (s : State) : List Nat :=
  match s.deltaHeader s.reg.stage, s.walkDelta with
  | .error _, _ => []
  | .ok (), .error e => e.2
  | .ok (), .ok (w, _) => w.reads

/-- The checks of R385 as one result: a staged delta, or RESULT and DETAIL. -/
def State.checkDelta (s : State) : Except Refused Staged :=
  let r := s.reg
  let d := r.stage
  match s.deltaHeader d with
  | .error e => .error e
  | .ok () =>
    let rebuild := Mem.num d 7 1 % 2 = 1
    match s.walkDelta with
    | .error e => .error e.1
    | .ok (w, n) =>
      let ch := w.changed r
      let full := (ch.filter fun p => !allZero p.2).length
      let entries := if rebuild then full else ch.length
      let need := full + (entries + 101) / 102
      let free := if rebuild ∧ r.health = 2#2 then 16384 else r.freePages
      if n ≠ Mem.num d 0x1C 4 then .error (2, 0)
      else if ¬ rebuild ∧ ch.length > 1000 then .error (12, ch.length)
      else if need > free then .error (17, need - free)
      else
        let ps := if rebuild then ([] : Mem) else r.profiles
        .ok { Staged.reset with
          seq := BitVec.ofNat 32 (Mem.num d 0xC 4), issued := BitVec.ofNat 32 (Mem.num d 0x18 4)
          rebuild := rebuild, newPages := ch, salt := w.salt, live := w.live, noop := w.noop
          profiles := if w.profs.isEmpty ∧ ¬ rebuild then none
            else some (w.profs.foldl (fun m p => Mem.store m (48 * p.1) p.2) ps) }

/-! Staging and commit (R389 to R393). -/

/-- The free physical page with the lowest write count, the lower number breaking ties (R389). -/
def pickPage (used : List Nat) (wear : List (Nat × BitVec 32)) : Nat :=
  let wearOf (p : Nat) := ((tableGet wear p).getD 0#32).toNat
  match (List.range 16384).filter (fun p => !used.contains p) with
  | [] => 0
  | p :: ps => ps.foldl (fun b q => if wearOf q < wearOf b then q else b) p

/-- One physical page written (R355, R389). -/
def MemberReg.writePage (r : MemberReg) (p : Nat) (b : Bytes) : MemberReg :=
  { r with phys := Mem.store r.phys (4096 * p) (padTo 4096 b)
           wear := bindTo r.wear p (satInc ((tableGet r.wear p).getD 0#32)) }

/-- The bytes of a journal entry (R389). -/
def JEntry.bytes (e : JEntry) : Bytes := le 2 e.lpage ++ le 2 e.ppage ++ le 4 0 ++ padTo 32 e.leaf

/-- The inactive profile bank with new contents `p` (R389). -/
def MemberReg.writeProfiles (r : MemberReg) (p : Mem) : MemberReg :=
  if r.cur.profileBank = 0#1 then { r with profB := p } else { r with profA := p }

/-- Staging under R389: changed pages in ascending order to free pages, then the journal, then the inactive profile
bank. -/
def MemberReg.stageDelta (r : MemberReg) (g : Staged) : MemberReg × Staged :=
  let used0 := if g.rebuild ∧ r.health = 2#2 then [] else r.usedPages
  let put := fun (a : MemberReg × List Nat × List JEntry) (p : Nat × Bytes) =>
    let (r, used, es) := a
    if allZero p.2 then
      (r, used, if g.rebuild then es else es ++ [{ lpage := p.1, ppage := 0xFFFF, leaf := leafOf p.1 zeroPage }])
    else
      let q := pickPage used r.wear
      (r.writePage q p.2, q :: used, es ++ [{ lpage := p.1, ppage := q, leaf := leafOf p.1 p.2 }])
  let (r, used, es) := (orderBy (fun a b => decide (a.1 < b.1)) g.newPages).foldl put (r, used0, [])
  let parts := (chunks 4080 200 ((es.map JEntry.bytes).flatten))
  let (r, _, js) := parts.foldl (fun (a : MemberReg × List Nat × List Nat) b =>
    let q := pickPage a.2.1 a.1.wear
    (a.1.writePage q b, q :: a.2.1, a.2.2 ++ [q])) (r, used, [])
  let leafs := fun k => match es.find? (fun e => e.lpage == k) with
    | some e => e.leaf
    | none => if g.rebuild then leafOf k zeroPage else r.leaf k
  (g.profiles.elim r r.writeProfiles, { g with
    entries := es, root := merkleRoot leafs, pages := (es.filter fun e => e.ppage < 16384).length + js.length, jPages := js })

/-- The commit tide for a requested one, and LATE (R98, R390). -/
def commitTideOf (req now : BitVec 32) : BitVec 32 × Bool :=
  let m := now + 2#32
  let d := (m - req).toNat
  if req = 0#32 then (m, false) else if 1 ≤ d ∧ d ≤ 2 ^ 31 then (m, true) else (req, false)

/-- The floor raised to at least `v`, in both copies (R355, R364). -/
def MemberReg.raiseFloor (r : MemberReg) (v : BitVec 32) : MemberReg :=
  let f := if r.floorNow.toNat < v.toNat then v else r.floorNow
  { r with floor := f, floorCopy := f }

/-- The page map after a journal (R393). -/
def applyMap (rebuild : Bool) (m : List (Nat × Nat)) (es : List JEntry) : List (Nat × Nat) :=
  es.foldl (fun m e => if e.ppage < 16384 then bindTo m e.lpage e.ppage else unbind m e.lpage)
    (if rebuild then [] else m)

/-- The leaf table after a journal (R393). -/
def applyLeaves (rebuild : Bool) (l : List (Nat × Bytes)) (es : List JEntry) : List (Nat × Bytes) :=
  es.foldl (fun l e => bindTo l e.lpage e.leaf) (if rebuild then [] else l)

/-- The older record copy written with `c`, the next RECORD_SEQ and its TAG under the vehicle root `root` (R372, R391). -/
def MemberReg.writeRec (r : MemberReg) (root : Bytes) (c : CommitRec) : MemberReg :=
  let c := ({ c with rseq := r.cur.rseq + 1#32 } : CommitRec).sealedUnder root
  if r.useA then { r with recB := c, useA := false } else { r with recA := c, useA := true }

/-- The member that a register holds under a credential, on a bad page or not. -/
def MemberReg.held (r : MemberReg) (cred : BitVec 64) : Option Member :=
  ((lookupSlots r.cur.saltBytes cred).find? fun n => slotCred (slotBytes r.page n) = cred).map r.member

/-- The live berths that a commit over the register `old` casts off: it has deleted their credential, or has changed
its STATUS or GEN (R392). -/
def State.commitCasts (s : State) (old : MemberReg) : List Nat :=
  s.heldBerths.filter fun n =>
    let b := (s.berth n).id
    b.cred != 0#64 && b.st != .sighted &&
      match old.held b.cred, s.reg.held b.cred with
      | some x, some y => x.status != y.status || x.gen != y.gen
      | some _, none => true
      | none, _ => false

/-- The journal applied to the MRAM page map and leaf table, and the other record copy written with
JOURNAL 0 (R393). -/
def MemberReg.applyJournal (r : MemberReg) (root : Bytes) : MemberReg :=
  let rebuild := r.cur.journal = 2#2
  ({ r with map := applyMap rebuild r.map r.journal, leaves := applyLeaves rebuild r.leaves r.journal
            journal := [], jPages := [] } : MemberReg).writeRec root { r.cur with journal := 0#2, jPage := 0, jLen := 0 }

/-- The journal of an earlier commit is applied before the next commit record is written (R393). -/
def MemberReg.settled (r : MemberReg) (root : Bytes) : MemberReg :=
  if r.cur.journal = 0#2 then r else r.applyJournal root

/-- The state after the commit steps of R391 for a staged delta: the leaf table follows with the journal (R393). -/
def State.commitDelta (s : State) (g : Staged) : State :=
  let s := s.upReg fun r => r.settled s.keys.vr.key
  let r := s.reg
  let bank := if g.profiles.isSome then r.cur.profileBank + 1#1 else r.cur.profileBank
  let prof := if bank = 0#1 then r.profA else r.profB
  let c : CommitRec :=
    { r.cur with
      seq := g.seq, root := g.root, live := BitVec.ofNat 23 g.live, salt := g.salt
      profileBank := bank, issued := g.issued
      digest := shake256 (Mem.load prof 0 49152) 32
      journal := if g.rebuild then 2#2 else 1#2, jPage := g.jPages.getD 0 0, jLen := g.entries.length }
  let changed := g.newPages.map (·.1)
  let s := s.upReg fun r =>
    let r := (r.writeRec s.keys.vr.key c).raiseFloor g.issued
    { r with
      journal := g.entries, jPages := g.jPages
      ramMap := applyMap g.rebuild r.ramMap g.entries, ramProf := prof
      verified := if g.rebuild then changed
        else changed ++ r.verified.filter (fun k => !changed.contains k)
      bad := if g.rebuild then [] else r.bad.filter fun k => !changed.contains k
      health := if g.rebuild then 1#2 else r.health
      noop := satAdd r.noop g.noop
      staged := none, state := .idle, commitAt := s.tide.number }
  (s.castAll (s.commitCasts r) 0x0E#8).latch 33

/-- The register commit at a boundary (R127, R390, R391); `toReturn`: the life cycle becomes RETURN
at this boundary, which discards it. -/
def State.regBoundary (s : State) (toReturn : Bool) : State :=
  match s.reg.state, s.reg.staged with
  | .armed, some g =>
    if s.tide.number = s.reg.armed then
      if toReturn then
        (s.upReg fun r => { r with state := .idle, staged := none, result := 13#5, detail := 0#16 }).latch 34
      else s.commitDelta g
    else s
  | _, _ => s

/-- The background check of R375 after a tide's verdicts, in WATCH, SERVICE and DRIVE, once the check of R373 has ended: up
to 64 unverified pages, else the next 64 pages of the daily round. -/
def State.regBackground (s : State) : State :=
  if s.isTender = true ∨ s.reg.health = 0#2 ∨ s.tide.power = .deep ∨ s.tide.power = .standby then s
  else
  let un := ((List.range 15360).filter fun k => !s.reg.verified.contains k && !s.reg.bad.contains k).take 64
  if !un.isEmpty then un.foldl State.touchPage s
  else if s.reg.scan < 15360 then
    let ks := (List.range 64).map (s.reg.scan + ·)
    ks.foldl State.touchPage (s.upReg fun r =>
      { r with verified := r.verified.filter fun k => !ks.contains k, scan := r.scan + 64 })
  else if s.elapsed s.reg.scanFrom (sec 86400) then
    s.upReg fun r => { r with scan := 0, scanFrom := s.now }
  else s

/-! The commands. -/

/-- Byte address of REGISTER.CMD. -/
def regCmdAddr : Nat := 0x80000

/-- A REGISTER command where the register works (R353). -/
def State.regWrite (s : State) (a : Nat) (eff : State → State) : State :=
  s.farWrite a fun s => if s.isTender then s else eff s

/-- REGISTER.CMD OPEN (R386, R753). -/
def State.regOpen (s : State) : State :=
  if s.reg.state = .idle then
    s.upReg fun r => { r with state := .loading, good := [], len := r.loadLen.toNat, late := false }
  else (s.upReg fun r => { r with result := 16#5, detail := 0#16 }).notice 3 regCmdAddr

/-- REGISTER_OPEN (R386). -/
def execRegisterOpen (s : State) : Host.Outcome State Fault Refusal :=
  .next (s.regWrite regCmdAddr State.regOpen)

/-- Number of blocks of a delta of `len` bytes. -/
def blocks4k (len : Nat) : Nat := (len + 4095) / 4096

/-- A BLOCK_CRC write of the register import (R386, R387, R753). -/
def State.regBlockCrc (s : State) (crc : BitVec 32) : State :=
  if s.reg.state = .loading then
    let b := s.reg.block.toNat
    let data := Mem.load s.reg.window 0 (min 4096 (s.reg.len - 4096 * b))
    if crc32c data = crc then
      s.upReg fun r => { r with blockResult := 1#2, stage := Mem.store r.stage (4096 * b) data
                                good := if r.good.contains b then r.good else b :: r.good }
    else s.upReg fun r => { r with blockResult := 2#2 }
  else s.notice 3 0x8000C

/-- REGISTER_BLOCK_CRC (R386). -/
def execRegisterBlockCrc (crc : BitVec 32) (s : State) : Host.Outcome State Fault Refusal :=
  .next (s.regWrite 0x8000C fun s => s.regBlockCrc crc)

/-- A write into the import window (R387). -/
def State.importWrite (s : State) (a : Nat) (d : BitVec 16) : State :=
  if s.reg.state = .loading then s.upReg fun r => { r with window := Mem.setHalf r.window (a - 0x81000) d }
  else s.notice 3 a

/-- IMPORT_WINDOW_WRITE (R387): addresses outside the window are no import window write. -/
def execImportWindowWrite (ha : BitVec 20) (d : BitVec 16) (s : State) : Host.Outcome State Fault Refusal :=
  let a := 2 * ha.toNat
  if 0x81000 ≤ a ∧ a < 0x82000 then
    .next (s.windowAccess a fun s => if s.isTender then s else s.importWrite a d)
  else .next s

/-- The lowest block of an import that is not good. -/
def firstBad (n : Nat) (good : List Nat) : Option Nat := (List.range n).find? fun b => !good.contains b

/-- REGISTER.CMD VERIFY (R386, R753). -/
def State.regVerify (s : State) : State :=
  if s.reg.state = .loading then
    match firstBad (blocks4k s.reg.len) s.reg.good with
    | none => (s.upReg fun r => { r with state := .verifying, startedAt := s.now }).verification .delta s.reg.len
    | some b => (s.upReg fun r => { r with result := 14#5, detail := BitVec.ofNat 16 b }).latch 32
  else s.notice 3 regCmdAddr

/-- REGISTER_VERIFY (R386). -/
def execRegisterVerify (s : State) : Host.Outcome State Fault Refusal :=
  .next (s.regWrite regCmdAddr State.regVerify)

/-- The checks end (R386): the pages that the operations read have been touched (R373). -/
def State.regVerdict (s : State) : State :=
  let t := s.deltaReads.foldl State.touchPage (s.kecDone .delta)
  match s.checkDelta with
  | .ok g =>
    ((t.upReg fun r => { r with state := .verified, result := 1#5, detail := 0#16
                                stagedSeq := g.seq, staged := some g }).upCry
      fun c => { c with verPass := satInc c.verPass }).latch 32
  | .error (res, detail) =>
    let sigFail := res = 5
    let sigPass := res = 6 ∨ res = 7 ∨ res = 8 ∨ res = 9 ∨ res = 11 ∨ res = 12 ∨ res = 17 ∨
      (res = 10 ∧ detail ≠ 0xFFFF)
    ((t.upReg fun r => { r with state := .refused, result := BitVec.ofNat 5 res
                                detail := clampNat 16 detail, staged := none }).upCry
      fun c => { c with verFail := if sigFail then satInc c.verFail else c.verFail
                        verPass := if sigPass then satInc c.verPass else c.verPass }).latch 32

/-- REGISTER_VERIFY_DONE (R385, R386). -/
def execRegisterVerifyDone (s : State) : Host.Outcome State Fault Refusal :=
  s.whenDo (s.reg.state == .verifying && !s.cry.selftest.getLsbD 1 && !s.cry.selftest.getLsbD 2) s.regVerdict

/-- REGISTER.CMD COMMIT (R386, R389, R753). -/
def State.regCommit (s : State) : State :=
  match s.reg.state, s.reg.staged with
  | .verified, some g =>
    s.upReg fun r =>
      let (r, g) := r.stageDelta g
      { r with state := .staging, staged := some g, startedAt := s.now }
  | _, _ => s.notice 3 regCmdAddr

/-- REGISTER_COMMIT (R389). -/
def execRegisterCommit (s : State) : Host.Outcome State Fault Refusal :=
  .next (s.regWrite regCmdAddr State.regCommit)

/-- Staging ends (R386, R390): the commit tide is chosen, or a page failed its read-back twice. -/
def State.regStaged (s : State) (ok : Bool) : State :=
  if ok then
    let (t, late) := commitTideOf s.reg.commitTide s.tide.number
    s.leaveSlack.upReg fun r => { r with state := .armed, armed := t, late := r.late || late }
  else
    (s.upReg fun r => { r with state := .refused, staged := none, result := 15#5, detail := 0#16 }).latch 34

/-- STAGING_DONE (R386): `ok` says whether every staged page was read back. -/
def execStagingDone (ok : Bool) (s : State) : Host.Outcome State Fault Refusal :=
  s.whenDo (s.reg.state = .staging) (s.regStaged ok)

/-- REGISTER.CMD ABORT (R386, R753). -/
def State.regAbort (s : State) : State :=
  if s.reg.state = .idle ∨ s.reg.state = .verifying then s.notice 3 regCmdAddr
  else s.upReg fun r => { r with state := .idle, staged := none }

/-- REGISTER_ABORT (R386). -/
def execRegisterAbort (s : State) : Host.Outcome State Fault Refusal :=
  .next (s.regWrite regCmdAddr State.regAbort)

/-- JOURNAL_APPLY (R372, R393): the journal of a record that did not verify is none. -/
def execJournalApply (s : State) : Host.Outcome State Fault Refusal :=
  s.whenDo (s.mainUp && s.reg.health != 2#2 && s.reg.cur.journal != 0#2)
    (s.upReg fun r => r.applyJournal s.keys.vr.key)

/-- A mailbox command is written (R395, R396). -/
def State.mbStart (s : State) (scrub : Bool) : State :=
  if s.reg.mbBusy then (s.upReg fun r => { r with mbResult := 4#3 }).notice 3 0x80080
  else s.upReg fun r => { r with mbBusy := true, mbScrub := scrub }

/-- MB_LOOKUP (R395). -/
def execMbLookup (s : State) : Host.Outcome State Fault Refusal :=
  .next (s.regWrite 0x80080 fun s => s.mbStart false)

/-- MB_SCRUB (R395). -/
def execMbScrub (s : State) : Host.Outcome State Fault Refusal :=
  .next (s.regWrite 0x80080 fun s => s.mbStart true)

/-- The end of a mailbox LOOKUP (R362, R366, R395). -/
def State.mbLookupEnd (s : State) : State :=
  let cred := s.reg.mbCred
  let (found, s) := s.lookup cred
  match found with
  | some n =>
    let m := s.reg.member n
    let ok := s.rightsAllow m.rights
    s.upReg fun r => { r with
      mbResult := 1#3, mbSlot := BitVec.ofNat 23 n, mbAllowed := ok
      mbMember := BitVec.ofNat 32 (m.rights.toNat + 65536 * m.status.toNat + 16777216 * m.gen.toNat) }
  | none =>
    let onBad := cred ≠ 0#64 ∧
      ((lookupSlots s.reg.cur.saltBytes cred).map slotPages).flatten.any s.reg.bad.contains
    s.upReg fun r => { r with mbResult := if onBad then 3#3 else 2#3, mbSlot := 0#23
                              mbAllowed := false, mbMember := 0#32 }

/-- The end of a mailbox command (R395): source 35. -/
def State.mbEnd (s : State) : State :=
  let s := if s.reg.mbScrub then
      ((List.range 15360).foldl State.touchPage s).upReg fun r => { r with mbResult := 5#3 }
    else s.mbLookupEnd
  (s.upReg fun r => { r with mbBusy := false }).latch 35

/-- MAILBOX_DONE (R395): lookups are held until the check of R373 ends. -/
def execMailboxDone (s : State) : Host.Outcome State Fault Refusal :=
  s.whenDo (s.reg.mbBusy && s.reg.health != 0#2) s.mbEnd

/-- A host write of REGISTER.CLOCK (R364, R365). -/
def State.clockSet (s : State) (v : BitVec 32) : State :=
  let low := v.toNat < s.reg.floorNow.toNat
  let w := if low then s.reg.floorNow else v
  (s.upReg fun r => { (r.raiseFloor w) with clockBase := w, clockAt := s.now, estimated := false }
    ).noticeIf low 1 0x80034

/-- CLOCK_WRITE (R365). -/
def execClockWrite (v : BitVec 32) (s : State) : Host.Outcome State Fault Refusal :=
  .next (s.regWrite 0x80034 fun s => s.clockSet v)

/-- CLOCK_FLOOR_HOUR (R353, R364): a whole hour of running has passed since the last one stored. -/
def execClockFloorHour (s : State) : Host.Outcome State Fault Refusal :=
  s.whenDo (!s.isTender && s.reg.floorHour < s.now / sec 3600)
    (s.upReg fun r => { (r.raiseFloor (r.clock s.now)) with floorHour := s.now / sec 3600 })

end Sys2Proof.Machine
end

