-- ==== Sys2Proof/Machine/Keys.lean ====
section
/-! DEFINITION. The key store (chapter 10): derivation, root installation, life-cycle commands,
what the host can obtain, and tamper. -/

namespace Sys2Proof.Machine

/-! Derived keys (R445 to R450). -/

/-- The manifest key (R447). -/
def manifestKey (root : Bytes) : Bytes := derive root "MFST" [] 32

/-- The binding tag of an image under a vehicle root (R66). -/
def bindingTag (root image : Bytes) : Bytes := kmac256 (manifestKey root) (shake256 image 32) 32 []

/-- The bytes of a bank's image. -/
def Bank.bytes (b : Bank) : Bytes := Mem.load b.image 0 b.len

/-- The member key of a credential (R447). -/
def State.memberKey (s : State) (cred : BitVec 64) (gen : BitVec 8) : Bytes :=
  derive s.keys.fr.key "MEMB" (le 8 cred.toNat ++ le 1 gen.toNat) 32

/-- What a member key authenticates (R447): a phone, a fob or a card. -/
inductive AuthUse where
  | phone | fob | card
deriving DecidableEq, Repr

/-- The authentication key below a member key (R447). -/
def authKeyOf (use : AuthUse) (member : Bytes) : Bytes :=
  derive member (match use with
    | .phone => "AUTH"
    | .fob => "FOBK"
    | .card => "NFCK") [] 16

/-- What a berth's key authenticates with, by its KIND (R447). -/
def useOf (kind : BitVec 3) : AuthUse := if kind = 0#3 then .phone else if kind = 1#3 ∨ kind = 2#3 then .fob else .card

/-- The fleet root gives keys now (R452, R453): it is installed, and the life cycle is PROVISION or FLEET. -/
def State.fleetDerives (s : State) : Bool :=
  s.keys.fr.valid && (TreeKey.fleet.attr s.keys.fr.gen).getLsbD (8 + s.tide.life.code)

/-- Berth `n` gets its member key and its authentication key (R449): two derivations, of the verdict path, or for a
card of the NFC level (R446, R532). The request is held until the random number generator first delivers (R481),
comes to nothing where the Keccak engine has failed (R499), and is refused where the fleet root gives none (R452). -/
def State.deriveMember (s : State) (n : Nat) : State :=
  let b := s.berth n
  let card : Bool := useOf b.id.kind == .card
  if !s.trng.inst then s.modSe n fun x => { x with keyDue := true }
  else if !s.canDerive then s
  else if s.fleetDerives then
    let mk := s.memberKey b.id.cred b.id.gen
    (s.useCells.derivations 2 (if card then 1#2 else 3#2) (if card then 8#5 else 5#5)).modSe n fun x => { x with
      memberKey := mk, authKey := authKeyOf (useOf b.id.kind) mk, parentGen := s.keys.fr.gen, keyDue := false }
  else s.violation (if card then 2#4 else 4#4)

/-- The session set of a member key, a nonce and a session identifier (R447, R448). -/
def sessionSet (member nonce : Bytes) (sid : BitVec 32) (k : Nat) (gen : BitVec 8) : SessSlot :=
  let key := derive member "SESS" (padTo 16 nonce ++ le 4 sid.toNat) 32
  { k := k, sts := derive key "STSK" [] 16, mac := derive key "SMAC" [] 16
    link := derive key "LTK" [] 16, ctr := derive key "STIV" [] 12, attr := sessAttr gen }

/-- A bulk session slot is written (R454). -/
def State.putSlot (s : State) (x : SessSlot) : State :=
  s.upKeys fun k => { k with slots := x :: k.slots.filter fun y => y.k != x.k }

/-- A bulk session slot is destroyed (R475). -/
def State.dropSlot (s : State) (n : Nat) : State :=
  s.upKeys fun k => { k with slots := k.slots.filter fun y => y.k != n }

/-! The end of a command (R485). -/

/-- A key store command ends with RESULT `r` (R485, R486). -/
def State.keysEnd (s : State) (r : Nat) (detail : Nat := 0) : State :=
  (s.upKeys fun k => { k with
    result := BitVec.ofNat 5 r, detail := BitVec.ofNat 8 detail, busy := false, forward := none }).latch 44

/-- A command that derives keys runs as `eff` on a working Keccak engine, at the level of host work (R446, R491, R497);
one that failed its test is unavailable, and the command stays BUSY (R499, log entry 58). -/
def State.withKeccak (s : State) (eff : State → State) : State :=
  if s.canDerive then eff (s.derivations 2 2#2 31#5) else s.upKeys fun k => { k with busy := true }

/-- A use that R452 refuses aborts the command (log entry 19). -/
def State.keysRefused (s : State) : State := (s.violation 2#4).keysEnd 0

/-! Roots (R457 to R464). -/

/-- The root of kind `k`: 0 vehicle, else fleet. -/
def Keys.root (x : Keys) (k : Nat) : Root := if k = 0 then x.vr else x.fr

/-- The root of kind `k` changed. -/
def Keys.modRoot (x : Keys) (k : Nat) (f : Root → Root) : Keys :=
  if k = 0 then { x with vr := f x.vr } else { x with fr := f x.fr }

/-- The wrapping key W of R457; none where the key it descends from is absent. -/
def State.wrapKey (s : State) (k : Nat) : Option Bytes :=
  if s.tide.life = .fleet then
    if (s.keys.root k).valid then some (derive (s.keys.root k).key "RWRP" [] 32) else none
  else if s.keys.seed.isEmpty then none else some (derive s.keys.seed "TRNS" [] 32)

/-- The anchors of the active manifest; anchor 0, and the device itself, are always there. -/
def State.anchorThere (s : State) (a : Nat) : Bool :=
  a == 0 || a == s.cfg.anchor || (s.cfg.anchors.getD a AnchorCfg.reset).present

/-- The root that a wrapped record carries, under the wrapping key `w` (R457). -/
def unwrap (w b dev : Bytes) : Bytes :=
  xorBytes (slice b 0x10 32) (derive w "WRAP" (slice b 0 1 ++ slice b 4 8 ++ dev) 32)

/-- The checks of R457 in the order of its table: RESULT, 1 where the record passes. -/
def State.installCheck (s : State) (w b : Bytes) (anchorOk : Bool) : Nat :=
  let dev := le 8 s.ident.device.toNat
  if 1 < byteAt b 0 then 2
  else if !anchorOk then 16
  else if leAt b 2 2 ≠ 0 then 2
  else if leAt b 4 8 ≤ (s.keys.root (byteAt b 0)).wrapNonce.toNat then 5
  else if leAt b 0xC 4 ≠ 0 then 2
  else if slice b 0x30 16 ≠ derive w "WTAG" (slice b 0 0x30 ++ dev) 16 then 3
  else if slice b 0x40 16 ≠ derive (unwrap w b dev) "KCV" dev 16 then 4
  else 1

/-- A record that passed is staged (R458, R460): it switches two tides on. -/
def State.stageRoot (s : State) (w b : Bytes) : State :=
  let k := byteAt b 0
  let key := unwrap w b (le 8 s.ident.device.toNat)
  let t := s.tide.number + 2#32
  s.leaveSlack.upKeys fun x =>
    { (x.modRoot k fun r => { r with wrapNonce := BitVec.ofNat 64 (leAt b 4 8) }) with
      staged := (BitVec.ofNat 1 k, key, t) :: x.staged.filter fun y => y.1 != BitVec.ofNat 1 k
      switchTide := t }

/-- The staged root of kind `k` switches at tide `t` (R460). -/
def State.retimeRoot (s : State) (k : BitVec 1) (t : BitVec 32) : State :=
  if s.keys.staged.any (fun x => x.1 == k) then s.upKeys fun x => { x with
    staged := x.staged.map fun y => if y.1 = k then (y.1, y.2.1, t) else y, switchTide := t }
  else s

/-- INSTALL_ROOT on the device that the record names (R458). -/
def State.installHere (s : State) (b : Bytes) (anchorOk : Bool) : State :=
  if s.tide.life = .returned then s.keysEnd 6
  else match s.wrapKey (byteAt b 0) with
    | none => s.keysRefused
    | some w => s.withKeccak fun s =>
      let s := s.useCells
      let r := s.installCheck w b anchorOk
      let s := if r = 1 then s.stageRoot w b else s
      s.keysEnd r (if r = 16 then byteAt b 1 else 0)

/-- A command is forwarded to the tender of anchor `a`, whose answer ends it (R459). -/
def State.forwardRoot (s : State) (a : Nat) (b : Bytes) : State :=
  if (s.link (a - 1)).st = .active ∨ (s.link (a - 1)).st = .slack then
    (s.leaveSlack.upKeys fun k => { k with busy := true, forward := some (a - 1) }).pierRequest (a - 1) 0x18 1#32 b
  else s.keysEnd 16 a

/-- The links of the enumerated tenders. -/
def State.enumeratedLinks (s : State) : List Nat :=
  (List.range 32).filter fun n =>
    (s.link n).anchor != 0#6 && ((s.link n).st == .active || (s.link n).st == .slack)

/-- A command is passed on to every enumerated tender; its answers end nothing (R468). -/
def State.forwardAll (s : State) (links : List Nat) (code : Nat) (body : Bytes) : State :=
  if s.cfg.role = .harbourmaster then
    links.foldl (fun s n => s.pierRequest n 0x18 (BitVec.ofNat 32 code) body) s.leaveSlack
  else s

/-- An INSTALL_ROOT has ended with DONE: every anchor that holds a staged root of kind `k` switches two tides on from
here, which the tenders are told (R460; DESIGN CHOICE, log entry 28). -/
def State.alignRoot (s : State) (k : BitVec 1) : State :=
  let t := s.tide.number + 2#32
  (s.retimeRoot k t).forwardAll s.enumeratedLinks 8 (BitVec.ofNat 8 k.toNat :: le 4 t.toNat)

/-- INSTALL_ROOT (R457 to R459). -/
def State.installRoot (s : State) : State :=
  let b := Mem.load s.keys.buf 0 0x50
  let a := byteAt b 1
  if s.cfg.role = .harbourmaster ∧ a ≠ 0 ∧ byteAt b 0 ≤ 1 ∧ s.anchorThere a ∧ s.tide.life ≠ .returned then
    s.forwardRoot a b
  else
    let t := s.installHere b (s.anchorThere a)
    if s.keys.busy = false ∧ t.keys.busy = false ∧ t.keys.result = 1#5 then t.alignRoot (BitVec.ofNat 1 (byteAt b 0)) else t

/-- The lock key record gets a new current key (R410, R465). -/
def State.lockKey (s : State) (key : Bytes) (epoch : BitVec 8) : State :=
  s.writeRecord fun r => { r with key := key, epoch := epoch, prevKey := r.key, prevEpoch := r.epoch }

/-- The working key of the tag's session goes (R473, R475, R477): an authentication of the tag that is under way ends
without a result, its answer being that of a state without one. -/
def State.dropTagKey (s : State) : State :=
  s.upNfc fun c => { c with
    tagKey := [], delayUntil := none
    tagState := if c.tagState = .pending0 ∨ c.tagState = .pending1 then .field else c.tagState }

/-- A root is invalidated (R473, R474): VALID clears, its generation rises, and what descends from
the old generation is zeroed. -/
def State.invalidateRoot (s : State) (k : Nat) : State :=
  let s := s.upKeys fun x => x.modRoot k fun r => { r with valid := false, key := [], gen := r.gen + 1#8 }
  let s :=
    if k = 0 then
      (s.writeRecord fun r => { r with key := [], epoch := 0#8, prevKey := [], prevEpoch := 0#8 }).upKeys fun x =>
        { x with vrPrev := none, retag := false }
    else
      ((s.upKeys fun x => { x with slots := [] }).upBt fun t =>
        { t with berths := t.berths.map fun b => { b with se := { b.se with memberKey := [], authKey := [] } } }).dropTagKey
  s.latch 47

/-- A staged root takes effect (R460, R462). -/
def State.switchRoot (s : State) (k : Nat) (key : Bytes) : State :=
  (s.upKeys fun x =>
    let x := if k = 0 then { x with vrPrev := some x.vr.key, retag := true } else x
    x.modRoot k fun r => { r with valid := true, key := key, gen := r.gen + 1#8 }).latch 47

/-- Tide `t` has come when the tide number is `n`. -/
def tideCome (n t : BitVec 32) : Bool := (n - t).toNat < 2 ^ 31

/-- What a boundary does for the roots (R127, R460, R469): destruction, then the switch of every
root whose switch tide has come. -/
def State.keysBoundary (s : State) : State :=
  let d := s.keys.destroyNext
  let s := s.upKeys fun k => { k with destroyNext := 0#2 }
  let s := if d.getLsbD 0 then s.invalidateRoot 0 else s
  let s := if d.getLsbD 1 then s.invalidateRoot 1 else s
  let (due, later) := s.keys.staged.partition fun x => tideCome s.tide.number x.2.2
  let s := s.upKeys fun k => { k with
    staged := later, switchTide := (later.head?.map (·.2.2)).getD 0#32 }
  due.foldl (fun s x => s.switchRoot x.1.toNat x.2.1) s

/-- The binding tag of a bank, recomputed under the new vehicle root (R462). -/
def Bank.retag (b : Bank) (old new : Bytes) : Bank :=
  if b.tag = bindingTag old b.bytes then { b with tag := bindingTag new b.bytes } else b

/-- ROOT_RETAG_DONE (R462): both manifest banks and both commit records. -/
def execRootRetagDone (s : State) : Host.Outcome State Fault Refusal :=
  match s.keys.vrPrev with
  | none => .next s
  | some old =>
    s.whenDo s.keys.retag
      (((s.upMf fun m => { m with bankA := m.bankA.retag old s.keys.vr.key, bankB := m.bankB.retag old s.keys.vr.key }
        ).upReg fun r => r.retag old s.keys.vr.key).upKeys fun k => { k with vrPrev := none, retag := false })

/-! The other commands. -/

/-- KEYS.READY (R487). -/
def State.keysReady (s : State) : BitVec 7 :=
  let k := s.keys
  ofBits 7 ((if k.vr.valid then [0] else []) ++ (if k.fr.valid then [1] else []) ++
    (if s.lk.paired then [2] else []) ++ (if k.xmss = 2#2 then [3] else []) ++
    (if s.cfg.loaded && s.cfg.lifeMask.getLsbD 2 then [4] else []) ++
    (if !k.pubManifest.isEmpty && !k.pubRegister.isEmpty && !k.pubOverride.isEmpty then [5] else []) ++
    (if k.fleetId ≠ 0#64 then [6] else []))

/-- INSTALL_PUB with its input (R468). -/
def State.pubHere (s : State) (b : Bytes) : State :=
  let key := slice b 4 68
  if s.tide.life ≠ .provision then s.keysEnd 6
  else match byteAt b 0 with
    | 0 => (s.upKeys fun k => { k with pubManifest := key }).keysEnd 1
    | 1 => (s.upKeys fun k => { k with pubRegister := key }).keysEnd 1
    | 2 => (s.upKeys fun k => { k with pubOverride := key }).keysEnd 1
    | _ => s.keysEnd 2

/-- INSTALL_PUB (R468). -/
def State.installPub (s : State) : State :=
  let b := Mem.load s.keys.buf 0 72
  let s := s.pubHere b
  if s.keys.result = 1#5 then s.forwardAll s.enumeratedLinks 2 b else s

/-- SET_FLEET_ID with its input (R468). -/
def State.fleetHere (s : State) (b : Bytes) : State :=
  if s.tide.life ≠ .provision then s.keysEnd 6
  else (s.upKeys fun k => { k with fleetId := BitVec.ofNat 64 (leAt b 0 8) }).keysEnd 1

/-- SET_FLEET_ID (R468). -/
def State.setFleet (s : State) : State :=
  let b := Mem.load s.keys.buf 0 8
  let s := s.fleetHere b
  if s.keys.result = 1#5 then s.forwardAll s.enumeratedLinks 3 b else s

/-- The key epoch after `e` (R411). -/
def nextEpoch (e : BitVec 8) : BitVec 8 := if e = 255#8 then 1#8 else e + 1#8

/-- PAIR (R465 to R467): the record is the only way to the lock keeper (R402), which runs the exchange once it has
adopted it. -/
def State.pairCmd (s : State) : State :=
  if s.tide.life ≠ .provision ∧ s.tide.life ≠ .fleet then s.keysEnd 6
  else if !s.keepsBerths || (s.cfg.can.getD 7 CanCfg.reset).owner != 2#8 then s.keysEnd 13
  else if !s.keys.vr.valid then s.keysRefused
  else s.withKeccak fun s =>
    let e := nextEpoch s.lk.mram.epoch
    let s := s.useCells.lockKey (derive s.keys.vr.key "PAIR" [e] 16) e
    if s.tide.life = .fleet then s.keysEnd 1
    else s.upKeys fun k => { k with busy := true, pairing := true }

/-- GEN_XMSS (R469, R470, R520): once, in PROVISION; the seeds come after a reseed. -/
def State.genXmss (s : State) : State :=
  if s.tide.life ≠ .provision ∨ s.keys.xmss ≠ 0#2 then s.keysEnd 6
  else ((s.upTrng Trng.dueReseed).upKeys fun k => { k with xmss := 1#2, xmssFrom := s.now, xmssProgress := 0#7 }).request .genXmss

/-- The public key of the tree of the drawn seeds (R500, R504): the OID of height 20, the root, and SEED, the last 32 of
the 96 bytes drawn. -/
def treePublic (seeds : Bytes) : Bytes := be 4 (xmssOid 20) ++ padTo 32 (Config.treeRoot seeds) ++ slice seeds 64 32

/-- GEN_XMSS_DONE (R470, R504): never while an engine that it needs has failed its test (R499). -/
def execGenXmssDone (s : State) : Host.Outcome State Fault Refusal :=
  s.whenDo (s.keys.xmss == 1#2 && s.canVerify && !(s.trng.held.any fun h => h.who == .genXmss))
    (((((s.kecDone .tree).upCry fun c => { c with pub := treePublic c.seeds }).upKeys
      fun k => { k with xmss := 2#2, xmssProgress := 100#7, result := 1#5 }).latch 44).latch 45)

/-- The links of the admitted tenders (R638). -/
def State.admittedLinks (s : State) : List Nat :=
  (List.range 32).filter fun n => (s.link n).admission == .admitted

/-- A life-cycle step is armed for the next boundary and passed on (R137, R469, R638). -/
def State.armLife (s : State) (l : LifeCycle) (code : Nat) : State :=
  ((s.upTide fun t => { t with lifeNext := some l }).forwardAll s.admittedLinks code []).keysEnd 1

/-- ADVANCE (R138, R469). -/
def State.advance (s : State) : State :=
  match s.tide.life with
  | .manufacture => if s.keys.seed.isEmpty then s.keysEnd 6 else s.armLife .provision 6
  | .provision =>
    if s.keysReady = 0x7F#7 then s.armLife .fleet 6 else s.keysEnd 12 s.keysReady.toNat
  | _ => s.keysEnd 6

/-- The checks of R471 in the order of its table: RESULT, 1 where the ticket passes. -/
def State.returnCheck (s : State) (b : Bytes) : Nat :=
  let h := byteAt b 6
  if leAt b 0 4 ≠ 0x5254524E ∨ leAt b 4 2 ≠ 1 ∨ ¬ (h = 10 ∨ h = 16 ∨ h = 20) ∨ byteAt b 7 ≠ 0 then 2
  else if leAt b 8 8 ≠ s.keys.fleetId.toNat then 9
  else if leAt b 0x10 8 ≠ s.ident.device.toNat then 10
  else if leAt b 0x18 8 ≠ s.keys.nonce.toNat ∨ s.keys.nonce = 0#64 ∨ s.elapsed s.keys.nonceAt (sec 600) then 11
  else if (slice b 0x20 32).any (· ≠ 0#8) then 2
  else if xmssVerify s.keys.pubOverride h (slice b 0 0x40) (slice b 0x40 (xmssSize h)) then 1
  else 8

/-- RETURN (R469, R471). -/
def State.returnCmd (s : State) : State :=
  if s.tide.life ≠ .fleet then s.keysEnd 6
  else if !s.canVerify then s.upKeys fun k => { k with busy := true }
  else
    let r := s.returnCheck (Mem.load s.keys.buf 0 4096)
    let s := if r = 1 ∨ r = 8 then s.verification .other 64 else s
    let s := s.upCry fun c => { c with
      verPass := if r = 1 then satInc c.verPass else c.verPass
      verFail := if r = 8 then satInc c.verFail else c.verFail }
    if r = 1 then s.armLife .returned 7 else s.keysEnd r

/-- RESPOND (R482). -/
def State.respond (s : State) : State :=
  if s.tide.life ≠ .provision ∧ s.tide.life ≠ .fleet then s.keysEnd 6
  else if !s.fleetDerives then s.keysRefused
  else s.withKeccak fun s =>
    let dev := le 8 s.ident.device.toNat
    let ctx := dev ++ le 4 s.tide.number.toNat ++ le 4 s.reg.cur.seq.toNat ++ le 4 s.cfg.serial.toNat ++
      [BitVec.ofNat 8 s.tide.life.code]
    let out := derive (derive s.keys.fr.key "BKND" dev 32) "RESP" (Mem.load s.keys.buf 0 32 ++ ctx) 32
    (s.useCells.upKeys fun k => { k with out := out ++ ctx }).keysEnd 1

/-- The harvest key of a credential on the tag port of device `dev` (R447). -/
def State.harvestKey (s : State) (cred : BitVec 64) (gen : BitVec 8) (dev : BitVec 64) : Bytes :=
  derive (s.memberKey cred gen) "HARV" (le 8 dev.toNat) 16

/-- EXPORT_HARVEST (R483). -/
def State.exportHarvest (s : State) : State :=
  if s.tide.life ≠ .fleet then s.keysEnd 6
  else
    let (found, s) := s.lookup s.keys.cred
    match found with
    | none => s.keysEnd 15
    | some n =>
      let m := s.reg.member n
      if m.status ≠ 1#8 then s.keysEnd 15
      else if !s.fleetDerives then s.keysRefused
      else s.withKeccak fun s =>
        (s.useCells.upKeys fun k => { k with out := s.harvestKey k.cred m.gen s.ident.device }).keysEnd 1

/-- NEW_NONCE: the command ends with its 8 random bytes (R485, R523). -/
def State.newNonce (s : State) : State :=
  (s.upKeys fun k => { k with busy := true }).request .keysNonce

/-- DESTROY (R469, R473). -/
def State.destroyCmd (s : State) (fleet : Bool) : State :=
  let ok := match s.tide.life with
    | .manufacture => true
    | .provision => true
    | .fleet => false
    | .returned => !fleet
  if ok then (s.upKeys fun k => { k with destroyNext := setBit k.destroyNext (b2n fleet) true }).keysEnd 1
  else s.keysEnd 6

/-- Staged roots are discarded (R461). -/
def State.unstageRoots (s : State) : State := s.upKeys fun k => { k with staged := [], switchTide := 0#32 }

/-- A KEYS command runs: `v` is the value written to KEYS.CMD. KEYS.OUT is zeroed first. -/
def State.keysRun (s : State) (v : BitVec 32) : State :=
  let s := s.upKeys fun k => { k with out := [], heldCmd := none, busy := false }
  match fieldN v 3 0 with
  | 1 => s.installRoot
  | 2 => s.installPub
  | 3 => s.setFleet
  | 4 => s.pairCmd
  | 5 => s.genXmss
  | 6 => s.advance
  | 7 => s.returnCmd
  | 8 => s.respond
  | 9 => s.exportHarvest
  | 10 => s.newNonce
  | 11 => s.destroyCmd (v.getLsbD 8)
  | 12 => s.unstageRoots.keysEnd 1
  | _ => s

/-- Byte address of KEYS.CMD. -/
def keysCmdAddr : Nat := 0x68000

/-- A command code 1 to 12 written to KEYS.CMD (R481, R485, R487): ignored with BUSY while another
runs, held until the random number generator first delivers. -/
def State.keysCmd (s : State) (v : BitVec 32) : State :=
  if s.keys.busy then ((s.upKeys fun k => { k with result := 7#5 }).latch 44).notice 3 keysCmdAddr
  else if !s.trng.inst then s.upKeys fun k => { k with busy := true, heldCmd := some v }
  else s.keysRun v

/-- The requests held under R481 are served: the keys of berths, and the host's command. -/
def State.runHeldKeys (s : State) : State :=
  let s := (berthNos.filter fun n => (s.berth n).se.keyDue && (s.berth n).id.st.held).foldl State.deriveMember s
  match s.keys.heldCmd with
  | some v => s.keysRun v
  | none => s

/-- A host write of command `code` to KEYS.CMD. -/
def State.keysWrite (s : State) (code : BitVec 32) : State := s.farWrite keysCmdAddr fun s => s.keysCmd code

/-- INSTALL_ROOT (R458). -/
def execInstallRoot (s : State) : Host.Outcome State Fault Refusal := .next (s.keysWrite 1#32)

/-- INSTALL_PUB (R468). -/
def execInstallPub (s : State) : Host.Outcome State Fault Refusal := .next (s.keysWrite 2#32)

/-- SET_FLEET_ID (R468). -/
def execSetFleetId (s : State) : Host.Outcome State Fault Refusal := .next (s.keysWrite 3#32)

/-- PAIR (R465). -/
def execPair (s : State) : Host.Outcome State Fault Refusal := .next (s.keysWrite 4#32)

/-- GEN_XMSS (R470). -/
def execGenXmss (s : State) : Host.Outcome State Fault Refusal := .next (s.keysWrite 5#32)

/-- ADVANCE (R469). -/
def execAdvance (s : State) : Host.Outcome State Fault Refusal := .next (s.keysWrite 6#32)

/-- RETURN (R471). -/
def execKeysReturn (s : State) : Host.Outcome State Fault Refusal := .next (s.keysWrite 7#32)

/-- RESPOND (R482). -/
def execRespond (s : State) : Host.Outcome State Fault Refusal := .next (s.keysWrite 8#32)

/-- EXPORT_HARVEST (R483). -/
def execExportHarvest (s : State) : Host.Outcome State Fault Refusal := .next (s.keysWrite 9#32)

/-- NEW_NONCE. -/
def execKeysNewNonce (s : State) : Host.Outcome State Fault Refusal := .next (s.keysWrite 10#32)

/-- DESTROY (R473): TARGET 0 vehicle, 1 fleet. -/
def execDestroy (vehicle : Bool) (s : State) : Host.Outcome State Fault Refusal :=
  .next (s.keysWrite (if vehicle then 11#32 else 0x10B#32))

/-- ABORT of the key store (R461). -/
def execKeysAbort (s : State) : Host.Outcome State Fault Refusal := .next (s.keysWrite 12#32)

/-! Tamper (R148, R476 to R478, R639). -/

/-- The MFP pins that tamper holds idle: latch outputs and amplifier enables (R148). -/
def State.heldPins (s : State) : BitVec 24 :=
  ofBits 24 ((List.range 24).filter fun i =>
    let f := (s.cfg.pins.getD i PinCfg.reset).func
    f == 1#8 || f == 5#8 || f == 6#8)

/-- Every session slot and working copy of a class-S key is zeroed, and what uses one is aborted
(R477). -/
def State.zeroSession (s : State) : State :=
  let s := s.upKeys fun k => { k with slots := [], out := [] }
  let s := s.upBt fun t =>
    { t with berths := t.berths.map fun b => { b with se := { b.se with memberKey := [], authKey := [] } } }
  let s := s.dropTagKey
  let zeroed (j : AesJob) : Bool := j.cell.any cellZeroed
  let s := (s.cry.jobs.filter zeroed).foldl State.jobAborted s
  (s.upCry fun c => { c with
    jobs := c.jobs.filter fun j => !zeroed j, aesBusy := false, aesNext := []
    kjobs := (c.kjobs.filter fun j => j.work != .derivation).modify 0 fun k => { k with started := true } }).startHead

/-- A live berth is cast off with TAMPER, one already cast off too (R30). -/
def State.castTamper (s : State) (n : Nat) : State :=
  (s.castOff n 0x0D#8).modId n fun b => { b with cause := 0x0D#8 }

/-- What a tamper event of the vehicle does here (R148, R30, R346, R429, R477). -/
def State.tamperEffects (s : State) : State :=
  let s := s.zeroSession
  let s := s.liveBerths.foldl State.castTamper s
  let s := s.upVer fun v => { v with
    ovrState := if v.ovrState = .active then .idle else v.ovrState, ovrPrev := .idle, ovrUses := 0#5 }
  let s := s.lkTamper
  (s.upPins fun p => { p with outputs := p.outputs &&& ~~~s.heldPins, pulses := [], windows := [] }).upKeys fun k =>
    { k with tamperHold := true, tamperQuiet := none }

/-- TAMPER goes out on every link that is up (R639). -/
def State.tamperLinks (s : State) : State :=
  if s.cfg.role = .harbourmaster then
    (s.enumeratedLinks.filter s.linkServed).foldl (fun s n => s.pierPost n 0x23 0#32 []) s.leaveSlack
  else s

/-- What a tender reports to the harbourmaster in EVENT (R616, R639): KIND, the stamp `t` and what
the kind adds. -/
def State.reportAt (s : State) (t kind : Nat) (arg : BitVec 32) (body : Bytes) : State :=
  match s.upPort? with
  | none => s
  | some n =>
    if s.cfg.role = .tender then
      s.pierPost n 0x22 arg (BitVec.ofNat 8 kind :: (le 6 t ++ body))
    else s

/-- A report stamped now. -/
def State.report (s : State) (kind : Nat) (arg : BitVec 32) (body : Bytes) : State :=
  s.reportAt s.stamp.toNat kind arg body

/-- What a tamper zeroes in the CRYPTO and TRNG blocks: the AES key and the pool of bytes (R477). -/
def State.tamperZeroes (s : State) : State :=
  (s.upCry fun c => { c with aesKey := [] }).upTrng fun t => { t with out := [] }

/-- The tamper line rises by source `src` (R476, R477, R461). -/
def State.tamperRise (s : State) (src : Nat) : State :=
  let s := s.tamperEffects.unstageRoots
  let s := s.upKeys fun k => { k with
    tamper := setBit k.tamper src true, tamperLatch := setBit k.tamperLatch src true
    tamperCount := satInc k.tamperCount }
  let s := s.tamperZeroes.latch 46
  let s := s.logRecord 0x27 [s.keys.tamper.setWidth 8]
  if s.cfg.role = .tender then s.report 4 0#32 [s.keys.tamper.setWidth 8] else s.tamperLinks

/-- TAMPER_LINE_RISE (R476): 0 TAMPER_N, 1 tamper switch, 2 VCORE glitch, 3 clock monitor. A switch
counts only on an MFP pin with the tamper-switch function (R81). -/
def execTamperLineRise (source : BitVec 2) (s : State) : Host.Outcome State Fault Refusal :=
  s.whenDo (source != 1#2 || (s.mfpSeen && s.cfg.pins.any (fun p => p.func == 4#8))) (s.tamperRise source.toNat)

/-- What a boundary does with the tamper inputs `active` (R148, log entry 20): ACTIVE shows them, and the outputs
are released when none has been active for one full tide, from the boundary before. -/
def State.tamperBoundary (s : State) (active : BitVec 4) : State :=
  let s := s.upKeys fun k => { k with tamper := active }
  if !s.keys.tamperHold then s
  else if active != 0#4 then s.upKeys fun k => { k with tamperQuiet := none }
  else match s.keys.tamperQuiet with
    | none => s.upKeys fun k => { k with tamperQuiet := some s.now }
    | some _ => s.upKeys fun k => { k with tamperHold := false, tamperQuiet := none }

end Sys2Proof.Machine
end

