-- ==== Sys2Proof/Machine/Berths.lean ====
section
/-! DEFINITION. Berths from sighting to mooring, their timers, the booking and the start request
(chapter 1), session identifiers (R234 to R239) and the SESSION settings (R229, R292). -/

namespace Sys2Proof.Machine

/-- Berths open, verdicts are issued and rules act here (R23, R70, R139): with a manifest, in FLEET,
with the main domain running and neither the AES nor the Keccak engine unavailable (R499). -/
def State.berthsRun (s : State) : Bool :=
  s.keepsBerths && s.cfg.loaded && s.tide.life == .fleet && s.mainUp && !s.cry.selftest.getLsbD 0 && !s.cry.selftest.getLsbD 1

/-- A wake event at this device (R124). A tender with a link reports it to its harbourmaster (R633). -/
def State.wakeHere (s : State) (bit : Nat) : State :=
  if s.cfg.role = .tender then
    (s.upTide fun t => { t with wakeCause := setBit t.wakeCause bit true }).report 3 (BitVec.ofNat 32 bit) []
  else s.wake bit

/-! Anchors. -/

/-- The configuration of anchor `a`. -/
def State.anchorCfg (s : State) (a : Nat) : AnchorCfg := s.cfg.anchors.getD a AnchorCfg.reset

/-- The link to the tender of anchor `a` is up, or `a` is this device (R601). -/
def State.anchorUp (s : State) (a : Nat) : Bool :=
  a == s.cfg.anchor || (a != 0 && s.pier.serving.getLsbD (a - 1) && (s.link (a - 1)).st == .active)

/-- Anchor `a` can respond in rounds (R214, R216, R268). -/
def State.canRespond (s : State) (a : Nat) : Bool :=
  let c := s.anchorCfg a
  c.present && c.uwbFlags.getLsbD 0 && c.sink0 && (c.uwbChains.getLsbD 4 || c.uwbChains.getLsbD 5) && s.anchorUp a

/-- The anchors that can respond. -/
def State.responders (s : State) : List Nat := (List.range 33).filter s.canRespond

/-! Session identifiers (R234 to R236). -/

/-- The identifier at the head of the pool, where it may be issued (R234, R235). -/
def State.poolHead (s : State) : Option Nat :=
  if s.bt.poolFresh < 4096 then some s.bt.poolFresh
  else match s.bt.poolBack with
    | [] => none
    | (k, t) :: _ => if 16 ≤ (s.tide.number - t).toNat then some k else none

/-- The head of the pool is taken. -/
def State.takeHead (s : State) : State :=
  s.upBt fun b => if b.poolFresh < 4096 then { b with poolFresh := b.poolFresh + 1 }
    else { b with poolBack := b.poolBack.tail }

/-- Identifier `k` joins the tail of the pool (R234). -/
def State.releaseSid (s : State) (k : Nat) : State :=
  s.upBt fun b => { b with poolBack := b.poolBack ++ [(k, s.tide.number)] }

/-- The session identifier of offset `k`. -/
def State.sidOf (s : State) (k : Nat) : BitVec 32 := (s.bt.sidBase.getD 0#32) + BitVec.ofNat 32 k

/-- The berth is a phone that declares UWB (CAPS bit 1). -/
def Berth.hasUwb (b : Berth) : Bool := b.id.kind == 0#3 && b.se.caps.getLsbD 1

/-- The preamble code of a session (R229). -/
def preambleCode (hprf : Bool) (sid : Nat) : Nat := if hprf then 25 + sid % 8 else 9 + sid % 4

/-- The SESSION body up to its MAC (R289, R229): 64 SYNC symbols and the 8-symbol SFD (log entry 34). -/
def State.sessionBody (s : State) (n : Nat) (sid : BitVec 32) : Bytes :=
  let b := s.berth n
  let hprf := b.se.caps.getLsbD 3
  le 4 sid.toNat ++ [BitVec.ofNat 8 (b2n hprf), BitVec.ofNat 8 (preambleCode hprf sid.toNat), 2#8, 8#8,
    BitVec.ofNat 8 (b2n (b.se.caps.getLsbD 2)), BitVec.ofNat 8 b.se.nResp,
    BitVec.ofNat 8 s.cfg.radio.uwbChannel, 0#8]

/-- The leading `n` bytes of a MAC (R183, R252, R292, R293). -/
def macOf (key : Bytes) (n : Nat) (msg : Bytes) : Bytes := (cmac key msg).take n

/-- The session set goes to every tender in service (R456, R616). -/
def State.shareSlot (s : State) (x : SessSlot) (sid : BitVec 32) (links : List Nat) : State :=
  links.foldl (fun s n => s.pierProtected n 0x19 sid
    (le 4 sid.toNat ++ x.sts ++ x.mac ++ x.link ++ x.ctr ++ le 4 x.attr.toNat)) s

/-- The links of the tenders in service. -/
def State.servingLinks (s : State) : List Nat := (List.range 32).filter s.pier.serving.getLsbD

/-- The nonce of a berth's session key (R448). -/
def Berth.sessionNonce (b : Berth) : Bytes :=
  if b.id.kind = 0#3 then padTo 16 b.se.nonce
  else if b.id.kind = 3#3 then padTo 16 b.se.ra
  else if b.id.kind = 4#3 then padTo 16 b.se.ra
  else if b.se.byTelegram || b.se.nonce.isEmpty then padTo 16 (le 4 b.se.counter.toNat)
  else padTo 16 (le 5 (ofBe b.se.nonce))

/-- Berth `n` takes the identifier of offset `k` and its session keys (R234, R449): five derivations of the verdict
path. A phone with UWB is told its settings in a SESSION frame, under the session MAC key (R292). -/
def State.sessionOpened (s : State) (n k : Nat) : State :=
  let b := s.berth n
  let sid := s.sidOf k
  let x := sessionSet b.se.memberKey b.sessionNonce sid k b.se.parentGen
  let s := ((s.useCells.derivations 5 3#2 5#5).takeHead.putSlot x).shareSlot x sid s.servingLinks
  let s := s.modSe n fun b => { b with sid := some k, readyOk := false, paused := false
                                       nResp := min 8 s.responders.length }
  if b.hasUwb then
    let body := s.sessionBody n sid
    s.withKey (.mac k) 3#2 4#4 5#5 body.length fun key s =>
      (s.queueFrame n 4 (body ++ macOf key 8 body)).modSe n fun b => { b with sessionSent := true }
  else s

/-- Berth `n` takes an identifier and its session keys where the pool gives one; else it waits (R235). Nothing is
derived where the Keccak engine has failed (R499), or where the member key is refused (R452). -/
def State.openSession (s : State) (n : Nat) : State :=
  let b := s.berth n
  match if b.se.sid.isNone && !b.se.memberKey.isEmpty && s.canDerive then s.poolHead else none with
  | none => s
  | some k => if s.useAdmits (.member n) 4#4 true 0 then s.sessionOpened n k else s.violation 4#4

/-- A berth enters MOORED (R30, R234, R449; source 5): link-layer encryption starts for a phone
(R288). No berth moors before SID_BASE is drawn (R523). -/
def State.moor (s : State) (n : Nat) : State :=
  if s.bt.sidBase.isNone then s
  else
    let s := s.modId n fun b => { b with
      st := .moored, tMoor := s.stamp, moorSeq := s.bt.moorCount, quietFrom := s.now }
    let s := s.upBt fun b => { b with moorCount := b.moorCount + 1 }
    let s := s.dwellBroken.latch 5
    let s := (s.openSession n).modSe n fun b => { b with encrypted := (s.berth n).id.kind == 0#3 }
    let id := (s.berth n).id
    let s := s.logRecord 0x01 ([BitVec.ofNat 8 n, id.kind.setWidth 8, id.anchor.setWidth 8] ++ le 8 id.cred.toNat)
    if s.tide.power = .watch then s.wake 8 else s

/-! The credential (R30, R35, R39, R359, R362). -/

/-- Berth `n`, SIGHTED, receives its credential, and from a phone its generation: HAILED with its
keys, or cast off with the first check that fails (R30); DUPLICATE comes first (log entry 21). -/
def State.identify (s : State) (n : Nat) (cred : BitVec 64) (gen : Option (BitVec 8)) : State :=
  let s := s.modId n fun b => { b with cred := cred }
  if s.liveBerths.any fun m => m != n && (s.berth m).id.cred == cred && cred != 0#64 then s.castOff n 7#8
  else
    let (found, s) := s.lookup cred
    match found with
    | none => s.castOff n 1#8
    | some k =>
      let m := s.reg.member k
      if m.status ≠ 1#8 then s.castOff n 2#8
      else if gen.any (· != m.gen) then s.castOff n 3#8
      else if !s.rightsAllow m.rights then s.castOff n 4#8
      else
        ((s.modId n fun b => { b with
          rights := m.rights, status := m.status, gen := m.gen, st := .hailed }).deriveMember n)

/-- A challenge nonce is asked for (R189, R291, R523). -/
def State.askNonce (s : State) (n : Nat) : State :=
  (s.modSe n fun b => { b with nonceDue := true }).request (.berthNonce n)

/-- Berth `n` becomes FREE at a boundary (R30, R234, R475; source 6): its keys are destroyed, its
fields cleared and its identifier released; a BLE link that served it closes, and no card or tag session, held
request for random words or waiting LF frame names it any more, so that the berth's next key is not touched by the old
one (R29). -/
def State.freeBerthAt (s : State) (n : Nat) : State :=
  let s := match (s.berth n).se.sid with
    | some k => (s.dropSlot k).releaseSid k
    | none => s
  let s := s.upNb fun b => { b with
    links := b.links.filter fun l => l.berth != some n, csResults := unbind b.csResults n }
  let s := s.upUwb fun u => { u with results := u.results.filter fun r => r.berth != n }
  let s := if s.nfc.tagBerth = some n then s.dropTagKey else s
  let s := s.upNfc fun c => { c with
    cards := c.cards.map fun k => if k.berth = some n then { k with berth := none } else k
    tagBerth := if c.tagBerth = some n then none else c.tagBerth }
  let s := s.upTrng fun t => { t with held := t.held.filter fun h => h.who != .cardRa n && h.who != .berthNonce n }
  let s := s.upLf fun l => { l with
    queue := l.queue.filter fun w => !(w.berth == n && (w.kind == .challenge || w.kind == .poll))
    onAir := l.onAir.map fun w => if w.berth = n ∧ (w.kind = .challenge ∨ w.kind = .poll) then { w with berth := 256 } else w }
  (s.modBerth n fun _ => Berth.reset).latch 6

/-- Every berth cast off before this boundary becomes FREE (R30, R32). -/
def State.freeCastOff (s : State) (l : List Nat) : State := l.foldl State.freeBerthAt s

/-- The berths that are CAST_OFF. -/
def State.castBerths (s : State) : List Nat := berthNos.filter fun n => s.berthIs n .castOff

/-! Timers (R31, R34). -/

/-- The berth timers run: a timer carries their owner code 4 (R129, log entry 52). -/
def State.berthTimers (s : State) : Bool := s.timer 4#4

/-- HAIL_TIMEOUT (R31). -/
def execHailTimeout (n : BitVec 8) (s : State) : Host.Outcome State Fault Refusal :=
  let b := (s.berth n.toNat).id
  s.whenDo (s.berthTimers && (b.st == .sighted || b.st == .hailed) && s.timerElapsed b.sightAt (ms s.cfg.hailMs))
    (s.castOff n.toNat 6#8)

/-- QUIET_TIMEOUT (R34). -/
def execQuietTimeout (n : BitVec 8) (s : State) : Host.Outcome State Fault Refusal :=
  let b := (s.berth n.toNat).id
  s.whenDo (s.berthTimers && b.st.moored? && s.timerElapsed b.quietFrom (sec s.cfg.quietS)) (s.castOff n.toNat 8#8)

/-- FAR_TIMEOUT (R34): the zone has been FAR for longer than the far timeout. -/
def execFarTimeout (n : BitVec 8) (s : State) : Host.Outcome State Fault Refusal :=
  let b := (s.berth n.toNat).id
  match b.farFrom with
  | none => .next s
  | some t => s.whenDo (s.berthTimers && b.st == .ranged && decide (t + sec s.cfg.farS < s.now)) (s.castOff n.toNat 9#8)

/-- Byte address of BERTH[n].CTRL (R63). -/
def berthCtrlAddr (n : Nat) : Nat := 0x10000 + 64 * n + 0x28

/-- A BERTH register is written: a tender ignores it (R62). -/
def State.berthWrite (s : State) (a : Nat) (eff : State → State) : State :=
  s.farWrite a fun s => if s.isTender then s else eff s

/-- A write of BERTH[n].CTRL (R30, R63). -/
def State.castWrite (s : State) (n : Nat) (v : BitVec 32) : State :=
  if v.getLsbD 0 then
    if (s.berth n).id.st.held then s.castOff n 0x0C#8 else s.notice 3 (berthCtrlAddr n)
  else s

/-- BERTH_CAST (R30). -/
def execBerthCast (n : BitVec 8) (v : BitVec 32) (s : State) : Host.Outcome State Fault Refusal :=
  .next (s.berthWrite (berthCtrlAddr n.toNat) fun s => s.castWrite n.toNat v)

/-! The booking (R64). -/

/-- A write of BOOKING_LO (R64). -/
def State.bookLo (s : State) (v : BitVec 32) : State :=
  s.upBt fun b => { b with bookLo := v, bookLoFresh := true }

/-- The booking at a boundary at tick `t` (R10, R64). A BOOKING_HI write of the boundary's own tick that had no
fresh low half takes the one that is in force from this boundary on. -/
def BerthTable.takeBooking (b : BerthTable) (t : Nat) : BerthTable :=
  let k := b.booking.boundary t
  if b.bookNoLo && k.wroteAt == t then
    let lo := k.force.setWidth 32
    { b with bookLo := if b.bookLoFresh then b.bookLo else lo
             booking := { k with stored := BitVec.ofNat 64 (lo.toNat + 2 ^ 32 * b.bookHi.toNat) } }
  else { b with booking := k }

/-- BOOKING_LO_WRITE (R64). -/
def execBookingLoWrite (v : BitVec 32) (s : State) : Host.Outcome State Fault Refusal :=
  .next (s.berthWrite 0x14000 fun s => s.bookLo v)

/-- A write of BOOKING_HI (R64): both halves are armed; without a fresh low half, the one in force, even while an
earlier pair waits, and BOOKING_LO then reads that half: R9 and R64 pull apart here (DESIGN CHOICE, log entry
51). -/
def State.bookHi (s : State) (v : BitVec 32) : State :=
  s.upBt fun b =>
    let lo := if b.bookLoFresh then b.bookLo else b.booking.force.setWidth 32
    { b with bookLo := lo, bookHi := v, bookLoFresh := false, bookNoLo := !b.bookLoFresh
             booking := b.booking.write s.now (BitVec.ofNat 64 (lo.toNat + 2 ^ 32 * v.toNat)) }

/-- BOOKING_HI_WRITE (R64). -/
def execBookingHiWrite (v : BitVec 32) (s : State) : Host.Outcome State Fault Refusal :=
  .next (s.berthWrite 0x14004 fun s => s.bookHi v)

/-! The start request (R53 to R59). -/

/-- The ticket rule of the policy (R91). -/
def State.ticketRule (s : State) : Option Rule := s.cfg.rules.find? fun r => r.action == 2#8

/-- A RANGED berth with a verdict of the last or the previous boundary in DRIVER_SEAT (R54). -/
def State.seated (s : State) (n : Nat) : Bool :=
  let b := s.berth n
  b.id.st == .ranged && b.fu.age.toNat ≤ 1 && b.fu.zone == 4#3

/-- Berth `n` qualifies for start (R54, R343). -/
def State.qualifies (s : State) (n : Nat) : Bool :=
  match s.ticketRule with
  | none => false
  | some r =>
    let b := (s.berth n).fu
    s.seated n && r.minConf.toNat ≤ b.conf.toNat && b.relay &&& r.veto == 0#8

/-- Berth `a` comes before berth `b` (R55): the booking holder, the earlier T_MOOR, the lower number. -/
def State.startBefore (s : State) (a b : Nat) : Bool :=
  let book := s.bt.booking.force
  let x := (s.berth a).id
  let y := (s.berth b).id
  let bx := book != 0#64 && x.cred == book
  let by_ := book != 0#64 && y.cred == book
  if bx != by_ then bx
  else if x.tMoor != y.tMoor then x.tMoor.toNat < y.tMoor.toNat
  else a < b

/-- The winner among the qualifying berths (R55). -/
def State.startWinner (s : State) : Option Nat :=
  (berthNos.filter s.qualifies).foldl (fun w n =>
    match w with
    | none => some n
    | some m => if s.startBefore n m then some n else some m) none

/-- Why no berth qualifies (BERTH.START.REASON). The codes cover neither a berth in DRIVER_SEAT whose verdict is
older than R54 allows nor one that a relay flag vetoes: the first counts as no berth in DRIVER_SEAT (2), the
second as below the start class (3) (DESIGN CHOICE, log entry 51). -/
def State.startReason (s : State) : BitVec 4 :=
  if !(berthNos.any fun n => s.berthIs n .ranged) then 1#4
  else if !(berthNos.any s.seated) then 2#4
  else 3#4

/-- The evaluation of a start request with `left` boundaries still to come (R56, R57). -/
def State.evalStart (s : State) (left : Nat) : State :=
  match s.startWinner with
  | some n =>
    (s.upBt fun b => { b with winner := BitVec.ofNat 8 n, result := 2#3, reason := 0#4
                              startLeft := none, startWait := false }).issueTicket false (BitVec.ofNat 8 n)
      (s.berth n).id.cred
  | none =>
    if left = 0 then
      let r := s.startReason
      ((s.upBt fun b => { b with result := 4#3, reason := r, startLeft := none, startWait := false }).latch 10
        ).logRecord 0x03 ([0xFF#8] ++ le 8 0 ++ [r.setWidth 8])
    else s.upBt fun b => { b with result := 1#3, reason := 0#4, startLeft := some left, startWait := false }

/-- A start request stamped `at'` (R53, R56 to R59, R317): ignored while one is pending or a ticket is out, HELD while
the lock keeper holds a release; before the publication of the last boundary's verdicts it waits. The
boundaries since its stamp are among the 4 of R57. -/
def State.startRequest (s : State) (at' : Nat) : State :=
  if !s.berthsRun || s.tide.power == .deep then s
  else if s.startBusy then s
  else if s.lk.state.released? then
    (s.upBt fun b => { b with result := 3#3, reason := 0#4 }).upLf fun l => { l with
      pollNow := l.pollNow || s.tide.power == .drive }
  else
    let left := 4 - s.boundariesSince at'
    if s.ver.outAt.isSome then
      s.upBt fun b => { b with result := 1#3, reason := 0#4, startLeft := some left, startWait := true, startTrig := true }
    else (s.upBt fun b => { b with startTrig := true }).evalStart left

/-- The evaluation that publication brings (R317). -/
def State.startPublished (s : State) : State :=
  if s.bt.startWait then s.evalStart (s.bt.startLeft.getD 0) else s

/-- START_RETRY at a boundary (R57): the request is evaluated against this boundary's verdicts, at
their publication where there are any. -/
def State.startBoundary (s : State) : State :=
  match s.bt.startLeft with
  | none => s
  | some k =>
    if s.ver.outAt.isSome then s.upBt fun b => { b with startLeft := some (k - 1), startWait := true }
    else s.evalStart (k - 1)

/-- The start-button input of this device, where pin `mfp` has that function (R53, R81). -/
def State.startPin (s : State) (mfp : Nat) : Bool :=
  (s.cfg.pins.getD mfp PinCfg.reset).func == 3#8 && s.mainUp && s.mfpSeen && s.tide.power != .deep

/-- START_BUTTON_PRESS (R53, R124): the debounce begins. -/
def execStartButtonPress (mfp : BitVec 5) (s : State) : Host.Outcome State Fault Refusal :=
  s.whenDo (s.startPin mfp.toNat && !(s.bt.debounce.any fun d => d.1 == mfp))
    ((s.wakeHere 6).upBt fun b => { b with debounce := (mfp, s.now) :: b.debounce })

/-- The request that the input makes whose debounce ended at `at'`; a tender reports it. -/
def State.startInput (s : State) (at' : Nat) : State :=
  if s.cfg.role = .tender then s.report 1 0#32 [] else s.startRequest at'

/-- START_DEBOUNCE_END (R53): 2 ms after the press. -/
def execStartDebounceEnd (mfp : BitVec 5) (s : State) : Host.Outcome State Fault Refusal :=
  match s.bt.debounce.find? fun d => d.1 == mfp with
  | none => .next s
  | some (_, t) =>
    s.whenDo (s.elapsed t (ms 2))
      ((s.upBt fun b => { b with debounce := b.debounce.filter fun d => d.1 != mfp }).startInput (t + ms 2))

end Sys2Proof.Machine
end

