-- ==== Sys2Proof/Machine/Can.lean ====
section
/-! DEFINITION. The CAN FD controllers (chapter 13): owners, bit timing, message objects and the pool,
filter lists, receive queues, transmission and its failures, transactions, start requests and waking. -/

namespace Sys2Proof.Machine

/-! Controllers. -/

/-- Message object `k` of a controller. -/
def CanCtl.obj (c : CanCtl) (k : Nat) : MObj := c.objs.getD k MObj.reset

/-- The controller with object `k` changed. -/
def CanCtl.modObj (c : CanCtl) (k : Nat) (f : MObj → MObj) : CanCtl := { c with objs := c.objs.modify k f }

/-- The state with object `k` of controller `n` changed. -/
def State.modObj (s : State) (n k : Nat) (f : MObj → MObj) : State := s.modCtl n fun c => c.modObj k f

/-- The CAN section entry of controller `n`. -/
def State.canCfg (s : State) (n : Nat) : CanCfg := s.cfg.can.getD n CanCfg.reset

/-- The lock keeper owns the controller (R558). -/
def CanCtl.locked (c : CanCtl) : Bool := c.owner == 2#8

/-- The power state lets the controller of this owner run (R140, R557). -/
def ownerRuns (owner : BitVec 8) (p : Power) : Bool :=
  if owner = 1#8 then p != .deep
  else if owner = 3#8 then p == .watch || p == .service || p == .drive
  else if owner = 4#8 then p == .service || p == .drive
  else false

/-- Controller `n` runs: it has an owner other than the lock keeper that the power state admits, is
not unmoored, and the bank VIO_C of controllers 0 to 6 is not in brown-out (R114, R140, R557, R686). -/
def State.canRuns (s : State) (n : Nat) : Bool :=
  ownerRuns (s.ctl n).owner s.tide.power && s.moored (11 + n) && s.mainUp && (n == 7 || !s.sys.vioLow.getLsbD 2)

/-- Controller `n` works on its bus: it runs, or is the lock keeper's (R402, R404). -/
def State.canWorks (s : State) (n : Nat) : Bool := if (s.ctl n).locked then s.lk.alive else s.canRuns n

/-- A controller receives under note D8 of R140 (R571). -/
def State.canReceives (s : State) : Bool := (List.range 8).any s.canRuns

/-- The power state admits transmission by controller `n` (R560). -/
def State.canSends (s : State) (n : Nat) : Bool := s.canRuns n && s.tide.power != .standby

/-- Bit `b` of CAN[n].EVENTS rises; source 12 + n latches where IRQ_EN has it, and source 19 never
while the lock keeper owns controller 7 (R599). -/
def State.canEvent (s : State) (n b : Nat) : State :=
  let c := s.ctl n
  let rises := !c.events.getLsbD b && c.irqEn.getLsbD b && !c.locked
  (s.modCtl n fun c => { c with events := setBit c.events b true }).latchIf rises (12 + n)

/-! Bit timing (R563 to R567). -/

/-- A quotient rounded to the nearest whole number, a half upwards. -/
def roundDiv (a b : Nat) : Nat := (2 * a + b) / (2 * b)

/-- BRP and the number of time quanta in a bit, from clock and rate in kHz (R563). -/
def bitTiming (f r lo hi : Nat) : Nat × Nat :=
  let brps := (List.range 32).map (· + 1)
  match brps.find? fun b => f % (b * r) == 0 && lo ≤ f / (b * r) && f / (b * r) ≤ hi with
  | some b => (b, f / (b * r))
  | none =>
    match brps.find? fun b => lo ≤ roundDiv f (b * r) && roundDiv f (b * r) ≤ hi with
    | some b => (b, roundDiv f (b * r))
    | none => (32, hi)

/-- TSEG1 and TSEG2 for `n` quanta and a sample point in per mille (R564). -/
def segments (n sample : Nat) : Nat × Nat :=
  let t1 := roundDiv (n * sample) 1000 - 1
  if n - 1 - t1 < 2 then (n - 3, 2) else (t1, n - 1 - t1)

/-- The controller clock in kHz (R414, R563). -/
def CanCtl.clock (c : CanCtl) : Nat := if c.locked then 16000 else 80000

/-- The rates in force of controller `n`, nominal and data (R414). -/
def State.canRates (s : State) (n : Nat) : CanCfg :=
  if (s.ctl n).locked then { s.lk.record.can with data := min 2000 s.lk.record.can.data } else s.canCfg n

/-- CAN[n].NTIMING, DTIMING and RATE (R567); zero for a controller that is off. -/
def State.canTiming (s : State) (n : Nat) : BitVec 32 × BitVec 32 × BitVec 32 :=
  let c := s.ctl n
  let g := s.canRates n
  if c.owner = 0#8 then (0#32, 0#32, 0#32)
  else
    let (brp, q) := bitTiming c.clock g.nominal 8 256
    let (t1, t2) := segments q g.sample
    let (brpD, qD) := bitTiming c.clock (max 1 g.data) 5 50
    let (d1, d2) := segments qD (if g.data ≤ 2000 then 750 else 700)
    let off := g.data = 0
    (fields32 [(0, brp), (8, t1), (16, t2), (24, t2)],
     if off then 0#32 else fields32 [(0, brpD), (8, d1), (16, d2), (24, if 1000 ≤ g.data then 1 else 0)],
     fields32 [(0, roundDiv c.clock (brp * q)), (16, if off then 0 else roundDiv c.clock (brpD * qD))])

/-! Message objects and the pool (R572 to R576). -/

/-- Bit `b` of the configuration in force of an object. -/
def MObj.bit (o : MObj) (b : Nat) : Bool := o.cfgForce.getLsbD b

/-- The object is a transmit object. -/
def MObj.tx (o : MObj) : Bool := o.bit 0

/-- The object is an enabled receive object (R579). -/
def MObj.receives (o : MObj) : Bool := o.bit 1 && !o.tx && o.st == .idle

/-- The object is an enabled transmit object with its pool entry. -/
def MObj.sends (o : MObj) : Bool := o.bit 1 && o.tx && o.st != .disabled && o.st != .nomem

/-- DEPTH of a configuration (R600). -/
def cfgDepth (v : BitVec 32) : Nat := fieldN v 13 8

/-- Pool entries that a configuration needs (R572). -/
def cfgNeed (v : BitVec 32) : Nat := if !v.getLsbD 1 then 0 else if v.getLsbD 0 then 1 else cfgDepth v

/-- Entries of the pool for a partition of `pages` pages (R572). -/
def canPool (pages : Nat) : Nat := (pages * 4096 - 32768) / 80

/-- The object may take a new configuration (R573). -/
def MObj.free (o : MObj) : Bool :=
  if o.tx then o.st == .idle || o.st == .aground || o.st == .disabled || o.st == .nomem else o.queue.isEmpty

/-- A data length as it is stored (R575). -/
def canLen (cfg : BitVec 32) (n : Nat) : Nat :=
  let n := if cfg.getLsbD 6 ∧ n < 2 then 2 else n
  if !cfg.getLsbD 2 then min n 8
  else if n ≤ 8 then n else if n ≤ 12 then 12 else if n ≤ 16 then 16 else if n ≤ 20 then 20
  else if n ≤ 24 then 24 else if n ≤ 32 then 32 else if n ≤ 48 then 48 else 64

/-- The configuration that is due at a boundary takes force where it may, and the entries of an object
that is disabled or shrinks are released (R573, R574); data lengths follow the format (R575). -/
def MObj.reconfigure (t : Nat) (o : MObj) : MObj :=
  let o := { o with cfg := o.cfg.boundary t, idr := o.idr.boundary t }
  if o.cfg.force = o.cfgForce ∧ o.idr.force = o.idForce then
    { o with cfgPending := o.cfg.stored != o.cfgForce || o.idr.stored != o.idForce }
  else if o.free then
    let v := o.cfg.force
    let need := cfgNeed v
    let turned := v.getLsbD 0 != o.tx
    let n := if need = 0 ∨ turned then 0 else min o.loaded (if v.getLsbD 2 then 64 else 8)
    { o with
      cfgForce := v, idForce := o.idr.force
      cfgPending := o.cfg.stored != v || o.idr.stored != o.idr.force
      entries := min o.entries need
      st := if need = 0 then .disabled else if turned then (if o.entries = 0 then .disabled else .idle) else o.st
      tries := if need = 0 ∨ turned then 0#8 else o.tries
      data := o.data.take n
      loaded := n
      txns := if need = 0 ∨ turned then [] else o.txns
      len := BitVec.ofNat 7 (canLen v o.len.toNat) }
  else { o with cfgPending := true }

/-- An object of a controller that the lock keeper holds takes no entries (R572): it gets its own again when the controller
passes to another owner. -/
def MObj.keepNone (o : MObj) : MObj :=
  if o.entries = 0 then o
  else { o with entries := 0, st := if o.st = .disabled ∨ o.st = .onAir then o.st else .nomem }

/-- Allocation of an object from `free` entries (R574). -/
def MObj.allocate (free : Nat) (o : MObj) : MObj × Nat :=
  let need := cfgNeed o.cfgForce
  if need = 0 ∨ o.entries = need then (o, free)
  else if need - o.entries ≤ free then
    ({ o with entries := need, st := if o.st = .disabled ∨ o.st = .nomem then .idle else o.st },
     free - (need - o.entries))
  else ({ o with entries := 0, st := .nomem }, free + o.entries)

/-- Allocation of a list of objects in ascending order. -/
def allocateAll : List MObj → Nat → List MObj × Nat
  | [], free => ([], free)
  | o :: rest, free =>
    let (o, free) := o.allocate free
    let (rest, free) := allocateAll rest free
    (o :: rest, free)

/-- Allocation of all controllers in ascending order; the lock keeper's takes no entries (R572, R574). -/
def allocateCtls : List CanCtl → Nat → List CanCtl × Nat
  | [], free => ([], free)
  | c :: rest, free =>
    let (os, free) := if c.locked || c.owner == 0#8 then (c.objs, free) else allocateAll c.objs free
    let (rest, free) := allocateCtls rest free
    ({ c with objs := os } :: rest, free)

/-- Entries allocated to a controller's objects. -/
def CanCtl.used (c : CanCtl) : Nat := (c.objs.map (·.entries)).sum

/-- Internal loopback is of MANUFACTURE and PROVISION only (R556): elsewhere MODE holds 0 for it, as a write of 2 does there
(R600). -/
def State.endLoopback (s : State) : State :=
  s.upCan fun b => { b with ctl := b.ctl.map fun c => { c with mode := c.mode.without 2#2 } }

/-- CAN_CONFIG_CHANGE (R573, R574) and the modes that take force (R10). -/
def State.canConfigBoundary (s : State) : State :=
  s.upCan fun b =>
    let ctl := b.ctl.map fun c =>
      let c := { c with mode := c.mode.boundary s.now }
      if c.locked then { c with objs := c.objs.map MObj.keepNone }
      else if c.owner = 0#8 then c else { c with objs := c.objs.map (MObj.reconfigure s.now) }
    let used := (ctl.map CanCtl.used).sum
    let (ctl, free) := allocateCtls ctl (b.total - used)
    { b with ctl := ctl, free := free }

/-- CAN_FILTER_SWAP (R577): an armed shadow becomes the active list and the old active list the
shadow; the list of the tide that ends is kept for the frames stamped in it. A write in the boundary's own tick waits for
the next boundary, its LEN with it (R10). -/
def State.canFilterBoundary (s : State) : State :=
  s.upCan fun b => { b with
   ctl := b.ctl.map fun c =>
    let c := { c with prevActive := c.active, prevLen := c.activeLen }
    let swap (len : BitVec 7) : CanCtl := { c with
      active := c.shadow, activeLen := len, shadow := c.active, armed := c.armedAt == s.now, armedBefore := none }
    if !c.armed then c
    else if c.armedAt = s.now then (c.armedBefore.map swap).getD c
    else swap c.filtLen }

/-- CAN_PENDING_RELEASE (R560): held requests enter arbitration once transmission is admitted. -/
def State.canHeldBoundary (s : State) : State :=
  s.upCan fun b => { b with
   ctl := b.ctl.mapIdx fun n c =>
    if s.canSends n then { c with objs := c.objs.map fun o => { o with heldReq := false } } else c }

/-- A controller that the owner or the power state has stopped leaves the bus, and integrates again
when it runs; a frame on the air completes (R111, R557). -/
def State.canRunBoundary (s : State) : State :=
  s.upCan fun b => { b with
   ctl := b.ctl.mapIdx fun n c =>
    if c.locked ∨ s.canRuns n then c
    else { c with state := 0#2 } }

/-- The objects of a controller that changes its owner are emptied (R111, R590). A frame on the air goes out
with its data; its object is emptied as it ends (`MObj.gone`). -/
def MObj.emptied (o : MObj) : MObj :=
  if o.st = .onAir then { o with queue := [], txns := [], tries := 0#8, heldReq := false, cancel := true, gone := true }
  else { o with queue := [], txns := [], tries := 0#8, heldReq := false, cancel := false, data := [], loaded := 0
                st := if o.st = .pending ∨ o.st = .aground then .idle else o.st }

/-- The object of a frame that ended after its controller changed owner: it is emptied (R111). -/
def MObj.endGone (o : MObj) : MObj := { o with st := .idle, tries := 0#8, cancel := false, gone := false, data := [], loaded := 0 }

/-- The owner of controller `n`: that of its section entry. Controller 7 is the lock keeper's while the record in force
there says so (R402, R404, R412), whatever the manifest that runs says; a section entry with OWNER 2 that the lock keeper
has not adopted leaves it off. -/
def State.ownerOf (s : State) (n : Nat) : BitVec 8 :=
  let o := (s.canCfg n).owner
  if n = 7 then if s.lk.record.can.owner = 2#8 then 2#8 else if o = 2#8 then 0#8 else o else o

/-- CAN_OWNER_CHANGE (R111): the owners of the section entries, for the controllers for which `who`
holds. A frame on the air completes. -/
def State.canOwners (s : State) (who : Nat → Bool) : State :=
  s.upCan fun b => { b with
   ctl := b.ctl.mapIdx fun n c =>
    let o := s.ownerOf n
    if !who n || c.owner = o then c
    else { c with owner := o, state := 0#2, tecN := 0, recN := 0, protoExc := false
                  objs := c.objs.map MObj.emptied } }

/-! What the host writes. -/

/-- Byte address of a CAN[n] register (R600). -/
def canAddr (n o : Nat) : Nat := 0x20000 + 0x1000 * n + o

/-- Byte address of MOBJ[k].CTRL. -/
def mobjCtrl (n k : Nat) : Nat := canAddr n (0x808 + 16 * k)

/-- A host write to a controller's registers: the lock keeper's ignores it (R558). -/
def State.canWrite (s : State) (n a : Nat) (eff : State → State) : State :=
  if (s.ctl n).locked then s.notice 3 a else eff s

/-- A transmit request is set (R560, R562, R590): PENDING, held where transmission is not admitted; an
object PENDING or ON_AIR gets no second transmission. -/
def State.canRequest (s : State) (n k : Nat) : State :=
  let o := (s.ctl n).obj k
  if o.sends && (o.st == .idle || o.st == .aground) then
    s.modObj n k fun o => { o with st := .pending, tries := 0#8, cancel := false, heldReq := !s.canSends n }
  else s

/-- CTRL.REQ by the host (R558, R559). -/
def State.canReq (s : State) (n k : Nat) : State :=
  let c := s.ctl n
  if (c.owner == 1#8 || c.owner == 4#8) && (c.obj k).sends && s.moored (11 + n) then s.canRequest n k
  else s.notice 3 (mobjCtrl n k)

/-- CAN_TX_REQUEST (R558). -/
def execCanTxRequest (n : BitVec 3) (k : BitVec 7) (s : State) : Host.Outcome State Fault Refusal :=
  .next (s.farWrite (mobjCtrl n.toNat k.toNat) fun s => s.canReq n.toNat k.toNat)

/-- CTRL.LOAD (R576). -/
def State.canLoadObj (s : State) (n k : Nat) : State :=
  let o := (s.ctl n).obj k
  if !(s.ctl n).locked && o.sends && o.st != .pending && o.st != .onAir then
    s.modObj n k fun o => { o with data := Mem.load (s.ctl n).txbuf 0 o.len.toNat, loaded := o.len.toNat }
  else s.notice 3 (mobjCtrl n k)

/-- CAN_LOAD (R576). -/
def execCanLoad (n : BitVec 3) (k : BitVec 7) (s : State) : Host.Outcome State Fault Refusal :=
  .next (s.farWrite (mobjCtrl n.toNat k.toNat) fun s => s.canLoadObj n.toNat k.toNat)

/-- CTRL.CANCEL (R590, R591). -/
def State.canCancelObj (s : State) (n k : Nat) : State :=
  s.canWrite n (mobjCtrl n k) fun s =>
    s.modObj n k fun o =>
      if o.st = .pending ∨ o.st = .aground then { o with st := .idle, tries := 0#8, heldReq := false }
      else if o.st = .onAir then { o with cancel := true }
      else o

/-- CAN_CANCEL (R591). -/
def execCanCancel (n : BitVec 3) (k : BitVec 7) (s : State) : Host.Outcome State Fault Refusal :=
  .next (s.farWrite (mobjCtrl n.toNat k.toNat) fun s => s.canCancelObj n.toNat k.toNat)

/-- A write of RX_ACK (R585): the oldest owned entries of the selected object are released; too many
release all, with a notice. -/
def State.canAck (s : State) (n c : Nat) : State :=
  s.canWrite n (canAddr n 0x48) fun s =>
    let k := (s.ctl n).rxsel.toNat
    let owned := ((s.ctl n).obj k).queue.length
    (s.modObj n k fun o => { o with queue := o.queue.drop c }).noticeIf (owned < c) 1 (canAddr n 0x48)

/-- CAN_RX_ACK (R585). -/
def execCanRxAck (n : BitVec 3) (c : BitVec 32) (s : State) : Host.Outcome State Fault Refusal :=
  .next (s.farWrite (canAddr n.toNat 0x48) fun s => s.canAck n.toNat (fieldN c 5 0))

/-! Error counters (R556, R592): ISO 11898-1. -/

/-- The error counters of controller `n` on the bus; a change among the states sets EVENTS.STATE
(R592). Bus-off reads TEC 255. -/
def State.canCounters (s : State) (n tec rec : Nat) : State :=
  let c := s.ctl n
  let st := if c.state = 0#2 then 0#2 else errState tec rec
  let s := s.modCtl n fun c => { c with
    tecN := min tec 255, recN := min rec 255, state := st, protoExc := c.protoExc && c.state == st }
  if c.state = st then s else s.canEvent n 5

/-- The receive error counter after a good reception (ISO 11898-1). -/
def goodRec (rec : Nat) : Nat := if rec ≤ 127 then rec - 1 else 119 + Config.recRestart.val

/-! Arbitration and transmission (R587 to R593). -/

/-- What decides arbitration, lower first: the identifier, base before extended, data before remote. -/
def MObj.arbKey (o : MObj) : Nat :=
  let id := fieldN o.idForce 28 0
  let rtr := b2n (o.bit 5)
  if o.bit 4 then (((id / 2 ^ 18 * 2 + 1) * 2 + 1) * 2 ^ 18 + id % 2 ^ 18) * 2 + rtr
  else ((id % 2 ^ 11 * 2 + rtr) * 2) * 2 ^ 19

/-- The object may enter arbitration: PENDING, not held, and with room for its transaction (R593). -/
def MObj.ready (o : MObj) : Bool := o.st == .pending && !o.heldReq && (!o.bit 6 || o.txns.length < 16)

/-- The object that goes first among the PENDING ones (R587). -/
def CanCtl.winner (c : CanCtl) : Option Nat :=
  ((List.range 128).filter fun k => (c.obj k).ready).foldl (fun w k =>
    match w with
    | none => some k
    | some j => if (c.obj k).arbKey < (c.obj j).arbKey then some k else some j) none

/-- The next TAG that no outstanding request of the object holds (R593). -/
def MObj.tagFrom (o : MObj) : Nat → BitVec 8 → BitVec 8
  | 0, t => t
  | fuel + 1, t => if o.txns.any (fun x => x.tag == t) then o.tagFrom fuel (t + 1#8) else t

/-- The data of a transaction request carry TAG and EPOCH (R593). -/
def MObj.tagged (o : MObj) (tide : BitVec 32) : MObj :=
  if o.bit 6 then
    let t := o.tagFrom 256 o.tagNext
    { o with tagNext := t, data := t :: (tide.setWidth 4).setWidth 8 :: o.data.drop 2 }
  else o

/-- CAN_ARBITRATION_START (R415, R561, R587, R593). A diagnostics request waits out a UWB air phase. -/
def execCanArbitrationStart (n : BitVec 3) (s : State) : Host.Outcome State Fault Refusal :=
  let c := s.ctl n.toNat
  if c.locked then s.lkArbitrates else
  match c.winner with
  | none => .next s
  | some k =>
    s.whenDo (s.canSends n.toNat && c.onBus && c.onAir.isNone && c.mode.force != 1#2 &&
        !(c.owner == 4#8 && s.inAir))
      (s.modCtl n.toNat fun c => { (c.modObj k fun o => { o.tagged s.tide.number with st := .onAir }) with
        onAir := some k, onAirAt := s.now })

/-- The filter entry `i` of a list matches a frame (R578, R579). -/
def filterMatch (l : Mem) (i : Nat) (f : CanFrame) : Bool :=
  let w0 := Mem.num l (16 * i) 4
  let w1 := Mem.num l (16 * i + 4) 4
  let w2 := Mem.num l (16 * i + 8) 4
  let m := if f.ext then 2 ^ 29 else 2 ^ 11
  let a := w0 % m
  let b := w1 % m
  let id := f.ident.toNat % m
  let typ := w0 / 2 ^ 30 % 4
  let fmt := w2 / 2 ^ 9 % 4
  (w0 / 2 ^ 29 % 2 == b2n f.ext) && (w2 / 2 ^ 11 % 2 == b2n f.rtr) &&
    (fmt == 0 || fmt == 3 || (fmt == 2) == f.fdf) &&
    (if typ = 1 then a ≤ id && id ≤ b
     else if typ = 2 then id == a || id == b
     else if typ = 3 then (id &&& b) == (a &&& b)
     else false)

/-- The first entry of a list of `len` that matches (R579). -/
def firstMatch (l : Mem) (len : Nat) (f : CanFrame) : Option Nat :=
  (List.range len).find? fun i => filterMatch l i f

/-- DLC of a data length (ISO 11898-1). -/
def dlcOf (n : Nat) : Nat :=
  if n ≤ 8 then n else if n ≤ 12 then 9 else if n ≤ 16 then 10 else if n ≤ 20 then 11 else if n ≤ 24 then 12
  else if n ≤ 32 then 13 else if n ≤ 48 then 14 else 15

/-- The queue entry of a frame (R586). -/
def canEntryOf (f : CanFrame) (filter sof : Nat) (tide : BitVec 32) : CanEntry :=
  { id := fields32 [(0, f.ident.toNat), (29, b2n f.ext), (30, b2n f.rtr), (31, b2n f.fdf)]
    info := fields32 [(0, dlcOf f.data.length), (4, b2n f.brs), (5, b2n f.esi), (8, f.data.length), (16, filter)]
    stamp := BitVec.ofNat 48 sof
    tide := tide.setWidth 16
    data := f.data }

/-- The transmit objects whose transactions are answered at receive object `k` (R596). -/
def CanCtl.askers (c : CanCtl) (k : Nat) : List Nat :=
  (List.range 128).filter fun j =>
    let o := c.obj j
    o.sends && o.bit 6 && fieldN o.cfgForce 22 16 == k

/-- The transmit object that a frame in its PAIR object answers (R594). -/
def CanCtl.answered (c : CanCtl) (js : List Nat) (data : Bytes) : Option Nat :=
  js.find? fun j => (c.obj j).txns.any fun x => x.tag.toNat == byteAt data 0 && x.epoch.toNat == byteAt data 1 % 16

/-- A frame stamped `sof` that its filter gives to receive object `k` (R582, R584, R594, R597, R598): queued, or
discarded as stale or as overrun; a START object makes a start request. -/
def State.canAccept (s : State) (n k : Nat) (e : CanEntry) (sof : Nat) : State :=
  let c := s.ctl n
  let js := c.askers k
  let hit := c.answered js e.data
  if !js.isEmpty && hit.isNone then
    (s.modCtl n fun c => { c with stale := satInc c.stale }).canEvent n 6
  else if cfgDepth (c.obj k).cfgForce ≤ (c.obj k).queue.length then
    (s.modCtl n fun c => { c with overrun := satInc c.overrun }).canEvent n 2
  else
    let s := s.modObj n k fun o => { o with queue := o.queue ++ [e] }
    let s := match hit with
      | some j => s.modObj n j fun o => { o with
          txns := o.txns.filter fun x => x.tag.toNat != byteAt e.data 0 }
      | none => s
    let s := s.canEvent n 0
    if (c.obj k).bit 7 && c.owner == 1#8 && s.cfg.anchor == 0 then s.startRequest sof else s

/-- A frame passes the filter list of the tide that holds its stamp (R570, R577, R579). One that matches a receive
object of the host is a wake event (R124), whatever the object does with it. -/
def State.canFilter (s : State) (n : Nat) (f : CanFrame) (sof : Nat) : State :=
  let c := s.ctl n
  let now := s.tide.startAt ≤ sof
  let l := if now then c.active else c.prevActive
  let len := if now then c.activeLen else c.prevLen
  let tide := s.tideOf sof
  let none' := s.modCtl n fun c => { c with unmatched := satInc c.unmatched }
  match firstMatch l len.toNat f with
  | none => none'
  | some i =>
    let w2 := Mem.num l (16 * i + 8) 4
    let k := w2 % 128
    if w2 / 2 ^ 8 % 2 = 1 then s
    else if (c.obj k).receives then
      (if c.owner = 1#8 then s.wakeHere 5 else s).canAccept n k (canEntryOf f i (s.baseAt sof) tide) sof
    else none'

/-- CAN_FRAME_RECEIVED (R582): a frame whose start of frame had the stamp `sof`. The lock keeper's
controller acknowledges a frame and shows it to nobody else (R416): its own frames are LK_CHALLENGE and LK_STATUS. -/
def execCanFrameReceived (n : BitVec 3) (frame : CanFrame) (sof : Nat) (s : State) :
    Host.Outcome State Fault Refusal :=
  let c := s.ctl n.toNat
  if c.locked then s.whenDo (s.lk.alive && c.onBus) (s.lkErrors c.tecN (goodRec c.recN)) else
  s.whenDo (s.canRuns n.toNat && c.onBus)
    ((s.canCounters n.toNat c.tecN (goodRec c.recN)).canFilter n.toNat frame sof)

/-- The frame that an object sends. -/
def MObj.frame (o : MObj) : CanFrame :=
  { ext := o.bit 4, ident := o.idForce.setWidth 29, fdf := o.bit 2, brs := o.bit 3, esi := false
    rtr := o.bit 5, data := if o.bit 5 then [] else o.data }

/-- CAN_TX_SUCCESS (R588, R593): IDLE with EVENTS.TX; a transaction request is outstanding from its
stamp; in internal loopback the frame comes back (R580). -/
def execCanTxSuccess (n : BitVec 3) (s : State) : Host.Outcome State Fault Refusal :=
  let c := s.ctl n.toNat
  if c.locked then s.lkSent else
  match c.onAir with
  | none => .next s
  | some k =>
    let o := c.obj k
    let tide := s.tideOf c.onAirAt
    let t := (s.modCtl n.toNat fun c => { (c.modObj k fun o => if o.gone then o.endGone else { o with
        st := .idle, tries := 0#8, cancel := false
        tagNext := if o.bit 6 then o.tagNext + 1#8 else o.tagNext
        txns := if o.bit 6 then o.txns ++ [{ tag := BitVec.ofNat 8 (byteAt o.data 0)
                                             epoch := BitVec.ofNat 4 (byteAt o.data 1), tide := tide }]
                else o.txns }) with onAir := none }).canEvent n.toNat 1
    let t := t.canCounters n.toNat (c.tecN - 1) c.recN
    .next (if c.mode.force = 2#2 then t.canFilter n.toNat o.frame c.onAirAt else t)

/-- CAN_TX_ATTEMPT_FAILED (R588 to R592). Kind 0 is an error, 1 a bit error in the data field, 2 an error
for which ISO 11898-1 leaves the transmit error counter as it stands, 3 lost arbitration, which is no
failed attempt. -/
def execCanTxAttemptFailed (n : BitVec 3) (kind : BitVec 2) (s : State) : Host.Outcome State Fault Refusal :=
  let c := s.ctl n.toNat
  if c.locked then s.lkFailed kind else
  match c.onAir with
  | none => .next s
  | some k =>
    let tries := ((c.obj k).tries.toNat) + (if kind = 3#2 then 0 else 1)
    let ground := decide (kind ≠ 3#2) && decide ((s.canCfg n.toNat).retry ≤ tries)
    let t := s.modCtl n.toNat fun c => { (c.modObj k fun o => if o.gone then o.endGone else { o with
      tries := clampNat 8 tries
      st := if o.cancel then .idle else if ground then .aground else .pending
      cancel := false }) with onAir := none }
    let t := if kind = 1#2 then (t.modCtl n.toNat fun c => { c with clash := satInc c.clash }).canEvent n.toNat 3 else t
    let t := if ground && !(c.obj k).cancel then t.canEvent n.toNat 4 else t
    .next (if kind = 0#2 ∨ kind = 1#2 then t.canCounters n.toNat (c.tecN + 8) c.recN else t)

/-- CAN_RECEIVE_ERROR (R592): REC rises by 8 where `inc`, else by 1. -/
def execCanReceiveError (n : BitVec 3) (inc : Bool) (s : State) : Host.Outcome State Fault Refusal :=
  let c := s.ctl n.toNat
  let rec' := c.recN + (if inc then 8 else 1)
  if c.locked then s.whenDo (s.lk.alive && c.onBus) (s.lkErrors c.tecN rec') else
  s.whenDo (s.canRuns n.toNat && c.onBus) (s.canCounters n.toNat c.tecN rec')

/-- CAN_BUS_OFF_RECOVERY (R417, R592). -/
def execCanBusOffRecovery (n : BitVec 3) (s : State) : Host.Outcome State Fault Refusal :=
  let c := s.ctl n.toNat
  if c.locked then .next (if c.state = 3#2 then (s.modCtl 7 fun c => { c with state := 1#2, tecN := 0, recN := 0 }).upLk fun k => { k with busOff := false } else s)
  else s.whenDo (c.state == 3#2) (s.canCounters n.toNat 0 0)

/-- CAN_BUS_INTEGRATION (R557): 11 recessive bits. -/
def execCanBusIntegration (n : BitVec 3) (s : State) : Host.Outcome State Fault Refusal :=
  let c := s.ctl n.toNat
  s.whenDo (s.canWorks n.toNat && c.state == 0#2)
    (s.modCtl n.toNat fun c => { c with state := errState c.tecN c.recN, protoExc := false })

/-- CAN_PROTOCOL_EXCEPTION (R556): the controller integrates again. -/
def execCanProtocolException (n : BitVec 3) (s : State) : Host.Outcome State Fault Refusal :=
  let c := s.ctl n.toNat
  s.whenDo (s.canWorks n.toNat && c.onBus)
    (s.modCtl n.toNat fun c => { c with state := 0#2, protoExc := true })

/-- TIMEOUT of a configuration in tides (R600). -/
def cfgTimeout (v : BitVec 32) : Nat := if fieldN v 26 24 = 0 then 8 else fieldN v 26 24

/-- CAN_TRANSACT_TIMEOUT (R595). -/
def execCanTransactTimeout (n : BitVec 3) (k : BitVec 7) (tag : BitVec 8) (s : State) :
    Host.Outcome State Fault Refusal :=
  let o := (s.ctl n.toNat).obj k.toNat
  s.whenDo (o.txns.any fun x => x.tag == tag && decide (cfgTimeout o.cfgForce ≤ (s.tide.number - x.tide).toNat))
    ((s.modObj n.toNat k.toNat fun o => { o with txns := o.txns.filter fun x => x.tag != tag }).canEvent n.toNat 7)

/-! Configuration writes (R575, R596, R597, R600). -/

/-- MOBJ[k].CFG as it is stored (R596, R597, R600). -/
def State.canCfgStored (s : State) (n : Nat) (v : BitVec 32) : BitVec 32 :=
  let c := s.ctl n
  let depth := let d := fieldN v 13 8
    if d = 0 then 1 else min d 32
  let fd := v.getLsbD 2 && (s.canCfg n).data != 0
  let pair := (c.obj (fieldN v 22 16)).cfg.stored
  let v := v &&& 0x077F00FF#32
  let v := setBit v 2 fd
  let v := setBit v 3 (v.getLsbD 3 && fd)
  let v := setBit v 5 (v.getLsbD 5 && !fd)
  let v := setBit v 6 (v.getLsbD 6 && pair.getLsbD 1 && !pair.getLsbD 0)
  let v := setBit v 7 (v.getLsbD 7 && s.cfg.anchor == 0 && c.owner == 1#8)
  v ||| at32 8 depth

/-- A write of MOBJ[k].CFG. -/
def State.canCfgWrite (s : State) (n k : Nat) (v : BitVec 32) : State :=
  let a := canAddr n (0x800 + 16 * k)
  s.canWrite n a fun s =>
    let w := s.canCfgStored n v
    (s.modObj n k fun o =>
      { o with cfg := o.cfg.write s.now w
               cfgPending := w != o.cfgForce || o.idr.stored != o.idForce }).noticeIf
      (v &&& 0x077F3FFF#32 != w) 1 a

/-- A write of MOBJ[k].ID: bits [28:11] of a base identifier are stored 0. -/
def State.canIdWrite (s : State) (n k : Nat) (v : BitVec 32) : State :=
  let a := canAddr n (0x804 + 16 * k)
  s.canWrite n a fun s =>
    let x := ((s.ctl n).obj k).cfg.stored.getLsbD 4
    let w := v &&& (if x then 0x1FFFFFFF#32 else 0x7FF#32)
    (s.modObj n k fun o =>
      { o with idr := o.idr.write s.now w
               cfgPending := o.cfg.stored != o.cfgForce || w != o.idForce }).noticeIf
      (v &&& 0x1FFFFFFF#32 != w) 1 a

/-- A write of MOBJ[k].CTRL: LEN is stored first, then LOAD, CANCEL and REQ act. -/
def State.canCtrlWrite (s : State) (n k : Nat) (v : BitVec 32) : State :=
  let a := mobjCtrl n k
  s.canWrite n a fun s =>
    let len := fieldN v 14 8
    let w := canLen ((s.ctl n).obj k).cfg.stored len
    let t := s.modObj n k fun o => { o with len := BitVec.ofNat 7 w }
    let t := if v.getLsbD 1 then t.canLoadObj n k else t
    let t := if v.getLsbD 2 then t.canCancelObj n k else t
    let t := if v.getLsbD 0 then t.canReq n k else t
    s.oneNotice (t.noticeIf (w != len) 1 a)

/-- A write of FILT_CTRL (R577): the length of the shadow list, and the swap is armed. -/
def State.canFiltCtrl (s : State) (n : Nat) (v : BitVec 32) : State :=
  let a := canAddr n 0x24
  s.canWrite n a fun s =>
    let len := fieldN v 6 0
    (s.modCtl n fun c => { c with filtLen := BitVec.ofNat 7 (min len 64), armed := true, armedAt := s.now
                                  armedBefore := if !c.armed then none else if c.armedAt = s.now then c.armedBefore else some c.filtLen }).noticeIf
      (64 < len) 1 a

/-- A write of CTRL.MODE: loopback only in MANUFACTURE and PROVISION. -/
def State.canModeWrite (s : State) (n : Nat) (v : BitVec 32) : State :=
  let a := canAddr n 0
  s.canWrite n a fun s =>
    let m := fieldN v 1 0
    let w := if m = 1 then 1 else if m = 2 && (s.tide.life == .manufacture || s.tide.life == .provision) then 2 else 0
    (s.modCtl n fun c => { c with mode := c.mode.write s.now (BitVec.ofNat 2 w) }).noticeIf (w != m) 1 a

end Sys2Proof.Machine
end

