-- ==== Sys2Proof/Machine/Math.lean ====
section
/-! DEFINITION. The real functions that the spec's formulas use (R163, R188, R205, R259, R260, R328), as rational
numbers correct to about 2^-48: the spec fixes the formulas and the rounding of their results, and no
precision in between (log entry 9). Every loop runs over a list of fixed length. -/

namespace Sys2Proof.Machine

/-- The unit of the results: 2^48. -/
def fine : Nat := 2 ^ 48

/-- A number cut to a multiple of 2^-48. -/
def cut (x : Rat) : Rat := ((x * fine).floor : Rat) / fine

/-- The largest `r` below 2^`bits` of which `ok` holds, where `ok` holds up to some number: bit by bit. -/
def largest (bits : Nat) (ok : Nat → Bool) : Nat :=
  (List.range bits).foldl (fun r i => let t := r + 2 ^ (bits - 1 - i); if ok t then t else r) 0

/-- Whole part of a square root. -/
def isqrt (n : Nat) : Nat := largest 192 fun r => r * r ≤ n

/-- Square root of a non-negative number. -/
def sqrtQ (x : Rat) : Rat := (isqrt (x * (fine * fine : Nat)).floor.toNat : Rat) / fine

/-- Ten to the power `k`/40, for the field bytes of R188. -/
def tenTo40th (k : Nat) : Rat := (largest 64 fun r => r ^ 40 ≤ 10 ^ k * fine ^ 40 : Nat) / (fine : Rat)

/-- The whole part of a decimal logarithm, and the number divided by that power of ten: in [1, 10). -/
def decade (x : Rat) : Int × Rat :=
  let up := (List.range 64).foldl (fun (s : Int × Rat) _ => if 10 ≤ s.2 then (s.1 + 1, s.2 / 10) else s) (0, x)
  (List.range 64).foldl (fun (s : Int × Rat) _ => if s.2 < 1 then (s.1 - 1, s.2 * 10) else s) up

/-- Decimal logarithm of a positive number: the bits of its fraction come from repeated squaring. -/
def log10Q (x : Rat) : Rat :=
  if x ≤ 0 then 0
  else
    let (n, y) := decade x
    let f := (List.range 40).foldl (fun (s : Nat × Rat) _ =>
      let z := cut (s.2 * s.2)
      if 10 ≤ z then (2 * s.1 + 1, cut (z / 10)) else (2 * s.1, z)) (0, cut y)
    (n : Rat) + (f.1 : Rat) / (2 ^ 40 : Nat)

/-- The circle number to 20 decimals. -/
def piQ : Rat := 314159265358979323846 / 100000000000000000000

/-- Degrees in one radian. -/
def degPerRad : Rat := 180 / piQ

/-- The sum of a power series: from a first term, each next one by its number and the one before. -/
def series (n : Nat) (first : Rat) (next : Nat → Rat → Rat) (weight : Nat → Rat) : Rat :=
  ((List.range n).foldl (fun (s : Rat × Rat) i => (s.1 + s.2 * weight i, cut (next i s.2))) (0, first)).1

/-- Sine of an angle of at most 45 degrees. -/
def sinSmall (deg : Rat) : Rat :=
  let x := cut (deg / degPerRad)
  series 12 x (fun i t => -t * (x * x) / ((2 * i + 2) * (2 * i + 3) : Nat)) fun _ => 1

/-- Cosine of an angle of at most 45 degrees. -/
def cosSmall (deg : Rat) : Rat :=
  let x := cut (deg / degPerRad)
  series 12 1 (fun i t => -t * (x * x) / ((2 * i + 1) * (2 * i + 2) : Nat)) fun _ => 1

/-- The quadrant of an angle in degrees and what it lies beyond its middle, at most 45 degrees. -/
def quadrant (deg : Rat) : Nat × Rat :=
  let k := (deg / 90 + 1 / 2).floor
  ((k % 4).toNat, deg - 90 * (k : Rat))

/-- Sine of an angle in degrees. -/
def sinQ (deg : Rat) : Rat :=
  let (k, r) := quadrant deg
  if k = 0 then sinSmall r else if k = 1 then cosSmall r else if k = 2 then -sinSmall r else -cosSmall r

/-- Cosine of an angle in degrees. -/
def cosQ (deg : Rat) : Rat := sinQ (deg + 90)

/-- Arc tangent in degrees of a number from 0 to 1: the angle is halved twice, then summed. -/
def atanUnit (x : Rat) : Rat :=
  let half (t : Rat) : Rat := cut (t / (1 + sqrtQ (1 + t * t)))
  let t := half (half x)
  4 * degPerRad * series 16 t (fun _ p => -p * (t * t)) fun i => 1 / (2 * i + 1 : Nat)

/-- Arc tangent in degrees of `y`/`x` for numbers that are not negative, from 0 to 90. -/
def atanPos (y x : Rat) : Rat := if y = 0 then 0 else if y ≤ x then atanUnit (y / x) else 90 - atanUnit (x / y)

/-- The angle of the point (x, y) in degrees, from -180 up to 180. -/
def atan2Q (y x : Rat) : Rat :=
  let a := atanPos (if y < 0 then -y else y) (if x < 0 then -x else x)
  let b := if x < 0 then 180 - a else a
  if y < 0 then -b else b

/-- Arc sine in degrees, of a number brought into [-1, 1]. -/
def asinQ (v : Rat) : Rat :=
  let v := max (-1) (min 1 v)
  atan2Q v (sqrtQ (1 - v * v))

/-- The largest eigenvalue of a symmetric 3 by 3 matrix whose eigenvalues are not negative, between 0 and its trace:
the matrix `x`·1 - `m` is positive from it on. -/
def maxEigenQ (m : List (List Rat)) : Rat :=
  let e (i j : Nat) : Rat := (m.getD i []).getD j 0
  let top := e 0 0 + e 1 1 + e 2 2
  let above (x : Rat) : Bool :=
    let a := x - e 0 0
    let b := x - e 1 1
    let c := x - e 2 2
    decide (0 < a) && decide (0 < a * b - e 0 1 * e 0 1) &&
      decide (0 < a * (b * c - e 1 2 * e 1 2) - e 0 1 * (e 0 1 * c + e 1 2 * e 0 2) - e 0 2 * (e 0 1 * e 1 2 + b * e 0 2))
  top * ((largest 40 fun r => !above (top * (r : Rat) / (2 ^ 40 : Nat)) : Nat) : Rat) / (2 ^ 40 : Nat)

end Sys2Proof.Machine
end

