-- ==== Sys2Proof/Machine/Zone.lean ====
section
/-! DEFINITION. Zone geometry (R319 to R326) in the chart frame, in millimetres: exact rational
coordinates, with the square root of Math.lean where a distance itself is wanted. -/

namespace Sys2Proof.Machine

/-- A point or a vector. -/
abbrev P3 := Rat × Rat × Rat

/-- A point with whole coordinates. -/
def toP (p : Int × Int × Int) : P3 := ((p.1 : Rat), (p.2.1 : Rat), (p.2.2 : Rat))

/-- Sum, difference and multiple. -/
def P3.add (a b : P3) : P3 := (a.1 + b.1, a.2.1 + b.2.1, a.2.2 + b.2.2)

/-- Difference. -/
def P3.sub (a b : P3) : P3 := (a.1 - b.1, a.2.1 - b.2.1, a.2.2 - b.2.2)

/-- Multiple. -/
def P3.scale (k : Rat) (a : P3) : P3 := (k * a.1, k * a.2.1, k * a.2.2)

/-- Scalar product. -/
def P3.dot (a b : P3) : Rat := a.1 * b.1 + a.2.1 * b.2.1 + a.2.2 * b.2.2

/-- Vector product. -/
def P3.cross (a b : P3) : P3 :=
  (a.2.1 * b.2.2 - a.2.2 * b.2.1, a.2.2 * b.1 - a.1 * b.2.2, a.1 * b.2.1 - a.2.1 * b.1)

/-- Square of the distance of two points. -/
def sqDist (a b : P3) : Rat := let d := P3.sub a b; P3.dot d d

/-- Distance of two points. -/
def dist (a b : P3) : Rat := sqrtQ (sqDist a b)

/-- The smallest of a list of numbers, 65,535 for none. -/
def minOf : List Rat → Rat
  | [] => 65535
  | [x] => x
  | x :: r => min x (minOf r)

/-- The largest of a list of numbers, 0 for none. -/
def maxOf : List Rat → Rat
  | [] => 0
  | [x] => x
  | x :: r => max x (maxOf r)

/-- A number rounded to the nearest whole one, a half upwards (log entry 9). -/
def roundQ (x : Rat) : Int := (x + 1 / 2).floor

/-- The edges of a polygon. -/
def edges (poly : List (Int × Int)) : List ((Int × Int) × (Int × Int)) := poly.zip (poly.rotateLeft 1)

/-- The point (x, y) lies inside a convex counter-clockwise polygon, boundary included (R320, R321). -/
def inPoly (poly : List (Int × Int)) (x y : Rat) : Bool :=
  (edges poly).all fun e =>
    0 ≤ ((e.2.1 - e.1.1 : Int) : Rat) * (y - e.1.2) - ((e.2.2 - e.1.2 : Int) : Rat) * (x - e.1.1)

/-- Square of the distance of (x, y) from an edge. -/
def segSq (x y : Rat) (a b : Int × Int) : Rat :=
  let dx : Rat := ((b.1 - a.1 : Int) : Rat)
  let dy : Rat := ((b.2 - a.2 : Int) : Rat)
  let l := dx * dx + dy * dy
  let t := if l = 0 then 0 else max 0 (min 1 (((x - a.1) * dx + (y - a.2) * dy) / l))
  let u := x - a.1 - t * dx
  let v := y - a.2 - t * dy
  u * u + v * v

/-- Square of the distance of (x, y) from a polygon's boundary. -/
def edgeSq (poly : List (Int × Int)) (x y : Rat) : Rat := minOf ((edges poly).map fun e => segSq x y e.1 e.2)

/-- Square of the distance of (x, y) from a polygon, 0 inside (R321). -/
def gapSq (poly : List (Int × Int)) (x y : Rat) : Rat := if inPoly poly x y then 0 else edgeSq poly x y

/-- Bound `i` of a box XMIN, XMAX, YMIN, YMAX, ZMIN, ZMAX. -/
def boxAt (b : List Int) (i : Nat) : Rat := ((b.getD i 0 : Int) : Rat)

/-- A point lies inside a box, boundary included; no box holds none. -/
def inBox (b : List Int) (p : P3) : Bool :=
  !b.isEmpty && boxAt b 0 ≤ p.1 && p.1 ≤ boxAt b 1 && boxAt b 2 ≤ p.2.1 && p.2.1 ≤ boxAt b 3 &&
    boxAt b 4 ≤ p.2.2 && p.2.2 ≤ boxAt b 5

/-- Distance from a point inside a box to its boundary. -/
def boxDepth (b : List Int) (p : P3) : Rat :=
  minOf [p.1 - boxAt b 0, boxAt b 1 - p.1, p.2.1 - boxAt b 2, boxAt b 3 - p.2.1, p.2.2 - boxAt b 4, boxAt b 5 - p.2.2]

/-- How far `x` lies outside [lo, hi]. -/
def outside (lo hi x : Rat) : Rat := maxOf [lo - x, 0, x - hi]

/-- Distance from a point to a box. -/
def boxGap (b : List Int) (p : P3) : Rat :=
  let d : P3 := (outside (boxAt b 0) (boxAt b 1) p.1, outside (boxAt b 2) (boxAt b 3) p.2.1,
    outside (boxAt b 4) (boxAt b 5) p.2.2)
  sqrtQ (P3.dot d d)

/-- A point lies inside the cabin prism (R319). -/
def Chart.inCabin (c : Chart) (p : P3) : Bool :=
  (c.cabinZ.1 : Rat) ≤ p.2.2 && p.2.2 ≤ (c.cabinZ.2 : Rat) && inPoly c.cabin p.1 p.2.1

/-- Distance from a point inside the cabin prism to its boundary. -/
def Chart.cabinDepth (c : Chart) (p : P3) : Rat :=
  minOf [sqrtQ (edgeSq c.cabin p.1 p.2.1), p.2.2 - c.cabinZ.1, c.cabinZ.2 - p.2.2]

/-- Distance from a point to the cabin prism. -/
def Chart.cabinGap (c : Chart) (p : P3) : Rat :=
  let dz := outside c.cabinZ.1 c.cabinZ.2 p.2.2
  sqrtQ (gapSq c.cabin p.1 p.2.1 + dz * dz)

/-- Squares of the distances from the handle points. -/
def Chart.handleSq (c : Chart) (p : P3) : List Rat := c.handles.map fun h => sqDist p (toP h.pos)

/-- The zone function (R321): 0 FAR, 1 APPROACH, 2 DOORSIDE, 3 CABIN, 4 DRIVER_SEAT, 5 BOOT. -/
def Chart.zoneOf (c : Chart) (p : P3) : Nat :=
  if inBox c.seat p then 4
  else if c.inCabin p then 3
  else if inBox c.boot p then 5
  else if (c.handleSq p).any fun d => d ≤ (c.doorside * c.doorside : Nat) then 2
  else if gapSq c.body p.1 p.2.1 ≤ (c.approach * c.approach : Nat) then 1
  else 0

/-- The nearest handle (R322): the smallest distance, the lower index among equal ones. -/
def Chart.nearestHandle (c : Chart) (p : P3) : Option Nat :=
  let ds := c.handleSq p
  ds.findIdx? fun d => ds.all fun e => d ≤ e

/-- Largest DOORSIDE_MM less the distance to a handle (R323). -/
def Chart.doorDepth (c : Chart) (p : P3) : Rat := maxOf ((c.handleSq p).map fun d => (c.doorside : Rat) - sqrtQ d)

/-- Distance from a point outside the DOORSIDE region to it. -/
def Chart.doorGap (c : Chart) (p : P3) : Rat := minOf ((c.handleSq p).map fun d => sqrtQ d - (c.doorside : Rat))

/-- Distance from a point to the APPROACH boundary, from inside. -/
def Chart.approachDepth (c : Chart) (p : P3) : Rat :=
  let e := sqrtQ (edgeSq c.body p.1 p.2.1)
  if inPoly c.body p.1 p.2.1 then (c.approach : Rat) + e else (c.approach : Rat) - e

/-- Distances from a point to the seat box, the cabin prism and the boot box. -/
def Chart.innerGaps (c : Chart) (p : P3) : List Rat :=
  [boxGap c.seat p, c.cabinGap p] ++ (if c.boot.isEmpty then [] else [boxGap c.boot p])

/-- The margin of a position (R323). -/
def Chart.margin (c : Chart) (p : P3) : Rat :=
  match c.zoneOf p with
  | 4 => boxDepth c.seat p
  | 3 => minOf [c.cabinDepth p, boxGap c.seat p]
  | 5 => minOf [boxDepth c.boot p, boxGap c.seat p, c.cabinGap p]
  | 2 => minOf (c.doorDepth p :: c.innerGaps p)
  | 1 => minOf (c.approachDepth p :: c.doorGap p :: c.innerGaps p)
  | _ => minOf ((sqrtQ (gapSq c.body p.1 p.2.1) - (c.approach : Rat)) :: c.doorGap p :: c.innerGaps p)

/-- BODY_SPAN (R325). -/
def Chart.bodySpan (c : Chart) : Rat :=
  sqrtQ (maxOf ((c.body.map fun a => maxOf (c.body.map fun b =>
    let dx : Rat := ((a.1 - b.1 : Int) : Rat)
    let dy : Rat := ((a.2 - b.2 : Int) : Rat)
    dx * dx + dy * dy))))

/-- POSITION.RANGE of a position (R326). -/
def rangeOf (p : P3) : BitVec 16 := BitVec.ofNat 16 (min 0xFFFE (roundQ (dist (0, 0, 0) p)).toNat)

/-- POSITION.AZ of a position (R326). -/
def azOf (p : P3) : BitVec 9 := BitVec.ofNat 9 ((roundQ (atan2Q p.2.1 p.1)) % 360).toNat

/-- A coordinate in signed mm, kept off the value 0x8000 that means unknown (R352). -/
def mmOf (x : Rat) : BitVec 16 := BitVec.ofInt 16 (max (-32767) (min 32767 (roundQ x)))

/-- A length in mm, 65,535 and above reading 0xFFFF (R352). -/
def lenOf (x : Rat) : BitVec 16 := BitVec.ofNat 16 (min 0xFFFF (roundQ x).toNat)

end Sys2Proof.Machine
end

