-- ==== Sys2Proof/Machine/Field.lean ====
section
/-! DEFINITION. Field bytes (R188), chart field maps (R179) and the fit of a report against the chart
(R205, R206). -/

namespace Sys2Proof.Machine

/-- A field component in mA/m from its byte (R188). -/
def fieldByte (b : Byte) : Rat :=
  let m := b.toNat % 128
  if m = 0 then 0
  else
    let v := tenTo40th (m - 1)
    if b.getLsbD 7 then -v else v

/-- A field vector from three field bytes. -/
def fieldVec (b : Bytes) (o : Nat) : P3 :=
  (fieldByte (b.getD o 0#8), fieldByte (b.getD (o + 1) 0#8), fieldByte (b.getD (o + 2) 0#8))

/-- Grid cell and fraction on one axis, none outside the box (R179). -/
def gridAxis (pitch : Nat) (p : Rat) (corner : Int) (n : Nat) : Option (Nat × Nat × Rat) :=
  let f := (p - corner) / pitch
  if n = 0 ∨ f < 0 ∨ ((n - 1 : Nat) : Rat) < f then none
  else
    let i := min f.floor.toNat (n - 2)
    some (i, min (i + 1) (n - 1), f - i)

/-- The chart's field of an antenna at a point, trilinear between the grid points of its own map;
none outside its box or without a map (R179, R205). -/
def Chart.fieldAt (c : Chart) (a : AntCfg) (p : P3) : Option P3 :=
  match gridAxis c.gridMm p.1 a.box.1 a.grid.1, gridAxis c.gridMm p.2.1 a.box.2.1 a.grid.2.1,
      gridAxis c.gridMm p.2.2 a.box.2.2 a.grid.2.2 with
  | some x, some y, some z =>
    let corner (i : Nat) (fi : Rat) (j : Nat) (fj : Rat) (k : Nat) (fk : Rat) : P3 :=
      P3.scale (fi * fj * fk) (fieldVec a.map (3 * (i + a.grid.1 * (j + a.grid.2.1 * k))))
    let sides (v : Nat × Nat × Rat) : List (Nat × Rat) := [(v.1, 1 - v.2.2), (v.2.1, v.2.2)]
    some ((sides x).foldl (fun s i => (sides y).foldl (fun s j => (sides z).foldl (fun s k =>
      P3.add s (corner i.1 i.2 j.1 j.2 k.1 k.2)) s) s) (0, 0, 0))
  | _, _, _ => none

/-- Magnitude in dB above 1 mA/m. -/
def magDb (v : P3) : Rat := 10 * log10Q (P3.dot v v)

/-- The chart's magnitude of an antenna at a point in dB; below 1 mA/m and outside the box 0 (R205). -/
def Chart.chartDb (c : Chart) (a : AntCfg) (p : P3) : Rat :=
  match c.fieldAt a p with
  | none => 0
  | some v => if P3.dot v v < 1 then 0 else magDb v

/-- The angle between two field lines in degrees, from 0 to 90 (R205). -/
def lineAngle (u v : P3) : Rat :=
  let x := P3.cross u v
  let d := P3.dot u v
  atan2Q (sqrtQ (P3.dot x x)) (if d < 0 then -d else d)

/-- What a report gives of one antenna: its chart entry, its vector and its magnitude referred to
REF_MA (R205); a report of zero has no magnitude above 0 dB. -/
abbrev Heard1 := AntCfg × P3 × Rat

/-- The measured antennas of a report, each with the sensed current of its driver; an antenna that
carried no regulated current gives no term (R205). -/
def Chart.heardOf (c : Chart) (report : List (Nat × Bytes)) (isense : List (Nat × Nat)) : List Heard1 :=
  report.filterMap fun r =>
    match c.antennas[r.1]?, tableGet isense r.1 with
    | some a, some i =>
      if i = 0 then none
      else
        let v := fieldVec r.2 0
        some (a, v, if P3.dot v v = 0 then 0 else magDb v - 20 * log10Q ((i : Rat) / c.refMa))
    | _, _ => none

/-- The strong antennas of a report (R205). -/
def strongOf (h : List Heard1) : List Heard1 := h.filter fun x => 20 ≤ x.2.2

/-- All pairs of a list. -/
def pairsOf {α : Type} : List α → List (α × α)
  | [] => []
  | x :: r => r.map (fun y => (x, y)) ++ pairsOf r

/-- Root of the mean of the squares. -/
def rms (l : List Rat) : Rat := sqrtQ ((l.map fun x => x * x).sum / l.length)

/-- The residual of a report at a point in dB (R205). -/
def Chart.residual (c : Chart) (h : List Heard1) (p : P3) : Rat :=
  let mags := h.filterMap fun x =>
    let pm := c.chartDb x.1 p
    if 0 < x.2.2 ∨ 0 < pm then some (max x.2.2 0 - pm) else none
  let lines := (pairsOf (strongOf h)).filterMap fun x =>
    if 20 ≤ c.chartDb x.1.1 p ∧ 20 ≤ c.chartDb x.2.1 p then
      match c.fieldAt x.1.1 p, c.fieldAt x.2.1 p with
      | some u, some v => some ((lineAngle x.1.2.1 x.2.2.1 - lineAngle u v) / 5)
      | _, _ => none
    else none
  rms (mags ++ lines)

/-- The grid points of an antenna's map box (R205). -/
def Chart.boxPoints (c : Chart) (a : AntCfg) : List P3 :=
  (List.range a.grid.2.2).flatMap fun k => (List.range a.grid.2.1).flatMap fun j =>
    (List.range a.grid.1).map fun i =>
      P3.add (toP a.box) (((c.gridMm * i : Nat) : Rat), ((c.gridMm * j : Nat) : Rat), ((c.gridMm * k : Nat) : Rat))

/-- The better of a best point and another (R205): a point must be strictly better. -/
def Chart.better (c : Chart) (h : List Heard1) (best : Option (P3 × Rat)) (p : P3) : Option (P3 × Rat) :=
  let r := c.residual h p
  match best with
  | none => some (p, r)
  | some b => if r < b.2 then some (p, r) else some b

/-- The fit (R205, R206): position and residual, or none with fewer than 3 strong antennas or no map. The spec gives no
order in which points are visited: antennas ascend, x runs fastest, then y, then z, and of equal residuals the first
stands (DESIGN CHOICE, log entry 79). -/
def Chart.fit (c : Chart) (h : List Heard1) : Option (P3 × Rat) :=
  if (strongOf h).length < 3 then none
  else
    match (c.antennas.flatMap c.boxPoints).foldl (c.better h) none with
    | none => none
    | some b =>
      let steps : List Rat := [-2, -1, 0, 1, 2]
      let half : Rat := (c.gridMm : Rat) / 2
      (steps.flatMap fun k => steps.flatMap fun j => steps.map fun i =>
        P3.add b.1 (i * half, j * half, k * half)).foldl (c.better h) (some b)

/-- Chart antenna `i` is present: its driver is enabled, not disabled, and its anchor up (R171, R178).
A tender reports which of its drivers are disabled (log entry 54). -/
def State.antennaPresent (s : State) (i : Nat) : Bool :=
  match s.cfg.chart.antennas[i]? with
  | none => false
  | some a =>
    let c := s.anchorCfg a.anchor
    c.present && c.lfEnable.getLsbD a.driver && s.anchorUp a.anchor &&
      !(if a.anchor == s.cfg.anchor then (s.lf.drivers.getD a.driver LfDriver.reset).disabled else s.lf.farOff.getLsbD i)

/-- The present antennas of a mask. -/
def State.presentOf (s : State) (m : BitVec 16) : List Nat := (bitsOf m).filter s.antennaPresent

/-- How many of the present antennas the chart expects at 20 dB or more at a point (R331). -/
def Chart.expectedStrong (c : Chart) (present : List Nat) (p : P3) : Nat :=
  (present.filter fun i => match c.antennas[i]? with
    | some a => 20 ≤ c.chartDb a p
    | none => false).length

end Sys2Proof.Machine
end

