-- ==== Sys2Proof/Machine/Fusion.lean ====
section
/-! DEFINITION. The fusion of a berth's measurements into a verdict (R313 to R334). -/

namespace Sys2Proof.Machine

/-! Measurements (R313 to R315). -/

/-- A measurement of berth `n` reaches the engine (R314, R315): it takes the place of the latest one of
its kind and anchor unless that belongs to a later tide. The quiet timeout restarts (R34). -/
def State.measure (s : State) (n : Nat) (m : Meas) : State :=
  (s.modFu n fun b =>
    let same (x : Meas) : Bool := x.kind == m.kind && x.anchor == m.anchor
    let later := b.meas.any fun x => same x && x.tide != m.tide && tideCome x.tide m.tide
    { b with fresh := true, meas := if later then b.meas else m :: b.meas.filter fun x => !same x }).unquiet n

/-- A tide lies in the window of the boundary that begins tide `number` (R313, R109). -/
def inWindow (number : BitVec 32) (first : Option (BitVec 32)) (t : BitVec 32) : Bool :=
  let age := (number - t).toNat
  1 ≤ age && age ≤ 4 && (match first with
    | some f => tideCome t f
    | none => true)

/-- What the fusion uses of a berth. -/
structure Window where
  /-- UWB distances -/
  dists : List Meas
  /-- UWB angles -/
  angles : List Meas
  /-- phase range of the holding anchor -/
  phase : Option Meas
  /-- LF fit -/
  fit : Option Meas
  /-- holding anchor -/
  holder : Nat

/-- The window of berth `n` (R313). -/
def State.window (s : State) (n : Nat) : Window :=
  let b := s.berth n
  let m := b.fu.meas.filter fun x => inWindow s.tide.number s.ver.chartTide x.tide
  { dists := m.filter fun x => x.kind == .uwbDist && x.valid
    angles := m.filter fun x => x.kind == .uwbAngle
    phase := m.find? fun x => x.kind == .phaseRange && x.valid && x.anchor == b.id.anchor.toNat
    fit := m.find? fun x => x.kind == .lfFit
    holder := b.id.anchor.toNat }

/-- The position of anchor `a` (R266). -/
def State.anchorPos (s : State) (a : Nat) : P3 := toP (s.anchorCfg a).pos

/-- The mark of an angle that was not measured (R260). -/
def noAngle : Int := 32768

/-- An anchor measured both angles. -/
def Meas.bothAngles (m : Meas) : Bool := m.val != noAngle && m.val2 != noAngle

/-- The σ of a distance in mm (chapter 7, measurements and windows). -/
def Meas.sigma (m : Meas) : Rat := (if m.ds then 50 else 70) * (if m.nlos then 4 else 1)

/-- The LF fit's position. -/
def Meas.pos (m : Meas) : P3 := toP (m.val, m.val2, m.val3)

/-- The fit with a position, if any. -/
def Window.lf (w : Window) : Option Meas := w.fit.filter (·.valid)

/-- A position is determined (R327), from an LF position `lf` or without. -/
def Window.determined (w : Window) (lf : Option Meas) : Bool :=
  lf.isSome || 3 ≤ w.dists.length || (w.dists.length == 2 && w.angles.any Meas.bothAngles) ||
    w.angles.any fun a => a.bothAngles && w.dists.any fun d => d.anchor == a.anchor

/-! Least squares (R328). -/

/-- One term at a point: its value and its gradient. -/
abbrev Term := Rat × P3

/-- The term of a distance. -/
def distTerm (a : P3) (d sd : Rat) (p : P3) : Term :=
  let r := dist p a
  ((r - d) / sd, P3.scale (1 / (r * sd)) (P3.sub p a))

/-- An angle in degrees brought into [-180, 180). -/
def wrapDeg (x : Rat) : Rat := x - 360 * (((x + 180) / 360).floor : Rat)

/-- Azimuth of `p` seen from `a` in degrees. -/
def azimuth (a p : P3) : Rat := atan2Q (p.2.1 - a.2.1) (p.1 - a.1)

/-- Horizontal distance of two points. -/
def flat (a p : P3) : Rat := sqrtQ ((p.1 - a.1) * (p.1 - a.1) + (p.2.1 - a.2.1) * (p.2.1 - a.2.1))

/-- Elevation of `p` seen from `a` in degrees. -/
def elevation (a p : P3) : Rat := atan2Q (p.2.2 - a.2.2) (flat a p)

/-- The term of an azimuth. -/
def azTerm (a : P3) (az sd : Rat) (p : P3) : Term :=
  let d := P3.sub p a
  let h := d.1 * d.1 + d.2.1 * d.2.1
  (wrapDeg (azimuth a p - az) / sd, P3.scale (degPerRad / (h * sd)) (-d.2.1, d.1, 0))

/-- The term of an elevation. -/
def elTerm (a : P3) (el sd : Rat) (p : P3) : Term :=
  let d := P3.sub p a
  let h := flat a p
  let r := P3.dot d d
  ((elevation a p - el) / sd,
   P3.scale (degPerRad / (r * sd)) (-(d.1 * d.2.2) / h, -(d.2.1 * d.2.2) / h, h))

/-- All terms of a window at a point (R328). -/
def State.terms (s : State) (w : Window) (lf : Option Meas) (p : P3) : List Term :=
  w.dists.map (fun m => distTerm (s.anchorPos m.anchor) (m.val : Rat) m.sigma p) ++
  w.angles.flatMap (fun m =>
    let k : Rat := if m.nlos then 2 else 1
    let a := s.anchorPos m.anchor
    (if m.val = noAngle then [] else [azTerm a ((m.val : Rat) / 10) ((5 / 2) * k) p]) ++
    (if m.val2 = noAngle then [] else [elTerm a ((m.val2 : Rat) / 10) (5 * k) p])) ++
  (match w.phase with
   | some m => [distTerm (s.anchorPos w.holder) (m.val : Rat) 200 p]
   | none => []) ++
  (match lf with
   | some m =>
     let q := m.pos
     [((p.1 - q.1) / 60, (1 / 60, 0, 0)), ((p.2.1 - q.2.1) / 60, (0, 1 / 60, 0)),
      ((p.2.2 - q.2.2) / 60, (0, 0, 1 / 60))]
   | none => [])

/-- The normal matrix of the terms, by rows. -/
def normalMatrix (ts : List Term) : List P3 :=
  let e (f : P3 → Rat) (g : P3 → Rat) : Rat := (ts.map fun t => f t.2 * g t.2).sum
  let x : P3 → Rat := (·.1)
  let y : P3 → Rat := (·.2.1)
  let z : P3 → Rat := (·.2.2)
  [(e x x, e x y, e x z), (e x y, e y y, e y z), (e x z, e y z, e z z)]

/-- A row of a matrix. -/
def row (m : List P3) (i : Nat) : P3 := m.getD i (0, 0, 0)

/-- The covariance: the inverse of the normal matrix, or its generalised inverse where it has none. -/
def covariance (ts : List Term) : List P3 :=
  let m := normalMatrix ts
  let det := P3.dot (row m 0) (P3.cross (row m 1) (row m 2))
  if det = 0 then
    (Config.pseudoInverse (m.map fun r => [r.1, r.2.1, r.2.2])).map fun r => (r.getD 0 0, r.getD 1 0, r.getD 2 0)
  else
    [P3.cross (row m 1) (row m 2), P3.cross (row m 2) (row m 0), P3.cross (row m 0) (row m 1)].map
      (P3.scale (1 / det))

/-- A point whose coordinates are cut to 2^-48 mm (log entry 9). -/
def P3.cut (p : P3) : P3 := (Machine.cut p.1, Machine.cut p.2.1, Machine.cut p.2.2)

/-- One Gauss-Newton step (R328). -/
def gaussStep (terms : P3 → List Term) (p : P3) : P3 :=
  let ts := terms p
  let c := covariance ts
  let g := ts.foldl (fun s t => P3.add s (P3.scale t.1 t.2)) (0, 0, 0)
  P3.cut (P3.sub p (P3.dot (row c 0) g, P3.dot (row c 1) g, P3.dot (row c 2) g))

/-- Where the least squares start (R328): the LF position, else the berth's previous position, else
along the angles of the holding anchor, at its distance. -/
def State.startPoint (s : State) (n : Nat) (w : Window) (lf : Option Meas) : P3 :=
  match lf, (s.berth n).fu.history with
  | some m, _ => m.pos
  | none, q :: _ => q
  | none, [] =>
    let a := s.anchorPos w.holder
    match w.angles.find? (fun m => m.anchor == w.holder && m.bothAngles), w.dists.find? (fun m => m.anchor == w.holder) with
    | some g, some d =>
      let az : Rat := (g.val : Rat) / 10
      let el : Rat := (g.val2 : Rat) / 10
      P3.add a (P3.scale (d.val : Rat)
        (cosQ el * cosQ az, cosQ el * sinQ az, sinQ el))
    | _, _ => Config.fusionStart a

/-- Solve (R328): position and σ. -/
def State.solve (s : State) (n : Nat) (w : Window) (lf : Option Meas) : P3 × Rat :=
  let f := s.terms w lf
  let p := (List.range 8).foldl (fun p _ => gaussStep f p) (s.startPoint n w lf)
  let ts := f p
  let e := maxEigenQ ((covariance ts).map fun r => [r.1, r.2.1, r.2.2])
  (p, sqrtQ e * max 1 (rms (ts.map (·.1))))

/-! Relay flags (R331 to R333). -/

/-- The distances with a line of sight. -/
def Window.los (w : Window) : List Meas := w.dists.filter fun m => !m.nlos

/-- The mean of e_a and its bound 3 σ_e ÷ √n (R331). -/
def State.tofError (s : State) (w : Window) (lf : Meas) : Rat × Rat :=
  let los := w.los
  let sd := maxOf (los.map Meas.sigma)
  let e := (los.map fun m => (m.val : Rat) - dist lf.pos (s.anchorPos m.anchor)).sum / los.length
  (e, 3 * sqrtQ (sd * sd + 3600) / sqrtQ los.length)

/-- PHASE (R331). -/
def State.phaseFlag (s : State) (w : Window) (p : Option P3) : Bool :=
  match w.phase with
  | none => false
  | some m =>
    let tol := s.cfg.chart.phaseTol
    let ref : Option Rat := match w.dists.find? fun d => d.anchor == w.holder with
      | some d => some (d.val : Rat)
      | none => p.map fun p => dist p (s.anchorPos w.holder)
    (match ref with
      | some r => decide ((tol : Rat) < (m.val : Rat) - r) || decide ((tol : Rat) < r - (m.val : Rat))
      | none => false) || decide (2 * (tol : Int) < m.val2)

/-- LF_ABSENT (R331): `q` is the position fused without the LF term. -/
def State.absentFlag (s : State) (n : Nat) (w : Window) (q : Option P3) : Bool :=
  let b := (s.berth n).lf
  match q with
  | none => false
  | some q =>
    b.polled && inWindow s.tide.number s.ver.chartTide b.pollTide &&
      (2 ≤ b.missed || (match w.fit with
        | some f => f.strong < 3
        | none => false)) &&
      3 ≤ s.cfg.chart.expectedStrong (s.presentOf 0xFFFF#16) q

/-- JAM (R297, R331): of a chain of the holding anchor that is routed to sink 5. -/
def State.jamFlag (s : State) (n : Nat) (w : Window) : Bool :=
  let k := (s.berth n).id.kind
  (k == 1#3 || k == 2#3) && s.nb.jamTides.any fun j => j.1 == w.holder &&
    j.2.1 &&& (s.anchorCfg w.holder).uhf != 0#2 && inWindow s.tide.number s.ver.chartTide j.2.2

/-- AOA (R331). -/
def State.aoaFlag (s : State) (w : Window) (p : P3) : Bool :=
  2 ≤ (w.angles.filter fun m =>
    let a := s.anchorPos m.anchor
    let d := wrapDeg (azimuth a p - (m.val : Rat) / 10)
    let e := elevation a p - (m.val2 : Rat) / 10
    !m.nlos && ((m.val != noAngle && (decide (10 < d) || decide (d < -10))) ||
      (m.val2 != noAngle && (decide (20 < e) || decide (e < -20))))).length

/-- The flags whose trigger holds (R331), at the fused position `p`. -/
def State.triggers (s : State) (n : Nat) (w : Window) (p : Option P3) : BitVec 8 :=
  let tof : Option (Rat × Rat) := match w.lf with
    | some lf => if 2 ≤ w.los.length ∧ lf.aux ≤ s.cfg.chart.lfBad then some (s.tofError w lf) else none
    | none => none
  let q := if w.determined none then some (s.solve n w none).1 else none
  ofBits 8 ((List.range 8).filter fun i =>
    match i with
    | 0 => tof.any fun t => decide (t.2 < t.1)
    | 1 => tof.any fun t => decide (t.1 < -t.2)
    | 2 => p.any fun p => 3 ≤ w.los.length &&
        decide (3 < rms (w.dists.map fun m => (dist p (s.anchorPos m.anchor) - (m.val : Rat)) / m.sigma))
    | 3 => p.any (s.aoaFlag w)
    | 4 => s.phaseFlag w p
    | 5 => s.absentFlag n w q
    | 6 => w.lf.any fun m => s.cfg.chart.lfBad < m.aux
    | _ => s.jamFlag n w)

/-- The flags with a cap of C0 (R331). -/
def capC0 : BitVec 8 := 0x73#8

/-- The raised flags and the verdicts for which each stays raised (R333). -/
def holdFlags (held : List Nat) (trig : BitVec 8) : BitVec 8 × List Nat :=
  let h := (List.range 8).map fun i =>
    if trig.getLsbD i then (true, 2) else (0 < held.getD i 0, held.getD i 0 - 1)
  (ofBits 8 ((List.range 8).filter fun i => (h.getD i (false, 0)).1), h.map (·.2))

/-! Zone, support, class (R324, R328 to R330). -/

/-- The supports L, U and P as bits 0 to 2 (R329). -/
def State.supports (s : State) (w : Window) (flags : BitVec 8) : BitVec 3 :=
  ofBits 3 ((List.range 3).filter fun i =>
    match i with
    | 0 => w.lf.any fun m => 6 ≤ m.strong && m.aux ≤ s.cfg.chart.lfGood
    | 1 => 2 ≤ w.los.length && !flags.getLsbD 2
    | _ => w.phase.any (fun m => 2 ≤ m.val3) && !flags.getLsbD 4)

/-- The zone of a verdict at `p` with σ `sd` (R321, R324). -/
def State.verdictZone (s : State) (w : Window) (sup : BitVec 3) (p : P3) (sd : Rat) : Nat :=
  let z := s.cfg.chart.zoneOf p
  let inner := sup.getLsbD 0 || (sup.getLsbD 1 && 3 ≤ w.los.length &&
    w.los.any fun m => s.cfg.chart.inCabin (s.anchorPos m.anchor))
  if 1000 < sd then 6 else if 3 ≤ z ∧ !inner then 6 else z

/-- A berth without a UWB session (R330). -/
def Berth.noUwb (b : Berth) : Bool := b.id.kind != 0#3 || !b.se.caps.getLsbD 1

/-- The class (R330). -/
def classOf (noUwb : Bool) (z : Nat) (margin sd : Rat) (sup : BitVec 3) (streak : Nat) : Nat :=
  let l := sup.getLsbD 0
  let up := sup.getLsbD 1 || sup.getLsbD 2
  if z = 6 then 0
  else if 3 * sd ≤ margin ∧ 4 ≤ streak ∧ (2 ≤ popCount sup ∨ (l ∧ noUwb)) then 3
  else if 2 * sd ≤ margin ∧ (l ∨ (up ∧ 3 ≤ streak)) then 2
  else if sd ≤ margin ∧ sup ≠ 0#3 then 1
  else 0

/-- The class under the caps of the raised flags (R332). -/
def capClass (flags : BitVec 8) (c : Nat) : Nat :=
  if flags &&& capC0 ≠ 0#8 then 0 else if flags ≠ 0#8 then min c 1 else c

/-- The verdict of berth `n` of a phone or a fob (R328). -/
def State.verdictOf (s : State) (n : Nat) : VerdictOut :=
  let b := s.berth n
  let w := s.window n
  let c := s.cfg.chart
  if !w.determined w.lf then
    let (flags, held) := holdFlags b.fu.held (s.triggers n w none)
    let far := !w.dists.isEmpty && w.dists.all fun m => decide ((c.approach : Rat) + c.bodySpan < (m.val : Rat))
    { VerdictOut.reset with
      berth := n, zone := if far then 0#3 else 6#3, relay := flags, held := held, history := b.fu.history }
  else
    let (p0, s0) := s.solve n w w.lf
    let (flags, held) := holdFlags b.fu.held (s.triggers n w (some p0))
    let sup := s.supports w flags
    let z0 := s.verdictZone w sup p0 s0
    let streak := if flags &&& capC0 ≠ 0#8 then 0
      else if z0 = b.fu.zone.toNat then min (b.fu.streak + 1) 15 else 1
    let hist := (p0 :: b.fu.history).take 4
    let h := hist.take (min streak 4)
    let k : Rat := h.length
    let mean := P3.scale (1 / k) (h.foldl P3.add (0, 0, 0))
    let still := decide (2 ≤ streak) && h.all fun q => decide (dist q mean ≤ 3 * s0)
    let p := if still then mean else p0
    let sd := if still then s0 / sqrtQ k else s0
    let z := if still then s.verdictZone w sup p sd else z0
    let streak := if still ∧ z ≠ b.fu.zone.toNat then 1 else streak
    let mg := c.margin p
    let cls := capClass flags (classOf b.noUwb z mg sd sup streak)
    { berth := n, zone := BitVec.ofNat 3 z, conf := BitVec.ofNat 2 cls, relay := flags
      range := rangeOf p, az := azOf p, streak := streak, history := hist, held := held
      view := { x := mmOf p.1, y := mmOf p.2.1, z := mmOf p.2.2, sigma := lenOf sd, support := sup
                streak := BitVec.ofNat 4 streak
                handle := if z = 2 then BitVec.ofNat 5 ((c.nearestHandle p).getD 0x1F) else 0x1F#5
                margin := lenOf mg } }

/-- The verdict of an NFC berth: the binding of its port, and no flags (R49, R334). -/
def State.nfcVerdict (s : State) (n : Nat) : VerdictOut :=
  let reader := (s.berth n).id.kind = 3#3
  { VerdictOut.reset with
    berth := n
    zone := if reader then s.cfg.readerZone else s.cfg.tagZone
    conf := if reader then s.cfg.readerConf else s.cfg.tagConf }

/-- An NFC berth. -/
def Berth.isNfc (b : Berth) : Bool := b.id.kind == 3#3 || b.id.kind == 4#3

end Sys2Proof.Machine
end

