-- ==== Sys2Proof/Machine/Verdict.lean ====
section
/-! DEFINITION. Verdicts at a boundary and their publication (R315 to R318), policy rules and their
actions (R336 to R342), override tickets (R344 to R350) and BERTH.VSEL (R352). -/

namespace Sys2Proof.Machine

/-! Issue and publication. -/

/-- The verdict engine issues verdicts (R311, R697). -/
def State.engineRuns (s : State) : Bool := s.berthsRun && s.sys.verdictsFrom && s.tide.power != .deep

/-- The berths that receive a verdict at this boundary (R49, R315). -/
def State.verdictBerths (s : State) : List Nat :=
  s.mooredBerths.filter fun n => (s.berth n).fu.fresh || (s.berth n).isNfc

/-- AGE of every berth in use counts one boundary (R63, R315). -/
def State.countAges (s : State) (p : Berth → Bool) : State :=
  let f (b : Berth) : Berth :=
    if b.id.st ≠ .free ∧ p b then { b with fu := { b.fu with age := satInc b.fu.age, ageDue := false } } else b
  s.upBt fun t => { t with berths := t.berths.map f }

/-- VERDICT_ISSUE at a boundary (R315, R316, R328): the verdicts wait for publication, and the ages with them; where
the engine does not run the ages count at once. The port binding of an NFC berth is a measurement of that tide (R30,
R49, R312). -/
def State.verdictBoundary (s : State) : State :=
  let outs := if s.engineRuns then
      s.verdictBerths.map fun n => if (s.berth n).isNfc then s.nfcVerdict n else s.verdictOf n
    else []
  let s := s.upBt fun t => { t with berths := t.berths.map fun b =>
    if b.id.st = .free then b else { b with
      id := if b.isNfc && b.id.st.moored? && s.engineRuns then { b.id with quietFrom := s.now } else b.id
      fu := { b.fu with fresh := false, ageDue := true } } }
  (if s.engineRuns then s else s.countAges fun _ => true).upVer fun v => { v with
    issued := BitVec.ofNat 9 outs.length, out := outs, outAt := if s.engineRuns then some s.now else none }

/-- A published verdict enters its berth (R30, R34, R316); RELAY_SEEN counts every verdict issued (R351). -/
def State.storeVerdict (s : State) (o : VerdictOut) : State :=
  let s := s.upVer fun v => { v with
    seen := v.seen ||| o.relay, flagged := if o.relay = 0#8 then v.flagged else satInc v.flagged }
  if (s.berth o.berth).id.st.moored? then
    s.modBerth o.berth fun b => { b with
      id := { b.id with st := .ranged
                        farFrom := if o.zone = 0#3 then some (b.id.farFrom.getD s.now) else none }
      fu := { b.fu with zone := o.zone, conf := o.conf, relay := o.relay, range := o.range, az := o.az
                        age := 0#8, vtide := s.tide.number, view := o.view, streak := o.streak
                        history := o.history, held := o.held } }
  else s

/-! Actions (R341, R342). -/

/-- LATCH_PULSE (R148, R342): the pulse of a latch output starts or is extended. -/
def State.latchPulse (s : State) (pin : Nat) : State :=
  if s.keys.tamperHold || !s.moored 19 || s.tide.power == .deep then s
  else s.upPins fun p => { p with
    outputs := setBit p.outputs pin true
    pulses := (BitVec.ofNat 5 pin, s.now + ms (s.cfg.pins.getD pin PinCfg.reset).param.toNat) ::
      p.pulses.filter fun q => q.1.toNat != pin }

/-- What a rule's ACTION does (R90, R562). -/
def State.act (s : State) (r : Rule) : State :=
  if r.action = 0#8 then s.latchPulse (r.target.toNat % 32)
  else if r.action = 1#8 then s.canRequest (fieldN r.target 2 0) (fieldN r.target 14 8)
  else s

/-- RULE_ACTION (R45, R341): the action of a rule with berth `n` as its cause; source 8. -/
def State.ruleAction (s : State) (r : Rule) (n : Nat) : State :=
  let b := (s.berth n).fu
  let s := (s.upPins fun p => { p with actions := p.actions ++ [(r.id, n)] }).act r
  (s.latch 8).logRecord 0x02 [r.id, BitVec.ofNat 8 n, b.zone.setWidth 8, b.conf.setWidth 8]

/-- LATCH_PULSE_END (R342). -/
def execLatchPulseEnd (mfp : BitVec 5) (s : State) : Host.Outcome State Fault Refusal :=
  s.whenDo (s.pins.pulses.any fun q => q.1 == mfp && decide (q.2 ≤ s.now))
    (s.upPins fun p => { p with
      outputs := setBit p.outputs mfp.toNat false, pulses := p.pulses.filter fun q => q.1 != mfp })

/-! Rules (R336 to R340). -/

/-- The handle condition (R337). -/
def State.handleAdmits (s : State) (r : Rule) (b : BerthFuse) : Bool :=
  let names (h : HandleCfg) : Bool := h.ruleA == r.id || h.ruleB == r.id
  if b.zone = 2#3 && s.cfg.chart.handles.any names then
    ((s.cfg.chart.handles[b.view.handle.toNat]?).map names).getD false
  else true

/-- The rule is met by the latest verdict of berth `n`, but for its trigger (R336). -/
def State.ruleMet (s : State) (r : Rule) (n : Nat) : Bool :=
  let b := (s.berth n).fu
  r.zones.getLsbD b.zone.toNat && r.minConf.toNat ≤ b.conf.toNat && b.relay &&& r.veto == 0#8 && s.handleAdmits r b

/-- A fob command waits for the rule and may be tried now (R339). -/
def State.commandTries (s : State) (r : Rule) (pub : List Nat) (n : Nat) (c : FobCmd) : Bool :=
  r.trigger.toNat == c.cmd.toNat + 2 && !c.done.contains r.id && s.ruleMet r n &&
    (pub.contains n || (!c.tried && (s.berth n).fu.age.toNat ≤ 1))

/-- The berths at which a rule's trigger has occurred and whose verdict meets it (R338 to R340). -/
def State.ruleHits (s : State) (r : Rule) (pub : List Nat) : List Nat :=
  if r.trigger = 0#8 then
    pub.filter fun n => s.ruleMet r n && !(s.berth n).fu.met.contains r.id
  else if r.trigger = 1#8 then
    if s.bt.startTrig && r.action != 2#8 then
      berthNos.filter fun n => s.berthIs n .ranged && (s.berth n).fu.age.toNat ≤ 1 && s.ruleMet r n
    else []
  else if r.trigger = 10#8 then
    pub.filter fun n => (s.berth n).id.kind == 3#3 && (s.berth n).fu.nfcFirst && s.ruleMet r n
  else
    s.mooredBerths.filter fun n => (s.berth n).se.commands.any (s.commandTries r pub n)

/-- A rule's evaluation leaves its mark: met or unmet for every verdict published (R44), performed for
the commands that it served (R339). -/
def State.markRule (s : State) (r : Rule) (pub hits : List Nat) : State :=
  if r.trigger = 0#8 then
    pub.foldl (fun s n => s.modFu n fun b =>
      { b with met := (if s.ruleMet r n then [r.id] else []) ++ b.met.filter (· != r.id) }) s
  else
    hits.foldl (fun t n => t.modSe n fun b =>
      { b with commands := b.commands.map fun c =>
          if s.commandTries r pub n c then { c with done := r.id :: c.done } else c }) s

/-- One rule at a publication (R44, R45, R341): one action, with the lowest berth as its cause. -/
def State.evalRule (pub : List Nat) (s : State) (r : Rule) : State :=
  let hits := s.ruleHits r pub
  let s := s.markRule r pub hits
  match hits with
  | [] => s
  | n :: _ => s.ruleAction r n

/-- The rules that a command triggers. -/
def State.rulesOf (s : State) (c : FobCmd) : List Rule := s.cfg.rules.filter fun r => r.trigger.toNat == c.cmd.toNat + 2

/-- A command of berth `n` after a publication (R339): it ends when its rules are performed, and is
dropped and logged at the 4th boundary after it was accepted. -/
def State.agedCommand (s : State) (n : Nat) (c : FobCmd) : State :=
  let rules := s.rulesOf c
  if !rules.isEmpty && rules.all (fun r => c.done.contains r.id) then s
  else if 4 ≤ (s.tide.number - c.tide).toNat then s.logRecord 0x05 [BitVec.ofNat 8 n, c.cmd.setWidth 8]
  else s.modSe n fun b => { b with commands := b.commands ++ [{ c with tried := true }] }

/-- The commands of berth `n` after a publication. -/
def State.ageCommands (s : State) (n : Nat) : State :=
  (s.berth n).se.commands.foldl (fun s c => s.agedCommand n c) (s.modSe n fun b => { b with commands := [] })

/-- A fob button command accepted for berth `n` (R48, R339). -/
def State.fobCommand (s : State) (n : Nat) (cmd : BitVec 4) : State :=
  s.modSe n fun b => { b with commands := b.commands ++ [{ FobCmd.reset with cmd := cmd, tide := s.tide.number }] }

/-- The publication of the verdicts of the latest boundary (R60, R316, R317, R341, R375). Source 7 latches where verdicts were
issued, though their berths have been cast off since; the spec does not say whether it latches where none was issued:
it does not (DESIGN CHOICE, log entry 51). -/
def State.publish (s : State) : State :=
  match s.ver.outAt with
  | none => s
  | some t =>
    let outs := s.ver.out
    let pub := (outs.map (·.berth)).filter fun n => (s.berth n).id.st.moored?
    let s := outs.foldl State.storeVerdict (s.countAges (·.fu.ageDue))
    let s := s.upVer fun v => { v with
      out := [], outAt := none, publish := clampNat 10 (roundDiv (s.now - t) 64) }
    let s := (s.latchIf (!outs.isEmpty) 7).upPins fun p => { p with actions := [] }
    let s := s.cfg.rules.foldl (State.evalRule pub) s
    let s := pub.foldl (fun s n => s.modFu n fun b => { b with nfcFirst := false }) s
    let s := berthNos.foldl State.ageCommands s
    ((s.upBt fun b => { b with startTrig := false }).startPublished).regBackground

/-- VERDICT_PUBLICATION (R316). -/
def execVerdictPublication (s : State) : Host.Outcome State Fault Refusal :=
  s.whenDo (s.ver.outAt.isSome && s.mainUp) s.publish

/-! Override tickets (R344 to R350). -/

/-- Byte address of BERTH.OVR_CTRL. -/
def ovrCtrlAddr : Nat := 0x14100

/-- The state with OVR_STATUS.RESULT set. -/
def State.ovrResult (s : State) (r : Nat) : State := s.upVer fun v => { v with ovrResult := BitVec.ofNat 4 r }

/-- CMD = VERIFY (R346). -/
def State.ovrVerify (s : State) : State :=
  if s.ver.ovrState = .verifying then s.notice 3 ovrCtrlAddr
  else (s.upVer fun v => { v with ovrState := .verifying, ovrPrev := v.ovrState, ovrAt := s.now }).verification .ticket 64

/-- OVR_VERIFY (R346). -/
def execOvrVerify (s : State) : Host.Outcome State Fault Refusal :=
  .next (s.berthWrite ovrCtrlAddr State.ovrVerify)

/-- The RULE_IDs of an override ticket (R344). -/
def ticketRules (b : Bytes) : List (BitVec 8) := slice b 0x2C (min 8 (byteAt b 0x2B))

/-- The RESULT of a ticket's checks, in the order of R344 after the life-cycle state (R345). -/
def State.ovrCheck (s : State) (b : Bytes) : Nat :=
  let h := byteAt b 6
  let nonce := leAt b 0x20 8
  if s.tide.life ≠ .fleet then 8
  else if leAt b 0 4 ≠ 0x4F565244 ∨ leAt b 4 2 ≠ 1 ∨ !(h == 10 || h == 16 || h == 20) ∨ 4 ≤ byteAt b 7 then 2
  else if BitVec.ofNat 64 (leAt b 8 8) ≠ s.keys.fleetId then 3
  else if BitVec.ofNat 64 (leAt b 0x10 8) ≠ s.ident.device then 4
  else if leAt b 0x18 4 ≤ s.ver.ovrSerial.toNat then 5
  else if leAt b 0x1C 4 ≠ 0 then 2
  else if nonce ≠ 0 ∧ !(nonce == s.ver.ovrNonce.toNat && decide (s.baseAt s.now < s.ver.ovrNonceAt + sec 600)) then 6
  else if 8 < byteAt b 0x2B ∨ (ticketRules b).any (fun i => !(s.cfg.rules.any fun r =>
      r.id == i && (r.action == 0#8 || r.action == 1#8 || r.action == 3#8))) then 9
  else if !allZero (slice b 0x34 12) then 2
  else if !xmssVerify s.keys.pubOverride h (slice b 0 64) (slice b 0x40 (xmssSize h)) then 7
  else 1

/-- The outcome of VERIFY (R346, R349): an accepted ticket writes its SERIAL and becomes ACTIVE. -/
def State.ovrDone (s : State) : State :=
  let b := Mem.load s.ver.ovrBuf 0 0xC00
  let r := s.ovrCheck b
  let s := s.kecDone .ticket
  if r = 1 then
    let ser := BitVec.ofNat 32 (leAt b 0x18 4)
    let s := s.upCry fun c => { c with verPass := satInc c.verPass }
    (s.upVer fun v => { v with
      ovrState := .active, ovrResult := 1#4, ovrSerial := ser, ovrTicket := ser
      ovrUses := BitVec.ofNat 5 (max 1 (min 16 (byteAt b 0x2A)))
      ovrEnd := s.baseAt s.now + sec (max 10 (min 3600 (leAt b 0x28 2)))
      ovrGrant := BitVec.ofNat 8 (byteAt b 7), ovrRules := ticketRules b }).logRecord 0x04
        (le 4 ser.toNat ++ [1#8, 0#8])
  else
    let s := if r = 7 then s.upCry fun c => { c with verFail := satInc c.verFail } else s
    (s.upVer fun v => { v with ovrState := v.ovrPrev }).ovrResult r

/-- OVR_VERIFY_DONE (R347). -/
def execOvrVerifyDone (s : State) : Host.Outcome State Fault Refusal :=
  s.whenDo (s.ver.ovrState == .verifying && s.mainUp && s.canVerify) s.ovrDone

/-- One use of the ticket is consumed (R346). -/
def State.ovrUse (s : State) (cmd : Nat) (rule : BitVec 8) : State :=
  let s := s.logRecord 0x04 (le 4 s.ver.ovrTicket.toNat ++ [BitVec.ofNat 8 cmd, rule])
  s.upVer fun v => { v with
    ovrUses := v.ovrUses - 1#5, ovrState := if v.ovrUses.toNat ≤ 1 then .idle else .active }

/-- A FIRE command meets the state of the ticket (R346). -/
def State.ovrFire (s : State) (eff : State → State) : State :=
  match s.ver.ovrState with
  | .idle => s.ovrResult 10
  | .verifying => s.notice 3 ovrCtrlAddr
  | .active => eff s

/-- CMD = FIRE_RULE (R346). -/
def State.fireRule (s : State) (rule : BitVec 8) : State :=
  s.ovrFire fun s =>
    match s.cfg.rules.find? fun r => r.id == rule && s.ver.ovrGrant.getLsbD 0 && s.ver.ovrRules.contains rule with
    | none => s.ovrResult 11
    | some r => ((s.act r).latch 8).ovrUse 2 rule

/-- FIRE_RULE (R346). -/
def execFireRule (rule : BitVec 8) (s : State) : Host.Outcome State Fault Refusal :=
  .next (s.berthWrite ovrCtrlAddr fun s => s.fireRule rule)

/-- CMD = FIRE_START (R346, R348). Without a manifest no release ticket is issued (R70); the spec gives that case no
RESULT: the command is ignored with a notice of kind 3 (DESIGN CHOICE, log entry 51). -/
def State.fireStart (s : State) : State :=
  s.ovrFire fun s =>
    if !s.cfg.loaded then s.notice 3 ovrCtrlAddr
    else if !s.ver.ovrGrant.getLsbD 1 then s.ovrResult 11
    else if s.startBusy then s.ovrResult 13
    else if s.lk.state.released? then s.ovrResult 14
    else (s.issueTicket true 0xFF#8 0#64).ovrUse 3 0#8

/-- FIRE_START (R346). -/
def execFireStart (s : State) : Host.Outcome State Fault Refusal :=
  .next (s.berthWrite ovrCtrlAddr State.fireStart)

/-- The ticket is discarded (R346). -/
def State.ovrDiscard (s : State) : State :=
  s.upVer fun v => { v with
    ovrState := if v.ovrState = .active then .idle else v.ovrState, ovrPrev := .idle, ovrUses := 0#5 }

/-- CMD = CANCEL (R346). -/
def State.ovrCancel (s : State) : State :=
  if s.ver.ovrState = .active then s.ovrDiscard else s.notice 3 ovrCtrlAddr

/-- OVR_CANCEL (R346). -/
def execOvrCancel (s : State) : Host.Outcome State Fault Refusal :=
  .next (s.berthWrite ovrCtrlAddr State.ovrCancel)

/-- OVR_NEW_NONCE (R346). -/
def execOvrNewNonce (s : State) : Host.Outcome State Fault Refusal :=
  .next (s.berthWrite ovrCtrlAddr fun s => s.request .ovrNonce)

/-- OVR_WINDOW_END (R16, R346): the window is counted in the timebase. -/
def execOvrWindowEnd (s : State) : Host.Outcome State Fault Refusal :=
  s.whenDo (s.ver.ovrState == .active && decide (s.ver.ovrEnd ≤ s.baseAt s.now)) (s.ovrDiscard.ovrResult 12)

/-- A write of OVR_CTRL. -/
def State.ovrCommand (s : State) (v : BitVec 32) : State :=
  match fieldN v 3 0 with
  | 1 => s.ovrVerify
  | 2 => s.fireRule (BitVec.ofNat 8 (fieldN v 15 8))
  | 3 => s.fireStart
  | 4 => s.ovrCancel
  | 5 => s.request .ovrNonce
  | _ => s.notice 2 ovrCtrlAddr

/-- A write of BERTH.VSEL (R352). -/
def State.vselWrite (s : State) (v : BitVec 32) : State :=
  let n := fieldN v 7 0
  s.upVer fun w => { w with vsel := BitVec.ofNat 8 n, view := (s.berth n).fu.view }

/-- VSEL_WRITE (R352). -/
def execVselWrite (v : BitVec 32) (s : State) : Host.Outcome State Fault Refusal :=
  .next (s.berthWrite 0x14028 fun s => s.vselWrite v)

end Sys2Proof.Machine
end

