-- ==== Sys2Proof/Machine/Lf.lean ====
section
/-! DEFINITION. The low-frequency field block (R160 to R210): frames and their order, drivers and their
flags, calibration, the slotted fallback, handle touches, polling patterns and the field-vector poll. -/

namespace Sys2Proof.Machine

/-! Frames (R180, R181). -/

/-- The `w` bits of `n`, most significant first. -/
def bitsMsb (w n : Nat) : List Bool := (List.range w).map fun i => n.testBit (w - 1 - i)

/-- A CRC of polynomial `p` from `init` over bits in their order on the air. -/
def crcBits {w : Nat} (p init : BitVec w) (l : List Bool) : BitVec w :=
  l.foldl (fun c b => if c.msb != b then (c <<< 1) ^^^ p else c <<< 1) init

/-- One part of a frame on the antennas `on`, of `n` ticks. -/
def lfSlot (on : List Nat) (n : Nat) (l : LfLevel) : LfSlot := { ticks := n, drive := on.map fun a => (a, l) }

/-- A bit of a wake header (R180): Manchester at 4 kbit/s, a 1 with the carrier in its first half. -/
def manchester (on : List Nat) (b : Bool) : List LfSlot :=
  let half (c : Bool) : LfSlot := lfSlot on (us 125) (if c then .carrier else .off)
  [half b, half !b]

/-- A command bit (R180): BPSK at 16 kbit/s, the phase of the carrier for the whole bit. -/
def bpsk (on : List Nat) (b : Bool) : LfSlot := lfSlot on 4000 (.bit b)

/-- A wake frame (R181): carrier, header, reference carrier, TYPE, SLOTS, SEED, CRC-4. -/
def wakeFrame (on : List Nat) (header typ slots seed : Nat) : List LfSlot :=
  let f := bitsMsb 3 typ ++ bitsMsb 3 slots ++ bitsMsb 6 seed
  lfSlot on (us 125) .carrier :: ((bitsMsb 8 header).flatMap (manchester on) ++
    lfSlot on (us 125) .carrier :: (f ++ bitsMsb 4 (crcBits 3#4 0xF#4 f).toNat).map (bpsk on))

/-- A frame of command bits `f` after its sync word (R181): carrier, sync, the bits, CRC-8. -/
def syncFrame (on : List Nat) (f : List Bool) : List LfSlot :=
  lfSlot on (us 250) .carrier :: (bitsMsb 8 0xD3 ++ f ++ bitsMsb 8 (crcBits 0x2F#8 0xFF#8 f).toNat).map (bpsk on)

/-- The command bits of a challenge frame (R181). -/
def challengeBits (nonce : Bytes) : List Bool := bitsMsb 3 3 ++ [false] ++ bitsMsb 40 (ofBe (padTo 5 nonce))

/-- The command bits of a poll frame (R181). -/
def pollBits (groups tag seq : Nat) : List Bool :=
  bitsMsb 3 4 ++ bitsMsb 3 (groups - 1) ++ bitsMsb 16 tag ++ bitsMsb 2 seq

/-- The sign of Walsh row `j` in sub-slot `k` (R201). -/
def walshPlus (j k : Nat) : Bool :=
  if j = 0 then true else if j = 1 then k % 2 == 0 else if j = 2 then k < 2 else k == 0 || k == 3

/-- A group of a poll (R200, R201): the antennas at their positions settle for 125 µs, send 4 sub-slots of
250 µs, and 125 µs of guard follow. -/
def groupFrame (on : List (Nat × Nat)) : List LfSlot :=
  lfSlot (on.map (·.2)) (us 125) .settle :: ((List.range 4).map fun k =>
    { ticks := us 250, drive := on.map fun x => (x.2, .walsh (walshPlus x.1 k)) }) ++ [lfSlot [] (us 125) .off]

/-- The ticks of a frame. -/
def slotTicks (f : List LfSlot) : Nat := (f.map (·.ticks)).sum

/-- The chart antennas that a frame drives. -/
def slotAntennas (f : List LfSlot) : List Nat := (f.flatMap fun x => x.drive.map (·.1)).eraseDups

/-! Antennas and groups (R161, R171, R200). -/

/-- The anchor of chart antenna `i`. -/
def State.antAnchor (s : State) (i : Nat) : Nat := (s.cfg.chart.antennas.getD i AntCfg.reset).anchor

/-- LF_MAX_ACTIVE of an anchor. -/
def State.lfMaxOf (s : State) (a : Nat) : Nat := (s.anchorCfg a).lfMax

/-- Antenna `i` finds room beside the antennas of a group (R161, R200). -/
def State.roomFor (s : State) (g : List Nat) (i : Nat) : Bool :=
  g.length < 4 && (g.filter fun j => s.antAnchor j == s.antAnchor i).length < s.lfMaxOf (s.antAnchor i)

/-- The antennas of a mask that a frame may drive (R161): those present, in ascending order, as far as each finds
room. -/
def State.cappedMask (s : State) (m : BitVec 16) : List Nat :=
  (s.presentOf m).foldl (fun acc i => if s.roomFor acc i then acc ++ [i] else acc) []

/-- The groups of a poll (R200): antennas in ascending order, the last group open, at most 8 groups. -/
def State.pollGroups (s : State) : List (List Nat) :=
  let step (acc : List (List Nat) × List Nat) (i : Nat) : List (List Nat) × List Nat :=
    if acc.2.isEmpty || s.roomFor acc.2 i then (acc.1, acc.2 ++ [i]) else (acc.1 ++ [acc.2], [i])
  let (done, last) := (s.presentOf 0xFFFF#16).foldl step ([], [])
  ((done ++ [last]).filter fun g => !g.isEmpty).take 8

/-- The number that stands for an empty position of a group. -/
def noAntenna : Nat := 255

/-- The antennas in the order of a poll, four positions to a group (R182, R200). -/
def pollOrder (groups : List (List Nat)) : List Nat :=
  groups.flatMap fun g => g ++ List.replicate (4 - g.length) noAntenna

/-- The poll window in µs (R204), without the wake that may precede it. -/
def pollWindow (groups : Nat) : Nat :=
  (3000 + 1250 * groups + 8 * (104 + 96 * groups) + 499) / 500 * 500

/-- The berth's key is a fob. -/
def Berth.isFob (b : Berth) : Bool := b.id.kind == 1#3 || b.id.kind == 2#3

/-- The poll needs a wake before it (R203): a challenge or a poll was the last frame addressed to the fob,
and 0 stands for none. -/
def State.needsWake (s : State) (n : Nat) (t : Nat) : Bool :=
  (s.berth n).isFob && ((s.berth n).lf.lastAddressed == 0 || decide ((s.berth n).lf.lastAddressed + ms 80 < t))

/-- The window of a poll of berth `n` that starts at tick `t`, in ticks (R203, R204). -/
def State.pollTicks (s : State) (n t : Nat) : Nat :=
  us (pollWindow s.pollGroups.length + if s.needsWake n t then 4500 else 0)

/-- The tick at which the running tide ends. -/
def State.tideEnd (s : State) : Nat := s.tide.startAt + ms s.tide.lengthMs

/-- A poll of berth `n` from tick `t` ends, with 2 ms to spare, before the next boundary (R199). -/
def State.pollFits (s : State) (n t : Nat) : Bool := t + s.pollTicks n t + ms 2 < s.tideEnd

/-- The antennas of a berth's poll frame (R202), as far as they are present and find room today (R161). Where earlier
polls brought no report, of which R202 says nothing, those of the first poll are taken again (DESIGN CHOICE, log entry
79). -/
def State.pollMask (s : State) (n : Nat) : BitVec 16 :=
  let b := s.berth n
  ofBits 16 (s.cappedMask (
    if b.lf.polled && !b.lf.best.isEmpty then ofBits 16 b.lf.best
    else if b.isFob && b.lf.mask != 0#16 then b.lf.mask
    else s.cfg.chart.pollMask))

/-! Drivers (R162 to R173). -/

/-- Driver `d` of this device. -/
def State.driver (s : State) (d : Nat) : LfDriver := s.lf.drivers.getD d LfDriver.reset

/-- The chart antenna that names driver `d` of this device. -/
def State.driverAntenna (s : State) (d : Nat) : Option Nat :=
  s.cfg.chart.antennas.findIdx? fun a => a.anchor == s.cfg.anchor && a.driver == d

/-- ITARGET of driver `d`, 0 when no chart antenna names it (R163). -/
def State.driverTarget (s : State) (d : Nat) : Nat :=
  ((s.driverAntenna d).map fun i => (s.cfg.chart.antennas.getD i AntCfg.reset).itarget).getD 0

/-- The four status bits of a driver, as STATUS shows them. -/
def LfDriver.bits (d : LfDriver) : BitVec 4 :=
  BitVec.ofNat 4 (b2n d.opn + 2 * b2n d.short + 4 * b2n d.detuned + 8 * b2n d.disabled)

/-- A driver changed by `f`: LATCH takes every rise. -/
def LfDriver.flagged (f : LfDriver → LfDriver) (d : LfDriver) : LfDriver :=
  let e := f d
  { e with latch := e.latch ||| (e.bits &&& ~~~d.bits) }

/-- The change of a driver that a flag of R170 shows (R173). -/
def LfDriver.differs (d e : LfDriver) : Bool := d.bits != e.bits

/-- The drivers changed by `f`, with source 22 where a flag changed (R173). -/
def State.modDrivers (s : State) (f : Nat → LfDriver → LfDriver) : State :=
  let ds := s.lf.drivers.mapIdx fun i d => d.flagged (f i)
  let ch := (s.lf.drivers.zip ds).any fun p => p.1.differs p.2
  (s.upLf fun l => { l with drivers := ds }).latchIf ch 22

/-- The bank code moves one step towards resonance (R169): not beyond its ends, nor while an override
holds it. -/
def LfDriver.track (d : LfDriver) : LfDriver :=
  if d.ovr.force.getLsbD 6 || d.offRun.natAbs < 3 then d
  else
    let lower := Config.phaseMeansLow == decide (0 < d.offRun)
    if lower then { d with code := if d.code = 0#6 then d.code else d.code - 1#6 }
    else { d with code := if d.code = 63#6 then d.code else d.code + 1#6 }

/-- The pulse width D that regulates a load of `mohm` mΩ to `ma` mA from a VLF of `vlf` times 10 mV (R163): the
fundamental is (4 VLF ÷ π) sin(π D ÷ 2), and D stays from 1/20 to 1. -/
def pulseWidth (vlf ma mohm : Nat) : Rat :=
  if vlf = 0 then 1 else max (1 / 20) (asinQ ((ma * mohm : Nat) * piQ / (40000 * vlf : Nat)) / 90)

/-- What one pattern shows of a driver at pulse width `w` (R169, R170): amplitude in mA and phase in degrees. -/
def LfDriver.sense (target : Nat) (ma : Nat) (ph : Int) (w : Rat) (d : LfDriver) : LfDriver :=
  let det := if 45 < ph.natAbs then d.detRun + 1 else 0
  let off := if 20 < ph.natAbs then (if 0 < ph then max d.offRun 0 + 1 else min d.offRun 0 - 1) else 0
  let opn := decide (w = 1) && decide (4 * ma < target)
  let short := decide (w = 1 / 20) && decide (3 * target < 2 * ma)
  ({ d with
      iamp := clampNat 11 ma, phase := max (-90) (min 90 ph), detRun := det, offRun := off, width := w
      opn := d.opn || opn, short := d.short || short, disabled := d.disabled || opn || short
      detuned := if 45 < ph.natAbs then d.detuned || decide (3 ≤ det) else false }).track

/-- The drivers of this device that feed the antennas `l`. -/
def State.driversOf (s : State) (l : List Nat) : List Nat :=
  l.filterMap fun i => match s.cfg.chart.antennas[i]? with
    | some a => if a.anchor == s.cfg.anchor && !(s.driver a.driver).disabled then some a.driver else none
    | none => none

/-- The drivers that calibrate at this tick (R167): the enabled ones in ascending order, LF_MAX_ACTIVE for 1.2 ms
each time. -/
def State.calGroup (s : State) : List Nat :=
  (((bitsOf s.cfg.radio.lfEnable).drop (s.cfg.radio.lfMax * ((s.now - s.lf.calAt) / us 1200)))).take s.cfg.radio.lfMax

/-- The part of a frame that is on the air while `left` ticks remain to its end. -/
def slotAt (left : Nat) : List LfSlot → Option LfSlot
  | [] => none
  | x :: r => if slotTicks r < left ∧ left ≤ slotTicks r + x.ticks then some x else slotAt left r

/-- The part of the frame that is on the air at this tick. -/
def State.slotNow (s : State) : Option LfSlot :=
  match s.lf.onAir with
  | none => none
  | some w => slotAt (w.notBefore - s.now) s.lf.frame

/-- The amplitude at which driver `d` regulates at this tick, in 0.1 mA: its ITARGET where the frame's part on the air
drives it (R163), 10 % of it where it calibrates (R167), 0 while it is idle. -/
def State.driveAim (s : State) (d : Nat) : Nat :=
  if s.lf.calib then if s.calGroup.contains d then s.driverTarget d else 0
  else match s.slotNow with
    | none => 0
    | some x => if (s.driversOf ((x.drive.filter fun a => a.2 != .off).map (·.1))).contains d then 10 * s.driverTarget d else 0

/-- The drivers that carry current at this tick (R161). -/
def State.driving (s : State) : List Nat := (List.range 16).filter fun d => s.driveAim d != 0

/-- The drivers of the frame on the air, whose bank stays as it is until it ends (R162). -/
def State.driversBusy (s : State) : List Nat :=
  if s.lf.busy then s.driversOf (slotAntennas s.lf.frame) else if s.lf.calib then bitsOf s.cfg.radio.lfEnable else []

/-- An override in force sets the bank of every idle driver (R162, R169). -/
def State.bankSwitch (s : State) : State :=
  let busy := s.driversBusy
  let set (i : Nat) (d : LfDriver) : LfDriver :=
    if d.ovr.force.getLsbD 6 && !busy.contains i then { d with code := d.ovr.force.setWidth 6 } else d
  s.upLf fun l => { l with drivers := l.drivers.mapIdx set }

/-- The number of disabled drivers (LF.STATUS). -/
def State.disabledDrivers (s : State) : Nat := (s.lf.drivers.filter (·.disabled)).length

/-- This device plans polling patterns (R198): the harbourmaster or a standalone device those of the vehicle, a
tender in SLACK the part of its own drivers (R632). -/
def State.plansPolling (s : State) : Bool :=
  s.cfg.role != .tender || (match s.upPort? with
    | some n => (s.link n).st == .slack
    | none => false)

/-! The order of the work (R196). -/

/-- The rank of a frame (R196). -/
def LfKind.rank : LfKind → Nat
  | .challenge => 0
  | .handle => 1
  | .poll => 2
  | .slotted => 3
  | .wake => 4
  | .pollPattern => 4

/-- What a tender's schedule holds for its drivers (R630). -/
def lfOfSchedule (e : Nat × Bytes) : Option LfWork :=
  if byteAt e.2 0 = 1 then
    let k := byteAt e.2 1
    some { kind := if k = 1 then .handle else if k = 2 then .challenge else if k = 3 then .poll
             else if k = 4 then .slotted else if k = 5 then .pollPattern else .wake
           berth := byteAt e.2 2, mask := BitVec.ofNat 16 (leAt e.2 3 2), notBefore := e.1, data := e.2.drop 5 }
  else none

/-- The first of the work by rank, then in its order. -/
def firstByRank : List LfWork → Option LfWork
  | [] => none
  | w :: r => match firstByRank r with
    | none => some w
    | some v => if v.kind.rank < w.kind.rank then some v else some w

/-- All LF work whose instant has come. -/
def State.lfDue (s : State) : List LfWork :=
  (s.lf.queue ++ s.tend.sched.filterMap lfOfSchedule).filter fun w => w.notBefore ≤ s.now

/-- A frame leaves the work. -/
def State.lfTake (s : State) (w : LfWork) : State :=
  (s.upLf fun l => { l with queue := l.queue.erase w }).upTend fun t => { t with
    sched := t.sched.filter fun e => lfOfSchedule e != some w }

/-- A frame may still be sent: a challenge while its berth is HAILED, a poll in its tide while its berth
is MOORED or RANGED and its window fits (R199). -/
def State.lfValid (s : State) (w : LfWork) : Bool :=
  if s.cfg.role = .tender then true
  else match w.kind with
    | .challenge => s.berthIs w.berth .hailed || ((s.berth w.berth).id.st.moored? && (s.berth w.berth).se.kept.isSome)
    | .slotted => s.lf.fallbacks.any fun f => f.no == w.berth && f.state == .slotted
    | .pollPattern => s.moored 0
    | .poll => (s.berth w.berth).id.st.moored? && s.pollFits w.berth s.now && !s.pollGroups.isEmpty
    | _ => true

/-- What a poll frame of berth `n` says when it starts at tick `t` (R181, R200, R203): TYPE, whether a wake goes
before it, GROUPS, HAIL_TAG, SEQ, and the antenna at each position of the groups. -/
def State.pollData (s : State) (n t : Nat) : Bytes :=
  let b := s.berth n
  [4#8, BitVec.ofNat 8 (b2n (s.needsWake n t)), BitVec.ofNat 8 s.pollGroups.length] ++ le 2 b.se.hailTag.toNat ++
    (BitVec.ofNat 8 ((b.lf.pollsSent.toNat + 1) % 4) :: (pollOrder s.pollGroups).map (BitVec.ofNat 8))

/-- The present antennas of group `g` of a poll, with their positions. -/
def State.groupOn (s : State) (g : Bytes) : List (Nat × Nat) :=
  (g.mapIdx fun j a => (j, a.toNat)).filter fun x => s.antennaPresent x.2

/-- A frame that says `d`, on the antennas `on` (R181, R200, R201, R203): the wake before a poll leaves the answer
window of 1.25 ms free. -/
def State.frameOf (s : State) (on : List Nat) (d : Bytes) : List LfSlot :=
  let wake := wakeFrame on (s.cfg.fleetId.toNat % 256)
  if byteAt d 0 = 3 then syncFrame on (challengeBits (d.drop 1))
  else if byteAt d 0 = 4 then
    (if byteAt d 1 = 1 then wake 1 0 0 ++ [lfSlot [] (us 1250) .off] else []) ++
      syncFrame on (pollBits (byteAt d 2) (leAt d 3 2) (byteAt d 5)) ++
      (chunks 4 (byteAt d 2) (d.drop 6)).flatMap fun g => groupFrame (s.groupOn g)
  else wake (byteAt d 0) (byteAt d 1) (byteAt d 2)

/-- A poll goes out (R183, R199, R203, R313): it counts, and its report is awaited. -/
def State.pollSent (s : State) (n : Nat) : State :=
  s.modBlf n fun b => { b with
    pollsSent := b.pollsSent + 1#16, polledAt := s.now, polled := true, pollTide := s.tide.number
    lastAddressed := s.now + us (2750 + if s.needsWake n s.now then 4500 else 0)
    awaiting := true, order := pollOrder s.pollGroups, report := [], sensed := [] }

/-- A wake or polling pattern opens an answer window at tick `t`, its frame's end (R195). -/
def State.openWindow (s : State) (m : BitVec 16) (t : Nat) : State :=
  s.upLf fun l => { l with
    fallbacks := l.fallbacks ++ [{ Fallback.reset with no := l.fallbackNo, mask := m, windowAt := t }]
    fallbackNo := l.fallbackNo + 1 }

/-- A frame starts (R196): BUSY until its end; `notBefore` of the frame on the air is the tick at which
it ends. The wake before a poll opens an answer window too (R195, R203). -/
def State.lfSend (s : State) (w : LfWork) : State :=
  let own : Bool := w.kind == .poll && s.cfg.role != .tender
  let data := if own then s.pollData w.berth s.now else w.data
  let on := s.cappedMask w.mask
  let f := s.frameOf on data
  let s := if own then s.pollSent w.berth else s
  let s := if own && byteAt data 1 == 1 then s.openWindow (ofBits 16 on) (s.now + us 3250) else s
  s.upLf fun l => { l with
    busy := true, onAir := some { w with mask := ofBits 16 on, notBefore := s.now + slotTicks f, data := data }
    frame := f, touchCut := false }

/-- The LF block may start a frame (R161, R168, R172, R196). -/
def State.lfReady (s : State) : Bool :=
  s.mainUp && s.cfg.loaded && s.tide.power != .deep && !s.lf.busy && !s.lf.calib

/-- A frame is taken from the work: sent, or dropped where VLF_LOW suppresses it (R170, R172) or it has
lost its purpose. -/
def State.lfStart (s : State) (w : LfWork) : State :=
  let s := s.lfTake w
  if s.lf.vlfLow then
    if w.kind = .slotted then s.upLf fun l => { l with fallbacks := l.fallbacks.filter fun f => f.no != w.berth } else s
  else if s.lfValid w then s.lfSend w else s

/-- LF_FRAME_START (R196). -/
def execLfFrameStart (s : State) : Host.Outcome State Fault Refusal :=
  match firstByRank s.lfDue with
  | none => .next s
  | some w => s.whenDo s.lfReady (s.lfStart w)

/-! The end of a frame (R169, R170, R195). -/

/-- Calibration starts where it is due and no pattern is on the air (R166, R168). -/
def State.lfCalStart (s : State) : State :=
  if s.lf.calDue && !s.lf.busy && !s.lf.calib then
    s.upLf fun l => { l with calib := true, calDue := false, calAt := s.now }
  else s

/-- What the drivers of the antennas `l` show of the frame that ended (R163, R170): each with the impedance of its
load in mΩ, the sensed amplitude in mA and the phase. -/
def State.senseDrivers (s : State) (l : List Nat) (senses : List LfSense) : State :=
  let used := s.driversOf l
  s.modDrivers fun i d =>
    match senses.find? fun x => x.driver.toNat == i && used.contains i with
    | none => d
    | some x =>
      d |> LfDriver.sense (s.driverTarget i) x.ma.toNat x.phase (pulseWidth s.lf.vlfNow.toNat (s.driverTarget i) x.load.toNat)

/-- The sensed current of a chart antenna of this device in the frame whose senses are `l`, 0 for one that carried no
regulated current in it (R205). -/
def State.isense (s : State) (l : List LfSense) (i : Nat) : Option (Nat × Nat) :=
  match s.cfg.chart.antennas[i]? with
  | none => none
  | some a =>
    let d := s.driver a.driver
    if a.anchor != s.cfg.anchor then none
    else some (i, if d.disabled || d.opn || d.short || !l.any (·.driver.toNat == a.driver) then 0 else d.iamp.toNat)

/-- A tender reports its drivers (R171, R205, R616, log entry 54): what they showed in a poll of berth `n`, RESULT of
kind 4, or after anything else, RESULT of kind 6, which of them are disabled. -/
def State.reportDrivers (s : State) (n : Option Nat) (l : List LfSense) : State :=
  match s.upPort? with
  | none => s
  | some p =>
    if s.cfg.role = .tender && s.upLive && s.moored 26 then
      s.pierPost p 0x21 0#32 ([if n.isSome then 4#8 else 6#8, BitVec.ofNat 8 (n.getD 0)] ++ le 4 s.tide.number.toNat ++
        ((List.range 16).filterMap (s.isense l)).flatMap fun x => BitVec.ofNat 8 x.1 :: (le 2 x.2 ++
          [BitVec.ofNat 8 (b2n (s.driver (s.cfg.chart.antennas.getD x.1 AntCfg.reset).driver).disabled)]))
    else s

/-- What follows a frame (R189, R195, R203): an answer window, a slotted round, an addressed fob, or the sensed
currents of a poll. -/
def State.frameAfter (s : State) (w : LfWork) (l : List LfSense) : State :=
  match w.kind with
  | .slotted => s.upLf fun l => { l with fallbacks := l.fallbacks.map fun f =>
      if f.no = w.berth then { f with state := .round, windowAt := s.now, answers := [], bad := false } else f }
  | .challenge => s.modBlf w.berth fun b => { b with lastAddressed := s.now }
  | .poll => s.modBlf w.berth fun b => { b with sensed := (slotAntennas s.lf.frame).filterMap (s.isense l) ++ b.sensed }
  | _ => s.openWindow w.mask s.now

/-- A tender's own frame has ended: what its drivers showed travels to the harbourmaster. -/
def State.tenderAfter (s : State) (w : LfWork) (l : List LfSense) : State :=
  s.reportDrivers (if w.kind = .poll then some w.berth else none) l

/-- LF_PATTERN_END (R169, R170, R173): for a pattern that a touch has cut no window opens. -/
def execLfPatternEnd (senses : List LfSense) (s : State) : Host.Outcome State Fault Refusal :=
  match s.lf.onAir with
  | none => .next s
  | some w =>
    let t := (s.senseDrivers (slotAntennas s.lf.frame) senses).upLf fun l => { l with busy := false, onAir := none }
    s.whenDo (s.mainUp && decide (w.notBefore ≤ s.now))
      ((if s.lf.touchCut then t else if !s.plansPolling then t.tenderAfter w senses else t.frameAfter w senses
        ).bankSwitch.lfCalStart)

/-! Answer windows and the slotted fallback (R194, R195). -/

/-! Handle touches (R197). -/

/-- How many parts of a wake frame lie before its first bit boundary at or after `d` ticks: the first half of a bit of
the header, at the odd places up to 15, ends at none (R180, R181). -/
def partsTo (d : Nat) (f : List LfSlot) : Nat :=
  ((List.range (f.length + 1)).find? fun k =>
    decide (d ≤ slotTicks (f.take k)) && !(k % 2 == 0 && decide (2 ≤ k) && decide (k ≤ 16))).getD f.length

/-- A polling pattern on the air is cut at the first bit boundary at or after tick `t` (R196): its answers are
discarded. -/
def State.cutAt (s : State) (t : Nat) : State :=
  match s.lf.onAir with
  | none => s
  | some w =>
    if w.kind = .pollPattern then
      let from_ := w.notBefore - slotTicks s.lf.frame
      let f := s.lf.frame.take (partsTo (t - from_) s.lf.frame)
      s.upLf fun l => { l with touchCut := true, frame := f, onAir := some { w with notBefore := from_ + slotTicks f } }
    else s

/-- A handle touch that wakes cuts a polling pattern on the air at its next bit boundary, at the tenders that take part
in it too (R196). -/
def State.cutPattern (s : State) : State :=
  match s.lf.onAir with
  | some w => if w.kind = .pollPattern then (s.cutAt s.now).cutTenders w.mask else s
  | none => s

/-- A touch without a frame is logged (R142, R197, D9). -/
def State.logTouch (s : State) (zone : Nat) : State :=
  let r := Config.touchRecord zone
  s.logRecord r.1.toNat r.2

/-- A wake frame for a handle (R142, R196, R197, D9), or a record of the touch where none is sent. -/
def State.handleFrame (s : State) (zone : Nat) : State :=
  let l := s.presentOf ((s.cfg.chart.handles[zone]?.map (·.mask)).getD 0#16)
  if l.isEmpty ∨ s.tide.power = .drive then s.logTouch zone
  else s.lfQueue { LfWork.reset with kind := .handle, mask := ofBits 16 l }

/-- A touch on the handle of zone `zone` of the vehicle (R124, R196, R197). -/
def State.touched (s : State) (zone : Nat) : State := (s.wake 0).cutPattern.handleFrame zone

/-- HANDLE_TOUCH (R124, R197): on an MFP pin with the handle-touch function, whose PARAM is the zone. -/
def execHandleTouch (mfp : BitVec 5) (s : State) : Host.Outcome State Fault Refusal :=
  let p := s.cfg.pins.getD mfp.toNat PinCfg.reset
  let zone := p.param.toNat
  s.whenDo (p.func == 2#8 && s.mainUp && s.mfpSeen && s.moored 20 && s.tide.power != .deep)
    (if s.cfg.role = .tender then
      (s.upTide fun t => { t with wakeCause := setBit t.wakeCause 0 true }).report 0 (BitVec.ofNat 32 zone) []
    else s.touched zone)

/-! Polling patterns (R151 to R156, R198). -/

/-- Hours that the park clock reads (R135). -/
def State.parkHours (s : State) : Nat := (s.now - s.tide.parkStart) / sec 3600

/-- The row of the table of R152 in force, 6 when polling has stopped. -/
def State.lfStep (s : State) : Nat :=
  let h := s.parkHours
  if h < 24 then 0 else if h < 72 then 1 else if h < 120 then 2 else if h < 168 then 3
  else if h < 216 then 4 else if h < 504 then 5 else 6

/-- The polling period in force, in ms, none where no pattern is due (R152, R153, R198, D1): in STANDBY that of the
latest poll, since a change takes effect at the first poll due after it. -/
def State.lfPeriod (s : State) : Option Nat :=
  if s.tide.power = .watch then some 250
  else if s.tide.power = .standby ∧ s.cfg.lfPoll ∧ s.lfStep < 6 then
    some (if s.tide.lfPer = 0 then 250 * 2 ^ s.lfStep else s.tide.lfPer)
  else none

/-- A field-vector poll is part of this tide (R142). -/
def State.tidePolls (s : State) : Bool :=
  (s.lf.queue.any fun w => w.kind == .poll) ||
    s.liveBerths.any fun n => (s.berth n).lf.polled && s.tide.startAt ≤ (s.berth n).lf.polledAt

/-- A wake boundary is to come: what falls due in its millisecond is sent in the new tide (R156). -/
def State.wakePending (s : State) : Bool := s.tide.power.low && s.tide.firstWake.isSome

/-- LF_POLLING_PATTERN (R142, R156, R198). -/
def execLfPollingPattern (s : State) : Host.Outcome State Fault Refusal :=
  match s.lfPeriod with
  | none => .next s
  | some p =>
    let m := ofBits 16 (s.presentOf s.cfg.chart.pollMask)
    let t := s.upTide fun t => { t with
      lfPollAt := s.now, lfPer := if t.power = .standby then 250 * 2 ^ s.lfStep else 0 }
    s.whenDo (s.mainUp && s.cfg.loaded && s.moored 0 && s.plansPolling && s.timerElapsed s.tide.lfPollAt (ms p) &&
        !s.wakePending)
      (if m = 0#16 || s.tidePolls || s.lf.vlfLow then t
       else t.lfQueue { LfWork.reset with kind := .pollPattern, mask := m })

/-- UHF_SNIFF (R140, D5). -/
def execUhfSniff (s : State) : Host.Outcome State Fault Refusal :=
  s.whenDo (s.mainUp && s.tide.power == .standby && s.moored 7 && s.timerElapsed s.tide.sniffAt (ms 100))
    (s.upTide fun t => { t with sniffAt := s.now })

/-! Calibration (R166, R167, R171). -/

/-- A write of LF.CTRL (R166, R187). -/
def State.lfCtrl (s : State) (v : BitVec 32) : State :=
  s.upLf fun l => { l with
    calReq := l.calReq || v.getLsbD 0, idleList := if v.getLsbD 1 then [] else l.idleList }

/-- LF_CAL (R166). -/
def execLfCal (s : State) : Host.Outcome State Fault Refusal := .next (s.farWrite 0x40000 fun s => s.lfCtrl 1#32)

/-- CLR_IDLE (R187). -/
def execClrIdle (s : State) : Host.Outcome State Fault Refusal := .next (s.farWrite 0x40000 fun s => s.lfCtrl 2#32)

/-- How long a calibration lasts, in ticks (R167). -/
def State.calTicks (s : State) : Nat :=
  let n := popCount s.cfg.radio.lfEnable
  us (1200 * ((n + s.cfg.radio.lfMax - 1) / max 1 s.cfg.radio.lfMax))

/-- The codes that the six steps of a calibration try (R167), from the phases sensed at them: half-way first, then
ever smaller steps towards resonance. -/
def calCodes (phases : List Int) : List Nat :=
  ((phases.take 5).foldl (fun (s : List Nat × Nat × Nat) ph =>
    let c := if Config.phaseMeansLow == decide (0 < ph) then s.2.1 - s.2.2 else s.2.1 + s.2.2
    (s.1 ++ [c], c, s.2.2 / 2)) ([32], 32, 16)).1

/-- The code that a calibration keeps (R167): of its last two steps, that with the smaller phase, the earlier one
where they are equal (log entry 54). -/
def calCode (phases : List Int) : BitVec 6 :=
  let c := calCodes phases
  let ph (i : Nat) : Nat := (phases.getD i 0).natAbs
  BitVec.ofNat 6 (if ph 5 < ph 4 then c.getD 5 32 else c.getD 4 32)

/-- The result of a driver's calibration (R167, R171): its code, and whether it was found within limits,
which enables it again. -/
def LfDriver.calibrated (code : BitVec 6) (ok : Bool) (d : LfDriver) : LfDriver :=
  let d := if d.ovr.force.getLsbD 6 then d else { d with code := code, offRun := 0 }
  if ok then { d with opn := false, short := false, disabled := false } else d

/-- LF_CALIBRATION_DONE (R167, R171): for each driver the six phases of its search and whether it was within
limits; a tender reports its drivers. -/
def execLfCalibrationDone (results : List LfCal) (s : State) : Host.Outcome State Fault Refusal :=
  s.whenDo (s.lf.calib && s.mainUp && s.elapsed s.lf.calAt s.calTicks)
    (((((s.modDrivers fun i d =>
      if s.cfg.radio.lfEnable.getLsbD i then
        match results.find? fun r => r.driver.toNat == i with
        | some r => d.calibrated (calCode r.phases) r.ok
        | none => d
      else d).upLf fun l => { l with calib := false }).reportDrivers none []).bankSwitch).lfCalStart)

/-- DRIVER_TRIP (R164, R170, R171): SHORT, and the driver is disabled, which a tender reports. -/
def execDriverTrip (d : BitVec 4) (s : State) : Host.Outcome State Fault Refusal :=
  s.whenDo (s.mainUp && s.driving.contains d.toNat)
    ((s.modDrivers fun i x => if i = d.toNat then { x with short := true, disabled := true } else x).reportDrivers none [])

/-! VLF (R170, R172). -/

/-- VLF is sensed at `v` times 10 mV: below 7.5 V it is low (R170). -/
def State.vlfSensed (s : State) (v : BitVec 12) : State :=
  if v.toNat < 750 then
    (s.upLf fun l => { l with vlfLow := true, vlfNow := v, vlfGoodFrom := none }).latchIf (!s.lf.vlfLow) 22
  else s.upLf fun l => { l with vlfNow := v }

/-- VLF_LOW (R170). -/
def execVlfLow (mv : BitVec 12) (s : State) : Host.Outcome State Fault Refusal :=
  s.whenDo (s.mainUp && decide (mv.toNat < 750)) (s.vlfSensed mv)

/-- The VLF of a boundary (R172): VLF_LOW clears when VLF has stayed above 7.8 V for one tide. -/
def State.vlfBoundary (s : State) (v : BitVec 12) : State :=
  let s := (s.vlfSensed v).upLf fun l => { l with vlf := v }
  if v.toNat ≤ 780 then s.upLf fun l => { l with vlfGoodFrom := none }
  else match s.lf.vlfGoodFrom with
    | none => s.upLf fun l => { l with vlfGoodFrom := some s.now }
    | some _ => (s.upLf fun l => { l with vlfLow := false }).latchIf s.lf.vlfLow 22

/-! The boundary (R166, R169, R199, R331). -/

/-- A berth that the tide may poll (R41, R199, D2). -/
def State.pollable (s : State) (n : Nat) : Bool :=
  let b := s.berth n
  b.id.st.moored? &&
    (b.isFob || (b.id.kind == 0#3 && b.se.caps.getLsbD 0 && b.fu.zone != 0#3 && b.fu.zone != 6#3)) &&
    (s.tide.power != .drive || s.lf.pollNow || !b.lf.polled || s.elapsed b.lf.polledAt (sec 1))

/-- Berth `a` is polled before berth `b` (R199): the least recently polled, then the lower number. -/
def State.polledBefore (s : State) (a b : Nat) : Bool :=
  let x := (s.berth a).lf
  let y := (s.berth b).lf
  if x.polled != y.polled then y.polled
  else if x.polled && x.polledAt != y.polledAt then x.polledAt < y.polledAt
  else a < b

/-- The polls of a tide one after the other from tick `t`, while their windows fit (R199). -/
def State.placePolls : List Nat → Nat → State → State
  | [], _, s => s
  | n :: r, t, s =>
    if s.pollFits n t then
      State.placePolls r (t + s.pollTicks n t)
        (s.lfQueue { kind := .poll, berth := n, mask := s.pollMask n, notBefore := t, data := s.pollData n t })
    else State.placePolls r t s

/-- FIELD_VECTOR_POLL_SCHEDULE at a boundary (R199). -/
def State.schedulePolls (s : State) : State :=
  let runs := s.keepsBerths && s.cfg.loaded && s.moored 1 && !s.lf.vlfLow && !s.pollGroups.isEmpty &&
    (s.tide.power == .watch || s.tide.power == .service || s.tide.power == .drive)
  if runs then
    (State.placePolls (orderBy s.polledBefore (berthNos.filter s.pollable)) s.now s).upLf fun l =>
      { l with pollNow := false }
  else s

/-- The polls of the tide just ended that went unanswered count as missed (R331), before its verdicts are issued. -/
def State.pollsEnded (s : State) : State :=
  (berthNos.filter fun n => (s.berth n).lf.awaiting).foldl (fun s n => s.modBlf n fun b =>
    { b with awaiting := false, missed := b.missed + 1 }) s

/-- The LF block at a boundary (R166, R169): overrides take force, polls of the old tide that were not sent are
dropped, and a SEED that could not be drawn is asked for again (log entry 79). -/
def State.lfBoundary (s : State) : State :=
  let s := s.upLf fun l => { l with
    queue := l.queue.filter fun w => w.kind != .poll
    calDue := l.calDue || l.calReq, calReq := false
    drivers := l.drivers.map fun d => { d with ovr := d.ovr.boundary s.now } }
  let s := if (s.lf.fallbacks.any (·.seedDue)) && !(s.trng.held.any fun h => h.who == .lfSeed) then s.request .lfSeed else s
  s.bankSwitch.lfCalStart

end Sys2Proof.Machine
end

