-- ==== Sys2Proof/Machine/Fob.lean ====
section
/-! DEFINITION. What fobs send on UHF (R182 to R193, R294 to R297): wake answers, challenge responses,
button telegrams and poll reports, and the fit of a report (R205 to R207). -/

namespace Sys2Proof.Machine

/-! The counter cache (R191, R192). -/

/-- The cached counter of a fob. -/
def State.cached (s : State) (fob : BitVec 64) : Option (BitVec 32) := (tableGet s.lf.cache fob).map (·.1)

/-- A fob's counter enters the cache, and the least recently used of more than 1,024 leaves it (R191). -/
def State.cacheCounter (s : State) (fob : BitVec 64) (c : BitVec 32) : State :=
  s.upLf fun l => { l with cache := (bindTo l.cache fob (c, s.tide.number)).take 1024 }

/-- A telegram of this fob with this counter is remembered as accepted (R190). -/
def State.acceptedTelegram (s : State) (fob : BitVec 64) (c : BitVec 32) : State :=
  s.upLf fun l => { l with
    recent := bindTo (l.recent.filter fun r => decide (s.now ≤ r.2.2 + sec 30)) fob (c, s.now) }

/-- A telegram of this fob was accepted in the previous 30 s (R187). -/
def State.pressedLately (s : State) (fob : BitVec 64) : Bool :=
  s.lf.recent.any fun r => r.1 == fob && decide (s.now ≤ r.2.2 + sec 30)

/-- The live berth that holds a fob's identifier (R186). -/
def State.berthOf (s : State) (fob : BitVec 64) : Option Nat :=
  s.liveBerths.find? fun n => (s.berth n).id.cred == fob

/-! Frames (R182). -/

/-- A wake answer's body. -/
def wakeAnswerBytes (flags : BitVec 4) (fob : BitVec 64) (idle : BitVec 8) : Bytes :=
  BitVec.ofNat 8 (16 + flags.toNat) :: (be 8 fob.toNat ++ [idle])

/-- A challenge response's body. -/
def responseBytes (flags : BitVec 4) (fob : BitVec 64) (c : BitVec 32) (mac : BitVec 64) : Bytes :=
  BitVec.ofNat 8 (32 + flags.toNat) :: (be 8 fob.toNat ++ be 4 c.toNat ++ be 8 mac.toNat)

/-- A poll report's body. -/
def reportBytes (flags : BitVec 4) (tag : BitVec 16) (seq : BitVec 2) (resv : BitVec 6) (field : Bytes) (mac : BitVec 32) :
    Bytes :=
  BitVec.ofNat 8 (48 + flags.toNat) :: (be 2 tag.toNat ++ [BitVec.ofNat 8 (64 * seq.toNat + resv.toNat)] ++
    field ++ be 4 mac.toNat)

/-- A button telegram's body. -/
def telegramBytes (cmd : BitVec 4) (fob : BitVec 64) (c : BitVec 32) (idle : BitVec 8) (mac : BitVec 64) : Bytes :=
  BitVec.ofNat 8 (64 + cmd.toNat) :: (be 8 fob.toNat ++ be 4 c.toNat ++ [idle] ++ be 8 mac.toNat)

/-- The identifier in a frame that carries one. -/
def frameFob (b : Bytes) : BitVec 64 := BitVec.ofNat 64 (ofBe (slice b 1 8))

/-- The nonce of a berth's latest challenge, zeros before any (R183, log entry 40). -/
def Berth.nonce5 (b : Berth) : Bytes := padTo 5 b.se.nonce

/-! Wake answers (R46, R186, R187). -/

/-- A sighting of the same identifier in the same tide by another anchor, earlier or at the same tick
with a lower number, takes the sighting (R26). -/
def State.betterSighting (s : State) (n : Nat) (anchor : BitVec 6) (stamp : Nat) : State :=
  let b := (s.berth n).id
  if b.st.live && b.sightTide == s.tideOf stamp &&
      (decide (stamp < b.sightStamp) || (stamp == b.sightStamp && decide (anchor.toNat < b.anchor.toNat))) then
    s.modId n fun b => { b with anchor := anchor, sightStamp := stamp }
  else s

/-- A fob is cast off with IDLE and its identifier remembered, among the last 16 (R46, R187). -/
def State.castIdle (s : State) (n : Nat) (fob : BitVec 64) : State :=
  ((s.modId n fun b => { b with cred := fob }).castOff n 0x0B#8).upLf fun l => { l with
    idleList := (fob :: l.idleList.filter (· != fob)).take 16 }

/-- A fob's sighting answer, to the pattern on the antennas `m`, opens a berth, which is challenged after its checks
(R24, R30, R46, R189). -/
def State.sightAnswer (s : State) (m : BitVec 16) (anchor : BitVec 6) (stamp : Nat) (fob : BitVec 64) (idleOut : Bool) :
    State :=
  let (s, o) := s.sight 1 anchor stamp
  match o with
  | none => s
  | some n =>
    let s := s.modBlf n fun b => { b with mask := m }
    if idleOut then s.castIdle n fob
    else
      let s := s.identify n fob none
      if s.berthIs n .hailed then s.askNonce n else s

/-- A wake answer to the pattern on the antennas `m` (R186, R187): one that shows motion or a button takes the fob
off the idle list. -/
def State.wakeAnswered (s : State) (m : BitVec 16) (anchor : BitVec 6) (stamp : Nat) (b : Bytes) : State :=
  let fob := frameFob b
  let idle := decide (60 < byteAt b 9) && !(b.getD 0 0#8).getLsbD 0
  let s := if idle then s else s.upLf fun l => { l with idleList := l.idleList.filter (· != fob) }
  match s.berthOf fob with
  | some n => (s.unquiet n).betterSighting n anchor stamp
  | none =>
    if s.lf.idleList.contains fob then s.upLf fun l => { l with rejIdle := satInc l.rejIdle }
    else s.sightAnswer m anchor stamp fob (idle && !s.pressedLately fob)

/-! Answer windows and the slotted fallback (R194, R195). -/

/-- The ticks that a window or round lasts (R195): 1.25 ms, or 2^(k+2) slots. -/
def Fallback.span (f : Fallback) : Nat := if f.state = .round then us (100 + 1250 * 2 ^ (f.k + 2)) else us 1250

/-- A window or round is open for answers stamped `t` (R195): from 50 µs after its frame to its close. -/
def Fallback.hears (f : Fallback) (t : Nat) : Bool :=
  f.state != .slotted && decide (f.windowAt + us 50 ≤ t) && decide (t < f.windowAt + f.span)

/-- Two stamps lie within 2 ms of one another (R16, R296). -/
def within2ms (t u : Nat) : Bool := decide (t < u + ms 2) && decide (u < t + ms 2)

/-- An answer heard again: a copy of the same frame within 2 ms (R295, R296). -/
def sameFrame (b : Bytes) (t : Nat) (x : BitVec 6 × Nat × Bytes) : Bool := x.2.2 == b && within2ms t x.2.1

/-- The answers of a window are delivered (R195), a second copy of one as a better sighting only (R26). -/
def State.deliverAnswers (m : BitVec 16) : List (BitVec 6 × Nat × Bytes) → List (BitVec 6 × Nat × Bytes) → State → State
  | _, [], s => s
  | seen, x :: r, s =>
    State.deliverAnswers m (x :: seen) r (if seen.any (sameFrame x.2.2 x.2.1) then
      match s.berthOf (frameFob x.2.2) with
      | some n => s.betterSighting n x.1 x.2.1
      | none => s
    else s.wakeAnswered m x.1 x.2.1 x.2.2)

/-- A wake answer stamped `stamp` (R195): it waits for the close of its window; one that another anchor brings after
the close is delivered at once, and one outside every window is discarded. -/
def State.answerHeard (s : State) (again : Bool) (anchor : BitVec 6) (stamp : Nat) (b : Bytes) : State :=
  match s.lf.fallbacks.find? fun f => f.hears stamp with
  | some f => s.upLf fun l => { l with fallbacks := l.fallbacks.map fun g =>
      if g.no = f.no then { g with answers := g.answers ++ [(anchor, stamp, b)] } else g }
  | none =>
    match s.lf.closed.find? fun c => decide (c.1 ≤ stamp) && decide (stamp < c.2.1) with
    | none => s
    | some c => State.deliverAnswers c.2.2 (if again then [(anchor, stamp, b)] else []) [(anchor, stamp, b)] s

/-- A frame failed its CRC at `stamp` (R194): in a window or round that is a collision. -/
def State.badFrame (s : State) (stamp : Nat) : State :=
  s.upLf fun l => { l with fallbacks := l.fallbacks.map fun f => if f.hears stamp then { f with bad := true } else f }

/-- Two sync words of 16 bits, 128 µs long, overlap (R194). -/
def syncsOverlap (l : List Nat) : Bool :=
  (pairsOf l).any fun x => decide (x.1 < x.2 + us 128) && decide (x.2 < x.1 + us 128)

/-- A window had a collision (R194): a bad frame, sync words that overlap, or energy of 6 dB or more above the noise
floor that persisted for 100 µs after a valid frame. -/
def Fallback.collided (f : Fallback) (air : AirHeard) : Bool :=
  f.bad || syncsOverlap air.syncs || air.energy.any fun e => decide (6 ≤ e.1.toInt) && decide (100 ≤ e.2.toNat)

/-- A window or round closes (R195): its answers are delivered, and the fallback goes on in round `next` with a fresh
SEED, or ends. -/
def State.closeWindow (s : State) (f : Fallback) (next : Option Nat) : State :=
  let s := s.upLf fun l => { l with
    closed := ((f.windowAt + us 50, f.windowAt + f.span, f.mask) :: l.closed).take 4
    fallbacks := match next with
      | none => l.fallbacks.filter fun g => g.no != f.no
      | some k => l.fallbacks.map fun g =>
        if g.no = f.no then { g with state := .slotted, k := k, seedDue := true, answers := [], bad := false } else g }
  let s := State.deliverAnswers f.mask [] f.answers s
  if next.isSome then s.request .lfSeed else s

/-- ANSWER_WINDOW_CLOSE (R195): 1.25 ms after the frame. -/
def execAnswerWindowClose (air : AirHeard) (s : State) : Host.Outcome State Fault Refusal :=
  match s.lf.fallbacks.find? fun f => f.state == .window && s.elapsed f.windowAt (us 1250) with
  | none => .next s
  | some f => s.whenDo s.mainUp
    (if f.collided air then
      ((s.upLf fun l => { l with collisions := satInc l.collisions }).latch 21).closeWindow f (some 1)
    else s.closeWindow f none)

/-- SLOTTED_ROUND_CLOSE (R195): the last of 2^(k+2) slots closes. -/
def execSlottedRoundClose (air : AirHeard) (s : State) : Host.Outcome State Fault Refusal :=
  match s.lf.fallbacks.find? fun f => f.state == .round && s.elapsed f.windowAt f.span with
  | none => .next s
  | some f =>
    let hit := f.collided air
    let t := s.upLf fun l => { l with collisions := if hit then satInc l.collisions else l.collisions }
    s.whenDo s.mainUp
      (if !hit then t.closeWindow f none
       else if f.k < 4 then t.closeWindow f (some (f.k + 1))
       else ((t.upLf fun l => { l with unresolved := satInc l.unresolved }).latch 23).closeWindow f none)

/-! Challenge responses (R30, R183, R190, R191). -/

/-- A valid response: its counter is cached, the berth moors, and a command kept since its telegram is
accepted (R190, R191). -/
def State.responseValid (s : State) (n : Nat) (fob : BitVec 64) (c : BitVec 32) : State :=
  let kept := (s.berth n).se.kept
  let s := ((s.cacheCounter fob c).modSe n fun b => { b with counter := c, kept := none }).moor n
  match kept with
  | none => s
  | some (cmd, k) => (s.acceptedTelegram fob k).fobCommand n cmd

/-- A berth that is MOORED answers the challenge that a telegram brought on (R190, log entry 54): within the hail
timeout the kept command is accepted. -/
def State.responseKept (s : State) (n : Nat) (fob : BitVec 64) (c : BitVec 32) : State :=
  let x := (s.berth n).se
  let s := (s.cacheCounter fob c).modSe n fun b => { b with counter := c, kept := none }
  match x.kept with
  | none => s
  | some (cmd, k) =>
    if s.now < x.keptAt + ms s.cfg.hailMs then (s.acceptedTelegram fob k).fobCommand n cmd else s

/-- A challenge response (R30, R183). -/
def State.responded (s : State) (b : Bytes) : State :=
  let fob := frameFob b
  match s.berthOf fob with
  | none => s
  | some n =>
    let x := s.berth n
    let c := BitVec.ofNat 32 (ofBe (slice b 9 4))
    if !x.isFob || !x.se.challengeSent || !(x.id.st == .hailed || (x.id.st.moored? && x.se.kept.isSome)) then s
    else s.withKey (.auth n) 3#2 4#4 7#5 17 fun key s =>
      let good := macOf key 8 (x.nonce5 ++ slice b 1 12) == slice b 13 8
      if x.id.st = .hailed then if good then s.responseValid n fob c else s.castOff n 5#8
      else if good then s.responseKept n fob c
      else s

/-! Button telegrams (R47, R186, R190 to R193). -/

/-- A telegram that R190 or R193 rejects. -/
def State.telegramRejected (s : State) (n : Nat) (mac : Bool) : State :=
  ((s.castOff n 5#8).upLf fun l => { l with
    rejMac := if mac then satInc l.rejMac else l.rejMac
    rejStale := if mac then l.rejStale else satInc l.rejStale }).latch 23

/-- A telegram of the berth's fob after its checks (R47, R190, R192): a HAILED berth moors. -/
def State.telegramAccepted (s : State) (n : Nat) (fob : BitVec 64) (c : BitVec 32) (cmd : BitVec 4) : State :=
  let hailed := s.berthIs n .hailed
  let s := ((s.cacheCounter fob c).acceptedTelegram fob c).modSe n fun b => { b with
    counter := c, byTelegram := b.byTelegram || hailed }
  let s := if hailed then s.moor n else s
  s.fobCommand n cmd

/-- A telegram of this fob with this counter was accepted in the last 100 ms (R190). -/
def State.repeated (s : State) (fob : BitVec 64) (c : BitVec 32) : Bool :=
  s.lf.recent.any fun r => r.1 == fob && r.2.1 == c && decide (s.now ≤ r.2.2 + ms 100)

/-- The judgement of a telegram for berth `n` by its counter (R190, R193): a repeat of an accepted one is
dropped. A counter that is not cached, or far ahead, brings a challenge on, and the command is kept until its
answer (log entries 41, 54). -/
def State.judgeCounter (s : State) (n : Nat) (b : Bytes) : State :=
  let fob := frameFob b
  let c := BitVec.ofNat 32 (ofBe (slice b 9 4))
  let cmd := (b.getD 0 0#8).setWidth 4
  if s.repeated fob c then s
  else
    let ahead := match s.cached fob with
      | none => true
      | some l => decide (l.toNat + 256 < c.toNat)
    let newer := match s.cached fob with
      | none => false
      | some l => decide (l.toNat < c.toNat)
    if ahead then
      (s.modSe n fun x => { x with
        kept := some (cmd, c), keptAt := s.now, fromButton := true
        counter := if x.kept.isSome || (s.berth n).id.st.moored? then x.counter else c }).askNonce n
    else if newer then s.telegramAccepted n fob c cmd
    else s.telegramRejected n false

/-- The judgement of a telegram for berth `n`, whose keys are there (R183, R190): its MAC first. -/
def State.judgeTelegram (s : State) (n : Nat) (b : Bytes) : State :=
  s.withKey (.auth n) 3#2 4#4 7#5 14 fun key s =>
    if macOf key 8 (slice b 0 14) ≠ slice b 14 8 then s.telegramRejected n true else s.judgeCounter n b

/-- The MAC of a telegram verifies under the key of its fob, as the register has it (R183, R447), which the fleet root
must give (R452) and the engines derive and run (R499); the lookup touches pages (R373, R397). -/
def State.telegramGenuine (s : State) (b : Bytes) : Bool × State :=
  let fob := frameFob b
  match s.lookup fob with
  | (none, s) => (false, s)
  | (some k, s) =>
    if s.fleetDerives && s.canDerive && s.keysServe then
      (macOf (authKeyOf .fob (s.memberKey fob (s.reg.member k).gen)) 8 (slice b 0 14) == slice b 14 8,
        (s.derivations 2 3#2 7#5).addJob { AesJob.reset with level := 3#2, left := 28, feature := 7#5, since := s.now })
    else (false, s)

/-- A button telegram (R182, R186, R190): COMMAND 8 to 15 is discarded, any other is a wake event; a repeat of an
accepted one whose MAC verifies opens no berth. -/
def State.telegram (s : State) (anchor : BitVec 6) (stamp : Nat) (b : Bytes) : State :=
  let fob := frameFob b
  let c := BitVec.ofNat 32 (ofBe (slice b 9 4))
  if 8 ≤ byteAt b 0 % 16 then s
  else
    let s := s.wake 1
    match s.berthOf fob with
    | some n =>
      let s := (s.unquiet n).betterSighting n anchor stamp
      if (s.berthIs n .hailed || (s.berth n).id.st.moored?) && (s.berth n).isFob then s.judgeTelegram n b else s
    | none =>
      let (genuine, s) := if s.repeated fob c then s.telegramGenuine b else (false, s)
      if genuine then s
      else
        let m := ofBits 16 (s.presentOf s.cfg.chart.pollMask)
        let (s, o) := s.sight 2 anchor stamp
        match o with
        | none => s
        | some n =>
          let s := (s.modBlf n fun l => { l with mask := m }).identify n fob none
          if s.berthIs n .hailed then s.judgeTelegram n b else s

/-! Poll reports (R184, R188, R202). -/

/-- The poll count that a SEQ names: the expected count or one of the next three (R184). -/
def matchCount (expected : BitVec 16) (seq : BitVec 2) : BitVec 16 :=
  ((List.range 4).map fun k => expected + BitVec.ofNat 16 k).find? (fun c => c.setWidth 2 == seq) |>.getD expected

/-- The antennas of the largest magnitudes, at most four and within each anchor's LF_MAX_ACTIVE (R161,
R202); of equal ones the earlier in the poll's order (DESIGN CHOICE, log entry 79). -/
def State.bestOf (s : State) (report : List (Nat × Bytes)) : List Nat :=
  let mag (r : Nat × Bytes) : Rat := let v := fieldVec r.2 0; P3.dot v v
  let l := orderBy (fun a b => decide (mag b < mag a)) report
  l.foldl (fun acc r => if s.roomFor acc r.1 then acc ++ [r.1] else acc) []

/-- An accepted report: the expected count moves on, and the field bytes wait for the fit (R184, R205). -/
def State.takeReport (s : State) (n : Nat) (count : BitVec 16) (field : Bytes) : State :=
  let order := (s.berth n).lf.order
  let rep := (order.zip (chunks 3 order.length field)).filter fun r => r.1 != noAntenna
  let best := s.bestOf rep
  s.modBlf n fun b => { b with
    pollCount := count + 1#16, awaiting := false, missed := 0, report := rep, best := best }

/-- A report refused (R184). -/
def State.reportRefused (s : State) : State := s.upLf fun l => { l with rejReport := satInc l.rejReport }

/-- The live berth of a fob that a HAIL_TAG names (R184, R189). -/
def State.tagBerth (s : State) (tag : BitVec 16) : Option Nat :=
  s.liveBerths.find? fun n => (s.berth n).isFob && !(s.berth n).se.nonce.isEmpty && (s.berth n).se.hailTag == tag

/-- A fob's poll report (R182 to R184): FIELD holds three bytes for each antenna polled. -/
def State.reported (s : State) (b : Bytes) : State :=
  match s.tagBerth (BitVec.ofNat 16 (ofBe (slice b 1 2))) with
  | none => s.reportRefused
  | some n =>
    let x := s.berth n
    let body := b.take (b.length - 4)
    let count := matchCount x.lf.pollCount (BitVec.ofNat 2 (byteAt b 3 / 64))
    let msg := body ++ x.nonce5 ++ be 2 count.toNat
    s.withKey (.auth n) 3#2 4#4 1#5 msg.length fun key s =>
      if body.length = 4 + 3 * x.lf.order.length ∧ macOf key 4 msg = b.drop (b.length - 4) then
        s.takeReport n count (body.drop 4)
      else s.reportRefused

/-! Reception (R294 to R296). -/

/-- UHF chain `k` of this device receives (R83, R85, R277). -/
def State.uhfChain (s : State) (k : Nat) : Bool :=
  fieldN s.cfg.radio.uhfBands (2 * k + 1) (2 * k) != 3 && !s.nb.uhfOut.getLsbD k &&
    (!s.cfg.routeGiven || s.cfg.route.any fun r => r.1 == 8 + k && r.2.getLsbD 5)

/-- A decoded UHF frame by its TYPE (R182). -/
def State.uhfFrame (s : State) (anchor : BitVec 6) (stamp : Nat) (b : Bytes) : State :=
  match byteAt b 0 / 16 with
  | 1 => s.answerHeard false anchor stamp b
  | 2 => s.responded b
  | 3 => s.reported b
  | 4 => s.telegram anchor stamp b
  | _ => s

/-- A tender passes a frame on where ROUTE bit 6 says so (R296). -/
def State.passFrame (s : State) (stamp : Nat) (b : Bytes) : State :=
  if s.exports [8, 9] && s.upLive then s.reportAt stamp 2 0#32 b else s

/-- A frame heard by an anchor (R295, R296): copies identical in every bit and within 2 ms are
delivered once, and an earlier copy takes the sighting (R26). A tender passes a frame on, a second copy too where its
stamp is the earlier one. -/
def State.uhfDeliver (s : State) (anchor : BitVec 6) (stamp : Nat) (b : Bytes) : State :=
  let copies := s.nb.uhfSeen.filter fun x => x.1 == b && within2ms stamp x.2.1
  let s := s.upNb fun x => { x with
    uhfSeen := (b, stamp, anchor.toNat) :: x.uhfSeen.filter fun y => decide (stamp < y.2.1 + ms 2) }
  if !copies.isEmpty then
    if s.cfg.role = .tender then if copies.all fun x => stamp < x.2.1 then s.passFrame stamp b else s
    else if byteAt b 0 / 16 = 1 then if s.berthsRun then s.answerHeard true anchor stamp b else s
    else if byteAt b 0 / 16 = 4 then
      match s.berthOf (frameFob b) with
      | some n => s.betterSighting n anchor stamp
      | none => s
    else s
  else if s.cfg.role = .tender then s.passFrame stamp b
  else if s.berthsRun then s.uhfFrame anchor stamp b
  else if byteAt b 0 / 16 = 4 ∧ byteAt b 0 % 16 < 8 then s.wake 1 else s

/-- The CRC-16 of a body (R182). -/
def uhfCrc (b : Bytes) : BitVec 16 := crcBits 0x1021#16 0xFFFF#16 (b.flatMap fun x => bitsMsb 8 x.toNat)

/-- A frame passes its CRC (R182, R194). -/
def uhfGood (rx : UhfRx) (b : Bytes) : Bool := rx.crc == uhfCrc b

/-- A frame that this device's chain `rx.chain` decoded, or failed to (R194, R297, R310): what both chains
decode counts once (R295). -/
def State.uhfCount (s : State) (rx : UhfRx) (b : Bytes) : State :=
  let again := s.nb.uhfSeen.any fun x =>
    x.1 == b && x.2.2 == rx.anchor.toNat && within2ms x.2.1 rx.stamp
  s.upNb fun x => if uhfGood rx b then { x with
      uhfFrames := if again then x.uhfFrames else satInc x.uhfFrames
      rssi0 := if rx.chain = 0#1 then rx.rssi else x.rssi0
      rssi1 := if rx.chain = 1#1 then rx.rssi else x.rssi1 }
    else { x with uhfCrc := satInc x.uhfCrc }

/-- UHF reception is possible (R140, R112). -/
def State.uhfRuns (s : State) : Bool := s.mainUp && s.cfg.loaded && s.moored 7 && s.tide.power != .deep

/-- In STANDBY a frame is heard in an answer window or a slotted round, and a button telegram in the sniff of 2 ms that it
meets (R140, D5). -/
def State.uhfHears (s : State) (stamp : Nat) (b : Bytes) : Bool :=
  s.tide.power != .standby ||
    (byteAt b 0 / 16 == 4 && s.tide.sniffAt != 0 && decide (s.tide.sniffAt ≤ stamp) && decide (stamp < s.tide.sniffAt + ms 2)) ||
    (s.lf.fallbacks.any fun f => f.hears stamp) || s.lf.closed.any fun c => decide (c.1 ≤ stamp) && decide (stamp < c.2.1)

/-- The tender of anchor `a` exports UHF frames, by the settings of the vehicle (R85, R86, R296, R311). -/
def State.uhfExported (s : State) (a : Nat) : Bool :=
  let c := s.anchorCfg a
  c.outs.getLsbD 8 || c.outs.getLsbD 9

/-- A UHF frame reaches the device: by its own chain, or by the anchor that reports it (R194, R296). -/
def State.uhfReceive (s : State) (rx : UhfRx) (b : Bytes) : State :=
  let own : Bool := rx.anchor.toNat == s.cfg.anchor
  if (if own then s.uhfChain rx.chain.toNat && s.uhfHears rx.stamp b else s.keepsBerths && s.anchorUp rx.anchor.toNat && s.uhfExported rx.anchor.toNat) then
    let s := if own then s.uhfCount rx b else s
    if uhfGood rx b then s.uhfDeliver rx.anchor rx.stamp b else s.badFrame rx.stamp
  else s

/-- WAKE_ANSWER (R186). -/
def execWakeAnswer (rx : UhfRx) (flags : BitVec 4) (fob : BitVec 64) (idle : BitVec 8) (s : State) :
    Host.Outcome State Fault Refusal :=
  s.whenDo s.uhfRuns (s.uhfReceive rx (wakeAnswerBytes flags fob idle))

/-- CHALLENGE_RESPONSE (R183). -/
def execChallengeResponse (rx : UhfRx) (flags : BitVec 4) (fob : BitVec 64) (counter : BitVec 32) (mac : BitVec 64)
    (s : State) : Host.Outcome State Fault Refusal :=
  s.whenDo s.uhfRuns (s.uhfReceive rx (responseBytes flags fob counter mac))

/-- BUTTON_TELEGRAM (R190). -/
def execButtonTelegram (rx : UhfRx) (command : BitVec 4) (fob : BitVec 64) (counter : BitVec 32) (idle : BitVec 8)
    (mac : BitVec 64) (s : State) : Host.Outcome State Fault Refusal :=
  s.whenDo s.uhfRuns (s.uhfReceive rx (telegramBytes command fob counter idle mac))

/-- POLL_REPORT (R184). -/
def execPollReport (rx : UhfRx) (flags : BitVec 4) (hailTag : BitVec 16) (seq : BitVec 2) (resv : BitVec 6)
    (field : Bytes) (mac : BitVec 32) (s : State) : Host.Outcome State Fault Refusal :=
  s.whenDo s.uhfRuns (s.uhfReceive rx (reportBytes flags hailTag seq resv field mac))

/-! The fit (R205 to R207). -/

/-- The report of berth `n` is fitted (R205 to R207): the FIT registers, source 20, and the measurement. -/
def State.fitReport (s : State) (n : Nat) : State :=
  let b := (s.berth n).lf
  let rep := b.report.filter fun r => s.antennaPresent r.1
  let h := s.cfg.chart.heardOf rep b.sensed
  let strong := (strongOf h).length
  let fit := s.cfg.chart.fit h
  let tenths := match fit with
    | some f => (roundQ (10 * f.2)).toNat
    | none => 0
  let s := s.modBlf n fun l => { l with report := [] }
  let s := s.upLf fun l => { l with
    fitBerth := BitVec.ofNat 8 n, fitStrong := clampNat 5 strong, fitValid := fit.isSome, fitTide := b.pollTide
    fitX := (fit.map fun f => mmOf f.1.1).getD 0x8000#16
    fitY := (fit.map fun f => mmOf f.1.2.1).getD 0x8000#16
    fitZ := (fit.map fun f => mmOf f.1.2.2).getD 0x8000#16
    fitResidual := (fit.map fun _ => BitVec.ofNat 16 (min 0xFFFE tenths)).getD 0xFFFF#16 }
  (s.latch 20).measure n { Meas.reset with
    kind := .lfFit, tide := b.pollTide, aux := tenths, strong := strong, valid := fit.isSome
    val := (fit.map fun f => (mmOf f.1.1).toInt).getD 0
    val2 := (fit.map fun f => (mmOf f.1.2.1).toInt).getD 0
    val3 := (fit.map fun f => (mmOf f.1.2.2).toInt).getD 0 }

/-- FIELD_FIT (R205). -/
def execFieldFit (n : BitVec 8) (s : State) : Host.Outcome State Fault Refusal :=
  s.whenDo (s.mainUp && (s.berth n.toNat).id.st.moored? && !(s.berth n.toNat).lf.report.isEmpty)
    (s.fitReport n.toNat)

end Sys2Proof.Machine
end

