-- ==== Sys2Proof/Machine/Ble.lean ====
section
/-! DEFINITION. Bluetooth LE (R272 to R293, R299 to R310): advertising and scanning, links and
access-service frames, synthesisers and held transmissions, channel sounding, the antenna tuner. -/

namespace Sys2Proof.Machine

/-! Transmit power and tuner (R305 to R307). -/

/-- The power code in effect for a set code (R305, R307): not above BLE_TX_MAX, and 3 dB lower, not below
-20 dBm, under MISMATCH. -/
def State.powerCode (s : State) (v : BitVec 6) : BitVec 6 :=
  let c := min v.toNat s.cfg.radio.bleTxMax
  BitVec.ofNat 6 (if s.nb.tuner = 1#2 then c - 6 else c)

/-- One code moves a step up or down within its 5 bits. -/
def codeStep (up : Bool) (c : BitVec 5) : BitVec 5 :=
  if up then (if c = 31#5 then c else c + 1#5) else (if c = 0#5 then c else c - 1#5)

/-- The tuner's flag after a packet with return loss `rl` in 0.5 dB, the `run`-th below 10 dB (R307, log
entry 36): MISMATCH only with the codes at their best. -/
def tunerFlag (old : BitVec 2) (run : Nat) (rl : Nat) (best : Bool) : BitVec 2 :=
  if 12 ≤ rl then 0#2 else if run < 4 then old else if rl < 2 then 2#2 else if best then 1#2 else old

/-- The MFP pins with function `f` and PARAM `p` (R81). -/
def State.pinsOf (s : State) (f : BitVec 8) (p : Nat) : List Nat :=
  (List.range 24).filter fun i => let c := s.cfg.pins.getD i PinCfg.reset; c.func == f && c.param.toNat == p

/-- The amplifier enables of function `f` and PARAM `p` are asserted from tick `a` to tick `b` (R142, R215, R219),
unless tamper holds them or they are unmoored (R114, R148). -/
def State.enableAmp (s : State) (f : BitVec 8) (p a b : Nat) : State :=
  if s.keys.tamperHold || !s.moored 23 then s
  else s.upPins fun x => { x with
    windows := x.windows.filter (fun w => decide (s.now ≤ w.2.2)) ++ (s.pinsOf f p).map fun i => (i, a, b) }

/-- Pin `i` is inside one of its windows now. -/
def State.inWindow (s : State) (i : Nat) : Bool :=
  s.pins.windows.any fun w => w.1 == i && decide (w.2.1 ≤ s.now) && decide (s.now < w.2.2)

/-- A packet's return loss is measured, and the tuner steps after four in a row below 10 dB, unless its codes are at
their best (R307). -/
def State.packetMeasured (s : State) (rl : BitVec 8) : State :=
  let run := if rl.toNat < 20 then s.nb.tunerRun + 1 else 0
  let best := Config.tunerBest s.nb.tunerSeries s.nb.tunerShunt
  let flag := tunerFlag s.nb.tuner run rl.toNat best
  let (up, series) := Config.tunerStep s.nb.tunerSeries s.nb.tunerShunt rl
  let moves : Bool := decide (4 ≤ run) && !best
  let rise := flag &&& ~~~s.nb.tuner
  (s.upNb fun b => { b with
    tunerRl := rl, tunerRun := run, tuner := flag, tunerLatch := b.tunerLatch ||| rise
    tunerSeries := if moves && series then codeStep up b.tunerSeries else b.tunerSeries
    tunerShunt := if moves && !series then codeStep up b.tunerShunt else b.tunerShunt }).latchIf
      (flag != s.nb.tuner) 28

/-- Packets whose return loss no command brings are measured too: the values are free (R307, log entry 56). -/
def State.freePackets (s : State) (k : Nat) : State :=
  (List.range k).foldl (fun s _ =>
    (s.packetMeasured (Config.returnLoss s.nb.measured)).upNb fun b => { b with measured := b.measured + 1 }) s

/-- The BLE chain transmits at power code `power` from tick `a` to tick `b`: the amplifier enable of PARAM 2 is asserted
(R142, R305, R310). -/
def State.bleOn (s : State) (power : BitVec 6) (a b : Nat) : State :=
  let code := s.powerCode power
  (s.enableAmp 5#8 2 a b).upNb fun x => { x with txState := 0#2, txLast := 1#2, applied := code, txFrom := a, txUntil := b }

/-- A packet goes out at tick `a`. -/
def State.packetSent (s : State) (power : BitVec 6) (rl : BitVec 8) (a : Nat) : State :=
  (s.bleOn power a (a + Config.bleTicks 2)).packetMeasured rl

/-! Held transmissions (R278, R279). -/

/-- A test in progress or held gives way to the verdict path, and diagnostics are unmoored from the next boundary (R144,
R145, R146). -/
def State.bleTakes (s : State) : State :=
  let waits : Bool := s.nb.held.any fun h => h.kind == 3#2
  if waits || s.now < s.nb.testUntil then
    (s.upNb fun b => { b with
      testUntil := 0, txLast := 3#2, txUntil := min b.txUntil s.now, held := b.held.filter fun h => h.kind != 3#2
      txState := if waits then 0#2 else b.txState }).upMf fun m => { m with diagLost := true }
  else s

/-- A transmission is requested: performed by `eff`, held while the synthesiser is locking or
calibrating, or not made at all (R277, R278, R307). -/
def State.bleSend (s : State) (h : HeldTx) (eff : State → State) : State :=
  if s.nb.tuner = 2#2 then s
  else match s.nb.blePll with
    | .locked => eff s
    | .locking => s.upNb fun b => { b with held := b.held ++ [h], txState := 1#2 }
    | .calibrating => s.upNb fun b => { b with held := b.held ++ [h], txState := 1#2 }
    | _ => s

/-- A transmission is abandoned as TX_LATE (R278, R279): a sounding procedure is tried again at the next tide. -/
def State.bleLate (s : State) (h : HeldTx) : State :=
  (s.upNb fun b => { b with
    txState := 0#2, txLast := 2#2, late := satInc b.late
    csWait := if h.kind = 2#2 then b.csWait.filter (· != h.ref) else b.csWait
    csNext := if h.kind = 2#2 then b.csNext ++ [h.ref] else b.csNext
    skipped := if h.kind = 1#2 then satInc b.skipped else b.skipped }).latch 28

/-! Advertising and scanning (R151, R282, R283). -/

/-- An anchor's BLE access service runs (R112, R140, R283). -/
def State.bleRuns (s : State) : Bool := s.mainUp && s.cfg.loaded && s.moored 5 && s.tide.power != .deep

/-- The link layer of this anchor has a BLE chain (R283). -/
def State.bleChain (s : State) : Bool := (s.anchorCfg s.cfg.anchor).sink4

/-- The Manufacturer Specific Data of the vehicle advertisement (R282). -/
def State.adData (s : State) : Bytes :=
  le 2 s.nb.company.force.toNat ++ (0xA0#8 :: le 4 s.cfg.fleetId.toNat) ++ le 2 s.cfg.vclass.toNat ++
    [BitVec.ofNat 8 s.cfg.anchor]

/-- The device's own BLE air event lasts until tick `t` at least (R276). -/
def State.bleAir (s : State) (t : Nat) : State := s.upNb fun b => { b with airUntil := max b.airUntil t }

/-- A scan window is open from tick `a` to tick `b` (R283); another use of the one chain closes the one before. -/
def State.scanOpen (s : State) (a b : Nat) : State := s.upNb fun x => { x with scanFrom := a, scanUntil := b }

/-- The chain is used for something else from tick `a` on: an open scan window ends (R273, R283). -/
def State.scanEnds (s : State) (a : Nat) : State := s.upNb fun b => { b with scanUntil := min b.scanUntil a }

/-- The receiver of this device's anchor was open and tuned at tick `t` for an advertisement (R140, R273, R283). -/
def State.scanned (s : State) (t : Nat) : Bool :=
  s.bleChain && s.nb.blePll == .locked && decide (s.nb.scanFrom ≤ t) && decide (t < s.nb.scanUntil)

/-- An advertising event's PDU goes on the air at tick `a` (R282); in STANDBY a scan window of 20 ms follows (R283). -/
def State.advSent (s : State) (rl : BitVec 8) (a : Nat) : State :=
  let stop := a + Config.bleTicks 0
  let s := (s.upNb fun b => { b with adv := s.adData }).scanEnds a
  let s := if s.tide.power = .standby then (s.scanOpen stop (stop + ms 20)).bleAir (stop + ms 20) else s.bleAir stop
  s.packetSent s.nb.advPower.force rl a

/-- Die temperature and VRF2 are measured, and the transmit gain is corrected (R306). -/
def State.bleMeasured (s : State) (temp : BitVec 16) (vrf2 : BitVec 8) : State :=
  s.upNb fun b => { b with temp := temp, vrf2 := vrf2, gain := Config.bleGain temp vrf2 }

/-- An advertising event goes out (R306). -/
def State.advertise (s : State) (x : BleSense) : State :=
  (s.bleTakes.bleMeasured x.temp x.vrf2).bleSend
    { kind := 0#2, planned := s.now, tol := ms 10, ref := x.rl.toNat } fun s => s.advSent x.rl s.now

/-- The period of the bursts of STANDBY in seconds (R151). -/
def State.burstPeriod (s : State) : Nat := if s.parkHours < 24 then 1 else 2

/-- The anchor that holds the link of berth `n`. -/
def State.linkAnchor (s : State) (n : Nat) : Nat := (s.nb.links.getD ((s.linkOf n).getD 0) Link.reset).anchor

/-- The one BLE chain of this device is taken by a sounding procedure or a link event (R142, R273). -/
def State.bleTaken (s : State) : Bool :=
  decide (s.now < s.nb.linkUntil) || s.nb.csRunning.any fun c => s.isTender || s.linkAnchor c.1 == s.cfg.anchor

/-- ADVERTISING_BURST (R151, R156, R283): the scan window on channel 37 follows. -/
def execAdvertisingBurst (x : BleSense) (s : State) : Host.Outcome State Fault Refusal :=
  s.whenDo (s.bleRuns && s.bleChain && !s.bleTaken && s.tide.power == .standby && s.timerElapsed s.tide.burstAt (sec s.burstPeriod) &&
      !s.wakePending)
    (((s.upTide fun t => { t with burstAt := s.now }).upNb fun b => { b with scanChan := 37#6 }).advertise x)

/-- ADVERTISING_EVENT (R283): every 100 ms in WATCH, SERVICE and DRIVE, once the chain is free (R273). -/
def execAdvertisingEvent (x : BleSense) (s : State) : Host.Outcome State Fault Refusal :=
  s.whenDo (s.bleRuns && s.bleChain && !s.bleTaken && s.tide.power != .standby && s.elapsed s.tide.burstAt (ms 100))
    ((s.upTide fun t => { t with burstAt := s.now }).advertise x)

/-- SCAN_WINDOW (R283): the windows of 40 ms rotate over channels 37, 38 and 39 and fill the time that other uses of the
chain leave free: none opens while another is open. -/
def execScanWindow (s : State) : Host.Outcome State Fault Refusal :=
  s.whenDo (s.bleRuns && s.bleChain && !s.bleTaken && s.tide.power != .standby && decide (s.nb.scanUntil ≤ s.now))
    (((s.upNb fun b => { b with scanChan := if b.scanChan.toNat < 39 then b.scanChan + 1#6 else 37#6 }).scanOpen s.now
      (s.now + ms 40)).bleAir (s.now + ms 40))

/-! Sightings by advertisement (R24, R26, R284, R286, R287). -/

/-- How many links an anchor holds. -/
def State.linksAt (s : State) (a : Nat) : Nat := (s.nb.links.filter fun l => l.anchor == a).length

/-- The link to the phone of a berth opens with the interval in force (R286): on this anchor's chain a connection request
goes out (R142). -/
def State.openLink (s : State) (a : Nat) (berth : Option Nat) (periph : Bool) : State :=
  let s := if a = s.cfg.anchor ∧ !periph then s.bleOn s.nb.connPower.force s.now (s.now + Config.bleTicks 2) else s
  s.upNb fun b => { b with links := b.links ++ [{ Link.reset with
    anchor := a, berth := berth, openAt := s.now, periph := periph
    interval := b.interval.force, supervision := s.now }] }

/-- An advertisement heard by several anchors: the earliest stamp, then the lower number (R26). -/
def heardOrder (h : Heard) : Heard :=
  orderBy (fun a b => decide (a.2 < b.2) || (a.2 == b.2 && decide (a.1.toNat < b.1.toNat))) h

/-- An anchor heard a token (R283, R284): this device's in its open scan window, another as its tender says. -/
def State.tokenAt (s : State) (h : BitVec 6 × Nat) : Bool :=
  if h.1.toNat = s.cfg.anchor then s.scanned h.2 else s.anchorUp h.1.toNat && (s.anchorCfg h.1.toNat).sink4

/-- A phone's advertisement sights it (R24, R26, R28, R287). -/
def State.sightPhone (s : State) (token : BitVec 64) (heard : Heard) : State :=
  let l := heardOrder (heard.filter s.tokenAt)
  if l.isEmpty then s
  else
    let s := s.upBt fun b => { b with sightings := (token, s.tide.number) :: b.sightings }
    match l.find? fun h => s.linksAt h.1.toNat < 32 with
    | none => s.upNb fun b => { b with linkFull := satInc b.linkFull }
    | some (a, t) =>
      let (s, o) := s.sight 0 a t
      match o with
      | none => s
      | some n => (s.modSe n fun b => { b with token := token }).openLink a.toNat (some n) false

/-- A live berth holds an access token (R24). -/
def State.tokenHeld (s : State) (token : BitVec 64) : Bool :=
  s.liveBerths.any fun n => (s.berth n).id.kind == 0#3 && (s.berth n).se.token == token

/-- BLE_ADVERTISEMENT (R284): in STANDBY a token is received in the window after a burst (R140, D4); it is a wake
event (R124), and opens no berth there (log entry 37). -/
def execBleAdvertisement (company : BitVec 16) (typ : BitVec 8) (fleet : BitVec 32) (token : BitVec 64) (heard : Heard)
    (s : State) : Host.Outcome State Fault Refusal :=
  let fits := company == s.nb.company.force && typ == 0xA1#8 && fleet == s.cfg.fleetId.setWidth 32
  s.whenDo (s.bleRuns && fits)
    (if s.tide.power = .standby then
       if heard.any fun h => h.1.toNat == s.cfg.anchor && s.scanned h.2 then s.wakeHere 4 else s
     else if !s.berthsRun || s.tokenHeld token || s.bt.sightings.contains (token, s.tide.number) then s
     else s.sightPhone token heard)

/-! Connection events (R142, R279, R285, R286). -/

/-- A sounding procedure runs on the anchor of link `k` for another link (R142). -/
def State.soundsOver (s : State) (l : Link) : Bool :=
  s.nb.csRunning.any fun c => l.berth != some c.1 &&
    ((s.linkOf c.1).any fun j => (s.nb.links.getD j Link.reset).anchor == l.anchor)

/-- The supervision timeout of a link would expire before its next event (R142, R286). -/
def State.mustServe (s : State) (l : Link) : Bool := l.supervision + sec 2 ≤ s.now + us (1250 * l.interval.toNat)

/-- The frames that wait on a link whose encryption has started are enciphered under its berth's link key (R288, R491):
two blocks of CCM for each 16 bytes. -/
def State.linkCipher (s : State) (k : Nat) : State :=
  let l := s.nb.links.getD k Link.reset
  match l.berth with
  | none => s
  | some n =>
    let b := (s.berth n).se
    match if b.encrypted && !l.queue.isEmpty then b.sid else none with
    | none => s
    | some sid => s.withKey (.link sid) 3#2 4#4 5#5 (2 * (l.queue.flatten.length + 16)) fun _ s => s

/-- A connection event of a link is served: the frames that wait go out. -/
def State.serveFrames (s : State) (k : Nat) : State :=
  (s.linkCipher k).modLink k fun l => { l with queue := [], supervision := s.now }

/-- A connection event on this device's own chain is served from tick `a`. -/
def State.serveLink (s : State) (k : Nat) (rl : BitVec 8) (a : Nat) : State :=
  ((((s.serveFrames k).scanEnds a).bleAir (a + Config.bleTicks 1)).upNb fun b =>
    { b with linkUntil := a + Config.bleTicks 1 }).packetSent s.nb.connPower.force rl a

/-- A procedure that the 7256 supports (R280). -/
def llSupports : LlProcedure → Bool
  | .dataLength => true
  | .phyUpdate => true
  | .channelMap => true
  | .encryption => true
  | .channelSounding => true
  | _ => false

/-- The peer's PDUs of an event (R281, R286): those of unsupported kinds are ignored, each request for an unsupported
procedure gets the unsupported-feature reply, and a link whose phone supports LE 2M moves to it. A channel map update
and a data length extension change the link (R280). -/
def State.peerPdus (s : State) (k : Nat) (peer : List PeerPdu) : State :=
  s.modLink k fun l => { l with
    phy2m := l.phy2m || peer.contains (.features true)
    chanMap := (peer.filterMap fun p => match p with
      | .channelMap m => some m
      | _ => none).getLastD l.chanMap
    dataLen := (peer.filterMap fun p => match p with
      | .dataLength n => some (max 27 (min n 251))
      | _ => none).getLastD l.dataLen
    replies := peer.filterMap fun p => match p with
      | .request q => if llSupports q then none else some q
      | _ => none }

/-- A packet that answers another after T_IFS, while the synthesiser is not locked (R279): always late, and the
event ends. -/
def State.answerLate (s : State) : State :=
  (s.upNb fun b => { b with txState := 0#2, txLast := 2#2, late := satInc b.late }).latch 28

/-- CONNECTION_EVENT (R279, R285, R286): a link number one beyond the last is a phone that connects to
the vehicle's advertisement (log entry 35), on a tender too. A link that a tender holds has its events on that tender's
chain (log entry 48). -/
def execConnectionEvent (link : Nat) (returnLoss : BitVec 8) (peer : List PeerPdu) (s : State) :
    Host.Outcome State Fault Refusal :=
  let run (s : State) : State :=
    let l := s.nb.links.getD link Link.reset
    if l.anchor ≠ s.cfg.anchor then
      if s.soundsOver l && !s.mustServe l then s else (s.serveFrames link).peerPdus link peer
    else if s.soundsOver l && !s.mustServe l then s.upNb fun b => { b with skipped := satInc b.skipped }
    else if l.periph && (s.nb.blePll == .locking || s.nb.blePll == .calibrating) then s.bleTakes.answerLate
    else s.bleTakes.bleSend { kind := 1#2, planned := s.now, tol := us 2, ref := link }
      fun s => (s.serveLink link returnLoss s.now).peerPdus link peer
  let own := decide (s.nb.links.length ≤ link) || (s.nb.links.getD link Link.reset).anchor == s.cfg.anchor
  s.whenDo (s.bleRuns && s.tide.power != .standby && decide (link ≤ s.nb.links.length) && (!own || s.bleChain))
    (if link < s.nb.links.length then run s
     else if (s.berthsRun || s.isTender) && decide (s.linksAt s.cfg.anchor < 32) then
       run (s.openLink s.cfg.anchor none true)
     else s)

/-- Link `k` closes. -/
def State.closeLink (s : State) (k : Nat) : State := s.upNb fun b => { b with links := b.links.eraseIdx k }

/-! Access-service frames (R289 to R293). -/

/-- A frame is discarded and counted (R289). -/
def State.foreignFrame (s : State) : State := s.upNb fun b => { b with foreign := satInc b.foreign }

/-- A frame has been received on link `k`. -/
def State.frameIn (s : State) (k : Nat) : State := s.modLink k fun l => { l with frames := l.frames + 1 }

/-- The HELLO of a berth in SIGHTED (R30, R289): the key's turn-round goes to its nearest bound. -/
def State.helloBerth (s : State) (n : Nat) (cred : BitVec 64) (gen caps : BitVec 8) (tk : BitVec 16) : State :=
  let s := (s.modSe n fun b => { b with caps := caps &&& 0x1F#8, tk := max 150 (min 600 tk.toNat) }).identify n cred
    (some gen)
  if s.berthIs n .hailed then s.askNonce n else s

/-- HELLO on link `k` (R285, R289): the link's first frame. A tender keeps no berths, and no message of R616 carries a
HELLO to its harbourmaster: it notes that one came (log entry 48). -/
def State.helloOn (s : State) (k : Nat) (l : Link) (token cred : BitVec 64) (gen caps : BitVec 8) (tk : BitVec 16) : State :=
  let first := l.frames == 0
  let s := (s.frameIn k).modLink k fun x => { x with hello := x.hello || first }
  if s.isTender then s else
  match l.berth with
  | some n => if first && s.berthIs n .sighted then s.helloBerth n cred gen caps tk else s.foreignFrame
  | none =>
    if !first || s.tokenHeld token then s.foreignFrame
    else
      let (s, o) := s.sight 0 (BitVec.ofNat 6 l.anchor) s.now
      match o with
      | none => s
      | some n =>
        ((s.modSe n fun b => { b with token := token }).modLink k fun x => { x with berth := some n }).helloBerth n
          cred gen caps tk

/-- HELLO (R285, R289). -/
def execHello (link : Nat) (token cred : BitVec 64) (gen caps : BitVec 8) (tk : BitVec 16) (s : State) :
    Host.Outcome State Fault Refusal :=
  match s.nb.links[link]? with
  | none => .next s
  | some l => s.whenDo ((s.berthsRun || (s.isTender && s.mainUp)) && s.moored 5) (s.helloOn link l token cred gen caps tk)

/-- HELLO_TIMEOUT (R285): 100 ms after the connection, without a HELLO. -/
def execHelloTimeout (link : Nat) (s : State) : Host.Outcome State Fault Refusal :=
  match s.nb.links[link]? with
  | none => .next s
  | some l => s.whenDo (l.periph && !l.hello && s.elapsed l.openAt (ms 100)) (s.closeLink link)

/-- A frame of the phone of berth `n`, accepted by `eff` where `ok` holds (R289). -/
def State.phoneFrame (s : State) (n : Nat) (ok : Bool) (eff : State → State) : Host.Outcome State Fault Refusal :=
  match s.linkOf n with
  | none => .next s
  | some k => s.whenDo (s.berthsRun && s.moored 5) (if ok then eff (s.frameIn k) else (s.frameIn k).foreignFrame)

/-- BLE_RESPONSE (R30, R290). -/
def execBleResponse (n : BitVec 8) (mac : BitVec 128) (s : State) : Host.Outcome State Fault Refusal :=
  let n := n.toNat
  let b := s.berth n
  let msg := b.se.nonce ++ le 8 b.se.token.toNat ++ le 8 b.id.cred.toNat ++ [b.id.gen]
  s.phoneFrame n (b.id.st == .hailed && b.id.kind == 0#3 && b.se.challengeSent) fun s =>
    s.withKey (.auth n) 3#2 4#4 5#5 msg.length fun key s =>
      if cmac key msg = be 16 mac.toNat then s.moor n else s.castOff n 5#8

/-- ENCRYPTION_REFUSED (R288). -/
def execEncryptionRefused (n : BitVec 8) (s : State) : Host.Outcome State Fault Refusal :=
  let b := s.berth n.toNat
  s.whenDo (s.berthsRun && s.moored 5 && b.id.kind == 0#3 && b.id.st.moored? && b.se.encrypted)
    ((s.modSe n.toNat fun b => { b with encrypted := false }).castOff n.toNat 0x0A#8)

/-- READY (R289, R292): rounds begin, or resume after a new SESSION, which may find the berth RANGED (R239). -/
def execReady (n : BitVec 8) (sid : BitVec 32) (mac : BitVec 64) (s : State) : Host.Outcome State Fault Refusal :=
  let n := n.toNat
  let b := s.berth n
  s.phoneFrame n (b.se.sessionSent && (b.id.st == .moored || (b.id.st == .ranged && !b.se.readyOk))) fun s =>
    match b.se.sid with
    | none => s
    | some k => s.withKey (.mac k) 3#2 4#4 5#5 4 fun key s =>
      if s.sidOf k = sid ∧ macOf key 8 (le 4 sid.toNat) = be 8 mac.toNat then
        s.modSe n fun b => { b with readyOk := true }
      else s

/-- FIELD_FRAME (R184, R289, R293): a phone's report. -/
def execFieldFrame (n : BitVec 8) (hailTag : BitVec 16) (seq a : BitVec 8) (field : Bytes) (mac : BitVec 32) (s : State) :
    Host.Outcome State Fault Refusal :=
  let n := n.toNat
  let b := s.berth n
  let count := matchCount b.lf.pollCount (seq.setWidth 2)
  s.phoneFrame n (b.id.st.moored? && b.lf.polled && hailTag == b.se.hailTag && field.length == 3 * a.toNat) fun s =>
    match b.se.sid with
    | none => s.reportRefused
    | some k =>
      let msg := le 4 (s.sidOf k).toNat ++ (le 2 hailTag.toNat ++ [seq, a] ++ field)
      s.withKey (.mac k) 3#2 4#4 1#5 msg.length fun key s =>
        if seq.toNat < 4 ∧ macOf key 4 msg = be 4 mac.toNat then s.takeReport n count field else s.reportRefused

/-- CLOSE (R289), whatever its REASON. -/
def execClose (n : BitVec 8) (_reason : BitVec 8) (s : State) : Host.Outcome State Fault Refusal :=
  s.phoneFrame n.toNat (s.berth n.toNat).id.st.live fun s => s.castOff n.toNat 0x0A#8

/-- ACCESS_FRAME_FOREIGN (R289): an unknown TYPE, a LEN that disagrees with it, or another frame than HELLO on a link
that serves no berth. -/
def execAccessFrameForeign (link : Nat) (typ len : BitVec 8) (s : State) : Host.Outcome State Fault Refusal :=
  let known := (typ == 1#8 && len == 22#8) || (typ == 3#8 && len == 16#8) || (typ == 5#8 && len == 12#8) ||
    (typ == 6#8 && 8 ≤ len.toNat && (len.toNat - 8) % 3 == 0) || (typ == 7#8 && len == 1#8)
  let alone := match s.nb.links[link]? with
    | some l => l.berth.isNone && typ != 1#8
    | none => false
  s.whenDo (s.berthsRun && s.moored 5 && decide (link < s.nb.links.length) && (!known || alone))
    ((s.frameIn link).foreignFrame)

/-- BLE_DISCONNECTION (R30). -/
def execBleDisconnection (n : BitVec 8) (s : State) : Host.Outcome State Fault Refusal :=
  match s.linkOf n.toNat with
  | none => .next s
  | some k => .next ((s.closeLink k).castOff n.toNat 0x0A#8)

/-! Synthesisers (R273 to R279). -/

/-- The state of synthesiser `w`: 0 BLE, 1 and 2 UHF. -/
def Nb.pll (b : Nb) (w : Nat) : Pll := if w = 0 then b.blePll else if w = 1 then b.uhf0Pll else b.uhf1Pll

/-- Synthesiser `w` in state `p`. -/
def Nb.setPll (b : Nb) (w : Nat) (p : Pll) : Nb :=
  if w = 0 then { b with blePll := p } else if w = 1 then { b with uhf0Pll := p } else { b with uhf1Pll := p }

/-- The temperature of the stored calibration of synthesiser `w`, 0x8000 when none is stored. -/
def Nb.calTemp (b : Nb) (w : Nat) : BitVec 16 := if w = 0 then b.tempBle else if w = 1 then b.tempUhf0 else b.tempUhf1

/-- The interrupt source of synthesiser `w` (R308). -/
def synthSource (w : Nat) : Nat := if w = 0 then 28 else 29

/-- A write of NBRADIO.CTRL (R275). -/
def State.nbCtrl (s : State) (v : BitVec 32) : State :=
  if v.getLsbD 0 then s.upNb fun b => { b with calReq := true } else s

/-- NBRADIO_CAL (R275). -/
def execNbradioCal (s : State) : Host.Outcome State Fault Refusal := .next (s.farWrite 0x50000 fun s => s.nbCtrl 1#32)

/-- A UHF answer window or sniff is open, or opens within `d` ticks (R140, R195, R276). -/
def State.uhfAir (s : State) (d : Nat) : Bool :=
  (s.lf.fallbacks.any fun f => f.state == .round || f.state == .window) ||
    (match s.lf.onAir with
    | some w => w.kind != .challenge && decide (w.notBefore < s.now + d)
    | none => false) ||
    (s.uhfRuns && s.tide.power == .standby && ((s.tide.sniffAt != 0 && decide (s.now < s.tide.sniffAt + ms 2)) ||
      decide (s.tide.sniffAt + ms 100 < s.now + d)))

/-- A BLE air event of this device is in progress, or one is planned within `d` ticks (R276): an advertising event, a
scan window, a connection event, a sounding procedure; nor does it cut a test short (R278). -/
def State.bleAirNear (s : State) (d : Nat) : Bool :=
  !s.nb.csRunning.isEmpty || decide (s.now < s.nb.airUntil) || decide (s.now < s.nb.testUntil) ||
    (s.bleRuns && s.bleChain && (decide (s.tide.burstAt + (if s.tide.power = .standby then sec s.burstPeriod else ms 100) < s.now + d) ||
      s.nb.links.any fun l => l.anchor == s.cfg.anchor &&
        decide (l.supervision + us (1250 * l.interval.toNat) < s.now + d)))

/-- SYNTH_CALIBRATION (R276): in the first gap of 400 µs or more between air events of the synthesiser. -/
def execSynthCalibration (which : BitVec 2) (s : State) : Host.Outcome State Fault Refusal :=
  let w := which.toNat
  s.whenDo (s.mainUp && s.tide.power != .deep && s.nb.calDue.getLsbD w && s.nb.pll w != .calibrating &&
      !(if w = 0 then s.bleAirNear (us 400) else s.uhfAir (us 400)))
    (s.upNb fun b => { (b.setPll w .calibrating) with
      calDue := setBit b.calDue w false, calTries := b.calTries.set w 0 })

/-- The BLE synthesiser is locked, and nothing is held any more (R278). -/
def State.bleLocked (s : State) : State := s.upNb fun b => { b with blePll := .locked, held := [] }

/-- A test runs its packets from tick `a`, spaced 625 µs (R142, R307, R310). -/
def State.runTest (s : State) (a : Nat) : State :=
  let k := s.nb.testFrames.toNat
  let stop := a + us (625 * k)
  (((s.bleOn s.nb.connPower.force a stop).upNb fun b => { b with testUntil := stop }).scanEnds a).freePackets k

/-- What a held transmission does that starts after the lock, 2 µs later (R278); the return loss of a connection event's
packet that waited is free (R307). -/
def State.heldSends (s : State) (h : HeldTx) : State :=
  let a := s.now + us 2
  if h.kind = 0#2 then s.advSent (BitVec.ofNat 8 h.ref) a
  else if h.kind = 1#2 then (s.serveLink h.ref (Config.returnLoss s.nb.measured) a).upNb fun b => { b with measured := b.measured + 1 }
  else if h.kind = 3#2 then s.runTest a
  else s.bleLate h

/-- What the held transmissions do once the synthesiser has locked (R278, R279): the first inside its tolerance
starts 2 µs later, the others are abandoned (log entry 56). -/
def State.serveHeldTx (s : State) : State :=
  let fits (h : HeldTx) : Bool := decide (s.now + us 2 < h.planned + h.tol)
  let first := s.nb.held.find? fits
  let t := (if first.isNone then s.nb.held else s.nb.held.erase (first.getD HeldTx.reset)).foldl State.bleLate s.bleLocked
  match first with
  | none => t
  | some h => t.heldSends h

/-- A calibration succeeds: its temperature and the image rejection are stored (R274, R275). -/
def State.synthCalibrated (s : State) (w : Nat) (temp : BitVec 16) (irr : List (BitVec 8)) : State :=
  let s := s.upNb fun b =>
    if w = 0 then { b with
      tempBle := temp, irrBle := BitVec.ofNat 32 (leAt irr 0 4), tuner := if b.tuner = 2#2 then 0#2 else b.tuner
      tunerRun := 0 }
    else if w = 1 then { b with
      tempUhf0 := temp, uhfOut := setBit b.uhfOut 0 false
      irrUhf := BitVec.ofNat 16 (byteAt irr 0 + 256 * (b.irrUhf.toNat / 256)) }
    else { b with
      tempUhf1 := temp, uhfOut := setBit b.uhfOut 1 false
      irrUhf := BitVec.ofNat 16 (b.irrUhf.toNat % 256 + 256 * byteAt irr 0) }
  if w = 0 then s.serveHeldTx else s.upNb fun b => b.setPll w .locked

/-- The BLE transmissions that were held are abandoned (R278). -/
def State.dropHeld (s : State) : State := s.nb.held.foldl State.bleLate (s.upNb fun b => { b with held := [] })

/-- A calibration fails: twice more, then FAIL (R277), and what was held for the BLE synthesiser is too late. -/
def State.synthFailed (s : State) (w : Nat) : State :=
  let k := s.nb.calTries.getD w 0 + 1
  if k < 3 then s.upNb fun b => { b with calTries := b.calTries.set w k }
  else
    let s := s.upNb fun b => { (b.setPll w .fail) with
      calTries := b.calTries.set w 0, uhfOut := if w = 0 then b.uhfOut else setBit b.uhfOut (w - 1) true }
    if w = 0 then s.dropHeld else s

/-- SYNTH_CAL_DONE (R274, R277, R308). -/
def execSynthCalDone (which : BitVec 2) (ok : Bool) (temp : BitVec 16) (irr : List (BitVec 8)) (s : State) :
    Host.Outcome State Fault Refusal :=
  let w := which.toNat
  s.whenDo (s.mainUp && decide (w < 3) && s.nb.pll w == .calibrating)
    ((if ok then s.synthCalibrated w temp irr else s.synthFailed w).latch (synthSource w))

/-- SYNTH_LOCK (R277, R278). -/
def execSynthLock (s : State) : Host.Outcome State Fault Refusal :=
  let up (p : Pll) : Pll := if p = .locking then .locked else p
  let t := s.upNb fun b => { b with uhf0Pll := up b.uhf0Pll, uhf1Pll := up b.uhf1Pll }
  s.whenDo (s.mainUp && (s.nb.blePll == .locking || s.nb.uhf0Pll == .locking || s.nb.uhf1Pll == .locking))
    (if s.nb.blePll = .locking then t.serveHeldTx else t)

/-- What was on the air as the BLE synthesiser lost lock is outside its window (R278, R279): a sounding procedure is
abandoned and tried again at the next tide, a test ends. -/
def State.bleStops (s : State) : State :=
  let own := s.nb.csRunning.filter fun c => s.isTender || s.linkAnchor c.1 == s.cfg.anchor
  let test : Bool := decide (s.now < s.nb.testUntil)
  let s := s.upNb fun b => { b with
    csRunning := b.csRunning.filter fun c => !own.contains c, testUntil := 0, txUntil := min b.txUntil s.now
    scanUntil := min b.scanUntil s.now }
  let s := (own.map fun c => { kind := 2#2, planned := s.now, tol := 32, ref := c.1 : HeldTx }).foldl State.bleLate s
  if test then s.bleLate { kind := 3#2, planned := s.now, tol := us 100, ref := 0 } else s

/-- SYNTH_LOSS_OF_LOCK (R278, R279, R308). -/
def execSynthLossOfLock (which : BitVec 2) (s : State) : Host.Outcome State Fault Refusal :=
  let w := which.toNat
  let t := (s.upNb fun b => b.setPll w .locking).latch (synthSource w)
  s.whenDo (s.mainUp && decide (w < 3) && s.nb.pll w == .locked)
    (if w = 0 then t.bleStops else t)

/-! Channel sounding (R299 to R304, R310). -/

/-- Sounding is possible for berth `n` (R139, R140, R299, R301). -/
def State.canSound (s : State) (n : Nat) : Bool :=
  let b := s.berth n
  b.id.kind == 0#3 && b.id.st.moored? && b.se.encrypted && b.se.caps.getLsbD 4 && (s.linkOf n).isSome &&
    s.moored 6 && (s.tide.power == .service || s.tide.power == .drive) && s.mainUp

/-- A procedure of 10 ms fits, 550 µs before the next boundary (R301). -/
def State.soundFits (s : State) : Bool := s.now + us 10550 ≤ s.tideEnd

/-- A sounding procedure begins. -/
def State.soundBegin (s : State) (n : Nat) : State :=
  s.upNb fun b => { b with csWait := b.csWait.filter (· != n), csRunning := (n, s.tide.number) :: b.csRunning }

/-- A sounding procedure on this device's own chain, of at most 10.0 ms (R142, R301): the return loss of its three mode-0
packets is measured (R307). -/
def State.soundHere (s : State) (n : Nat) : State :=
  s.bleTakes.bleSend { kind := 2#2, planned := s.now, tol := 32, ref := n } fun s =>
    ((((s.soundBegin n).scanEnds s.now).bleOn s.nb.connPower.force s.now (s.now + ms 10)).freePackets 3)

/-- A SCHEDULE instant of sounding for berth `n` has come at a tender (R630). -/
def State.soundOrder (s : State) (n : Nat) (e : Nat × Bytes) : Bool :=
  byteAt e.2 0 == 3 && byteAt e.2 1 == n && decide (e.1 ≤ s.now)

/-- Sounding is possible at a tender that a SCHEDULE message names it to, or that tries it again (R279). -/
def State.tenderSounds (s : State) (n : Nat) : Bool :=
  s.cfg.role == .tender && s.mainUp && s.moored 6 && (s.tide.power == .service || s.tide.power == .drive) &&
    (s.tend.sched.any (s.soundOrder n) || s.nb.csWait.contains n)

/-- A sounding procedure, or a link event of this device, holds the BLE chain of anchor `a` (R142, R273). -/
def State.chainSounds (s : State) (a : Nat) : Bool :=
  (s.nb.csRunning.any fun c => s.linkAnchor c.1 == a) || (a == s.cfg.anchor && decide (s.now < s.nb.linkUntil))

/-- CS_PROCEDURE (R301): a procedure that does not fit waits for the next tide. It runs on the anchor that holds
the link, when no other procedure holds its chain (R273); a tender runs what SCHEDULE names to it (R630). -/
def execCsProcedure (n : BitVec 8) (s : State) : Host.Outcome State Fault Refusal :=
  let n := n.toNat
  if s.tenderSounds n then
    s.whenDo (s.soundFits && !s.inAir && !s.bleTaken)
      ((s.upTend fun t => { t with sched := t.sched.filter fun e => !s.soundOrder n e }).soundHere n)
  else
    s.whenDo (s.canSound n && s.soundFits && s.nb.csWait.contains n && !s.inAir && !s.chainSounds (s.linkAnchor n))
      (if s.linkAnchor n = s.cfg.anchor then s.soundHere n else s.soundBegin n)

/-- Phases unwrapped (R302), in turns of 2^-16: each step lies within half a turn. -/
def unwrapTurns : Int → List Int → List Int
  | _, [] => []
  | p, x :: r =>
    let d := (x - p + 32768) % 65536 - 32768
    (p + d) :: unwrapTurns (p + d) r

/-- Frequency of a sounding channel in MHz (R302). -/
def csFreq (k : BitVec 7) : Nat := 2402 + k.toNat

/-- The least-squares slope of points (R302). -/
def slope (pts : List (Rat × Rat)) : Rat :=
  let n : Rat := pts.length
  let mx := (pts.map (·.1)).sum / n
  let my := (pts.map (·.2)).sum / n
  (pts.map fun p => (p.1 - mx) * (p.2 - my)).sum / (pts.map fun p => (p.1 - mx) * (p.1 - mx)).sum

/-- A channel of channel sounding (R299). -/
def csChannel (k : BitVec 7) : Bool := (decide (2 ≤ k.toNat) && decide (k.toNat ≤ 22)) ||
  (decide (26 ≤ k.toNat) && decide (k.toNat ≤ 76))

/-- The data channel in whose 2 MHz a sounding channel lies (R280, R299; log entry 56). -/
def csData (k : Nat) : Nat := if k ≤ 22 then (k - 1) / 2 else (k - 3) / 2

/-- The points of one chain (R299, R302): the round-trip phase of each step on a channel that the link's channel map
admits and whose quality is high at both ends. -/
def csPoints (map : BitVec 37) (steps : List CsTone) : List (BitVec 7 × Int) :=
  (steps.filter fun x => csChannel x.channel && map.getLsbD (csData x.channel.toNat) && x.high && x.reflHigh).map fun x =>
    (x.channel, x.init + x.refl)

/-- The distance of one chain in mm (R302), none with fewer than 24 tones: a slope of turns over MHz. -/
def chainRange (tones : List (BitVec 7 × Int)) : Option Rat :=
  if tones.length < 24 then none
  else
    let l := orderBy (fun a b => decide (a.1.toNat < b.1.toNat)) tones
    let ph := unwrapTurns ((l.map (·.2)).headD 0) (l.map (·.2))
    let k := slope ((l.map fun t => ((csFreq t.1 : Nat) : Rat)).zip (ph.map fun p => (p : Rat) / 65536))
    some (-k * 299792458 / 2 / 1000)

/-- The chains that gave a range, with their number, range and tones (R302). -/
def validChains (map : BitVec 37) (chains : List (List CsTone)) : List (Nat × Rat × Nat) :=
  ((chains.map (csPoints map)).mapIdx fun i c => (i, chainRange c, c.length)).filterMap fun x => match x.2.1 with
    | some d => if 100 ≤ d ∧ d < 18000 then some (x.1, d, x.2.2) else none
    | none => none

/-- The median of sorted values, the mean of the middle two where their count is even (R302). -/
def median (l : List Rat) : Rat :=
  let k := l.length / 2
  if l.length % 2 = 1 then l.getD k 0 else (l.getD (k - 1) 0 + l.getD k 0) / 2

/-- Phase range and spread (R302, R303), none with fewer than two valid chains. -/
def phaseRange (v : List (Nat × Rat × Nat)) : Option (Nat × Nat) :=
  let ds := orderBy (fun a b => decide (a < b)) (v.map (·.2.1))
  if ds.length < 2 then none
  else some ((roundQ (median ds)).toNat, min 65534 (roundQ (ds.getLastD 0 - ds.headD 0)).toNat)

/-- BLE chain `c` of this device is routed to sink 3 (R85, R86, R300). -/
def State.sounds (s : State) (c : Nat) : Bool :=
  !s.cfg.routeGiven || s.cfg.route.any fun r => r.1 == 4 + c && r.2.getLsbD 3

/-- The set of a procedure from its valid chains (R302, R303, R310). -/
def csSet (tide : BitVec 32) (v : List (Nat × Rat × Nat)) : CsRes :=
  let r := phaseRange v
  { dist := (r.map fun x => BitVec.ofNat 16 x.1).getD 0xFFFF#16
    spread := (r.map fun x => BitVec.ofNat 16 x.2).getD 0xFFFF#16
    valid := true, chains := ofBits 4 (v.map (·.1))
    tones := BitVec.ofNat 7 ((v.map (·.2.2)).min?.getD 0), tide := tide.setWidth 16 }

/-- The set `res` of a procedure of berth `n` at anchor `a` (R303, R310): a phase range is a measurement. -/
def State.soundSet (s : State) (n a : Nat) (tide : BitVec 32) (res : CsRes) : State :=
  let s := s.upNb fun b => { b with
    csRunning := b.csRunning.filter fun c => c.1 != n, csResults := bindTo b.csResults n res }
  if res.dist = 0xFFFF#16 then s
  else s.measure n { Meas.reset with
      kind := .phaseRange, anchor := a, tide := tide, val := res.dist.toNat, val2 := res.spread.toNat
      val3 := popCount res.chains, valid := true }

/-- CS_RESULTS of this device's anchor (R302, R303, R310). -/
def State.soundResult (s : State) (n : Nat) (tide : BitVec 32) (chains : List (List CsTone)) : State :=
  let map := (s.nb.links.getD ((s.linkOf n).getD 0) Link.reset).chanMap
  s.soundSet n s.cfg.anchor tide (csSet tide ((validChains map chains).filter fun x => s.sounds x.1))

/-- A tender's results travel to the harbourmaster (R309, ROUTE bit 6, log entry 28). -/
def State.soundExport (s : State) (n : Nat) (tide : BitVec 32) (chains : List (List CsTone)) : State :=
  let r := csSet tide ((validChains Link.reset.chanMap chains).filter fun x => s.sounds x.1)
  let s := s.upNb fun b => { b with csRunning := b.csRunning.filter fun c => c.1 != n }
  match s.upPort? with
  | none => s
  | some p =>
    if s.exports [4, 5, 6, 7] && s.moored 26 && s.upLive then
      s.pierPost p 0x21 0#32 ([3#8, BitVec.ofNat 8 n] ++ le 4 tide.toNat ++ le 2 r.dist.toNat ++ le 2 r.spread.toNat ++
        [r.chains.setWidth 8, r.tones.setWidth 8])
    else s

/-- CS_RESULTS (R303, R309): of this device's anchor; what a tender's anchor measured comes as its RESULT. -/
def execCsResults (n : BitVec 8) (chains : List (List CsTone)) (s : State) : Host.Outcome State Fault Refusal :=
  match tableGet s.nb.csRunning n.toNat with
  | none => .next s
  | some t => if s.cfg.role = .tender then s.whenDo s.mainUp (s.soundExport n.toNat t chains) else s.whenDo (s.mainUp && (s.berth n.toNat).id.st.moored? && s.linkAnchor n.toNat == s.cfg.anchor) (s.soundResult n.toNat t chains)

/-- A write of NBRADIO.CS_SEL (R310). -/
def State.csSelect (s : State) (v : BitVec 32) : State :=
  s.upNb fun b => { b with csSel := v.setWidth 8, csView := (tableGet b.csResults (fieldN v 7 0)).getD CsRes.reset }

/-- CS_SEL_WRITE (R310). -/
def execCsSelWrite (v : BitVec 32) (s : State) : Host.Outcome State Fault Refusal :=
  .next (s.farWrite 0x50030 fun s => s.csSelect v)

/-- TEST.GO (R114, R139, R279, R310): refused while sounding or a link event holds the chain, while a transmission is held, in RETURN, and
while diagnostics are unmoored. -/
def State.nbTestStart (s : State) : State :=
  if !s.nb.csRunning.isEmpty || !s.nb.held.isEmpty || s.now < s.nb.linkUntil || s.tide.life == .returned || !s.moored 25 then
    s.notice 3 0x50040
  else s.bleSend { kind := 3#2, planned := s.now, tol := us 100, ref := 0 } fun s => s.runTest s.now

/-- A write of NBRADIO.TEST: values out of range are stored as the nearest, with a notice (R310). -/
def State.nbTest (s : State) (v : BitVec 32) : State :=
  let chan := fieldN v 13 8
  let fr := fieldN v 31 24
  let t := s.upNb fun b => { b with testChan := BitVec.ofNat 6 (min chan 39), testFrames := BitVec.ofNat 8 (max fr 1) }
  let t := if v.getLsbD 0 then t.nbTestStart else t
  s.oneNotice (t.noticeIf (39 < chan || fr == 0) 1 0x50040)

/-- NBRADIO_TEST_GO (R279). -/
def execNbradioTestGo (v : BitVec 32) (s : State) : Host.Outcome State Fault Refusal :=
  .next (s.farWrite 0x50040 fun s => s.nbTest (v ||| 1#32))

/-! The boundary (R10, R221, R275, R277, R297). -/

/-- A temperature differs by more than 4.0 °C from that of a stored calibration, or none is stored. -/
def tempMoved (stored now : BitVec 16) : Bool :=
  stored == 0x8000#16 || decide (32 < (now.toInt - stored.toInt).natAbs)

/-- A synthesiser's state as the power state and its stored calibration have it (R275, R277). -/
def pllPower (up : Bool) (stored : BitVec 16) (p : Pll) : Pll :=
  if !up then .off else if p = .off ∧ stored ≠ 0x8000#16 then .locking else p

/-- UHF_JAM at a boundary (R297, R331): for the tide just ended, `ended`. -/
def State.jamBoundary (s : State) (ended : BitVec 32) (jam : List (BitVec 6 × BitVec 2)) : State :=
  let own := ((jam.find? fun j => j.1.toNat == s.cfg.anchor).map (·.2)).getD 0#2
  let met := (jam.filter fun j => j.2 != 0#2).map fun j => (j.1.toNat, j.2, ended)
  (s.upNb fun b => { b with
    jam := own, jamTides := met ++ b.jamTides.filter fun j => (ended - j.2.2).toNat < 8 }).latchIf (own != s.nb.jam) 29

/-- The narrowband synthesisers follow the power state (R275, R277). -/
def State.nbPower (s : State) : State :=
  let up := s.tide.power != .deep
  let band (k : Nat) : Bool := fieldN s.cfg.radio.uhfBands (2 * k + 1) (2 * k) != 3
  s.upNb fun b => { b with
    blePll := pllPower up b.tempBle b.blePll
    uhf0Pll := pllPower (up && band 0) b.tempUhf0 b.uhf0Pll
    uhf1Pll := pllPower (up && band 1) b.tempUhf1 b.uhf1Pll }

/-- The narrowband radio block at a boundary, after the power state has changed (R10, R275). -/
def State.nbBoundary (s : State) (temp : BitVec 16) : State :=
  let up := s.tide.power != .deep
  let band (k : Nat) : Bool := fieldN s.cfg.radio.uhfBands (2 * k + 1) (2 * k) != 3
  let due (w : Nat) : Bool := up && (w == 0 || band (w - 1)) &&
    (s.nb.calReq || s.nb.pll w == .fail || tempMoved (s.nb.calTemp w) temp)
  (s.upNb fun b => { b with
    calReq := b.calReq && !up
    calDue := b.calDue ||| ofBits 3 ((List.range 3).filter due)
    advPower := b.advPower.boundary s.now, connPower := b.connPower.boundary s.now
    company := b.company.boundary s.now, interval := b.interval.boundary s.now
    csWait := (b.csWait ++ b.csNext.filter fun n => !b.csWait.contains n).filter fun n => s.isTender || (s.berth n).id.st.moored?
    csNext := []
    csRunning := b.csRunning.filter fun c => s.cfg.role == .tender || (s.berth c.1).id.st.moored? }).nbPower

end Sys2Proof.Machine
end

