-- ==== Sys2Proof/Machine/Image.lean ====
section
/-! DEFINITION. Manifest images: the layout of the sections and every check that VERIFY makes
(R71 to R94, R174 to R177, R266, R267, R319, R320, R749 to R751), and the settings that an image
gives one anchor. -/

namespace Sys2Proof.Machine

/-- What R78 counts while an image is read: fields replaced, and the section of the first one. -/
structure Clamps where
  /-- replacements -/
  count : Nat
  /-- section identifier of the first one -/
  first : Nat
deriving DecidableEq, Repr

/-- A check of an image: it goes on with a value and the clamps so far, or refuses with RESULT and DETAIL. -/
abbrev Ck (α : Type) := StateT Clamps (Except (Nat × Nat)) α

/-- Refused with RESULT `r` and DETAIL `d` (R748). -/
def refuse {α : Type} (r d : Nat) : Ck α := fun _ => .error (r, d)

/-- Refused where `bad` holds. -/
def refuseIf (bad : Bool) (r d : Nat) : Ck Unit := if bad then refuse r d else pure ()

/-- STRUCTURE, concerning section `d`. -/
def structureIf (bad : Bool) (d : Nat) : Ck Unit := refuseIf bad 11 d

/-- LENGTH, concerning section `d`. -/
def lengthIf (bad : Bool) (d : Nat) : Ck Unit := refuseIf bad 2 d

/-- CONFLICT, concerning section `d`. -/
def conflictIf (bad : Bool) (d : Nat) : Ck Unit := refuseIf bad 10 d

/-- A field of section `sec` that is replaced where `b` holds counts (R78). -/
def noteIf (b : Bool) (sec : Nat) : Ck Unit :=
  modify fun c => if b then { count := c.count + 1, first := if c.count = 0 then sec else c.first } else c

/-- A field replaced by `v` where it differs from it (R78). -/
def become (sec : Nat) (old v : Nat) : Ck Nat := do
  noteIf (old != v) sec
  pure v

/-- A field set to the nearest bound of its range. -/
def near (sec lo hi v : Nat) : Ck Nat := become sec v (max lo (min v hi))

/-- A signed field set to the nearest bound of its range. -/
def nearInt (sec : Nat) (lo hi v : Int) : Ck Int := do
  let w := max lo (min v hi)
  noteIf (v != w) sec
  pure w

/-- A field outside `ok` that takes its default. -/
def orElse (sec : Nat) (ok : Bool) (dflt v : Nat) : Ck Nat := become sec v (if ok then v else dflt)

/-- A field of which only the bits of `keep` stay. -/
def keepBits (sec keep v : Nat) : Ck Nat := become sec v (v &&& keep)

/-- What a check of a section yields once the image has passed. -/
def Ck.value {α : Type} (c : Ck α) (dflt : α) : α :=
  match c { count := 0, first := 0 } with
  | .ok (a, _) => a
  | .error _ => dflt

/-! The sections on their own (step 12 of R751). -/

/-- ROLE: the role code and LINK_MASK (R78). -/
def readRole (b : Bytes) : Ck (Nat × Nat) := do
  let role := byteAt b 0
  structureIf (decide (2 < role)) 1
  let mask ← become 1 (leAt b 4 4) (if role = 0 then 0 else leAt b 4 4)
  pure (role, mask)

/-- One PINS entry (R78, R82). -/
def readPin (b : Bytes) : Ck PinCfg := do
  let f ← orElse 2 (decide (byteAt b 0 ≤ 8)) 0 (byteAt b 0)
  let g := byteAt b 1
  let g ← become 2 g (if g / 4 % 4 = 3 then g - 12 else g)
  let p := leAt b 2 2
  structureIf (f == 5 && decide (2 < p) || f == 6 && decide (7 < p)) 2
  let p ← near 2 (if f = 1 then 10 else 0) (if f = 1 then 2000 else if f = 7 then 50 else 65535) p
  pure { func := BitVec.ofNat 8 f, flags := BitVec.ofNat 8 g, param := BitVec.ofNat 16 p }

/-- PINS. -/
def readPins (b : Bytes) : Ck (List PinCfg) := (List.range 24).mapM fun k => readPin (slice b (4 * k) 4)

/-- RADIO. -/
def readRadio (b : Bytes) : Ck RadioCfg := do
  let ch ← orElse 3 (byteAt b 0 == 5 || byteAt b 0 == 9) 9 (byteAt b 0)
  let chains ← keepBits 3 0x3F (byteAt b 1)
  let tx ← near 3 0 60 (byteAt b 2)
  let bands ← keepBits 3 0x0F (byteAt b 3)
  let freq ← near 3 11750 13250 (leAt b 6 2)
  let lfMax ← near 3 1 4 (byteAt b 8)
  pure { uwbChannel := ch, uwbChains := BitVec.ofNat 8 chains, bleTxMax := tx
         uhfBands := BitVec.ofNat 8 bands, lfEnable := BitVec.ofNat 16 (leAt b 4 2), lfFreq := freq, lfMax := lfMax }

/-- The sinks 0 to 5 that a source may reach. -/
def validSinks (src : Nat) : Nat := if src < 4 then 0x07 else if src < 8 then 0x18 else 0x20

/-- ROUTE (R84). -/
def readRoute (b : Bytes) : Ck (List (Nat × BitVec 8)) :=
  (List.range (b.length / 4)).foldlM (fun acc k => do
    let src := byteAt b (4 * k)
    let sinks := byteAt b (4 * k + 1)
    structureIf (decide (9 < src) || decide (128 ≤ sinks) || decide (sinks % 64 ||| validSinks src ≠ validSinks src) ||
      acc.any fun e => e.1 == src) 4
    pure (acc ++ [(src, BitVec.ofNat 8 sinks)])) []

/-- The least number of pages of each partition. -/
def minPages : List Nat := [64, 32, 16, 16, 0, 4, 0]

/-- MEMORY (R87): the pages of partitions 0 to 6. The spec does not say whether an undefined PARTITION entry
that is dropped counts in CLAMPS, nor whether two equal ones are doubled: it counts, and they are not refused
(DESIGN CHOICE, log entry 50). -/
def readMemory (b : Bytes) : Ck (List Nat) := do
  let found ← (List.range (b.length / 4)).foldlM (fun (acc : List (Nat × Nat)) k => do
    let p := byteAt b (4 * k)
    noteIf (decide (6 < p)) 5
    structureIf (acc.any fun e => e.1 == p) 5
    if 6 < p then pure acc
    else
      let n ← near 5 (minPages.getD p 0) 65535 (leAt b (4 * k + 2) 2)
      pure (acc ++ [(p, n)])) []
  pure (Settings.reset.pages.mapIdx fun p n => (tableGet found p).getD n)

/-- TIDE: the four lengths, LF_POLL and the timer owners. -/
def readTide (b : Bytes) : Ck (List Nat × Bool × List (BitVec 4)) := do
  let len ← (List.range 4).mapM fun k => near 6 1 1024 (leAt b (2 * k) 2)
  let poll ← near 6 0 1 (byteAt b 8)
  let owners ← (List.range 16).mapM fun k => orElse 6 (decide (byteAt b (12 + k) ≤ 8)) 0 (byteAt b (12 + k))
  pure (len, poll == 1, owners.map (BitVec.ofNat 4))

/-- BERTHS: COUNT, HAIL_MS, QUIET_S, RANGING and FAR_S. -/
def readBerths (b : Bytes) : Ck (List Nat) := do
  let count ← near 7 1 256 (leAt b 0 2)
  let hail ← near 7 20 500 (leAt b 2 2)
  let quiet ← near 7 1 30 (byteAt b 4)
  let ranging ← near 7 1 64 (byteAt b 5)
  let far ← near 7 5 300 (leAt b 6 2)
  pure [count, hail, quiet, ranging, far]

/-- One POLICY rule (R78, R91). What R91 forces inside a field's range is no replacement of R78 and does not
count. A TARGET of an ACTION 2 or 3 that is not 0 is neither refused nor replaced: the spec names no
consequence (DESIGN CHOICE, log entry 50). -/
def readRule (b : Bytes) : Ck Rule := do
  let act := byteAt b 5
  structureIf (byteAt b 0 == 0 || decide (10 < byteAt b 1) || decide (3 < act)) 8
  structureIf (act == 2 && byteAt b 1 != 1) 8
  let ticket := act == 2
  let zones ← keepBits 8 0x7F (byteAt b 2)
  let conf ← near 8 0 3 (byteAt b 3)
  let veto := if ticket then 0xFF else byteAt b 4
  pure { id := BitVec.ofNat 8 (byteAt b 0), trigger := BitVec.ofNat 8 (byteAt b 1)
         zones := BitVec.ofNat 8 (if ticket then 0x10 else zones)
         minConf := BitVec.ofNat 8 (max (if ticket then 2 else 1) conf)
         veto := BitVec.ofNat 8 veto, action := BitVec.ofNat 8 act
         target := BitVec.ofNat 16 (leAt b 6 2), raw := padTo 8 b }

/-- POLICY (R78, R89). -/
def readPolicy (b : Bytes) : Ck (List Rule) := do
  structureIf (decide (64 < leAt b 0 2)) 8
  (List.range (leAt b 0 2)).foldlM (fun acc k => do
    let r ← readRule (slice b (8 + 8 * k) 8)
    structureIf (acc.any fun q => q.id == r.id) 8
    pure (acc ++ [r])) []

/-- One CAN entry (R78, R414). -/
def readCan (b : Bytes) : Ck CanCfg := do
  let owner ← orElse 10 (decide (byteAt b 0 ≤ 4)) 0 (byteAt b 0)
  let retry ← orElse 10 (byteAt b 1 != 0) 16 (byteAt b 1)
  let nominal ← near 10 10 1000 (leAt b 2 2)
  let data := leAt b 4 2
  let data ← become 10 data
    (min (if owner = 2 then 2000 else 8000) (if data = 0 then 0 else max (min data 8000) nominal))
  let sample ← near 10 500 900 (leAt b 6 2)
  let triple := byteAt b 8 % 2 == 1
  noteIf (triple && decide (125 < nominal)) 10
  pure { owner := BitVec.ofNat 8 owner, retry := retry, nominal := nominal, data := data, sample := sample
         triple := triple && decide (nominal ≤ 125) }

/-- CAN. -/
def readCans (b : Bytes) : Ck (List CanCfg) := (List.range 8).mapM fun k => readCan (slice b (12 * k) 12)

/-- LOCK. -/
def readLock (b : Bytes) : Ck LockCfg := do
  let ticket ← near 11 5 120 (byteAt b 0)
  let ids ← (List.range 4).mapM fun k =>
    let v := leAt b (4 + 4 * k) 4
    keepBits 11 (if 2 ^ 31 ≤ v then 0x9FFFFFFF else 0x7FF) v
  let ident (k : Nat) : BitVec 32 := BitVec.ofNat 32 (ids.getD k 0)
  pure { ticketS := ticket, idRequest := ident 0, idChallenge := ident 1, idAnswer := ident 2, idStatus := ident 3 }

/-- NFC: PORTS, READER_ZONE, READER_CONF, TAG_ZONE and TAG_CONF. -/
def readNfc (b : Bytes) : Ck (List Nat) := do
  let ports ← keepBits 12 7 (byteAt b 0)
  let rz ← orElse 12 (decide (byteAt b 1 ≤ 5)) 2 (byteAt b 1)
  let rc ← near 12 0 3 (byteAt b 2)
  let tz ← orElse 12 (decide (byteAt b 3 ≤ 5)) 4 (byteAt b 3)
  let tc ← near 12 0 3 (byteAt b 4)
  pure [ports, rz, rc, tz, tc]

/-! The chart (R93, R174 to R179, R266, R267, R319, R320, R750). -/

/-- Three signed 16-bit numbers at an offset. -/
def xyzAt (b : Bytes) (o : Nat) : Int × Int × Int := (i16At b o, i16At b (o + 2), i16At b (o + 4))

/-- What the chart says of one anchor (R266). -/
structure ChartAnchor where
  /-- X, Y, Z -/
  pos : Int × Int × Int
  /-- YAW, PITCH, ROLL -/
  rot : Int × Int × Int
  /-- TX_DELAY -/
  txDelay : Nat
  /-- RX_DELAY -/
  rxDelay : Nat
  /-- TX_CHAIN -/
  txChain : Nat
  /-- FLAGS -/
  flags : BitVec 8
deriving DecidableEq, Repr

/-- A kind 1 entry (R266). -/
def readPosition (b : Bytes) : Ck ChartAnchor := do
  let yaw ← nearInt 9 (-1800) 1799 (i16At b 6)
  let pitch ← nearInt 9 (-1800) 1799 (i16At b 8)
  let roll ← nearInt 9 (-1800) 1799 (i16At b 10)
  let chain ← orElse 9 (decide (byteAt b 16 ≤ 1)) 0 (byteAt b 16)
  let flags ← keepBits 9 7 (byteAt b 17)
  pure { pos := xyzAt b 0, rot := (yaw, pitch, roll), txDelay := leAt b 12 2, rxDelay := leAt b 14 2
         txChain := chain, flags := BitVec.ofNat 8 flags }

/-- The lowest four bits set in a mask. -/
def lowFour (m : Nat) : Nat := (ofBits 16 ((bitsOf (BitVec.ofNat 16 m)).take 4)).toNat

/-- A mask of at most 4 antennas (R174). -/
def readMask (v : Nat) : Ck (BitVec 16) := do
  let m ← become 9 v (lowFour v)
  pure (BitVec.ofNat 16 m)

/-- An antenna entry (R175) of the kind 2 subsection `sub`, its map taken with it (R179). -/
def readAntenna (tenders : Nat) (sub : Bytes) (k : Nat) : Ck AntCfg := do
  let b := slice sub (8 + 16 * k) 16
  structureIf (decide (tenders < byteAt b 0) || decide (15 < byteAt b 1)) 9
  let target ← near 9 50 1500 (leAt b 2 2)
  let nx ← near 9 0 64 (byteAt b 10)
  let ny ← near 9 0 64 (byteAt b 11)
  let nz ← near 9 0 64 (byteAt b 12)
  let size := 3 * nx * ny * nz
  let off := 8 * leAt b 14 2
  lengthIf (size != 0 && decide (sub.length < off + size)) 9
  pure { anchor := byteAt b 0, driver := byteAt b 1, itarget := target, box := xyzAt b 4, grid := (nx, ny, nz)
         map := if size = 0 then [] else slice sub off size }

/-- The LF part of the chart (R174 to R176): REF_MA, POLL_MASK, the antennas and the handle masks. -/
def readField (tenders ants handles : Nat) (sub : Bytes) :
    Ck (Nat × BitVec 16 × List AntCfg × List (BitVec 16)) := do
  let ref ← near 9 100 1500 (leAt sub 0 2)
  let poll ← readMask (leAt sub 2 2)
  let as ← (List.range ants).foldlM (fun (acc : List AntCfg) k => do
    let a ← readAntenna tenders sub k
    conflictIf (acc.any fun q => q.anchor == a.anchor && q.driver == a.driver) 9
    pure (acc ++ [a])) []
  let masks ← (List.range handles).mapM fun h => readMask (leAt sub (0x108 + 4 * h) 2)
  pure (ref, poll, as, masks)

/-- The turn at the vertex between two edges: positive where it is counter-clockwise. -/
def turn (a b c : Int × Int) : Int := (b.1 - a.1) * (c.2 - b.2) - (b.2 - a.2) * (c.1 - b.1)

/-- The edge from one vertex to another points up, or along the positive x axis. -/
def upward (a b : Int × Int) : Bool := decide (a.2 < b.2) || (a.2 == b.2 && decide (a.1 < b.1))

/-- Twice the area that a polygon encloses, positive where it runs counter-clockwise. -/
def area2 (poly : List (Int × Int)) : Int := ((edges poly).map fun e => e.1.1 * e.2.2 - e.2.1 * e.1.2).sum

/-- A polygon is convex and counter-clockwise (R320): equal neighbours and clockwise turns nowhere,
one turn in all, and an area. -/
def convex (poly : List (Int × Int)) : Bool :=
  let next := poly.rotateLeft 1
  let after := poly.rotateLeft 2
  let tri := poly.zip (next.zip after)
  tri.all (fun t => t.1 != t.2.1 && decide (0 ≤ turn t.1 t.2.1 t.2.2)) &&
    tri.countP (fun t => !upward t.1 t.2.1 && upward t.2.1 t.2.2) == 1 && area2 poly != 0

/-- Each minimum of a box lies below its maximum. -/
def boxOk (b : List Int) : Bool := (List.range 3).all fun k => decide (b.getD (2 * k) 0 < b.getD (2 * k + 1) 0)

/-- The six bounds of a box at an offset. -/
def boxOf (b : Bytes) (o : Nat) : List Int := (List.range 6).map fun k => i16At b (o + 2 * k)

/-- The vertices of a polygon at an offset. -/
def polyOf (b : Bytes) (o n : Nat) : List (Int × Int) :=
  (List.range n).map fun k => (i16At b (o + 4 * k), i16At b (o + 4 * k + 2))

/-- The seat box lies inside the cabin prism (R320). -/
def seatInside (c : Chart) : Bool :=
  let x (i : Nat) : Rat := ((c.seat.getD i 0 : Int) : Rat)
  [(x 0, x 2), (x 0, x 3), (x 1, x 2), (x 1, x 3)].all (fun p => inPoly c.cabin p.1 p.2) &&
    decide (c.cabinZ.1 ≤ c.seat.getD 4 0) && decide (c.seat.getD 5 0 ≤ c.cabinZ.2)

/-- The zone geometry (R319, R320); the handle masks come from the LF part. -/
def readZones (masks : List (BitVec 16)) (b : Bytes) (c : Chart) : Ck Chart := do
  lengthIf (b.length != 296) 9
  let bn := leAt b 0 2
  let cn := leAt b 2 2
  structureIf (decide (bn < 3) || decide (16 < bn) || decide (cn < 3) || decide (16 < cn) ||
    decide (i16At b 6 ≤ i16At b 4)) 9
  let approach ← near 9 1000 6000 (leAt b 8 2)
  let door ← near 9 300 1500 (leAt b 10 2)
  let good ← near 9 20 60 (byteAt b 12)
  let bad ← near 9 good 120 (byteAt b 13)
  let tol ← near 9 200 2000 (leAt b 14 2)
  let boot := boxOf b 0x9C
  let c := { c with
    body := polyOf b 0x10 bn, cabin := polyOf b 0x50 cn, cabinZ := (i16At b 4, i16At b 6), approach := approach
    doorside := door, lfGood := good, lfBad := bad, phaseTol := tol, seat := boxOf b 0x90
    boot := if boot.all (· == 0) then [] else boot
    handles := masks.mapIdx fun h m =>
      { mask := m, pos := xyzAt b (0xA8 + 8 * h), ruleA := BitVec.ofNat 8 (byteAt b (0xAE + 8 * h))
        ruleB := BitVec.ofNat 8 (byteAt b (0xAF + 8 * h)) } }
  structureIf (!boxOk c.seat || !(c.boot.isEmpty || boxOk c.boot) || !convex c.body || !convex c.cabin ||
    !(c.cabin.all fun v => inPoly c.body v.1 v.2) || !seatInside c) 9
  pure c

/-- A kind 4 entry (R267): element coordinates, then the phases for channels 5 and 9; that of chain 0 is 0. -/
def readPhases (b : Bytes) : Ck (List Int) := do
  let ph ← (List.range 8).mapM fun k =>
    nearInt 9 (if k % 4 = 0 then 0 else -18000) (if k % 4 = 0 then 0 else 17999) (i16At b (0x18 + 2 * k))
  pure ((List.range 12).map (fun k => i16At b (2 * k)) ++ ph)

/-- The subsections of a chart: kind, offset and size. -/
def subsections (b : Bytes) : List (Nat × Nat × Nat) :=
  (List.range (byteAt b 9)).map fun k => (leAt b (32 + 8 * k) 2, 8 * leAt b (34 + 8 * k) 2, leAt b (36 + 8 * k) 4)

/-- Two ranges of bytes overlap. A range of size zero overlaps nothing: the spec does not say (DESIGN CHOICE,
log entry 50). -/
def overlaps (o n p m : Nat) : Bool := n != 0 && m != 0 && decide (o < p + m) && decide (p < o + n)

/-- No two of the listed ranges overlap. -/
def apart : List (Nat × Nat) → Bool
  | [] => true
  | x :: r => !(r.any fun y => overlaps x.1 x.2 y.1 y.2) && apart r

/-- The bytes of the subsection of a kind. -/
def subOf (b : Bytes) (kind : Nat) : Bytes :=
  match (subsections b).find? fun s => s.1 == kind with
  | some (_, o, n) => (b.drop o).take n
  | none => []

/-- The checks of R750 on the directory of a chart. -/
def checkSubsections (b : Bytes) : Ck Unit := do
  let subs := subsections b
  let kinds := subs.map (·.1)
  let n := byteAt b 6
  structureIf (byteAt b 9 == 0 || decide (8 < byteAt b 9)) 9
  structureIf (kinds.any (fun k => k == 0 || decide (4 < k)) || decide (¬ kinds.Nodup)) 9
  structureIf ([1, 2, 3].any fun k => !kinds.contains k) 9
  structureIf (!kinds.contains 4 &&
    (List.range n).any fun a => byteAt (subOf b 1) (24 * a + 17) / 2 % 4 != 0) 9
  lengthIf (subs.any fun s => decide (b.length < s.2.1 + s.2.2) || overlaps 0 (32 + 8 * byteAt b 9) s.2.1 s.2.2) 9
  lengthIf (!apart (subs.map (·.2))) 9
  lengthIf ((subOf b 1).length != 24 * n || (kinds.contains 4 && (subOf b 4).length != 48 * n)) 9
  lengthIf (decide ((subOf b 2).length < 0x148)) 9

/-- CHART: the chart and what it says of each anchor. -/
def readChart (tenders : Nat) (b : Bytes) : Ck (Chart × List ChartAnchor) := do
  let grid ← near 9 20 500 (leAt b 4 2)
  let handles ← near 9 0 16 (byteAt b 7)
  let ants ← near 9 0 16 (byteAt b 8)
  checkSubsections b
  let n := byteAt b 6
  let anchors ← (List.range n).mapM fun a => readPosition (slice (subOf b 1) (24 * a) 24)
  let (ref, poll, as, masks) ← readField tenders ants handles (subOf b 2)
  let c ← readZones masks (subOf b 3) { Chart.reset with gridMm := grid, refMa := ref, pollMask := poll, antennas := as }
  let phase ← (List.range ((subOf b 4).length / 48)).mapM fun a => readPhases (slice (subOf b 4) (48 * a) 48)
  pure ({ c with phase := phase }, anchors)

/-! The directory (R73 to R76) and the whole image. -/

/-- A directory entry (R73). -/
structure DirEnt where
  /-- ID -/
  sec : Nat
  /-- ANCHOR -/
  anchor : Nat
  /-- VERSION -/
  version : Nat
  /-- OFFSET -/
  off : Nat
  /-- SIZE -/
  size : Nat
  /-- CRC -/
  crc : Nat
deriving DecidableEq, Repr

/-- The directory of an image. -/
def directory (b : Bytes) : List DirEnt :=
  (List.range (leAt b 6 2)).map fun k =>
    let e := 0x40 + 16 * k
    { sec := byteAt b e, anchor := byteAt b (e + 1), version := leAt b (e + 2) 2
      off := leAt b (e + 4) 4, size := leAt b (e + 8) 4, crc := leAt b (e + 12) 4 }

/-- The bytes of a section. -/
def DirEnt.bytes (e : DirEnt) (b : Bytes) : Bytes := (b.drop e.off).take e.size

/-- The section `sec` that applies to anchor `a` (R75). -/
def sectionFor (b : Bytes) (sec a : Nat) : Option Bytes :=
  let d := (directory b).filter fun e => e.sec == sec
  ((d.find? fun e => e.anchor == a) <|> (d.find? fun e => e.anchor == 255)).map fun e => e.bytes b

/-- TENDERS of the header. -/
def tendersOf (b : Bytes) : Nat := byteAt b 0x12

/-- The anchors present. -/
def anchorsOf (b : Bytes) : List Nat := List.range (tendersOf b + 1)

/-- Where the signature starts (R76). -/
def signatureAt (b : Bytes) : Nat := leAt b 8 4 - xmssSize (byteAt b 0x14)

/-- A directory entry after the earlier ones `before` (R74, R75). -/
def checkEntry (b : Bytes) (before : List DirEnt) (e : DirEnt) : Ck Unit :=
  structureIf (e.sec == 0 || decide (12 < e.sec) || e.version != 1 || e.off % 8 != 0 ||
    decide (signatureAt b < e.off + e.size) || overlaps 0 (0x40 + 16 * leAt b 6 2) e.off e.size ||
    before.any (fun f => overlaps f.off f.size e.off e.size || (f.sec == e.sec && f.anchor == e.anchor)) ||
    (e.anchor != 255 && decide (tendersOf b < e.anchor)) ||
    (decide (6 ≤ e.sec) && decide (e.sec ≤ 9) && e.anchor != 255) ||
    (e.sec == 11 && ((e.anchor != 255 && e.anchor != 0) || before.any fun f => f.sec == 11))) e.sec

/-- The directory, entry by entry. -/
def checkEntries (b : Bytes) : List DirEnt → List DirEnt → Ck Unit
  | _, [] => pure ()
  | before, e :: rest => do
    checkEntry b before e
    checkEntries b (before ++ [e]) rest

/-- SIZE of a section against its layout (R93, R749). -/
def sizeOk (sec : Nat) (b : Bytes) : Bool :=
  match sec with
  | 1 => b.length == 8
  | 2 => b.length == 96
  | 3 => b.length == 12
  | 4 => b.length % 4 == 0
  | 5 => b.length % 4 == 0
  | 6 => b.length == 28
  | 7 => b.length == 8
  | 8 => decide (8 ≤ b.length) && b.length == 8 + 8 * leAt b 0 2
  | 9 => decide (32 ≤ b.length) && decide (32 + 8 * byteAt b 9 ≤ b.length) && decide (b.length ≤ 393216)
  | 10 => b.length == 96
  | 11 => b.length == 20
  | _ => b.length == 8

/-- A check whose value is of no use here. -/
def discard {α : Type} (c : Ck α) : Ck Unit := do
  let _ ← c
  pure ()

/-- OWNER 2 on another controller than 7, or in the CAN section of another anchor than 0 (R94). -/
def strayLock (anchor : Nat) (b : Bytes) : Bool :=
  (List.range 8).any fun k => byteAt b (12 * k) == 2 && (k != 7 || (anchor != 0 && anchor != 255))

/-- A section of the entry's ANCHOR on its own: its SIZE, then its fields and its own rules (step 12 of R751). -/
def checkSection (tenders anchor sec : Nat) (b : Bytes) : Ck Unit := do
  lengthIf (!sizeOk sec b) sec
  conflictIf (sec == 10 && strayLock anchor b) 10
  match sec with
  | 1 => discard (readRole b)
  | 2 => discard (readPins b)
  | 3 => discard (readRadio b)
  | 4 => discard (readRoute b)
  | 5 => discard (readMemory b)
  | 6 => discard (readTide b)
  | 7 => discard (readBerths b)
  | 8 => discard (readPolicy b)
  | 9 => discard (readChart tenders b)
  | 10 => discard (readCans b)
  | 11 => discard (readLock b)
  | _ => discard (readNfc b)

/-! The values of an image's sections for an anchor, with the defaults of an absent section. -/

/-- ROLE of an anchor. -/
def roleIn (b : Bytes) (a : Nat) : Nat × Nat := ((sectionFor b 1 a).map fun x => (readRole x).value (0, 0)).getD (0, 0)

/-- PINS of an anchor. -/
def pinsIn (b : Bytes) (a : Nat) : List PinCfg := ((sectionFor b 2 a).map fun x => (readPins x).value []).getD []

/-- RADIO of an anchor. -/
def radioIn (b : Bytes) (a : Nat) : RadioCfg :=
  ((sectionFor b 3 a).map fun x => (readRadio x).value RadioCfg.reset).getD RadioCfg.reset

/-- ROUTE of an anchor, where it is present. -/
def routeIn (b : Bytes) (a : Nat) : Option (List (Nat × BitVec 8)) :=
  (sectionFor b 4 a).map fun x => (readRoute x).value []

/-- MEMORY of an anchor. -/
def pagesIn (b : Bytes) (a : Nat) : List Nat :=
  ((sectionFor b 5 a).map fun x => (readMemory x).value Settings.reset.pages).getD Settings.reset.pages

/-- The POLICY rules. -/
def rulesIn (b : Bytes) : List Rule := ((sectionFor b 8 255).map fun x => (readPolicy x).value []).getD []

/-- CHART. -/
def chartIn (b : Bytes) : Chart × List ChartAnchor :=
  ((sectionFor b 9 255).map fun x => (readChart (tendersOf b) x).value (Chart.reset, [])).getD (Chart.reset, [])

/-- CAN of an anchor. -/
def cansIn (b : Bytes) (a : Nat) : List CanCfg :=
  ((sectionFor b 10 a).map fun x => (readCans x).value []).getD (List.replicate 8 CanCfg.reset)

/-- The NFC section of anchor `a`, or its defaults. -/
def nfcIn (b : Bytes) (a : Nat) : List Nat :=
  ((sectionFor b 12 a).map fun x => (readNfc x).value []).getD [7, 2, 2, 4, 3]

/-- Anchor 0 gives controller 7 to the lock keeper. -/
def lockOwned (b : Bytes) : Bool := ((cansIn b 0).getD 7 CanCfg.reset).owner == 2#8

/-- An anchor whose ROLE is tender. -/
def isTender (b : Bytes) (a : Nat) : Bool := (roleIn b a).1 == 2

/-- Chains reach sink `k` from source `src` on an anchor (R85, R86). -/
def reaches (b : Bytes) (a src k : Nat) : Bool :=
  match routeIn b a with
  | some l => l.any fun e => e.1 == src && e.2.getLsbD k
  | none =>
    let used := if src < 4 then (radioIn b a).uwbChains.getLsbD src
      else if src < 8 then true
      else fieldN (radioIn b a).uhfBands (2 * (src - 8) + 1) (2 * (src - 8)) != 3
    used && (if k = 6 then isTender b a else validSinks src / 2 ^ k % 2 == 1)

/-! The checks across sections (step 13 of R751), in its order. -/

/-- A mask sets too many antennas of one anchor (R177). -/
def crowded (b : Bytes) (m : BitVec 16) : Bool :=
  let own := (bitsOf m).filterMap fun i => (chartIn b).1.antennas[i]?
  (anchorsOf b).any fun a => decide ((radioIn b a).lfMax < own.countP fun x => x.anchor == a)

/-- An amplifier enable without its chain (R142). -/
def amplifierFault (b : Bytes) (a : Nat) : Bool :=
  (pinsIn b a).any fun p =>
    (p.func == 5#8 && decide (p.param.toNat < 2) && !(radioIn b a).uwbChains.getLsbD (4 + p.param.toNat)) ||
    (p.func == 6#8 && match routeIn b a with
      | some l => !(l.any fun e => e.1 == p.param.toNat && e.2 != 0#8)
      | none => false)

/-- The checks that concern several sections or the image as a whole (step 13 of R751), in ascending
order of the lowest section and then of the rule. A TENDERS that is not the number of bits of LINK_MASK concerns the
header and section 1: R748 and R751 leave its DETAIL open, and it is 1 (DESIGN CHOICE, log entry 79). -/
def checkAcross (b : Bytes) : Ck Unit := do
  let all := anchorsOf b
  let any (p : Nat → Bool) : Bool := all.any p
  let missing (sec : Nat) : Bool := any fun a => (sectionFor b sec a).isNone
  let rules := rulesIn b
  let chart := (chartIn b).1
  structureIf (popCount (BitVec.ofNat 32 (roleIn b 0).2) != tendersOf b && !missing 1) 1
  structureIf (missing 1) 1
  structureIf (any fun a => (a == 0) == isTender b a) 1
  conflictIf (any fun a => (!isTender b a && (routeIn b a).any (·.any fun e => e.2.getLsbD 6)) ||
    (isTender b a && (cansIn b a).any fun c => c.owner == 2#8 || c.owner == 3#8)) 1
  conflictIf (any fun a => isTender b a && (pinsIn b a).any fun p => p.func == 1#8) 1
  structureIf (missing 2) 2
  structureIf ((sectionFor b 9 255).isSome && any fun a => (pinsIn b a).any fun p =>
    p.func == 2#8 && decide (chart.handles.length ≤ p.param.toNat)) 2
  conflictIf (any fun a => decide (1 < (pinsIn b a).countP fun p => p.func == 3#8)) 2
  structureIf (rules.any fun r => r.action == 0#8 && ((pinsIn b 0).getD r.target.toNat PinCfg.reset).func != 1#8) 2
  conflictIf (any (amplifierFault b)) 2
  structureIf (missing 3) 3
  conflictIf (any fun a => (radioIn b a).uwbChannel != (radioIn b 0).uwbChannel) 3
  conflictIf (crowded b chart.pollMask || chart.handles.any fun h => crowded b h.mask) 3
  structureIf (any fun a => decide (1280 < (pagesIn b a).sum)) 5
  structureIf (missing 6) 6
  structureIf (missing 7) 7
  structureIf (missing 8) 8
  structureIf (rules.any fun r => r.action == 1#8 &&
    (((cansIn b 0).getD (fieldN r.target 2 0) CanCfg.reset).owner != 3#8 || r.target.getLsbD 15)) 8
  structureIf (rules.countP (fun r => r.action == 2#8) != b2n (lockOwned b)) 8
  structureIf (chart.handles.any fun h => [h.ruleA, h.ruleB].any fun x =>
    x != 0#8 && !(rules.any fun r => r.id == x)) 8
  structureIf ((sectionFor b 9 255).isSome && (chartIn b).2.length != tendersOf b + 1) 9
  structureIf (missing 9) 9
  structureIf (lockOwned b && (sectionFor b 11 0).isNone) 10
  conflictIf (any fun a => let ports := (nfcIn b a).getD 0 0; ports / 4 == 1 && ports / 2 % 2 == 0) 12

/-- The header of an image against what the device holds (steps 1 to 4 of R751, and HEIGHT). -/
def checkHeader (life : LifeCycle) (opened : Nat) (b : Bytes) : Ck Unit := do
  let h := byteAt b 0x14
  let len := leAt b 8 4
  let known := h == 10 || h == 16 || h == 20
  refuseIf (life == .returned) 9 0
  refuseIf (leAt b 0 4 != 0x464D4449 || leAt b 4 2 != 1) 3 0
  refuseIf ((crc32c (slice b 0 0x3C)).toNat != leAt b 0x3C 4) 4 0
  refuseIf (decide (len < 2624) || decide (524288 < len) || len != opened ||
    (known && decide (len < 64 + 16 * leAt b 6 2 + xmssSize h))) 2 0
  refuseIf (!known) 6 0

/-- The signature of an image (R76). -/
def signatureOk (pub b : Bytes) : Bool :=
  xmssVerify pub (byteAt b 0x14) (b.take (signatureAt b)) ((b.drop (signatureAt b)).take (xmssSize (byteAt b 0x14)))

/-- SECTIONS, the directory, the sections and what ties them together (steps 10 to 13 of R751). R751 does not
place a TENDERS above 32: it is refused with SECTIONS, as a fault of the header (DESIGN CHOICE, log entry 50). -/
def checkBody (b : Bytes) : Ck Unit := do
  structureIf (leAt b 6 2 == 0 || decide (128 < leAt b 6 2) || decide (32 < tendersOf b)) 0
  checkEntries b [] (directory b)
  (directory b).forM fun e => refuseIf ((crc32c (e.bytes b)).toNat != e.crc) 5 e.sec
  (directory b).forM fun e => checkSection (tendersOf b) e.anchor e.sec (e.bytes b)
  checkAcross b

/-- The header against the device (steps 6 to 9 of R751). -/
def checkDevice (fleet : BitVec 64) (serial : BitVec 32) (life : LifeCycle) (fw : BitVec 16) (b : Bytes) : Ck Unit := do
  refuseIf (leAt b 0x18 8 != fleet.toNat) 8 0
  refuseIf (decide (leAt b 0x0C 4 ≤ serial.toNat)) 7 0
  refuseIf (byteAt b 0x13 / 2 ^ life.code % 2 == 0) 9 0
  refuseIf (decide (fw.toNat < leAt b 0x16 2)) 12 0

/-! The settings that an image gives a device (R75, R81, R85, R86, R216). -/

/-- What the image says of one anchor. -/
def anchorCfgIn (b : Bytes) (a : Nat) : AnchorCfg :=
  let radio := radioIn b a
  let c := (chartIn b).2.getD a { pos := (0, 0, 0), rot := (0, 0, 0), txDelay := 0, rxDelay := 0, txChain := 0, flags := 0#8 }
  let sink (srcs : List Nat) (k : Nat) : Bool := srcs.any fun r => reaches b a r k
  let chains (k : Nat) : BitVec 4 := ofBits 4 ((List.range 4).filter fun r => reaches b a r k)
  { present := true, lfEnable := radio.lfEnable, lfMax := radio.lfMax, uwbChains := radio.uwbChains
    rng := chains 0, aoa := chains 1, cir := chains 2, sink4 := sink [4, 5, 6, 7] 4, sink5 := sink [8, 9] 5
    uhf := ofBits 2 ((List.range 2).filter fun r => reaches b a (8 + r) 5)
    outs := ofBits 10 ((List.range 10).filter fun r => reaches b a r 6)
    pos := c.pos, rot := c.rot, txDelay := c.txDelay, rxDelay := c.rxDelay
    txChain := if radio.uwbChains.getLsbD (4 + c.txChain) then c.txChain else 1 - c.txChain
    uwbFlags := c.flags, pins := pinsIn b a, nfcPorts := BitVec.ofNat 8 ((nfcIn b a).getD 0 0) }

/-- The settings of the device that is anchor `a`. -/
def settingsIn (b : Bytes) (a : Nat) : Settings :=
  let (len, poll, owners) := ((sectionFor b 6 255).map fun x => (readTide x).value ([], false, [])).getD ([], false, [])
  let berths := ((sectionFor b 7 255).map fun x => (readBerths x).value []).getD []
  let nfc := nfcIn b a
  { Settings.reset with
    loaded := true
    role := match (roleIn b a).1 with
      | 0 => .standalone
      | 1 => .harbourmaster
      | _ => .tender
    anchor := a, linkMask := BitVec.ofNat 32 (roleIn b 0).2, serial := BitVec.ofNat 32 (leAt b 0xC 4)
    vclass := BitVec.ofNat 16 (leAt b 0x10 2), tenders := tendersOf b, lifeMask := BitVec.ofNat 8 (byteAt b 0x13)
    minFw := BitVec.ofNat 16 (leAt b 0x16 2), fleetId := BitVec.ofNat 64 (leAt b 0x18 8)
    pins := pinsIn b a, radio := radioIn b a, routeGiven := (routeIn b a).isSome, route := (routeIn b a).getD []
    pages := pagesIn b a, tideMs := len, lfPoll := poll, owners := owners
    count := berths.getD 0 0, hailMs := berths.getD 1 0, quietS := berths.getD 2 0, ranging := berths.getD 3 0
    farS := berths.getD 4 0, rules := orderBy (fun x y => decide (x.id.toNat < y.id.toNat)) (rulesIn b)
    chart := (chartIn b).1, can := cansIn b a
    lock := ((sectionFor b 11 0).map fun x => (readLock x).value LockCfg.reset).getD LockCfg.reset
    nfcPorts := BitVec.ofNat 8 (nfc.getD 0 0), readerZone := BitVec.ofNat 3 (nfc.getD 1 0)
    readerConf := BitVec.ofNat 2 (nfc.getD 2 0), tagZone := BitVec.ofNat 3 (nfc.getD 3 0)
    tagConf := BitVec.ofNat 2 (nfc.getD 4 0), anchors := (anchorsOf b).map (anchorCfgIn b)
    chartRaw := (sectionFor b 9 255).getD [] }

end Sys2Proof.Machine
end

