-- ==== Sys2Proof/Machine/Manifest.lean ====
section
/-! DEFINITION. The MANIFEST block (chapter 2): import, verification, commit, the banks and their
record, the power-up check, what a commit changes, and the unmoored features. -/

namespace Sys2Proof.Machine

/-! Banks and the bank record (R65 to R70, R103). -/

/-- The copy of the bank record in force (R65). Where neither has a valid CRC the spec names none: it is the second
(DESIGN CHOICE, log entry 79), and both are then as they left the factory or tell of damage. -/
def Manifest.cur (m : Manifest) : MfRecord :=
  if m.recA.crcOk && (!m.recB.crcOk || decide (m.recB.seq ≤ m.recA.seq)) then m.recA else m.recB

/-- A new bank record, written over the older copy (R65). -/
def Manifest.record (m : Manifest) (r : MfRecord) : Manifest :=
  let r := { r with seq := m.cur.seq + 1, crcOk := true }
  if m.recA = m.cur then { m with recB := r } else { m with recA := r }

/-- A bank by its number. -/
def Manifest.bank (m : Manifest) (n : BitVec 1) : Bank := if n = 0#1 then m.bankA else m.bankB

/-- The manifest block with bank `n` changed. -/
def Manifest.modBank (m : Manifest) (n : BitVec 1) (f : Bank → Bank) : Manifest :=
  if n = 0#1 then { m with bankA := f m.bankA } else { m with bankB := f m.bankB }

/-- The bank that a new image is written to (R67). -/
def Manifest.target (m : Manifest) : BitVec 1 := if m.fallback then m.cur.active else ~~~m.cur.active

/-- A bank marked invalid (R67). -/
def Bank.invalid (b : Bank) : Bank := { b with valid := false }

/-- The bank of R67 holds an image, read back and tagged (R66, R67). -/
def State.writeBank (s : State) (m : Mem) (len : Nat) : State :=
  s.upMf fun x => x.modBank x.target fun _ =>
    { valid := true, image := m, len := len, tag := bindingTag s.keys.vr.key (Mem.load m 0 len) }

/-- A bank's binding tag verifies, under the vehicle root or the previous one (R66, R462). -/
def State.tagOk (s : State) (b : Bank) : Bool :=
  b.tag == bindingTag s.keys.vr.key b.bytes ||
    (match s.keys.vrPrev with
    | some old => b.tag == bindingTag old b.bytes
    | none => false)

/-- The power-up check of a bank (R68). -/
def State.bankPasses (s : State) (b : Bank) : Bool :=
  b.valid && (crc32c (slice b.bytes 0 0x3C)).toNat == leAt b.bytes 0x3C 4 &&
    ((directory b.bytes).all fun e => (crc32c (e.bytes b.bytes)).toNat == e.crc) && s.tagOk b

/-! Pushes to tenders (R95, R616, R635). -/

/-- An image is pushed to the tender on link `n`: PUSH_BEGIN, the fragments and PUSH_END. ARG of PUSH_BEGIN says
whether it is a firmware image, and whether the push is one of enumeration (log entry 28). -/
def State.pushImage (s : State) (n : Nat) (fw adopt : Bool) (serial : BitVec 32) (b : Bytes) : State :=
  let parts := chunks 248 b.length b
  let s := s.pierRequest n 0x10 (at32 0 (b2n fw + 2 * b2n adopt)) (le 4 serial.toNat ++ le 4 b.length)
  let s := (parts.zip (List.range parts.length)).foldl (fun s p =>
    s.pierPost n 0x11 (BitVec.ofNat 32 (248 * p.2)) p.1 (last := p.2 + 1 == parts.length)) s
  s.pierRequest n 0x12 0#32 []

/-- COMMIT_AT to every link of a set (R99, R616): tide 0 discards. -/
def State.commitAll (s : State) (links : BitVec 32) (fw : Bool) (t : BitVec 32) : State :=
  (bitsOf links).foldl (fun s n => s.pierRequest n 0x13 (at32 0 (b2n fw)) (le 4 t.toNat)) s

/-! The import (R95 to R100, R751, R752). -/

/-- Byte address of MANIFEST.CMD. -/
def mfCmdAddr : Nat := 0x4000

/-- The block is IDLE: the staged image is gone and the window released (R663). -/
def State.mfIdle (s : State) : State :=
  (s.upMf fun m => { m with state := .idle, pushSet := 0#32, pushAll := 0#32, ownRead := false }).upPort
    fun p => { p with bulk := .none, bulkQueue := [] }

/-- RESULT and DETAIL (R748). -/
def State.mfResult (s : State) (r d : Nat) : State :=
  s.upMf fun m => { m with result := BitVec.ofNat 4 r, detail := BitVec.ofNat 8 d }

/-- OPEN (R95, R664). -/
def State.mfOpen (s : State) : State :=
  if s.mf.state ≠ .idle ∨ s.port.bulk ≠ .none then (s.mfResult 15 0).notice 3 mfCmdAddr
  else (s.upMf fun m => { m with
      state := .loading, good := [], len := m.loadLen.toNat, late := false, ownRead := false }).upPort
    fun p => { p with bulk := .manifest }

/-- MANIFEST_OPEN. -/
def execManifestOpen (s : State) : Host.Outcome State Fault Refusal := .next (s.farWrite mfCmdAddr State.mfOpen)

/-- The number of 4 KiB blocks of a length. -/
def blockCount (len : Nat) : Nat := (len + 4095) / 4096

/-- The bytes of block `b` of an image of length `len` in the bulk window. -/
def State.windowBlock (s : State) (b len : Nat) : Bytes :=
  Mem.load s.port.staging (4096 * b) (min 4096 (len - 4096 * b))

/-- A write of BLOCK_CRC (R95). A BLOCK that stands beyond the last block after an OPEN with a shorter LOAD_LEN, of which
the spec says nothing, is not clamped again: its block has no bytes (DESIGN CHOICE, log entry 79). -/
def State.mfBlockCrc (s : State) (crc : BitVec 32) : State :=
  if s.mf.state = .loading then
    let b := s.mf.block.toNat
    let ok := crc32c (s.windowBlock b s.mf.len) == crc
    s.upMf fun m => { m with
      blockResult := if ok then 1#2 else 2#2
      good := if ok then b :: m.good.filter (· != b) else m.good.filter (· != b) }
  else s.notice 3 0x400C

/-- MANIFEST_BLOCK_CRC. -/
def execManifestBlockCrc (crc : BitVec 32) (s : State) : Host.Outcome State Fault Refusal :=
  .next (s.farWrite 0x400C fun s => s.mfBlockCrc crc)

/-- The lowest block not good. -/
def missingBlock (len : Nat) (good : List Nat) : Option Nat :=
  (List.range (blockCount len)).find? fun b => !good.contains b

/-- VERIFY (R95). -/
def State.mfVerify (s : State) : State :=
  if s.mf.state = .loading then
    match missingBlock s.mf.len s.mf.good with
    | some b => (s.mfResult 13 b).latch 36
    | none => (s.upMf fun m => { m with state := .verifying, verifyAt := s.now }).verification .manifest s.mf.len
  else s.notice 3 mfCmdAddr

/-- MANIFEST_VERIFY. -/
def execManifestVerify (s : State) : Host.Outcome State Fault Refusal := .next (s.farWrite mfCmdAddr State.mfVerify)

/-- Every check of an image (R751): the clamps, or RESULT and DETAIL; and whether a signature was
verified, with its outcome (R526). -/
def State.imageCheck (s : State) (opened : Nat) (b : Bytes) : Except (Nat × Nat) Clamps × Option Bool :=
  let zero : Clamps := { count := 0, first := 0 }
  match checkHeader s.tide.life opened b zero with
  | .error e => (.error e, none)
  | .ok _ =>
    if signatureOk s.keys.pubManifest b then
      let rest : Ck Unit := do
        checkDevice s.keys.fleetId s.mf.cur.serial s.tide.life s.fwVersion b
        checkBody b
      (match rest zero with
      | .ok (_, c) => .ok c
      | .error e => .error e, some true)
    else (.error (6, 0), some false)

/-- VERIFY_COUNT counts a verification (R526). -/
def State.countVerify (s : State) (v : Option Bool) : State :=
  s.upCry fun c => { c with
    verPass := if v = some true then satInc c.verPass else c.verPass
    verFail := if v = some false then satInc c.verFail else c.verFail }

/-- The checks end (R95, R751): VERIFIED or REFUSED; source 36. -/
def State.mfVerifyEnd (s : State) : State :=
  let b := Mem.load s.port.staging 0 s.mf.len
  let (r, v) := s.imageCheck s.mf.len b
  let s := (s.kecDone .manifest).countVerify v
  (match r with
  | .ok c => (s.upMf fun m => { m with
      state := .verified, stagedSerial := BitVec.ofNat 32 (leAt b 0xC 4)
      stagedClamps := clampNat 16 c.count, clampFirst := BitVec.ofNat 8 c.first }).mfResult 1 0
  | .error (code, d) => (s.upMf fun m => { m with
      state := .refused, stagedSerial := BitVec.ofNat 32 (leAt b 0xC 4) }).mfResult code d).latch 36

/-- MANIFEST_VERIFY_DONE. -/
def execManifestVerifyDone (s : State) : Host.Outcome State Fault Refusal :=
  s.whenDo (s.mainUp && s.canVerify && s.mf.state == .verifying) s.mfVerifyEnd

/-- The admitted tenders whose links carry messages. -/
def State.pushLinks (s : State) : BitVec 32 :=
  if s.cfg.role = .harbourmaster then
    ofBits 32 (s.admittedLinks.filter fun n => (s.link n).st == .active || (s.link n).st == .slack)
  else 0#32

/-- COMMIT (R67, R95, R100). RETURN admits no commit (R139): the command is ignored there (log entry 53). -/
def State.mfCommit (s : State) : State :=
  if s.mf.state = .verified ∧ s.tide.life ≠ .returned then
    let b := Mem.load s.port.staging 0 s.mf.len
    let links := s.pushLinks
    let s := s.leaveSlack.upMf fun m => { (m.modBank m.target Bank.invalid) with
      state := .writing, verifyAt := s.now, ownRead := false, pushSet := links, pushAll := links }
    (bitsOf links).foldl (fun s n => s.pushImage n false false s.mf.stagedSerial b) s
  else s.notice 3 mfCmdAddr

/-- MANIFEST_COMMIT. -/
def execManifestCommit (s : State) : Host.Outcome State Fault Refusal := .next (s.farWrite mfCmdAddr State.mfCommit)

/-- Own bank and every tender are ready: the commit tide is chosen (R95, R98, R99). -/
def State.mfArm (s : State) : State :=
  if s.mf.state = .writing ∧ s.mf.ownRead ∧ s.mf.pushSet = 0#32 then
    let (t, late) := commitTideOf s.mf.commitTide s.tide.number
    (s.upMf fun m => { m with state := .armed, armed := t, late := late }).commitAll s.mf.pushAll false t
  else s

/-- The commit is refused after COMMIT (R95, R100; source 39): the tenders discard the image. -/
def State.mfRefuse (s : State) (anchor : Nat) : State :=
  let links := s.mf.pushAll
  (((s.upMf fun m => { m with state := .refused, pushSet := 0#32, pushAll := 0#32 }).mfResult 14 anchor).latch 39
    ).commitAll links false 0#32

/-- The own bank has been read back (R95). -/
def State.mfWritten (s : State) (ok : Bool) : State :=
  if ok then ((s.writeBank s.port.staging s.mf.len).upMf fun m => { m with ownRead := true }).mfArm
  else s.mfRefuse 0

/-- MANIFEST_WRITE_DONE. -/
def execManifestWriteDone (ok : Bool) (s : State) : Host.Outcome State Fault Refusal :=
  s.whenDo (s.mainUp && s.mf.state == .writing && !s.mf.ownRead) (s.mfWritten ok)

/-- A tender's answer to PUSH_END under a commit (R95, R100). -/
def State.mfTender (s : State) (n : Nat) (ready : Bool) : State :=
  if s.mf.state = .writing ∧ s.mf.pushSet.getLsbD n then
    if ready then (s.upMf fun m => { m with pushSet := setBit m.pushSet n false }).mfArm
    else s.mfRefuse (n + 1)
  else s

/-- ABORT (R95, R752). -/
def State.mfAbort (s : State) : State :=
  match s.mf.state with
  | .loading => s.mfIdle
  | .verified => s.mfIdle
  | .refused => s.mfIdle
  | .writing => (s.commitAll s.mf.pushAll false 0#32).upMf (fun m => m.modBank m.target Bank.invalid) |>.mfIdle
  | .armed => (s.commitAll s.mf.pushAll false 0#32).upMf (fun m => m.modBank m.target Bank.invalid) |>.mfIdle
  | _ => s.notice 3 mfCmdAddr

/-- MANIFEST_ABORT. -/
def execManifestAbort (s : State) : Host.Outcome State Fault Refusal := .next (s.farWrite mfCmdAddr State.mfAbort)

/-- A write of MANIFEST.CMD. -/
def State.mfCommand (s : State) (v : BitVec 32) : State :=
  match fieldN v 3 0 with
  | 1 => s.mfOpen
  | 2 => s.mfVerify
  | 3 => s.mfCommit
  | 4 => s.mfAbort
  | _ => s.notice 2 mfCmdAddr

/-! What takes effect at a commit (R105 to R111, R149, R166). -/

/-- The CAN pool of partition 2 (R572). -/
def Settings.canTotal (c : Settings) : Nat := canPool (c.pages.getD 2 0)

/-- The rules that are new or changed under `new` (R107, R108). -/
def freshRules (old new : List Rule) : List (BitVec 8) :=
  (new.filter fun r => !(old.any fun q => q.id == r.id && q.raw == r.raw)).map (·.id)

/-- Pins whose function goes on; the outputs of all others idle. -/
def samePins (old new : List PinCfg) : BitVec 24 :=
  ofBits 24 ((List.range 24).filter fun k => old.getD k PinCfg.reset == new.getD k PinCfg.reset)

/-- A port that LINK_MASK no longer names falls silent (R603). -/
def Pier.unplug (t : Nat) (keep : Bool) (l : Pier) : Pier :=
  if keep || l.st == .disabled then l else { l with st := .disabled, since := t, admission := .none, bound := false, joins := false }

/-- A rule that is new or changed counts as already met by the berths that meet it at the first verdict after the
commit (R108), so it is taken as met until then; those gone are forgotten. Which berths that verdict speaks of
is not said: every berth live at the commit, however late its first verdict, and none opened after it (DESIGN
CHOICE, log entry 50). -/
def State.applyRules (s : State) (known fresh : List (BitVec 8)) : State :=
  s.upBt fun t => { t with berths := t.berths.map fun b =>
    if b.id.st.live then
      { b with fu := { b.fu with met := (b.fu.met.filter fun r => known.contains r && !fresh.contains r) ++ fresh } }
    else b }

/-- The LF calibration is requested again when what it rests on changes. -/
def State.applyLf (s : State) (old new : Settings) : State :=
  s.upLf fun l => { l with
    calReq := l.calReq || decide (old.radio ≠ new.radio) || decide (old.chart.antennas ≠ new.chart.antennas)
      || decide (old.chart.refMa ≠ new.chart.refMa) || decide (old.chart.pollMask ≠ new.chart.pollMask)
      || decide (old.chart.handles.map (·.mask) ≠ new.chart.handles.map (·.mask)) }

/-- The CAN controllers below 7 take their configurations. -/
def State.applyCan (s : State) (new : Settings) : State :=
  (s.canOwners fun n => n < 7).upCan fun c => { c with total := new.canTotal }

/-- The vehicle record takes the LOCK and controller 7 settings when they change. -/
def State.applyRecord (s : State) (new : Settings) : State :=
  let mine : CanCfg := new.can.getD 7 CanCfg.reset
  if s.keepsBerths && !(s.lk.mram.lock == new.lock && s.lk.mram.can == mine) then
    s.writeRecord fun r => { r with lock := new.lock, can := mine }
  else s

/-- Outputs and pulses of the pins whose settings did not change go on. -/
def State.applyPins (s : State) (same : BitVec 24) : State :=
  s.upPins fun p => { p with
    outputs := p.outputs &&& same, pulses := p.pulses.filter fun q => same.getLsbD q.1.toNat }

/-- The harbourmaster's links follow LINK_MASK (R603). -/
def State.applyLinks (s : State) (new : Settings) : State :=
  if new.role = .harbourmaster then s.upPier fun p => { p with
      links := p.links.mapIdx fun n l => l.unplug s.now (new.linkMask.getLsbD n)
      serving := p.serving &&& new.linkMask }
  else s

/-- A changed chart clears the streak, the position history and the held flags of every berth (R318). -/
def State.applyChart (s : State) (old new : Settings) : State :=
  if old.chartRaw = new.chartRaw then s
  else (s.upVer fun v => { v with chartTide := some s.tide.number }).upBt fun t => { t with
    berths := t.berths.map fun b => { b with fu := { b.fu with streak := 0, history := [], held := [] } } }

/-- What partitions 0, 3 and 4 hold: live berths and ranging contexts, of which a tender has one for each session slot,
BLE links, pier messages (R144). -/
def State.partitionLoad (s : State) (p : Nat) : Nat :=
  match p with
  | 0 => s.liveBerths.length + (if s.isTender then s.keys.slots.length else 0)
  | 3 => s.nb.links.length
  | _ => (s.pier.links.map fun l => l.msgs.length + l.waiting.length).sum

/-- New settings take effect at a commit boundary. A commit that changes a partition's size empties the CIR,
mailbox and capture partitions (R149). -/
def State.apply (s : State) (new : Settings) : State :=
  let old := s.cfg
  let t := (s.upCfg fun _ => new).applyRules (new.rules.map (·.id)) (freshRules old.rules new.rules)
  let t := (((t.applyChart old new).applyLf old new).applyCan new).applyRecord new
  let t := t.upUwb fun u => { u with cirRing := if old.pages ≠ new.pages then [] else u.cirRing }
  let t := t.upMf fun m => { m with
    mailbox := if old.pages ≠ new.pages then [] else m.mailbox
    capture := if old.pages ≠ new.pages then [] else m.capture
    shrunk := if old.pages ≠ new.pages then [0, 3, 4].filter fun p =>
      decide (new.pages.getD p 0 < old.pages.getD p 0) && s.partitionLoad p != 0 else m.shrunk }
  let t := t.upNfc fun c => { c with image := Mem.write c.image 0x1E05 new.nfcPorts }
  (t.applyPins (samePins old.pins new.pins)).applyLinks new

/-- MANIFEST_COMMIT_BOUNDARY (R95, R102, R103, R105, R139): at the commit tide the bank record is written
and the new settings take effect; source 37. After a commit made while no manifest runs, of which R103 says
nothing, the fallback serial is the record's active one (DESIGN CHOICE, log entry 50). After a commit by a tender's own
host the sections of anchor 0 take effect until the next start, which reads those of its anchor: R81 does not say
which (DESIGN CHOICE, log entry 79). -/
def State.manifestBoundary (s : State) : State :=
  if s.mf.state = .armed ∧ s.mf.armed = s.tide.number ∧ s.tide.life ≠ .returned then
    let t := s.mf.target
    let b := (s.mf.bank t).bytes
    let s := s.upMf fun m =>
      { (m.record { m.cur with active := t, serial := m.stagedSerial, fallback := if s.cfg.loaded then s.cfg.serial else m.cur.serial })
        with runBank := t, fallback := false, noImage := false, commitAt := s.tide.number }
    ((s.apply (settingsIn b 0)).mfIdle).latch 37
  else s

/-- A tender's settings of its own anchor take effect (R81, R636); source 37. -/
def State.adoptImage (s : State) (m : Mem) (len : Nat) : State :=
  ((s.apply (settingsIn (Mem.load m 0 len) s.tend.enumAnchor)).upMf fun m => { m with commitAt := s.tide.number }).latch 37

/-- The new bank record of a tender (R102, R103). -/
def State.recordBank (s : State) (serial : BitVec 32) : State :=
  s.upMf fun m =>
    let t := m.target
    { (m.record { m.cur with
        active := t, serial := serial, fallback := if m.fallback then m.cur.fallback else m.cur.serial }) with
      runBank := t, fallback := false, noImage := false }

/-- The lock keeper's own settings are deferred (R110). -/
def State.lockDeferred (s : State) : Bool :=
  s.lk.alive && s.lk.recPending && (s.lk.state.released? || s.lk.ticket.isSome) &&
    (s.lk.record.lock != s.lk.mram.lock || s.lk.record.can != s.lk.mram.can)

/-- STATUS.DEFERRED, and controller 7 passes to its owner once nothing defers it (R110, R144). -/
def State.deferBoundary (s : State) : State :=
  let d := s.lockDeferred
  let s := s.upMf fun m => { m with deferred := d }
  if d then s else s.canOwners fun n => n == 7

/-! The power-up check (R68 to R70). -/

/-- The settings come from bank `n`. -/
def State.runFrom (s : State) (n : BitVec 1) (fallback : Bool) : State :=
  let s := s.upMf fun m => { m with runBank := n, fallback := fallback, noImage := false }
  let cfg := settingsIn (s.mf.bank n).bytes s.tend.enumAnchor
  s.upCfg fun _ => cfg

/-- DATA of a record of kind 0x23. -/
def State.mfLogData (s : State) : Bytes :=
  le 1 s.mf.runBank.toNat ++ le 4 s.mf.cur.serial.toNat ++ le 4 s.mf.cur.fallback.toNat

/-- MANIFEST_FALLBACK at a main start (R68 to R70): the active bank, the other bank, or no manifest. -/
def State.mfPowerUp (s : State) : State :=
  let a := s.mf.cur.active
  if s.bankPasses (s.mf.bank a) then s.runFrom a false
  else
    let s := if s.bankPasses (s.mf.bank (~~~a)) then s.runFrom (~~~a) true
      else
        let s := s.upMf fun m => { m with fallback := false, noImage := true }
        s.upCfg fun _ => Settings.reset
    (s.latch 39).logRecord 0x23 s.mfLogData

/-- SERIAL of the image being run. -/
def State.runSerial (s : State) : BitVec 32 := if s.cfg.loaded then s.cfg.serial else s.mf.cur.serial

/-! Unmoored features (R112 to R114, R129, R144). -/

/-- A pin of this device has one of the listed functions. -/
def State.hasPin (s : State) (fs : List (BitVec 8)) : Bool := s.cfg.pins.any fun p => fs.contains p.func

/-- A BLE chain of this device is routed to channel sounding (R85, R86). -/
def State.soundsAny (s : State) : Bool :=
  !s.cfg.routeGiven || s.cfg.route.any fun r => decide (4 ≤ r.1) && decide (r.1 < 8) && r.2.getLsbD 3

/-- The UHF chains that the settings use. -/
def State.uhfInUse (s : State) : List Nat :=
  [0, 1].filter fun k => fieldN s.cfg.radio.uhfBands (2 * k + 1) (2 * k) != 3 &&
    (!s.cfg.routeGiven || s.cfg.route.any fun r => r.1 == 8 + k && r.2.getLsbD 5)

/-- A tender that exports results has no live link to its harbourmaster (R114, R614, log entry 46). -/
def State.exportLost (s : State) : Bool :=
  s.cfg.role == .tender && s.exports [0, 1, 2, 3, 4, 5, 6, 7, 8, 9] && !s.upLive

/-- The features whose partition no longer holds its content after a commit (R144): 0 UWB ranging on a tender, 3
BLE, 4 the export over pier links; and the CAN controllers whose objects hold more entries than the pool. -/
def State.overfull (s : State) : List Nat :=
  let fits (p : Nat) : Bool := !s.mf.shrunk.contains p || Config.contentFits p (s.cfg.pages.getD p 0) (s.partitionLoad p)
  (if fits 0 || s.cfg.role != .tender then [] else [2]) ++ (if fits 3 then [] else [5, 6]) ++ (if fits 4 then [] else [26]) ++
  (if (s.can.ctl.map CanCtl.used).sum ≤ s.can.total then []
   else ((List.range 8).filter fun n => !(s.ctl n).locked && (s.ctl n).used != 0).map (11 + ·))

/-- The features that need the timer of owner code 2, UWB rounds: ranging, and the angles and CIR captures taken
in its rounds (R129, log entry 52). -/
def State.roundFeatures (s : State) : List Nat :=
  (if s.cfg.anchors.any (·.rng != 0#4) then [2] else []) ++ (if s.cfg.anchors.any (·.aoa != 0#4) then [3] else []) ++
    (if s.cfg.anchors.any (·.cir != 0#4) then [4] else [])

/-- The features that lack a resource now (R112, R129, R144, R146, R172, R277, R307, R614). The spec gives no
resource that bits 8 to 10 and 20 to 22 could lose: an MFP pin has one function, and NFC and input features
hold nothing that another may take. -/
def State.lacking (s : State) : List Nat :=
  let bleFailed := s.nb.blePll == .fail || s.nb.tuner == 2#2
  s.overfull ++
  (if !s.timer 1#4 || s.lf.vlfLow then [0] else []) ++
  (if s.lf.vlfLow then [1] else []) ++
  (if s.timer 2#4 then [] else s.roundFeatures) ++
  (if bleFailed then [5, 6] else if !s.timer 3#4 && s.soundsAny then [6] else []) ++
  (if !s.uhfInUse.isEmpty && s.uhfInUse.all (fun k => s.nb.uhfOut.getLsbD k) then [7] else []) ++
  (if s.mf.deferred && (s.canCfg 7).owner != 2#8 && (s.canCfg 7).owner != 0#8 then [18] else []) ++
  (if s.keys.tamperHold && s.hasPin [1#8] then [19] else []) ++
  (if s.keys.tamperHold && s.hasPin [5#8, 6#8] then [23] else []) ++
  (if !s.timer 6#4 then [24] else []) ++
  (if (!s.timer 7#4 && s.cfg.pages.getD 6 0 != 0) || s.mf.diagLost then [25] else []) ++
  (if s.exportLost then [26] else [])

/-- UNMOORED_CHANGE at a boundary (R112, R113; source 38). -/
def State.unmooredBoundary (s : State) : State :=
  let new : BitVec 32 := if s.cfg.loaded then ofBits 32 s.lacking else 0#32
  let changed := s.mf.unmoored ^^^ new
  (s.upMf fun m => { m with diagLost := false, unmoored := new, unmooredLatch := m.unmooredLatch ||| changed }).latchIf (changed != 0#32) 38

end Sys2Proof.Machine
end

