-- ==== Sys2Proof/Machine/Firmware.lean ====
section
/-! DEFINITION. Firmware banks: the import, the handover, the trial and the revert (R700 to R707). -/

namespace Sys2Proof.Machine

/-! Banks and their record (R700). -/

/-- A new firmware bank record, written over the older copy (R65, R700). -/
def Fw.record (f : Fw) (r : FwRecord) : Fw :=
  let r := { r with seq := f.cur.seq + 1, crcOk := true }
  if f.recB = f.cur then { f with recA := r } else { f with recB := r }

/-- A firmware bank by its number. -/
def Fw.bank (f : Fw) (n : BitVec 1) : Bank := if n = 0#1 then f.bankA else f.bankB

/-- The firmware state with bank `n` changed. -/
def Fw.modBank (f : Fw) (n : BitVec 1) (g : Bank → Bank) : Fw :=
  if n = 0#1 then { f with bankA := g f.bankA } else { f with bankB := g f.bankB }

/-- The inactive bank. -/
def Fw.other (f : Fw) : BitVec 1 := ~~~f.cur.active

/-- The version that the record gives for bank `n`. -/
def FwRecord.version (r : FwRecord) (n : BitVec 1) : BitVec 16 := if n = 0#1 then r.verA else r.verB

/-- The record with bank `n` active and holding version `v`. -/
def FwRecord.activate (r : FwRecord) (n : BitVec 1) (v : BitVec 16) : FwRecord :=
  if n = 0#1 then { r with active := n, verA := v } else { r with active := n, verB := v }

/-- A record of kind 0x25: old and new versions (R713). -/
def State.logFirmware (s : State) (old new : BitVec 16) : State := s.logRecord 0x25 (le 2 old.toNat ++ le 2 new.toNat)

/-! The import (R702, R703). -/

/-- Byte address of HOST.FW_CMD. -/
def fwCmdAddr : Nat := 0x40

/-- RESULT and DETAIL of FW_STATUS. -/
def State.fwResult (s : State) (r d : Nat) : State :=
  s.upFw fun f => { f with result := BitVec.ofNat 4 r, detail := BitVec.ofNat 8 d }

/-- The window passes from the firmware import (R663). -/
def State.fwRelease (s : State) : State :=
  s.upPort fun p => if p.bulk = .firmware then { p with bulk := .none, bulkQueue := [] } else p

/-- OPEN (R664, R702, R703). -/
def State.fwOpen (s : State) : State :=
  if s.fw.state ≠ .idle then s.notice 3 fwCmdAddr
  else if s.port.bulk ≠ .none then (s.fwResult 13 0).notice 3 fwCmdAddr
  else (s.upFw fun f => { (f.modBank f.other Bank.invalid) with
      state := .loading, good := [], len := f.fwLen.toNat, ownRead := false }).upPort fun p => { p with bulk := .firmware }

/-- FW_OPEN. -/
def execFwOpen (s : State) : Host.Outcome State Fault Refusal := .next (s.nearWrite fwCmdAddr State.fwOpen)

/-- A write of FW_BLOCK_CRC (R702, R703): a good block is programmed into the inactive bank. -/
def State.fwBlockCrc (s : State) (crc : BitVec 32) : State :=
  if s.fw.state = .loading then
    let s := s.drainBulk
    let b := s.fw.block.toNat
    let bytes := Mem.load s.port.staging (4096 * (b % 256)) (min 4096 (s.fw.len - 4096 * b))
    if crc32c bytes = crc then
      s.upFw fun f => { (f.modBank f.other fun k => { k with image := Mem.store k.image (4096 * b) bytes }) with
        blockResult := 1#2, good := b :: f.good.filter (· != b) }
    else s.upFw fun f => { f with blockResult := 2#2, good := f.good.filter (· != b) }
  else s.notice 3 0x4C

/-- FW_BLOCK_CRC. -/
def execFwBlockCrc (crc : BitVec 32) (s : State) : Host.Outcome State Fault Refusal :=
  .next (s.nearWrite 0x4C fun s => s.fwBlockCrc crc)

/-- VERIFY (R703): the window is released as LOADING ends (R702). -/
def State.fwVerify (s : State) : State :=
  if s.fw.state = .loading then
    match missingBlock s.fw.len s.fw.good with
    | some b => s.fwResult 10 b
    | none => ((s.upFw fun f => { f with state := .verifying, verifyAt := s.now }).fwRelease).verification .firmware s.fw.len
  else s.notice 3 fwCmdAddr

/-- FW_VERIFY. -/
def execFwVerify (s : State) : Host.Outcome State Fault Refusal := .next (s.nearWrite fwCmdAddr State.fwVerify)

/-- The bytes programmed into the inactive bank. -/
def State.fwImage (s : State) : Bytes := Mem.load (s.fw.bank s.fw.other).image 0 s.fw.len

/-- The checks of R701 before the signature, and those after it: RESULT, 0 where all pass. -/
def State.fwHeader (s : State) (b : Bytes) : Nat :=
  let len := leAt b 8 4
  if s.tide.life = .returned then 9
  else if leAt b 0 4 ≠ 0x57464449 ∨ leAt b 4 2 ≠ 1 then 3
  else if (crc32c (slice b 0 0x3C)).toNat ≠ leAt b 0x3C 4 then 4
  else if len < 2756 ∨ 2097152 < len ∨ len ≠ b.length then 2
  else if byteAt b 6 ≠ 16 ∧ byteAt b 6 ≠ 20 then 5
  else 0

/-- STEPPING, the version floor and the manifest's MIN_FW (R701). -/
def State.fwDevice (s : State) (b : Bytes) : Nat :=
  let v := leAt b 0xC 2
  if byteAt b 7 ≠ 0xB1 then 6
  else if v < s.fw.cur.floor.toNat ∨ v < leAt b 0xE 2 then 7
  else if s.cfg.loaded ∧ v < s.cfg.minFw.toNat then 8
  else 0

/-- The signature of an image verifies over the bytes before it, in the set that HEIGHT at offset 0x06 names (R501, R502,
R701). -/
def fwSigned (b : Bytes) : Bool :=
  let h := byteAt b 6
  let n := leAt b 8 4 - xmssSize h
  xmssVerify Config.fwAuthority h (b.take n) (slice b n (xmssSize h))

/-- The outcome of VERIFY, and whether a signature was verified with its result (R501, R502, R701). -/
def State.fwCheck (s : State) (b : Bytes) : Nat × Option Bool :=
  if s.fwHeader b ≠ 0 then (s.fwHeader b, none)
  else if fwSigned b then
    (if s.fwDevice b = 0 then 1 else s.fwDevice b, some true)
  else (5, some false)

/-- The checks end (R703). -/
def State.fwVerifyEnd (s : State) : State :=
  let b := s.fwImage
  let (r, v) := s.fwCheck b
  (((s.kecDone .firmware).countVerify v).upFw fun f => { f with
    state := if r = 1 then .verified else .refused
    stagedVer := BitVec.ofNat 16 (leAt b 0xC 2), stagedFloor := BitVec.ofNat 16 (leAt b 0xE 2) }).fwResult r 0

/-- FW_VERIFY_DONE. -/
def execFwVerifyDone (s : State) : Host.Outcome State Fault Refusal :=
  s.whenDo (s.mainUp && s.canVerify && s.fw.state == .verifying) s.fwVerifyEnd

/-- ACTIVATE (R703): the bank is read back and the image pushed to every admitted tender. -/
def State.fwActivate (s : State) : State :=
  if s.fw.state = .verified then
    let b := s.fwImage
    let links := s.pushLinks
    let s := s.leaveSlack.upFw fun f => { f with
      state := .distributing, verifyAt := s.now, ownRead := false, pushSet := links, pushAll := links }
    (bitsOf links).foldl (fun s n => s.pushImage n true false (s.fw.stagedVer.setWidth 32) b) s
  else s.notice 3 fwCmdAddr

/-- FW_ACTIVATE. -/
def execFwActivate (s : State) : Host.Outcome State Fault Refusal := .next (s.nearWrite fwCmdAddr State.fwActivate)

/-- Own bank and every tender are ready: the switch tide is chosen (R703). -/
def State.fwArm (s : State) : State :=
  if s.fw.state = .distributing ∧ s.fw.ownRead ∧ s.fw.pushSet = 0#32 then
    let t := (commitTideOf s.fw.switchTide s.tide.number).1
    (s.upFw fun f => { f with state := .armed, armed := t }).commitAll s.fw.pushAll true t
  else s

/-- The read-back fails, or a tender refuses (R703). -/
def State.fwRefuse (s : State) (anchor : Nat) : State :=
  let links := s.fw.pushAll
  ((s.upFw fun f => { f with state := .refused, pushSet := 0#32, pushAll := 0#32 }).fwResult 11 anchor).commitAll links true 0#32

/-- The own bank has been read back (R703). -/
def State.fwReadBack (s : State) (ok : Bool) : State :=
  if ok then
    (s.upFw fun f => { (f.modBank f.other fun k => { k with valid := true, len := f.len }) with ownRead := true }).fwArm
  else s.fwRefuse 0

/-- FW_DISTRIBUTION_DONE (R703): `ok` says whether the own read-back passed; the tenders answer by their
responses to PUSH_END. -/
def execFwDistributionDone (ok : Bool) (s : State) : Host.Outcome State Fault Refusal :=
  s.whenDo (s.mainUp && s.fw.state == .distributing && !s.fw.ownRead) (s.fwReadBack ok)

/-- A tender's answer to PUSH_END of a firmware image (R703). -/
def State.fwTender (s : State) (n : Nat) (ready : Bool) : State :=
  if s.fw.state = .distributing ∧ s.fw.pushSet.getLsbD n then
    if ready then (s.upFw fun f => { f with pushSet := setBit f.pushSet n false }).fwArm
    else s.fwRefuse (n + 1)
  else s

/-- The import is over: IDLE (R703). -/
def State.fwIdle (s : State) : State :=
  (s.upFw fun f => { f with state := .idle, pushSet := 0#32, pushAll := 0#32, ownRead := false }).fwRelease

/-- ABORT (R703): the inactive bank is invalid, the tenders discard. -/
def State.fwAbort (s : State) : State :=
  if s.fw.state = .loading ∨ s.fw.state = .verified ∨ s.fw.state = .refused ∨ s.fw.state = .distributing ∨
      s.fw.state = .armed then
    ((s.commitAll s.fw.pushAll true 0#32).upFw fun f => f.modBank f.other Bank.invalid).fwIdle
  else s.notice 3 fwCmdAddr

/-- FW_ABORT. -/
def execFwAbort (s : State) : Host.Outcome State Fault Refusal := .next (s.nearWrite fwCmdAddr State.fwAbort)

/-- A write of HOST.FW_CMD. -/
def State.fwCommand (s : State) (v : BitVec 32) : State :=
  match fieldN v 2 0 with
  | 1 => s.fwOpen
  | 2 => s.fwVerify
  | 3 => s.fwActivate
  | 4 => s.fwAbort
  | _ => s.notice 2 fwCmdAddr

/-! Pairs (R692, R705). -/

/-- A pair stops: its interrupt enables are cleared, so that its sources pass to other targets (R692). -/
def State.stopPair (s : State) (b : Bool) : State :=
  (s.upIntc fun i => i.stopTarget (pairTarget b)).upSys fun y =>
    if b then { y with pairBUp := false, pairBAt := s.now } else { y with pairAUp := false, pairAAt := s.now }

/-- The switch boundary, and the boundary after pair B is running again (R705); a tender that is adrift
at its switch tide keeps its firmware (R707). LEFT counts the boundaries of TRIAL. -/
def State.fwBoundary (s : State) : State :=
  let mine : Bool := s.fw.state == .armed && s.fw.armed == s.tide.number
  let due : Bool := match s.tend.fwTide with
    | some t => s.cfg.role == .tender && t == s.tide.number
    | none => false
  let up : Bool := match s.upPort? with
    | some n => (s.link n).st == .active
    | none => false
  let s := if due then s.upTend fun t => { t with fwTide := none } else s
  if mine || (due && up) then
    ((s.upFw fun f => { f with state := .handover, hoA := false, hoB := false }).stopPair true).logFirmware
      s.fwVersion s.fw.stagedVer
  else
    match s.fw.state with
    | .handover => if s.fw.hoB && s.sys.pairAUp && !s.fw.hoA then s.stopPair false else s
    | .trial => s.upFw fun f => { f with left := f.left - (if f.left = 0#11 then 0#11 else 1#11) }
    | _ => s

/-- A pair runs again: under a handover, from the new bank (R705). -/
def State.pairBack (s : State) (b : Bool) : State :=
  let s := s.upSys fun y => if b then { y with pairBUp := true } else { y with pairAUp := true }
  if s.fw.state = .handover then
    s.upFw fun f => if b then { f with hoB := true } else { f with hoA := f.hoB }
  else s

/-- PAIR_REJOIN (R692, R705). -/
def execPairRejoin (pairB : Bool) (s : State) : Host.Outcome State Fault Refusal :=
  s.whenDo (s.mainUp && !s.pairUp pairB) (s.pairBack pairB)

/-- Both pairs run the new bank: the bank record, TRIAL (R703). -/
def State.fwHandover (s : State) : State :=
  s.upFw fun f =>
    { (f.record { (f.cur.activate f.other f.stagedVer) with trial := true }) with state := .trial, left := 1024#11 }

/-- FW_HANDOVER_DONE. -/
def execFwHandoverDone (s : State) : Host.Outcome State Fault Refusal :=
  s.whenDo (s.mainUp && s.fw.state == .handover && s.fw.hoA && s.fw.hoB && s.sys.pairAUp && s.sys.pairBUp) s.fwHandover

/-- TRIAL has lasted its 1,024 boundaries: the image is confirmed (R703). -/
def State.fwConfirm (s : State) : State :=
  let old := s.fw.cur.version s.fw.other
  let s := s.upFw fun f =>
    { (f.record { f.cur with trial := false, floor := f.stagedFloor }) with state := .idle }
  s.logFirmware old s.fwVersion

/-- FW_TRIAL_END. -/
def execFwTrialEnd (s : State) : Host.Outcome State Fault Refusal :=
  s.whenDo (s.mainUp && s.fw.state == .trial && s.fw.left == 0#11) s.fwConfirm

/-- The firmware reverts (R706): the old bank is active, the new one invalid. -/
def State.fwRevert (s : State) : State :=
  let new := s.fwVersion
  let s := s.upFw fun f =>
    let bad := f.cur.active
    { ((f.record { f.cur with active := ~~~bad, trial := false }).modBank bad Bank.invalid) with
      state := .idle, left := 0#11, result := 12#4, detail := 0#8 }
  (s.latch 63).logFirmware new s.fwVersion

end Sys2Proof.Machine
end

