-- ==== Sys2Proof/Machine/Uwb.lean ====
section
/-! DEFINITION. Ultra-wideband ranging (R211 to R271): PLL U, the rounds of a tide and their frames,
distances and angles, CIR records, test frames. Planned times are counted in 1/39 of a tick, in which a
chip of 1/499.2 MHz is 5 (R229, R230). -/

namespace Sys2Proof.Machine

/-! Air times (R229, R230, R240, R243). -/

/-- Whether the session of a berth is HPRF (R229). -/
def Berth.hprf (b : Berth) : Bool := b.se.caps.getLsbD 3

/-- Whether a berth runs DS rounds (R241). -/
def Berth.isDs (b : Berth) : Bool := b.se.caps.getLsbD 2

/-- T_SHR in 1/39 tick: 72 symbols of 508 chips, of 364 chips in HPRF (log entry 34). -/
def shrTime (hprf : Bool) : Nat := 5 * 72 * (if hprf then 364 else 508)

/-- T_STS with its gap in 1/39 tick (R229). -/
def stsTime : Nat := 5 * 33280

/-- The pitch P in 1/39 tick (R240). -/
def pitch (hprf : Bool) : Nat := stsTime + 39 * us 8 + shrTime hprf

/-- The length of an air phase in 1/39 tick (R243). -/
def airLength (hprf ds : Bool) (n tk : Nat) : Nat :=
  39 * us (250 + tk + 58 + 250) + shrTime hprf + stsTime + pitch hprf * (if ds then n + 1 else n)

/-- The UWB units in a time of `t39` times 1/39 tick: five ticks are 4,992 units (R232). -/
def unitsOf (t39 : Nat) : Nat := t39 * 128 / 5

/-- The UWB count of 40 bits at tick `t` (R231, R232). -/
def State.uwbCount (s : State) (t : Nat) : BitVec 40 := BitVec.ofNat 40 (unitsOf (39 * s.baseAt t))

/-- The tick in which the UWB count nearest to the present one reads `u` (R232): the whole count, which the 40 bits
show modulo 2^40, is converted without an error that would hang on the present tick. -/
def State.tickOfCount (s : State) (u : BitVec 40) : Nat :=
  let full := unitsOf (39 * s.baseAt s.now)
  let whole := ((full : Int) + (u - BitVec.ofNat 40 full).toInt).toNat
  s.now + whole * 5 / 4992 - s.baseAt s.now

/-- The count `u` lies from `lo` up to before `hi` after the count `v`, in 1/39 tick. -/
def inSpan (u v : BitVec 40) (lo hi : Int) : Bool :=
  let d := (u - v).toInt * 5
  decide (lo * 128 ≤ d) && decide (d < hi * 128)

/-- A received stamp is corrected by RX_DELAY of the anchor's chart entry (R233). -/
def State.correctRx (s : State) (a : Nat) (u : BitVec 40) : BitVec 40 := u - BitVec.ofNat 40 (s.anchorCfg a).rxDelay

/-- A sent frame's stamp is corrected by TX_DELAY (R233). -/
def State.correctTx (s : State) (a : Nat) (u : BitVec 40) : BitVec 40 := u + BitVec.ofNat 40 (s.anchorCfg a).txDelay

/-- The length of an SP3 frame in 1/39 tick (R229). -/
def sp3Time (hprf : Bool) : Nat := shrTime hprf + stsTime

/-! PLL U (R220 to R226). -/

/-- A due calibration of PLL U starts outside any air phase (R221, R222). -/
def State.pllUCalStart (s : State) : State :=
  if s.uwb.calDue && !s.inAir && s.mainUp && (s.tide.power == .service || s.tide.power == .drive) &&
      s.uwb.pll != .calibrating then
    s.upUwb fun u => { u with pll := .calibrating, calDue := false, calTries := 0, cals := satInc u.cals }
  else s

/-- A write of UWB.CTRL (R221). -/
def State.uwbCtrl (s : State) (v : BitVec 32) : State :=
  if v.getLsbD 0 then s.upUwb fun u => { u with calReq := true } else s

/-- UWB_CAL (R221). -/
def execUwbCal (s : State) : Host.Outcome State Fault Refusal := .next (s.farWrite 0x48000 fun s => s.uwbCtrl 1#32)

/-- The anchor number at a slot of a round. -/
def Round.anchorOf (r : Round) (i : Nat) : Option Nat := r.slots[i]?

/-- The rounds of the tide with those for which `p` holds changed. -/
def State.modRounds (s : State) (p : Round → Bool) (f : Round → Round) : State :=
  s.upUwb fun u => { u with schedule := u.schedule.map fun r => if p r then f r else r }

/-- The first round for which `p` holds, changed. -/
def changeFirst (p : Round → Bool) (f : Round → Round) : List Round → List Round
  | [] => []
  | r :: rest => if p r then f r :: rest else r :: changeFirst p f rest

/-- The first round of the tide for which `p` holds, changed by `f`. -/
def State.modFirst (s : State) (p : Round → Bool) (f : Round → Round) : State :=
  s.upUwb fun u => { u with schedule := changeFirst p f u.schedule }

/-- The CTRL payload of a round up to its MAC (R250). -/
def Round.ctrlBody (r : Round) : Bytes :=
  le 4 r.index.toNat ++ [BitVec.ofNat 8 (b2n r.ds), BitVec.ofNat 8 r.n, 0#8, 0#8] ++
    ((r.slots.map (BitVec.ofNat 8)) ++ List.replicate (8 - r.slots.length) 0xFF#8)

/-- The CTRL payload with its MAC under a session MAC key (R250, R252). -/
def State.ctrlPayload (s : State) (r : Round) (key : Bytes) : Bytes :=
  r.ctrlBody ++ macOf key 8 (le 4 (s.sidOf r.sid).toNat ++ r.ctrlBody)

/-- The transmit chain of this device (R216). -/
def State.txChain (s : State) : Nat := (s.anchorCfg s.cfg.anchor).txChain

/-- A frame of this device with stamp `t` is on the air on chain `c` from tick `a` to tick `b` (R219, R224, R231). -/
def State.frameSent (s : State) (t : BitVec 40) (c a b : Nat) : State :=
  (s.upUwb fun u => { u with
    txState := 0#2, txLast := 1#2, txChain := BitVec.ofNat 1 c, txUntil := b, lastStamp := t
    airTx := u.airTx.filter (fun w => decide (s.now < w.2)) ++ [(a, b)] }).enableAmp 5#8 c (a - us 2) (b + us 1)

/-- The stamp of a CTRL whose first chip leaves at tick `at_`: its RMARKER comes T_SHR later, corrected by TX_DELAY of
the anchor of slot 0 (R231, R233). -/
def State.ctrlMark (s : State) (r : Round) (at_ : Nat) : BitVec 40 :=
  s.correctTx ((r.anchorOf 0).getD s.cfg.anchor) (BitVec.ofNat 40 (unitsOf (39 * s.baseAt at_ + shrTime r.hprf)))

/-- The round that is prepared is lost before its CTRL (R223, R225, R238). -/
def State.loseRound (s : State) : State :=
  s.modFirst (fun x => x.phase == .prepared) fun x => { x with phase := .air, lost := true }

/-- CTRL goes out: the round enters its air phase at tick `at_` (R231, R242, R250); it is lost where the use of its
session MAC key is refused (R452). -/
def State.sendCtrl (s : State) (at_ : Nat) : State :=
  match s.uwb.schedule.find? fun r => r.phase == .prepared with
  | none => s
  | some r =>
    let t := s.ctrlMark r at_
    let send (key : Bytes) (s : State) : State :=
      ((s.modFirst (fun r => r.phase == .prepared) fun r => { r with
        phase := .ctrl, ctrlAt := at_, ctrlStamp := t }).upUwb fun u => { u with ctrl := s.ctrlPayload r key }
        ).frameSent t s.txChain at_ (at_ + us 250)
    if s.useAdmits (.mac r.sid) 4#4 true 1 then s.withKey (.mac r.sid) 3#2 4#4 2#5 (4 + r.ctrlBody.length) send
    else (s.violation 4#4).loseRound

/-- A transmission is abandoned as TX_LATE (R225, R269). -/
def State.uwbLate (s : State) : State :=
  (s.upUwb fun u => { u with txState := 0#2, txLast := 2#2, late := satInc u.late }).latch 26

/-- Test frames go out at pitch P, their STS made at level 0 (R219, R226, R240, R491): the first chip leaves 2 µs from now, for which the amplifier is
already enabled (log entry 79). -/
def State.uwbTestRun (s : State) : State :=
  let c := s.uwb.testChain.toNat
  let from_ := s.now + us 2
  let s := (s.upUwb fun u => { u with testUntil := from_ + (pitch false * u.testFrames.toNat + 38) / 39 }).addJob
    { AesJob.reset with left := 28 * (32 * s.uwb.testFrames.toNat), feature := 25#5, since := s.now }
  (List.range s.uwb.testFrames.toNat).foldl (fun s k =>
    let a := from_ + pitch false * k / 39
    let t := BitVec.ofNat 40 (unitsOf (39 * s.baseAt from_ + pitch false * k + shrTime false))
    s.frameSent (s.correctTx s.cfg.anchor t) c a (a + (sp3Time false + 38) / 39)) s

/-- A held transmission is abandoned (R225): a CTRL takes its round with it. -/
def State.dropUwbHeld (s : State) : State :=
  match s.uwb.held with
  | none => s
  | some h =>
    let t := (s.upUwb fun u => { u with held := none }).uwbLate
    if h.kind = 0#2 then t.loseRound else t

/-- PLL U has locked: a held transmission starts 2 µs later inside its tolerance, or is abandoned (R225,
R226). -/
def State.pllUUp (s : State) : State :=
  let t := s.upUwb fun u => { u with pll := .locked }
  match s.uwb.held with
  | none => t
  | some h =>
    if s.now + us 2 < h.planned + h.tol then
      let t := t.upUwb fun u => { u with held := none, txState := 0#2 }
      if h.kind = 2#2 then t.uwbTestRun else t.sendCtrl (s.now + us 2)
    else t.dropUwbHeld

/-- A round that has not reached its air phase. -/
def Round.ahead (r : Round) : Bool := r.phase == .planned || r.phase == .prepared

/-- Rounds whose air phases have waited until tick `c`, still back to back (R222, R247): with the place each
takes, and whether it leaves the tide because it would end after `lim`. -/
def waited (lim : Nat) : Nat → List Round → List (Round × Bool)
  | _, [] => []
  | c, r :: rest =>
    if r.ahead then
      let start := max r.start c
      let stop := start + (r.airEnd - r.start)
      if lim < stop then (r, true) :: waited lim c rest
      else ({ r with start := start, airEnd := stop, ctrlAt := start }, false) :: waited lim stop rest
    else (r, false) :: waited lim c rest

/-- A round moves to the next tide (R222): its index is free again and its berth comes first in the
rotation (log entry 47). -/
def State.moveRound (s : State) (r : Round) : State :=
  (s.upBt fun t => { t with roundIdx := bindTo t.roundIdx r.sid r.index }).modFu r.berth fun f => { f with
    roundAt := none, roundTide := none }

/-- The results of every round of the tide have been delivered (R269): source 24. -/
def State.allDelivered (s : State) : Bool := !s.uwb.schedule.isEmpty && s.uwb.schedule.all fun x => x.phase == .delivered

/-- The air phases that waited for a calibration follow it (R222). -/
def State.waitRounds (s : State) : State :=
  let w := waited (s.tideEnd - us 550) s.now s.uwb.schedule
  let gone := (w.filter (·.2)).map (·.1)
  let s := s.upUwb fun u => { u with
    schedule := (w.filter fun x => !x.2).map (·.1), rounds := u.rounds - BitVec.ofNat 8 gone.length }
  (gone.foldl State.moveRound s).latchIf (!gone.isEmpty && s.allDelivered) 24

/-- PLL_U_CAL_DONE (R221 to R223, R269). -/
def execPllUCalDone (ok : Bool) (temp : BitVec 16) (s : State) : Host.Outcome State Fault Refusal :=
  s.whenDo (s.uwb.pll == .calibrating && s.mainUp)
    ((if ok then (s.upUwb fun u => { u with tempCal := temp, calTries := 0 }).pllUUp.waitRounds
      else if s.uwb.calTries < 2 then s.upUwb fun u => { u with calTries := u.calTries + 1, cals := satInc u.cals }
      else (s.upUwb fun u => { u with pll := .fail, calTries := 0 }).dropUwbHeld).latch 27)

/-- PLL_U_LOCK (R225). -/
def execPllULock (s : State) : Host.Outcome State Fault Refusal :=
  s.whenDo (s.uwb.pll == .locking && s.mainUp) s.pllUUp

/-- A round is in its air phase. -/
def Round.airborne (r : Round) : Bool := r.phase == .ctrl || r.phase == .poll || r.phase == .final || r.phase == .air

/-- PLL_U_LOSS_OF_LOCK (R221, R224, R269): a frame of this device that is on the air stops, its round is lost, and a
calibration is due; with no frame on the air the synthesiser only locks again. -/
def execPllULossOfLock (s : State) : Host.Outcome State Fault Refusal :=
  let air : Bool := decide (s.now < s.uwb.txUntil)
  let test : Bool := decide (s.now < s.uwb.testUntil)
  s.whenDo (s.uwb.pll == .locked && s.mainUp)
    (((((if air then s.modRounds Round.airborne fun r => { r with lost := true } else s).upUwb fun u => { u with
      pll := .locking, calDue := u.calDue || air || test, testUntil := 0, txUntil := 0, airTx := [] }).upPins fun p => { p with
      windows := if air || test then [] else p.windows }).latch 27).pllUCalStart)

/-! Planning the tide (R239, R245, R247, R248). -/

/-- Squared distance between two anchors. -/
def State.anchorGap (s : State) (a b : Nat) : Rat := sqDist (s.anchorPos a) (s.anchorPos b)

/-- The anchors of a round's slots (R245): the holder, then by strength in the previous round or by
nearness. Where that round heard fewer than N - 1 others the rest come by nearness, and the previous round is the
latest that was not lost: the model's choices (log entry 79). -/
def State.slotAnchors (s : State) (n : Nat) : List Nat :=
  let b := s.berth n
  let hold := b.id.anchor.toNat
  let others := s.responders.filter (· != hold)
  let near := orderBy (fun x y => decide (s.anchorGap hold x < s.anchorGap hold y)) others
  let heard := b.fu.responders.filter fun a => others.contains a
  (hold :: (heard ++ near.filter fun a => !heard.contains a)).take b.se.nResp

/-- The next ROUND_INDEX of an identifier (R236). -/
def State.nextIndex (s : State) (k : Nat) : BitVec 28 := (tableGet s.bt.roundIdx k).getD 0#28

/-- The berths of the rotation (R248). -/
def State.rotation (s : State) : List Nat :=
  (orderBy (fun a b => decide ((s.berth a).id.moorSeq < (s.berth b).id.moorSeq))
    (s.mooredBerths.filter fun n => (s.berth n).hasUwb)).take s.cfg.ranging

/-- A berth of the rotation may have a round in this tide (R239, R248, R292, D3). -/
def State.rangeable (s : State) (n : Nat) : Bool :=
  let b := s.berth n
  b.se.readyOk && !b.se.paused && decide (1 ≤ b.se.nResp) && s.canRespond b.id.anchor.toNat &&
    (s.tide.power != .drive || (match b.fu.roundTide with
      | none => true
      | some t => decide (4 ≤ (s.tide.number - t).toNat)))

/-- Berth `a` comes before berth `b` in the rotation (R248). -/
def State.rangedBefore (s : State) (a b : Nat) : Bool :=
  match (s.berth a).fu.roundAt, (s.berth b).fu.roundAt with
  | none, some _ => true
  | none, none => decide (a < b)
  | some x, some y => decide (x < y) || (x == y && decide (a < b))
  | some _, none => false

/-- What a SCHEDULE message says of a round (log entry 28). -/
def State.roundBytes (s : State) (r : Round) : Bytes :=
  [2#8, BitVec.ofNat 8 r.berth, BitVec.ofNat 8 (b2n r.ds + 2 * b2n r.hprf), BitVec.ofNat 8 r.n] ++
    le 4 (s.sidOf r.sid).toNat ++ le 4 r.index.toNat ++ le 6 r.airEnd ++ le 2 r.tk ++ r.slots.map (BitVec.ofNat 8)

/-- The rounds of a tide, back to back from `c` in 1/39 tick up to `lim` (R247). -/
def State.placeRounds (lim : Nat) : List Nat → Nat → State → State
  | [], _, s => s
  | n :: rest, c, s =>
    let b := s.berth n
    match b.se.sid with
    | none => State.placeRounds lim rest c s
    | some k =>
      let len := airLength b.hprf b.isDs b.se.nResp b.se.tk
      if lim < c + len then s
      else
        let idx := s.nextIndex k
        let r : Round := { Round.reset with
          berth := n, sid := k, index := idx, slots := s.slotAnchors n, ds := b.isDs, n := b.se.nResp, hprf := b.hprf
          tk := b.se.tk, start := (c + 38) / 39, ctrlAt := (c + 38) / 39, airEnd := (c + len + 38) / 39
          tide := s.tide.number }
        let s := s.upBt fun t => { t with roundIdx := bindTo t.roundIdx k (idx + 1#28) }
        let s := s.modFu n fun f => { f with roundAt := some r.start, roundTide := some s.tide.number }
        let s := s.modSe n fun x => { x with paused := x.paused || idx + 1#28 == 0x0FFFFFFF#28 }
        State.placeRounds lim rest (c + len) (s.upUwb fun u => { u with
          schedule := u.schedule ++ [r], rounds := u.rounds + 1#8 })

/-- Rounds may be planned (R112, R129, R140, R223). -/
def State.ranges (s : State) : Bool :=
  s.berthsRun && s.moored 2 && (s.tide.power == .service || s.tide.power == .drive) && s.uwb.pll != .fail

/-- ROUND_SCHEDULE at a boundary (R247, R248): the first air phase comes no earlier than 600 µs, or than PLL
U can be locked (R220, log entry 42). -/
def State.scheduleRounds (s : State) : State :=
  let s := s.upUwb fun u => { u with schedule := [], rounds := 0#8 }
  if s.ranges then
    let first := 39 * (s.now + us (if s.uwb.pll = .locked then 600 else 1350))
    let s := State.placeRounds (39 * (s.tideEnd - us 550)) (orderBy s.rangedBefore (s.rotation.filter s.rangeable))
      first s
    s.servingLinks.foldl (fun s l => s.postSchedule l
      (s.uwb.schedule.map fun r => (r.start, s.roundBytes r))) s
  else s

/-- SESSION_RENEWAL at a boundary (R235, R239): a berth whose rounds pause takes a fresh identifier and
keys, and a berth that waits for one asks again. -/
def State.renewSession (s : State) (n : Nat) : State :=
  let b := s.berth n
  match b.se.sid with
  | some k =>
    if b.se.paused then
      (((s.dropSlot k).releaseSid k).modSe n fun x => { x with sid := none, paused := false, readyOk := false }
        ).openSession n
    else if s.nextIndex k = 0x0FFFFFFF#28 then s.modSe n fun x => { x with paused := true }
    else s
  | none => s.openSession n

/-- The renewals of a boundary. -/
def State.renewSessions (s : State) : State := s.mooredBerths.foldl State.renewSession s

/-- PLL U runs in SERVICE and DRIVE (R220): where it goes off, a held transmission is abandoned. -/
def State.uwbPower (s : State) : State :=
  let on := s.tide.power == .service || s.tide.power == .drive
  let s := s.upUwb fun u => { u with calDue := u.calDue && on, pll := pllPower on u.tempCal u.pll }
  (if on then s else s.dropUwbHeld).pllUCalStart

/-- The UWB block at a boundary (R10, R220, R221, R223), after the power state has changed. -/
def State.uwbBoundary (s : State) (temp : BitVec 16) : State :=
  let on := s.tide.power == .service || s.tide.power == .drive
  let due := on && (s.uwb.calReq || s.uwb.pll == .fail || tempMoved s.uwb.tempCal temp)
  (s.upUwb fun u => { u with
    temp := temp, calReq := u.calReq && !on, calDue := u.calDue || due
    atten0 := u.atten0.boundary s.now, atten1 := u.atten1.boundary s.now }).uwbPower

/-! A round's course (R242, R244, R249). -/

/-- A test in progress or held gives way to ranging, its frames leave the air and the amplifier, and diagnostics are
unmoored from the next boundary (R144, R146, R219, R269). -/
def State.uwbTakes (s : State) : State :=
  let waits : Bool := s.uwb.held.any fun h => h.kind == 2#2
  let amps := s.pinsOf 5#8 0 ++ s.pinsOf 5#8 1
  if waits || s.now < s.uwb.testUntil then
    (((s.upUwb fun u => { u with
      testUntil := 0, txLast := 3#2, held := if waits then none else u.held, airTx := [], txUntil := min u.txUntil s.now
      txState := if waits then 0#2 else u.txState }).upMf fun m => { m with diagLost := true }).upPins fun p => { p with
        windows := p.windows.filter fun w => !amps.contains w.1 }).latch 26
  else s

/-- The STS index of frame `j` of a round (R237). -/
def Round.stsIndex (r : Round) (j : Nat) : Nat := 16 * r.index.toNat + j

/-- The number of frames of a round (R237, R241). -/
def Round.frames (r : Round) : Nat := r.n + (if r.ds then 4 else 3)

/-- The STS sequence of index `idx` (R238): 32 blocks of AES-128 in counter mode under the session's STS key, the
upper 96 bits of the counter from the key tree. -/
def SessSlot.stsSequence (x : SessSlot) (idx : Nat) : Bytes :=
  (List.range 32).flatMap fun b => aesEnc x.sts (padTo 12 x.ctr ++ be 4 (Config.stsLow idx b))

/-- The STS of every frame of a round. -/
def State.stsOf (s : State) (r : Round) : List (Nat × Bytes) :=
  match s.slot r.sid with
  | none => []
  | some x => (List.range r.frames).map fun j => (r.stsIndex j, x.stsSequence (r.stsIndex j))

/-- The receive windows of a round (R242), from and to in ticks: POLL, FINAL in a DS round, FINAL_DATA. They follow
the tick at which its CTRL begins. -/
def Round.windows (r : Round) : List (Nat × Nat) :=
  let t := 39 * us 20
  let poll := 39 * (r.ctrlAt + us (250 + r.tk)) + shrTime r.hprf
  let last := poll + pitch r.hprf * (if r.ds then r.n + 1 else r.n)
  let span (a b : Nat) : Nat × Nat := (a / 39, (b + 38) / 39)
  [span (poll - shrTime r.hprf - t) (poll + stsTime + t)] ++
    (if r.ds then [span (last - shrTime r.hprf - 2 * t) (last + stsTime + 2 * t)] else []) ++
    [span (last + stsTime + 39 * us 8 - 2 * t) (last + stsTime + 39 * us (58 + 250) + 2 * t)]

/-- ROUND_PREPARATION (R144, R218, R221, R238, R244): 600 µs before the air phase. -/
def State.prepare (s : State) (r : Round) (temp : BitVec 16) : State :=
  let s := s.uwbTakes
  let ok := s.useAdmits (.sts r.sid) 4#4 true 1
  let s := s.modFirst (fun x => x.phase == .planned) fun x => { x with
    phase := .prepared, stsReady := ok, sts := if ok then s.stsOf r else [] }
  let s := s.addJob { AesJob.reset with
    level := 3#2, cell := some (.sts r.sid), left := 28 * (32 * r.frames), master := 4#4, fleet := true
    feature := 2#5, since := s.now }
  (s.upUwb fun u => { u with
    temp := temp, gain := Config.txGain temp, calDue := u.calDue || tempMoved u.tempCal temp }).pllUCalStart

/-- ROUND_PREPARATION (R244). -/
def execRoundPreparation (temp : BitVec 16) (s : State) : Host.Outcome State Fault Refusal :=
  match s.uwb.schedule.find? fun r => r.phase == .planned with
  | none => .next s
  | some r => s.whenDo (s.mainUp && decide (r.start ≤ s.now + us 600)) (s.prepare r temp)

/-- The STS of a round is ready: its job has left the AES engine (R238). -/
def State.stsDone (s : State) (r : Round) : Bool :=
  r.stsReady && !s.cry.jobs.any fun j => j.level == 3#2 && j.cell == some (.sts r.sid)

/-- A round's air phase begins with CTRL, or the round is lost (R223, R225, R226, R238, R242): CTRL is held while
the synthesiser locks, and too late at the end of its window. -/
def State.startRound (s : State) (r : Round) : State :=
  if !s.stsDone r then s.loseRound
  else if r.anchorOf 0 ≠ some s.cfg.anchor then
    s.modFirst (fun x => x.phase == .prepared) fun x => { x with
      phase := .ctrl, ctrlAt := r.start, ctrlStamp := s.ctrlMark r r.start }
  else match s.uwb.pll with
    | .locked => if s.now < r.start + us 20 then s.sendCtrl s.now else s.uwbLate.loseRound
    | .locking => s.upUwb fun u => { u with
        held := some { kind := 0#2, planned := r.start, tol := us 20, ref := r.berth }, txState := 1#2 }
    | _ => s.loseRound

/-- UWB_CTRL_TRANSMIT (R242): the air phase waits while a calibration runs (R222). -/
def execUwbCtrlTransmit (s : State) : Host.Outcome State Fault Refusal :=
  match s.uwb.schedule.find? fun r => r.phase == .prepared with
  | none => .next s
  | some r => s.whenDo (s.mainUp && decide (r.start ≤ s.now) && s.uwb.held.isNone && s.uwb.pll != .calibrating) (s.startRound r)

/-- An anchor takes part in a round: a responder of it, or a listener (R214, R246, R268); this device only while PLL
U is locked (R223). -/
def State.hears (s : State) (r : Round) (a : Nat) : Bool :=
  let c := s.anchorCfg a
  s.anchorUp a && c.present && c.uwbFlags.getLsbD 0 && c.sink0 && (r.slots.contains a || c.sink1) &&
    (a != s.cfg.anchor || s.uwb.pll == .locked)

/-- What an anchor has measured in a round. -/
def Round.rxOf (r : Round) (a : Nat) : UwbRx := (r.rx.find? fun x => x.anchor == a).getD { UwbRx.reset with anchor := a }

/-- The round with an anchor's measures changed. -/
def Round.setRx (r : Round) (a : Nat) (f : UwbRx → UwbRx) : Round :=
  { r with rx := r.rx.filter (fun x => x.anchor != a) ++ [f (r.rxOf a)] }

/-- A CIR record joins the ring of partition 1 (R262, R264, R269). -/
def State.cirPut (s : State) (b : Bytes) : State :=
  let cap := s.cfg.pages.getD 1 0 * 4096 / 272
  let full := cap ≤ s.uwb.cirRing.length
  let lost := full && !(s.uwb.cirRing.headD ([], true)).2
  let ring := (if full then s.uwb.cirRing.drop 1 else s.uwb.cirRing) ++ [(b, false)]
  (s.upUwb fun u => { u with
    cirRing := ring, cirDropped := if lost then satInc u.cirDropped else u.cirDropped }).latchIf
      (lost || (decide (4 * s.uwb.cirRing.length ≤ 3 * cap) && decide (3 * cap < 4 * ring.length))) 25

/-- A sample word of 14 bits, sign-extended to 16 (R19). -/
def sampleWord (x : BitVec 14) : BitVec 16 := x.signExtend 16

/-- An I/Q pair in one word (R19): I in bits [15:0], Q in bits [31:16]. -/
def iqWord (x : BitVec 14 × BitVec 14) : BitVec 32 := (sampleWord x.2 ++ sampleWord x.1 : BitVec 32)

/-- The CIR record of one chain (R263): `frame` is 0 for POLL and 1 for FINAL, `u` the corrected stamp. -/
def cirRecord (tide : BitVec 32) (berth anchor frame : Nat) (u : BitVec 40) (c : UwbChain) : Bytes :=
  le 4 tide.toNat ++ [BitVec.ofNat 8 berth, BitVec.ofNat 8 anchor, BitVec.ofNat 8 (c.chain.toNat + 4 * frame), c.exp] ++
    le 2 c.pos.toNat ++ le 2 (clampInt 16 c.fp).toNat ++ le 4 u.toNat ++
    padTo 256 ((c.taps.take 64).flatMap fun x => le 4 (iqWord x).toNat)

/-- A tender exports a CIR record in two parts (R617, ROUTE bit 6, log entry 28). -/
def State.cirExport (s : State) (chain berth : Nat) (b : Bytes) : State :=
  match s.upPort? with
  | none => s
  | some n =>
    if s.exports [chain] && s.moored 26 && s.upLive then
      (s.pierPost n 0x21 0#32 ([5#8, BitVec.ofNat 8 berth] ++ b.take 240)).pierPost n 0x21 240#32
        ([5#8, BitVec.ofNat 8 berth] ++ b.drop 240) true
    else s

/-- CIR capture of a frame by this device's anchor (R223, R262, R268): one record for each chain routed to sink 2 that
received it inside its window, whatever the anchor's part in the round. -/
def State.cirCapture (s : State) (berth frame : Nat) (inside : BitVec 40 → Bool) (x : UwbStamp) : State :=
  let a := s.anchorCfg s.cfg.anchor
  let at_ (c : UwbChain) : BitVec 40 := s.correctRx s.cfg.anchor c.stamp
  if s.uwb.cirEnable && (s.uwb.cirAll || s.uwb.cirBerth.toNat == berth) && s.moored 4 && a.present && a.uwbFlags.getLsbD 0 &&
      s.uwb.pll == .locked then
    (x.chains.filter fun c => a.cir.getLsbD c.chain.toNat && inside (at_ c)).foldl (fun s c =>
      let b := cirRecord s.tide.number berth s.cfg.anchor frame (at_ c) c
      if s.cfg.role = .tender then s.cirExport c.chain.toNat berth b else s.cirPut b) s
  else s

/-- The chain with the strongest first path among those routed to sink 0 (R214), the lower one where they are
equal. -/
def bestChain (x : UwbStamp) (rng : BitVec 4) : Option UwbChain :=
  (orderBy (fun (a b : UwbChain) => decide (b.fp < a.fp) || (a.fp == b.fp && decide (a.chain.toNat < b.chain.toNat)))
    (x.chains.filter fun c => rng.getLsbD c.chain.toNat)).head?

/-- The centre of the vehicle's channel in 0.1 MHz (R212). -/
def centre (channel : Nat) : Nat := if channel = 5 then 64896 else 79872

/-- Element `k` of an anchor's antenna set, in 0.1 mm (R267). -/
def element (e : List Int) (k : Nat) : P3 := toP (e.getD (3 * k) 0, e.getD (3 * k + 1) 0, e.getD (3 * k + 2) 0)

/-- The angle in 0.1 degree from the phases of elements 0 and `k` (R259, R267): the chart's phase offsets for the
channel in use are removed, sin θ = λ Δφ ÷ (2 π d); none where no angle has that sine. -/
def pairAngle (e : List Int) (channel k : Nat) (p0 pk : Int) : Option Int :=
  let off := e.getD ((if channel = 5 then 12 else 16) + k) 0 - e.getD (if channel = 5 then 12 else 16) 0
  let turn : Rat := (((pk - p0 - off + 18000) % 36000 - 18000 : Int) : Rat) / 36000
  let d := dist (element e k) (element e 0)
  let v := (29979245800 : Rat) / (centre channel : Nat) / 1000 * turn / d
  if d = 0 ∨ v < -1 ∨ 1 < v then none else some (roundQ (10 * asinQ v))

/-- The angle of the pair of elements 0 and `k` of this device's anchor: both chains routed to sink 1, the pair's
flag set (R214, R246, R260). -/
def State.pairOf (s : State) (x : UwbStamp) (flag k : Nat) : Option Int :=
  let c := s.anchorCfg s.cfg.anchor
  let on (j : Nat) : Option UwbChain := if c.aoa.getLsbD j then x.chains.find? fun y => y.chain.toNat == j else none
  if c.uwbFlags.getLsbD flag && s.moored 3 then
    match on 0, on k with
    | some a, some b => pairAngle (s.cfg.chart.phase.getD s.cfg.anchor []) s.cfg.radio.uwbChannel k a.phase b.phase
    | _, _ => none
  else none

/-- What this device's anchor makes of a frame (R214, R233, R258, R259), none where no chain of sink 0 received it. -/
def State.measureUwb (s : State) (x : UwbStamp) : Option UwbMeas :=
  (bestChain x (s.anchorCfg s.cfg.anchor).rng).map fun c =>
    { anchor := BitVec.ofNat 6 s.cfg.anchor, stamp := s.correctRx s.cfg.anchor c.stamp, cfo := x.cfo, fp := c.fp
      total := c.total, az := s.pairOf x 1 1, el := s.pairOf x 2 2 }

/-- A measurement of a RESULT message (log entry 28). -/
def resultBytes (kind berth tick : Nat) (x : UwbMeas) : Bytes :=
  let angle (a : Option Int) : Bytes := le 2 ((a.map fun v => (v % 65536).toNat).getD 0x8000)
  [BitVec.ofNat 8 kind, BitVec.ofNat 8 berth] ++ le 6 tick ++ le 5 x.stamp.toNat ++ le 1 (x.cfo % 256).toNat ++
    le 2 (x.fp % 65536).toNat ++ le 2 (x.total % 65536).toNat ++ angle x.az ++ angle x.el

/-- A tender exports its own measurement with its timebase stamp (R232, R249, ROUTE bit 6). -/
def State.exportRx (s : State) (kind berth : Nat) (x : UwbMeas) : State :=
  match s.upPort? with
  | none => s
  | some n =>
    if s.cfg.role = .tender ∧ s.exports [0, 1, 2, 3] ∧ s.moored 26 ∧ s.upLive then
      s.pierPost n 0x21 0#32 (resultBytes kind berth (s.baseAt (s.tickOfCount x.stamp)) x)
    else s

/-- An anchor's POLL in a round (R242, R249, R260). -/
def State.takePoll (s : State) (r : Round) (x : UwbMeas) : State :=
  s.modRounds (fun y => y.berth == r.berth && y.airborne) fun y =>
    { (y.setRx x.anchor.toNat fun m => { m with
        poll := some x.stamp, cfo := x.cfo, fp := x.fp, total := x.total, az := x.az, el := x.el }) with
      phase := if y.phase = .ctrl then .poll else y.phase }

/-- The count at which a round's POLL has its RMARKER when the key keeps its turn-round exactly (R233, R242): T_K after
the end of CTRL, and so 250 µs and T_K after CTRL's own RMARKER. -/
def Round.pollPlan (r : Round) : BitVec 40 := r.ctrlStamp + BitVec.ofNat 40 (unitsOf (39 * us (250 + r.tk)))

/-- The window of a key's SP3 frame around the count `v` (R16, R242): ±20 µs. -/
def near20 (v u : BitVec 40) : Bool := inSpan u v (-(39 * us 20 : Nat)) (39 * us 20 : Nat)

/-- A key frame of this device's anchor in a round, planned at the count `plan`: taken by `eff` where it lies inside its
window, and captured (R231, R242, R262). -/
def State.keyFrame (s : State) (r : Round) (rx : Option UwbStamp) (frame : Nat) (plan : BitVec 40)
    (eff : State → UwbMeas → State) : State :=
  match rx with
  | none => s
  | some x =>
    let s := s.cirCapture r.berth frame (near20 plan) x
    match if s.hears r s.cfg.anchor then s.measureUwb x else none with
    | none => s
    | some m =>
      if near20 plan m.stamp then
        ((eff s m).upUwb fun u => { u with lastStamp := m.stamp }).exportRx (2 * frame) r.berth m
      else s

/-- UWB_POLL (R242): what this device's anchor received of it; none where it received none. -/
def execUwbPoll (rx : Option UwbStamp) (s : State) : Host.Outcome State Fault Refusal :=
  match s.uwb.schedule.find? fun r => r.phase == .ctrl with
  | none => .next s
  | some r =>
    let t := s.modFirst (fun x => x.phase == .ctrl) fun x => { x with phase := .poll, tide := s.tide.number }
    s.whenDo s.mainUp (t.keyFrame r rx 0 r.pollPlan fun s m =>
        (s.takePoll r m).modFirst (fun x => x.berth == r.berth && x.phase == .poll) fun x =>
          { x with tide := s.tideOf (s.tickOfCount m.stamp) })

/-- The stamp of the RESPONSE in slot `i` after the POLL stamp `p` (R240, R242): RMARKER (i + 1) × P after that of
the POLL. The frame is sent TX_DELAY earlier at the port, and its stamp is corrected by it (R233). -/
def State.responseStamp (s : State) (r : Round) (i a : Nat) (p : BitVec 40) : BitVec 40 :=
  let want := p + BitVec.ofNat 40 (unitsOf ((i + 1) * pitch r.hprf))
  s.correctTx a (want - BitVec.ofNat 40 (s.anchorCfg a).txDelay)

/-- An anchor's RESPONSE with stamp `t` in a round. -/
def State.setResponse (s : State) (r : Round) (a : Nat) (t : BitVec 40) : State :=
  s.modRounds (fun y => y.berth == r.berth && y.airborne) fun y => y.setRx a fun m => { m with resp := some t }

/-- This device's RESPONSE in slot `i` goes out (R219, R240). -/
def State.sendResponse (s : State) (r : Round) (i : Nat) (p : BitVec 40) : State :=
  let a := s.cfg.anchor
  let t := s.responseStamp r i a p
  let from_ := s.tickOfCount p + ((i + 1) * pitch r.hprf - shrTime r.hprf) / 39
  ((s.setResponse r a t).frameSent t s.txChain from_ (from_ + (sp3Time r.hprf + 38) / 39)).exportRx 1 r.berth
    { anchor := BitVec.ofNat 6 a, stamp := t, cfo := 0, fp := 0, total := 0, az := none, el := none }

/-- UWB_RESPONSE_TRANSMIT (R225, R240, R253) of this device's anchor: a held RESPONSE is late, and the anchor is
missing. -/
def execUwbResponseTransmit (slot : BitVec 4) (s : State) : Host.Outcome State Fault Refusal :=
  match s.uwb.schedule.find? fun r => r.phase == .poll with
  | none => .next s
  | some r =>
    match (r.rxOf s.cfg.anchor).poll with
    | none => .next s
    | some p =>
      s.whenDo (s.mainUp && r.anchorOf slot.toNat == some s.cfg.anchor && (r.rxOf s.cfg.anchor).resp.isNone && !r.lost)
        (if s.uwb.pll = .locked then s.sendResponse r slot.toNat p else s.uwbLate)

/-- An anchor's FINAL in a round (R242). -/
def State.takeFinal (s : State) (r : Round) (x : UwbMeas) : State :=
  s.modRounds (fun y => y.berth == r.berth && y.airborne) fun y =>
    y.setRx x.anchor.toNat fun m => { m with final := some x.stamp }

/-- The POLL stamp of this device's anchor, or where the POLL was planned. -/
def State.pollStamp (s : State) (r : Round) : BitVec 40 := ((r.rxOf s.cfg.anchor).poll).getD r.pollPlan

/-- The count at which the last SP3 frame of a round has its RMARKER, when the key keeps its time exactly (R242). -/
def State.lastPlan (s : State) (r : Round) : BitVec 40 :=
  s.pollStamp r + BitVec.ofNat 40 (unitsOf (pitch r.hprf * (if r.ds then r.n + 1 else r.n)))

/-- UWB_FINAL (R242). -/
def execUwbFinal (rx : Option UwbStamp) (s : State) : Host.Outcome State Fault Refusal :=
  match s.uwb.schedule.find? fun r => r.phase == .poll && r.ds with
  | none => .next s
  | some r =>
    let t := s.modFirst (fun x => x.phase == .poll && x.ds) fun x => { x with phase := .final }
    s.whenDo s.mainUp (t.keyFrame r rx 1 (s.lastPlan r) fun s m => s.takeFinal r m)

/-! Amplifier enables (R142, R148, R215, R219). -/

/-- This device's anchor takes part in a round (R214, R246, R262, R268): as a responder, as a listener or to capture. -/
def State.attends (s : State) (r : Round) : Bool :=
  let c := s.anchorCfg s.cfg.anchor
  c.present && c.uwbFlags.getLsbD 0 && ((c.sink0 && (r.slots.contains s.cfg.anchor || c.sink1)) || c.cir != 0)

/-- A transmit chain of this anchor is on the air (R215). -/
def State.onAir (s : State) : Bool := s.uwb.airTx.any fun w => decide (w.1 ≤ s.now) && decide (s.now < w.2)

/-- A receive window of this device's anchor is open, or opens within 2 µs (R215, R242). -/
def State.listening (s : State) : Bool :=
  s.uwb.pll != .fail && s.uwb.schedule.any fun r =>
    (r.airborne || r.phase == .prepared) && !r.lost && s.attends r &&
      r.windows.any fun w => decide (w.1 ≤ s.now + us 2) && decide (s.now < w.2)

/-- The low-noise amplifier enable of chain `k` (R215, log entry 57): from 2 µs before a receive window of the chain to
its end, off while a transmit chain of the anchor is on the air. -/
def State.lnaOn (s : State) (k : Nat) : Bool :=
  let c := s.anchorCfg s.cfg.anchor
  (c.rng ||| c.aoa ||| c.cir).getLsbD k && s.listening && !s.onAir

/-- The amplifier enable of chain `k` rises 2 µs before a CTRL that this device is about to send (R219). -/
def State.ctrlLead (s : State) (k : Nat) : Bool :=
  k == s.txChain && s.uwb.pll == .locked && s.uwb.schedule.any fun r =>
    r.phase == .prepared && !r.lost && r.stsReady && r.anchorOf 0 == some s.cfg.anchor &&
      decide (r.start ≤ s.now + us 2) && decide (s.now ≤ r.start)

/-- MFP output `i` is active (R114, R148, R215, R219): a latch output, or an amplifier enable that is due. -/
def State.mfpActive (s : State) (i : Nat) : Bool :=
  let c := s.cfg.pins.getD i PinCfg.reset
  let due : Bool := if c.func = 6#8 then decide (c.param.toNat < 4) && s.lnaOn c.param.toNat
    else s.inWindow i || (c.func == 5#8 && s.ctrlLead c.param.toNat)
  s.pins.driven && (s.pins.outputs.getLsbD i || (!s.keys.tamperHold && s.moored 23 && due))

/-! Distances (R251 to R256). -/

/-- Single-sided time of flight in units, the key clock offset in 0.1 ppm (R254). -/
def ssTof (ra db : Rat) (cfo : Int) : Rat := (ra * (1 - (cfo : Rat) / 10000000) - db) / 2

/-- Double-sided time of flight in units (R255). -/
def dsTof (ra rb da db : Rat) : Rat := (ra * rb - da * db) / (ra + rb + da + db)

/-- A distance in mm from a time of flight in units (R18, R256). -/
def distOf (tof : Rat) : Nat := min 65534 (roundQ (tof * 5 / 319488 * 299792458 / 1000)).toNat

/-- The distance of one responder in slot `i` (R253 to R256): times are differences of stamps, which wrap. -/
def Round.distance (r : Round) (payload : Bytes) (i : Nat) (m : UwbRx) : UwbRx :=
  let ra := leAt payload (0x0C + 4 * i) 4
  let got := (payload.getD 8 0#8).getLsbD i && ra != 0xFFFFFFFF
  match m.poll, m.resp, got with
  | some t, some x, true =>
    let db : Rat := ((x - t).toNat : Rat)
    match r.ds, m.final with
    | true, some f =>
      let rb : Rat := ((f - x).toNat : Rat)
      let da : Rat := (leAt payload 4 4 : Rat) - ra
      { m with dist := some (distOf (dsTof ra rb da db)), isDs := true }
    | _, _ => { m with dist := some (distOf (ssTof ra db m.cfo)), isDs := false }
  | _, _, _ => m

/-- The distances of a round from its FINAL_DATA (R251). -/
def Round.measured (r : Round) (payload : Bytes) : Round :=
  { r with
    dataOk := true, phase := .air
    rx := r.rx.map fun m => match r.slots.findIdx? (· == m.anchor) with
      | some i => r.distance payload i m
      | none => m }

/-- FINAL_DATA is checked (R251, R252). -/
def State.finalData (s : State) (r : Round) (payload : Bytes) : State :=
  let n := r.n
  let body := payload.take (0x0C + 4 * n)
  let msg := le 4 (s.sidOf r.sid).toNat ++ body
  let here (x : Round) : Bool := x.berth == r.berth && (x.phase == .poll || x.phase == .final)
  s.withKey (.mac r.sid) 3#2 4#4 2#5 msg.length fun key s =>
  if macOf key 8 msg ≠ payload.drop (0x0C + 4 * n) then
    (s.modFirst here fun x => { x with phase := .air }).upUwb fun u => { u with macFail := satInc u.macFail }
  else if leAt payload 0 4 ≠ r.index.toNat ∨ r.lost = true then s.modFirst here fun x => { x with phase := .air }
  else s.modFirst here fun x => x.measured payload

/-- The count at which the last SP3 frame of a round ended at this device's anchor (R242). -/
def State.lastEnd (s : State) (r : Round) : BitVec 40 :=
  (((if r.ds then (r.rxOf s.cfg.anchor).final else none)).getD (s.lastPlan r)) + BitVec.ofNat 40 (unitsOf stsTime)

/-- UWB_FINAL_DATA (R223, R231, R233, R242, R252): it begins from 8 µs up to 58 µs after the last frame, by the
corrected count, and its RMARKER comes T_SHR later. -/
def execUwbFinalData (begin_ : BitVec 40) (payload : Bytes) (s : State) : Host.Outcome State Fault Refusal :=
  match s.uwb.schedule.find? fun r => r.phase == .poll || r.phase == .final with
  | none => .next s
  | some r =>
    let at_ := s.correctRx s.cfg.anchor begin_
    s.whenDo (s.mainUp && s.uwb.pll == .locked && payload.length == 20 + 4 * r.n &&
        inSpan at_ (s.lastEnd r) (39 * us 8 : Nat) (39 * us 58 : Nat))
      ((s.finalData r payload).upUwb fun u => { u with lastStamp := at_ + BitVec.ofNat 40 (unitsOf (shrTime r.hprf)) })

/-- A round that ended without a POLL at any anchor, or that lost its STS or its frame (R224, R238, R253). -/
def Round.isLost (r : Round) : Bool := r.lost || !r.rx.any fun m => m.poll.isSome

/-- The air phase of a round ends (R222, R253): losses are counted, a pending calibration of PLL U runs,
and the berth's sounding may follow (R301). -/
def State.endRound (s : State) (r : Round) : State :=
  let s := s.modFirst Round.airborne fun x => { x with phase := .ended, lost := r.isLost }
  let s := if s.cfg.role = .tender then s else s.upUwb fun u => { u with
    lost := if r.isLost then satInc u.lost else u.lost
    done := if !r.isLost && (r.rx.any fun m => m.dist.isSome) then satInc u.done else u.done }
  let s := if s.canSound r.berth && !s.nb.csWait.contains r.berth then
      let s := s.upNb fun b => { b with csWait := b.csWait ++ [r.berth] }
      let a := (s.berth r.berth).id.anchor.toNat
      if s.cfg.role = .harbourmaster ∧ a ≠ 0 then s.postSchedule (a - 1) [(s.now + us 500, [3#8, BitVec.ofNat 8 r.berth])]
      else s
    else s
  s.pllUCalStart

/-- UWB_ROUND_END (R253). -/
def execUwbRoundEnd (s : State) : Host.Outcome State Fault Refusal :=
  match s.uwb.schedule.find? Round.airborne with
  | none => .next s
  | some r => s.whenDo (s.mainUp && decide (r.airEnd ≤ s.now)) (s.endRound r)

/-! Angles in the chart frame (R260, log entry 32). -/

/-- A direction of azimuth and elevation, in 0.1 degree. -/
def direction (az el : Int) : P3 :=
  let a : Rat := (az : Rat) / 10
  let e : Rat := (el : Rat) / 10
  (cosQ e * cosQ a, cosQ e * sinQ a, sinQ e)

/-- A direction turned by roll about x, pitch about y and yaw about z, in 0.1 degree. -/
def turned (rot : Int × Int × Int) (v : P3) : P3 :=
  let deg (x : Int) : Rat := (x : Rat) / 10
  let (cr, sr) := (cosQ (deg rot.2.2), sinQ (deg rot.2.2))
  let v : P3 := (v.1, cr * v.2.1 - sr * v.2.2, sr * v.2.1 + cr * v.2.2)
  let (cp, sp) := (cosQ (deg rot.2.1), sinQ (deg rot.2.1))
  let v : P3 := (cp * v.1 + sp * v.2.2, v.2.1, cp * v.2.2 - sp * v.1)
  let (cy, sy) := (cosQ (deg rot.1), sinQ (deg rot.1))
  (cy * v.1 - sy * v.2.1, sy * v.1 + cy * v.2.1, v.2.2)

/-- The angles of an anchor in the chart frame, in 0.1 degree: the one that it does not measure counts as 0 in the
turn, and stays unmeasured. -/
def State.chartAngles (s : State) (a : Nat) (m : UwbRx) : Option Int × Option Int :=
  let v := turned (s.anchorCfg a).rot (direction (m.az.getD 0) (m.el.getD 0))
  (m.az.map fun _ => roundQ (10 * atan2Q v.2.1 v.1), m.el.map fun _ => roundQ (10 * asinQ v.2.2))

/-! Results (R244, R249, R258, R271). -/

/-- The first path lies more than 6 dB below the total power (R258), in 0.25 dBm. -/
def UwbRx.nlos (m : UwbRx) : Bool := decide (m.fp + 24 < m.total)

/-- What RES shows of an anchor's part of a round (R271). -/
def State.resultOf (s : State) (r : Round) (m : UwbRx) : UwbRes :=
  let (az, el) := s.chartAngles m.anchor m
  { berth := r.berth, anchor := m.anchor
    dist := (m.dist.map (BitVec.ofNat 16)).getD 0xFFFF#16
    fpPower := if m.poll.isSome then clampInt 16 m.fp else 0x8000#16
    az := (az.map (clampInt 16)).getD 0x8000#16, el := (el.map (clampInt 16)).getD 0x8000#16
    valid := true, ds := m.isDs, nlos := m.nlos, listener := !r.slots.contains m.anchor
    cfo := clampInt 8 m.cfo, tide := r.tide.setWidth 16 }

/-- One anchor's results reach the verdict engine and the result table (R249, R271). -/
def State.deliverRx (r : Round) (s : State) (m : UwbRx) : State :=
  let res := s.resultOf r m
  let (az, el) := s.chartAngles m.anchor m
  let s := s.upUwb fun u => { u with
    results := res :: u.results.filter fun x => !(x.berth == r.berth && x.anchor == m.anchor) }
  let s := match m.dist with
    | none => s
    | some d => s.measure r.berth { Meas.reset with
        kind := .uwbDist, anchor := m.anchor, tide := r.tide, val := d, ds := m.isDs, nlos := m.nlos, valid := true }
  if az.isNone && el.isNone then s
  else s.measure r.berth { Meas.reset with
    kind := .uwbAngle, anchor := m.anchor, tide := r.tide, val := az.getD noAngle, val2 := el.getD noAngle
    nlos := m.nlos, valid := true }

/-- The results of a round are delivered (R244, R245, R253, R269), without those of an anchor whose link is not up:
source 24 after the tide's last round. -/
def State.deliverRound (s : State) (r : Round) : State :=
  let heard := r.rx.filter fun m => m.poll.isSome && s.anchorUp m.anchor
  let s := s.modFirst (fun x => x.phase == .ended) fun x => { x with phase := .delivered }
  let s := if r.isLost || !(s.berth r.berth).id.st.moored? then s
    else
      (heard.foldl (State.deliverRx r) s).modFu r.berth fun f => { f with
        responders := (orderBy (fun (a b : UwbRx) => decide (b.fp < a.fp) || (a.fp == b.fp && decide (a.anchor < b.anchor)))
          heard).map (·.anchor) }
  s.latchIf s.allDelivered 24

/-- ROUND_RESULTS (R244). -/
def execRoundResults (s : State) : Host.Outcome State Fault Refusal :=
  match s.uwb.schedule.find? fun r => r.phase == .ended with
  | none => .next s
  | some r => s.whenDo (s.mainUp && s.cfg.role != .tender) (s.deliverRound r)

/-- The 7256 supports a frame of form `f` (R227): channels 5 and 9, whichever the vehicle uses. -/
def uwbSupports (f : UwbFormat) : Bool :=
  let bprf := f.mode == 0#2 && f.rate == 0#2 && 9 ≤ f.code.toNat && f.code.toNat ≤ 12 && f.sync == 64#13 && f.sfd == 8#8 &&
    f.segments == (1#3, 64#9)
  let hprf := f.mode == 1#2 && f.rate.toNat < 2 && 25 ≤ f.code.toNat && f.code.toNat ≤ 32 &&
    [32#13, 64#13, 128#13].contains f.sync && [8#8, 16#8].contains f.sfd &&
    (f.segments.1 == 1#3 || f.segments.1 == 2#3) && [32#9, 64#9, 128#9].contains f.segments.2
  (bprf || hprf) && (f.channel == 5#4 || f.channel == 9#4) && (f.sts == 1#2 || f.sts == 3#2) && f.access

/-- FOREIGN_UWB_FRAME (R227, R228): a frame of an unsupported kind is discarded and counted. -/
def execForeignUwbFrame (f : UwbFormat) (s : State) : Host.Outcome State Fault Refusal :=
  s.whenDo (s.mainUp && (s.tide.power == .service || s.tide.power == .drive) && !uwbSupports f)
    (s.upUwb fun u => { u with foreign := satInc u.foreign })

/-! Host registers with effects (R226, R265, R271). -/

/-- This device's anchor is ranging, from the preparation of a round in which it responds to the round's end: its
transmit chains are taken (R144, R217). -/
def State.chainRanges (s : State) : Bool :=
  s.uwb.schedule.any fun r => (r.airborne || r.phase == .prepared) && r.slots.contains s.cfg.anchor

/-- TEST.GO (R114, R139, R217, R225, R226): refused while the anchor is ranging, while an earlier test runs or a
transmission is held, in RETURN and while diagnostics are unmoored; held for lock while the synthesiser locks, and
late where its first chip would leave its tolerance (log entry 79). -/
def State.uwbTestStart (s : State) : State :=
  let wait := s.upUwb fun u => { u with
    held := some { kind := 2#2, planned := s.now, tol := us u.testTol.toNat, ref := 0 }, txState := 1#2 }
  if s.chainRanges || s.uwb.held.isSome || decide (s.now < s.uwb.testUntil) || s.tide.life == .returned || !s.moored 25 then s.notice 3 0x48050
  else match s.uwb.pll with
    | .locked => if 2 < s.uwb.testTol.toNat then s.uwbTestRun else s.uwbLate
    | .locking => wait
    | .calibrating => wait
    | _ => s.notice 3 0x48050

/-- A write of UWB.TEST: values out of range are stored as the nearest, with a notice (R271). -/
def State.uwbTest (s : State) (v : BitVec 32) : State :=
  let tol := fieldN v 17 8
  let fr := fieldN v 31 24
  let t := s.upUwb fun u => { u with
    testChain := BitVec.ofNat 1 (fieldN v 4 4), testTol := BitVec.ofNat 10 (min tol 1000)
    testFrames := BitVec.ofNat 8 (max fr 1) }
  let t := if v.getLsbD 0 then t.uwbTestStart else t
  s.oneNotice (t.noticeIf (1000 < tol || fr == 0) 1 0x48050)

/-- UWB_TEST_GO (R226). -/
def execUwbTestGo (v : BitVec 32) (s : State) : Host.Outcome State Fault Refusal :=
  .next (s.farWrite 0x48050 fun s => s.uwbTest (v ||| 1#32))

/-- A write of UWB.RES_SEL (R271). -/
def State.resSelect (s : State) (v : BitVec 32) : State :=
  let n := fieldN v 7 0
  let a := fieldN v 13 8
  let k := min a 32
  let s := s.noticeIf (32 < a) 1 0x48020
  let sid := ((s.berth n).se.sid.map s.sidOf).getD 0#32
  s.upUwb fun u => { u with
    selBerth := BitVec.ofNat 8 n, selAnchor := BitVec.ofNat 6 k, viewSid := sid
    view := (u.results.find? fun x => x.berth == n && x.anchor == k).getD UwbRes.reset }

/-- RES_SEL_WRITE (R271). -/
def execResSelWrite (v : BitVec 32) (s : State) : Host.Outcome State Fault Refusal :=
  .next (s.farWrite 0x48020 fun s => s.resSelect v)

/-- A write of UWB.CIR_SEL (R265). -/
def State.cirSelect (s : State) (v : BitVec 32) : State :=
  let i := fieldN v 15 0
  let n := s.uwb.cirRing.length
  let k := if n ≤ i then n - 1 else i
  let s := s.noticeIf (i != k) 1 0x48048
  s.upUwb fun u => { u with
    cirSel := BitVec.ofNat 16 k, cirWin := (u.cirRing.getD k ([], true)).1
    cirRing := u.cirRing.modify k fun r => (r.1, true) }

/-- CIR_SEL_WRITE (R265). -/
def execCirSelWrite (v : BitVec 32) (s : State) : Host.Outcome State Fault Refusal :=
  .next (s.farWrite 0x48048 fun s => s.cirSelect v)

end Sys2Proof.Machine
end

