-- ==== Sys2Proof/Machine/Nfc.lean ====
section
/-! DEFINITION. NFC (R527 to R555): cards at the reader port, the tag port and its access application,
tag memory, and the energy harvest. -/

namespace Sys2Proof.Machine

/-! The reader port (R533 to R538). -/

/-- The reader works (R112, R140; PORTS bit 0). -/
def State.readerRuns (s : State) : Bool :=
  s.mainUp && s.cfg.loaded && s.cfg.nfcPorts.getLsbD 0 && s.moored 8 && s.tide.power != .deep

/-- The polling period in ms (R533, D6). -/
def State.reqaPeriod (s : State) : Nat := if s.tide.power = .standby then 500 else 100

/-- REQA_POLL (R533). -/
def execReqaPoll (s : State) : Host.Outcome State Fault Refusal :=
  s.whenDo (s.readerRuns && s.nfc.fieldBack.isNone && decide (s.nfc.cards.length < 4) &&
      (s.nfc.rescanDue || s.elapsed s.nfc.lastReqa (ms s.reqaPeriod)))
    (s.upNfc fun c => { c with
      lastReqa := s.now, rescanDue := false, reader := if c.cards.isEmpty then 1#2 else 2#2 })

/-- A UID in its order on the air, with the cascade tags of the longer ones (R534). -/
def uidAir (u : Bytes) : List Bool :=
  let b : Bytes := if u.length = 4 then u
    else if u.length = 7 then 0x88#8 :: u
    else 0x88#8 :: (u.take 3 ++ (0x88#8 :: u.drop 3))
  b.flatMap fun x => (List.range 8).map fun i => x.getLsbD i

/-- Anticollision among bit strings (R534): at a collision the value 0 is chosen; the string that is
left and how many collisions there were. -/
def anticollide : Nat → Nat → List (List Bool) → List (List Bool) × Nat
  | 0, _, l => (l, 0)
  | fuel + 1, i, l =>
    let zeros := l.filter fun b => b.getD i false == false
    if zeros.isEmpty || zeros.length == l.length then anticollide fuel (i + 1) l
    else
      let (r, k) := anticollide fuel (i + 1) zeros
      (r, k + 1)

/-- The card that anticollision selects among those that answer, and the collisions resolved. -/
def selectCard (uids : List Bytes) : Option Bytes × Nat :=
  let (left, k) := anticollide 96 0 (uids.map uidAir)
  (uids.find? fun u => left.contains (uidAir u), k)

/-- The next free CID from 1 to 4 (R534). -/
def freeCid (cards : List Card) : Option (BitVec 4) :=
  [1#4, 2#4, 3#4, 4#4].find? fun c => !cards.any fun x => x.cid == c

/-- A card is activated, or a fifth card is sent HLTA (R534, R554). -/
def State.activate (s : State) (u : Bytes) (collisions : Nat) : State :=
  let s := s.upNfc fun c => { c with collisions := satAdd c.collisions collisions }
  match freeCid s.nfc.cards with
  | none => (s.upNfc fun c => { c with overflow := satInc c.overflow }).latch 30
  | some cid => (s.upNfc fun c => { c with
      cards := c.cards ++ [{ Card.reset with uid := u, cid := cid }], reader := 2#2 }).latch 30

/-- A card without ISO-DEP is not supported: it is counted and not activated (R527, R528). -/
def State.foreignCard (s : State) (collisions : Nat) : State :=
  s.upNfc fun c => { c with collisions := satAdd c.collisions collisions, foreign := satInc c.foreign }

/-- The cards that answer REQA: those with a UID of 4, 7 or 10 bytes that are not active yet (R527, R533). -/
def State.answering (s : State) (uids : List (Bytes × Bool)) : List (Bytes × Bool) :=
  uids.filter fun u => (u.1.length == 4 || u.1.length == 7 || u.1.length == 10) && !s.nfc.cards.any fun c => c.uid == u.1

/-- CARD_ACTIVATION (R124, R527, R533, R534): the UIDs of the cards that answer REQA, each with whether its card has ISO-DEP. A detected card is a wake
event; in STANDBY its activation follows in WATCH. -/
def execCardActivation (uids : List (Bytes × Bool)) (s : State) : Host.Outcome State Fault Refusal :=
  let l := s.answering uids
  match selectCard (l.map Prod.fst) with
  | (none, _) => .next s
  | (some u, k) => s.whenDo (s.readerRuns && s.nfc.fieldBack.isNone)
      (if s.tide.power = .standby then s.wakeHere 3
       else if l.contains (u, true) then (s.wakeHere 3).activate u k else (s.wakeHere 3).foreignCard k)

/-- The card of a CID. -/
def State.card (s : State) (cid : BitVec 4) : Option Card := s.nfc.cards.find? fun c => c.cid == cid

/-- The card of a CID changed. -/
def State.modCard (s : State) (cid : BitVec 4) (f : Card → Card) : State :=
  s.upNfc fun c => { c with cards := c.cards.map fun x => if x.cid = cid then f x else x }

/-- RA is asked for (R531, R538). -/
def State.askRa (s : State) (n : Nat) : State :=
  (s.modSe n fun b => { b with nonceDue := true, ra := [], rb := [], challengeSent := false }).request (.cardRa n)

/-- A member card sights itself (R24, R30, R535). -/
def State.sightCard (s : State) (cid : BitVec 4) (cred : BitVec 64) : State :=
  let (s, o) := s.sight 3 (BitVec.ofNat 6 s.cfg.anchor) s.now
  match o with
  | none => s
  | some n =>
    let s := s.modCard cid fun c => { c with berth := some n }
    let s := (s.modSe n fun b => { b with cid := some cid }).identify n cred none
    if s.berthIs n .hailed then s.askRa n else s

/-- CARD_SELECT (R529, R535): a card that refuses is counted and stays active without a berth. -/
def execCardSelect (cid : BitVec 4) (sw : BitVec 16) (role : BitVec 8) (cred : BitVec 64) (s : State) :
    Host.Outcome State Fault Refusal :=
  match s.card cid with
  | none => .next s
  | some c => s.whenDo (s.readerRuns && c.berth.isNone && !c.access)
      (if sw ≠ 0x9000#16 then s.upNfc fun x => { x with foreign := satInc x.foreign }
       else if role ≠ 0#8 then s
       else
        let s := s.modCard cid fun c => { c with access := true }
        if s.berthsRun then s.sightCard cid cred else s)

/-- The inputs of the access application's MACs (R530). -/
def accessMac (tag : Byte) (key a b : Bytes) (cred dev : BitVec 64) : Bytes :=
  (cmac key ((tag :: (padTo 16 a ++ padTo 16 b)) ++ le 8 cred.toNat ++ le 8 dev.toNat)).take 8

/-- The berth of a card that awaits an answer to AUTH_BEGIN: HAILED, or reactivated (R535, R537). -/
def State.cardBerth (s : State) (cid : BitVec 4) : Option (Nat × Bool) :=
  match s.card cid with
  | none => none
  | some c => match c.berth with
    | none => none
    | some n =>
      if s.berthIs n .hailed then some (n, false)
      else if c.fresh && (s.berth n).id.st.moored? then some (n, true) else none

/-- CARD_AUTH_BEGIN_RESPONSE (R530, R535, R537). -/
def execCardAuthBeginResponse (cid : BitVec 4) (rb macC : Bytes) (sw : BitVec 16) (s : State) :
    Host.Outcome State Fault Refusal :=
  match s.cardBerth cid with
  | none => .next s
  | some (n, _) =>
    let b := s.berth n
    s.whenDo (s.readerRuns && !b.se.ra.isEmpty && b.se.rb.isEmpty)
      (s.withKey (.auth n) 1#2 2#4 8#5 49 fun key s =>
        if sw = 0x9000#16 ∧ accessMac 0x43#8 key b.se.ra rb b.id.cred s.ident.device = macC then
          s.modSe n fun x => { x with rb := padTo 16 rb, challengeSent := true }
        else s.castOff n 5#8)

/-- CARD_AUTH_END_RESPONSE (R535, R537): 90 00 moors the berth, or ends a reactivation. -/
def execCardAuthEndResponse (cid : BitVec 4) (sw : BitVec 16) (s : State) : Host.Outcome State Fault Refusal :=
  match s.cardBerth cid with
  | none => .next s
  | some (n, again) =>
    s.whenDo (s.readerRuns && (s.berth n).se.challengeSent && !(s.berth n).se.rb.isEmpty)
      (if sw ≠ 0x9000#16 then s.castOff n 5#8
       else if again then (s.modCard cid fun c => { c with fresh := false }).upNfc fun c => { c with
          reactivate := satInc c.reactivate }
       else s.moor n)

/-- A card leaves the reader: its berth is cast off with LINK (R50, R536, R554). -/
def State.dropCard (s : State) (c : Card) : State :=
  let rest := s.nfc.cards.filter fun x => x.cid != c.cid
  let s := (s.upNfc fun x => { x with cards := rest, reader := if rest.isEmpty then 1#2 else x.reader }).latch 30
  match c.berth with
  | some n => s.castOff n 0x0A#8
  | none => s

/-- CARD_LEFT_FIELD (R50, R536): outside a field dropped under R142. -/
def execCardLeftField (cid : BitVec 4) (s : State) : Host.Outcome State Fault Refusal :=
  match s.card cid with
  | none => .next s
  | some c => s.whenDo (s.readerRuns && s.nfc.fieldBack.isNone) (s.dropCard c)

/-- One card when the field returns (R537): selected with the same CID, it is authenticated again; one that
does not answer is gone. -/
def State.reselect (present : List (BitVec 4)) (s : State) (c : Card) : State :=
  if present.contains c.cid then
    match c.berth with
    | some n =>
      if s.berthIs n .hailed then s.askRa n
      else if (s.berth n).id.st.moored? then (s.modCard c.cid fun x => { x with fresh := true }).askRa n
      else s
    | none => s
  else s.dropCard c

/-- READER_FIELD_RETURN (R142, R537): 1 ms after the tag's frame. -/
def execReaderFieldReturn (present : List (BitVec 4)) (s : State) : Host.Outcome State Fault Refusal :=
  match s.nfc.fieldBack with
  | none => .next s
  | some t =>
    let u := s.upNfc fun c => { c with fieldBack := none, reader := if c.cards.isEmpty then 1#2 else 2#2 }
    s.whenDo (s.readerRuns && decide (t ≤ s.now)) (s.nfc.cards.foldl (State.reselect present) u)

/-- A write of NFC.CTRL (R533). -/
def State.nfcCtrl (s : State) (v : BitVec 32) : State :=
  if v.getLsbD 0 then s.upNfc fun c => { c with rescan := true } else s

/-- NFC_RESCAN (R533). -/
def execNfcRescan (s : State) : Host.Outcome State Fault Refusal := .next (s.farWrite 0x58000 fun s => s.nfcCtrl 1#32)

/-- The card list as R534 orders it. -/
def State.cardList (s : State) : List Card := s.nfc.cards

/-- A write of NFC.CARD_SEL (R555). -/
def State.cardSelect (s : State) (v : BitVec 32) : State :=
  let i := fieldN v 1 0
  let view : CardView := match s.cardList[i]? with
    | none => CardView.reset
    | some c => { uidLen := BitVec.ofNat 4 c.uid.length, cid := c.cid.setWidth 3, access := c.access
                  berth := (c.berth.map (BitVec.ofNat 9)).getD 0x1FF#9, uid := c.uid }
  s.upNfc fun c => { c with cardSel := BitVec.ofNat 2 i, cardView := view }

/-- CARD_SEL_WRITE (R555). -/
def execCardSelWrite (v : BitVec 32) (s : State) : Host.Outcome State Fault Refusal :=
  .next (s.farWrite 0x58008 fun s => s.cardSelect v)

/-! The tag port: memory (R543 to R548). -/

/-- F, the count of consecutive KIND 1 failures (R543, R550). -/
def Nfc.failures (c : Nfc) : Nat := Mem.num c.image 0x1E04 1

/-- The PORTS mirror (R543, R545). -/
def Nfc.mirror (c : Nfc) : BitVec 8 := Mem.read c.image 0x1E05

/-- HARV_S (R543). -/
def Nfc.harvSeconds (c : Nfc) : Nat := max 1 (min 30 (Mem.num c.image 7 1))

/-- The harvest key of a credential in the key table (R543). -/
def Nfc.tableKey (c : Nfc) (cred : BitVec 64) : Option Bytes :=
  let n := min 96 (Mem.num c.image 6 1)
  ((List.range n).find? fun i =>
    Mem.num c.image (0x1000 + 32 * i) 8 == cred.toNat && (Mem.read c.image (0x1018 + 32 * i)).getLsbD 0).map
      fun i => Mem.load c.image (0x1008 + 32 * i) 16

/-- The tag's memory image changed. -/
def State.modImage (s : State) (f : Mem → Mem) : State := s.upNfc fun c => { c with image := f c.image }

/-- Pending host writes reach the image in their order, and a harvest table from the harbourmaster, at tag
idle (R547, R553). -/
def State.tagIdle (s : State) : State :=
  if s.nfc.tagSession then s
  else
    let s := s.upNfc fun c => { c with
      image := c.hostWrites.foldl (fun m w => Mem.write m w.1 w.2) c.image, hostWrites := [] }
    if s.tend.harvHave then
      (s.modImage fun m => Mem.store (Mem.write m 6 (Mem.read s.tend.harvPend 0)) 0x1000
        (Mem.load s.tend.harvPend 1 3072)).upTend fun t => { t with
        harvHave := false, harvPend := [] }
    else s

/-- The host may write a byte of tag memory: header, open and secured area, and the key table (R543). -/
def hostMayWrite (o : Nat) : Bool := o < 0x1C00

/-- A byte of tag memory as the host reads it (R543, R547): the key table reads zero, pending writes lie
over the image. -/
def Nfc.hostByte (c : Nfc) (o : Nat) : Byte :=
  if 0x1000 ≤ o ∧ o < 0x1C00 then 0#8
  else match c.hostWrites.reverse.find? fun w => w.1 == o with
    | some w => w.2
    | none => Mem.read c.image o

/-- A host access that meets a running tag frame is counted (R546). -/
def State.tagWait (s : State) : State :=
  if s.now < s.nfc.tagFrameEnd then s.upNfc fun c => { c with hostWaits := satInc c.hostWaits, hostWaiting := true }
  else s

/-- A host write of one half word of tag memory at an offset (R547); a change of the key table goes to the
tenders too (R553). -/
def State.tagHostWrite (s : State) (o : Nat) (d : BitVec 16) : State :=
  let w := [(o, d.setWidth 8), (o + 1, (d >>> 8).setWidth 8)].filter fun x => hostMayWrite x.1
  let s := if o = 6 ∨ (0x1000 ≤ o ∧ o < 0x1C00) then s.upPier fun p => { p with harvDue := p.serving } else s
  (s.tagWait.upNfc fun c => { c with hostWrites := c.hostWrites ++ w }).tagIdle

/-- TAG_MEM_HOST_ACCESS (R546, R547): a read, or a write of `d`. -/
def execTagMemHostAccess (ha : BitVec 20) (d : Option (BitVec 16)) (s : State) : Host.Outcome State Fault Refusal :=
  let a := 2 * ha.toNat
  let o := a - 0x5C000
  s.whenDo (decide (0x5C000 ≤ a) && decide (a < 0x5E000))
    (match d with
    | some x => s.windowAccess a fun s => s.tagHostWrite o x
    | none =>
      if s.portUp then
        (s.beginFar (some (BitVec.ofNat 16 (ofLe [s.nfc.hostByte o, s.nfc.hostByte (o + 1)])))).tagWait
      else s)

/-! The tag port: frames (R540, R541, R546). -/

/-- The tag runs in powered mode (R540). -/
def State.tagPowered? (s : State) : Bool :=
  s.mainUp && s.tide.power != .deep && s.cfg.nfcPorts.getLsbD 1 && s.moored 9

/-- A status word. -/
def statusWord (n : Nat) : Bytes := be 2 n

/-- The tag answers with `r`: the frame runs its time at 106 kbit/s, a WRITE's response before it has been
sent, an ISO-DEP session is active, and the reader's field drops until 1 ms after the frame (R142, R546). -/
def State.tagReply (s : State) (r : Bytes) : State :=
  let fin := s.now + (r.length + 4) * 5438
  s.upNfc fun c => { c with
    response := r, tagSession := true, tagFrameEnd := fin, undo := none
    fieldBack := if c.reader = 0#2 then c.fieldBack else some (fin + ms 1)
    reader := if c.reader = 0#2 then 0#2 else 3#2 }

/-- TAG_FIELD_ON (R124, R540): the front end activates; a wake event where the port is powered. -/
def execTagFieldOn (s : State) : Host.Outcome State Fault Refusal :=
  let p := s.tagPowered?
  let t := s.upNfc fun c => { c with tagField := true, tagState := .field, tagPowered := p, tagBerth := none, delayUntil := none }
  s.whenDo (!s.nfc.tagField) (if p then t.wakeHere 2 else t)

/-- The 7 bytes of the tag's UID. -/
def State.tagUid (s : State) : Bytes := le 7 s.nfc.uid.toNat

/-- A card-key authentication at the tag port ends without success (R540, R554). -/
def State.tagAuthFailed (s : State) : State := (s.upNfc fun c => { c with authFail := satInc c.authFail }).latch 31

/-- A harvest record at its place in the ring (R552). -/
def State.putRecord (s : State) (i : Nat) (b : Bytes) : State := s.modImage fun m => Mem.store m (0x1C00 + 32 * i) (padTo 32 b)

/-- The first 16 bytes of a harvest record: CRED, counter, RESULT, FLAGS and on-time. -/
def recordHead (cred : BitVec 64) (ctr result onTime : Nat) : Bytes :=
  le 8 cred.toNat ++ le 4 ctr ++ [BitVec.ofNat 8 result, 0#8] ++ le 2 onTime

/-- A new harvest record (R552). -/
def State.newRecord (s : State) (b : Bytes) : State :=
  (s.putRecord s.nfc.recNext b).upNfc fun c => { c with recNext := (c.recNext + 1) % 16 }

/-- A KIND 1 authentication fails (R540, R550, R552). -/
def State.harvestFailed (s : State) (cred : BitVec 64) : State :=
  let s := s.newRecord (recordHead cred (Mem.num s.nfc.image 0x1E00 4) 2 0)
  (s.modImage fun m => Mem.write m 0x1E04 (satInc (Mem.read m 0x1E04))).tagAuthFailed

/-- What any other command does while an AUTH_END is awaited (R540). -/
def State.pendingFails (s : State) : State :=
  let s := match s.nfc.tagState with
    | .pending0 =>
      (match s.nfc.tagBerth with
      | some n => s.castOff n 5#8
      | none => s).tagAuthFailed
    | _ => s.harvestFailed s.nfc.tagCred
  (s.upNfc fun c => { c with tagState := .field }).tagReply (statusWord 0x6982)

/-- An AUTH_END is awaited. -/
def TagState.pending (t : TagState) : Bool := t == .pending0 || t == .pending1

/-- A tag session is secured. -/
def TagState.secured (t : TagState) : Bool := t == .secured0 || t == .secured1

/-- The berth of KIND 4 that this activation of the tag has opened and that is not cast off. -/
def State.tagHolds (s : State) : Bool := s.nfc.tagBerth.any fun n => (s.berth n).id.st.held && (s.berth n).id.kind == 4#3

/-- SELECT of the access AID in OPEN (R529, R539). -/
def State.tagSelected (s : State) : State :=
  let p := s.nfc.tagPowered
  let s := s.tagReply ([1#8] ++ le 8 s.ident.device.toNat ++ s.tagUid ++ [BitVec.ofNat 8 (b2n (!p))] ++ statusWord 0x9000)
  if p && s.berthsRun && !s.tagHolds then
    let (s, o) := s.sight 4 (BitVec.ofNat 6 s.cfg.anchor) s.now
    s.upNfc fun c => { c with tagBerth := o }
  else s

/-- TAG_SELECT (R540). -/
def execTagSelect (s : State) : Host.Outcome State Fault Refusal :=
  s.whenDo (s.nfc.tagField && s.nfc.delayUntil.isNone)
    (if s.nfc.tagState.pending then s.pendingFails
     else if s.nfc.tagState.secured then s.tagReply (statusWord 0x6985)
     else s.tagSelected)

/-- RB and MAC_C go out (R530, R531): the counter is incremented and written first. -/
def State.tagChallenge (s : State) (kind : Nat) (key : Bytes) (cred : BitVec 64) (ra noise : Bytes) : State :=
  let ctr := (Mem.num s.nfc.image 0x1E00 4 + 1) % 2 ^ 32
  let s := s.useCells.modImage fun m => Mem.store m 0x1E00 (le 4 ctr)
  let rb := le 4 ctr ++ padTo 12 noise
  (s.upNfc fun c => { c with
    tagKey := key, tagRa := padTo 16 ra, tagRb := rb, tagCred := cred, delayUntil := none
    tagState := if kind = 0 then .pending0 else .pending1 }).tagReply
      (rb ++ accessMac 0x43#8 key ra rb cred s.ident.device ++ statusWord 0x9000)

/-- AUTH_BEGIN with KIND 0 in powered mode (R30, R539, R540): the lookup names the berth. -/
def State.tagCardKey (s : State) (cred : BitVec 64) (ra noise : Bytes) : State :=
  match if s.nfc.tagPowered then s.nfc.tagBerth.filter fun n => s.berthIs n .sighted else none with
  | none => (s.tagReply (statusWord 0x6A82)).tagAuthFailed
  | some n =>
    let s := s.identify n cred none
    if s.berthIs n .hailed then
      let s := s.tagChallenge 0 (s.berth n).se.authKey cred ra noise
      s.modSe n fun b => { b with ra := padTo 16 ra, rb := s.nfc.tagRb, challengeSent := true }
    else (s.tagReply (statusWord 0x6A82)).tagAuthFailed

/-- AUTH_BEGIN with KIND 1 (R540, R550): the front end waits 250 ms for each failure, up to 16. -/
def State.tagHarvest (s : State) (cred : BitVec 64) (ra noise : Bytes) : State :=
  match if s.nfc.mirror.getLsbD 2 && s.moored 10 then s.nfc.tableKey cred else none with
  | none => (s.harvestFailed cred).tagReply (statusWord 0x6A82)
  | some k =>
    let f := min 16 s.nfc.failures
    if f = 0 then s.tagChallenge 1 k cred ra noise
    else s.upNfc fun c => { c with
      tagKey := k, tagRa := padTo 16 ra, tagCred := cred, tagSession := true, delayUntil := some (s.now + ms (250 * f)) }

/-- TAG_AUTH_BEGIN (R540). -/
def execTagAuthBegin (kind : BitVec 8) (cred device : BitVec 64) (ra noise : Bytes) (s : State) :
    Host.Outcome State Fault Refusal :=
  s.whenDo (s.nfc.tagField && s.nfc.delayUntil.isNone)
    (if device ≠ s.ident.device then
      (s.upNfc fun c => { c with tagState := .field }).tagReply (statusWord 0x6A80)
     else if s.nfc.tagState.pending then s.pendingFails
     else if s.nfc.tagState.secured then s.tagReply (statusWord 0x6985)
     else if kind = 0#8 then s.tagCardKey cred ra noise
     else if kind = 1#8 then s.tagHarvest cred ra noise
     else s.tagReply (statusWord 0x6985))

/-- TAG_WTX (R541): S(WTX) keeps a command from timing out while work is pending. -/
def execTagWtx (s : State) : Host.Outcome State Fault Refusal :=
  s.whenDo (s.nfc.tagField && (s.nfc.delayUntil.isSome || s.tide.firstWake.isSome)) (s.tagReply s.nfc.response)

/-- HARVEST_DELAY_END (R550). -/
def execHarvestDelayEnd (noise : Bytes) (s : State) : Host.Outcome State Fault Refusal :=
  match s.nfc.delayUntil with
  | none => .next s
  | some t => s.whenDo (s.nfc.tagField && decide (t ≤ s.now))
      (s.tagChallenge 1 s.nfc.tagKey s.nfc.tagCred s.nfc.tagRa noise)

/-- HARV goes on and the success is recorded (R549, R551, R552). -/
def State.harvestOn (s : State) : State :=
  let head := recordHead s.nfc.tagCred (Mem.num s.nfc.image 0x1E00 4) 1 0
  let i := s.nfc.recNext
  let s := s.useCells.newRecord (head ++ (cmac s.nfc.tagKey head).take 8)
  (s.modImage fun m => Mem.write m 0x1E04 0#8).upNfc fun c => { c with
    harvOn := some s.now, harvRec := some i, tagState := .secured1 }

/-- HARV goes off, and its on-time enters the record, whose MAC covers it (R551, R552, log entry 43); where the working
copy of the key has been zeroed (R477), the record stays as it was written. -/
def State.harvestOff (s : State) : State :=
  match s.nfc.harvOn, s.nfc.harvRec with
  | some t, some i =>
    let on := min 65535 ((s.now - t) / ms 10)
    let r := Mem.load s.nfc.image (0x1C00 + 32 * i) 14 ++ le 2 on
    let s := if s.nfc.tagKey.isEmpty then s else s.useCells.putRecord i (r ++ macOf s.nfc.tagKey 8 r)
    s.upNfc fun c => { c with harvOn := none, harvRec := none }
  | _, _ => s

/-- TAG_AUTH_END (R530, R540, R554). -/
def execTagAuthEnd (macR : Bytes) (s : State) : Host.Outcome State Fault Refusal :=
  let c := s.nfc
  let ok := accessMac 0x52#8 c.tagKey c.tagRb c.tagRa c.tagCred s.ident.device = macR
  s.whenDo (c.tagField && c.delayUntil.isNone)
    (let s := if c.tagState.pending then s.useCells else s
     if c.tagState.secured then s.tagReply (statusWord 0x6985)
     else if !c.tagState.pending then s.tagReply (statusWord 0x6982)
     else if !ok then s.pendingFails
     else if c.tagState = .pending0 then
      let s := match c.tagBerth.filter fun n => s.berthIs n .hailed with
        | some n => s.moor n
        | none => s
      ((s.upNfc fun c => { c with tagState := .secured0 }).tagReply (statusWord 0x9000)).latch 31
     else (s.harvestOn.tagReply (statusWord 0x9000)).latch 31)

/-- A READ or WRITE of `n` bytes at `o` lies in an area that begins at `a` and ends before `b`. -/
def inArea (o n a b : Nat) : Bool := 1 ≤ n && n ≤ 240 && a ≤ o && o + n ≤ b

/-- TAG_READ (R543, R544). -/
def execTagRead (off : BitVec 16) (len : BitVec 8) (s : State) : Host.Outcome State Fault Refusal :=
  let o := off.toNat
  let n := len.toNat
  s.whenDo (s.nfc.tagField && s.nfc.delayUntil.isNone)
    (if s.nfc.tagState.pending then s.pendingFails
     else if inArea o n 0 (if s.nfc.tagState = .secured0 then 0x1000 else 0x400) then
      s.tagReply (Mem.load s.nfc.image o n ++ statusWord 0x9000)
     else s.tagReply (statusWord 0x6985))

/-- TAG_WRITE (R544, R548): until its response has been sent, a loss of the field takes it back. -/
def execTagWrite (off : BitVec 16) (data : Bytes) (s : State) : Host.Outcome State Fault Refusal :=
  let o := off.toNat
  s.whenDo (s.nfc.tagField && s.nfc.delayUntil.isNone)
    (if s.nfc.tagState.pending then s.pendingFails
     else if s.nfc.tagState = .secured0 ∧ inArea o data.length 0x400 0x1000 = true then
      ((s.modImage fun m => Mem.store m o data).tagReply (statusWord 0x9000)).upNfc fun c => { c with
        undo := some s.nfc.image }
     else s.tagReply (statusWord 0x6985))

/-- TAG_READ_ORIG (R542): in every state and both modes. -/
def execTagReadOrig (off : BitVec 16) (len : BitVec 8) (s : State) : Host.Outcome State Fault Refusal :=
  s.whenDo (s.nfc.tagField && s.nfc.delayUntil.isNone)
    (if inArea off.toNat len.toNat 0 2836 then
      s.tagReply (slice s.nfc.orig off.toNat len.toNat ++ statusWord 0x9000)
     else s.tagReply (statusWord 0x6985))

/-- TAG_DEACTIVATION (R50, R540, R547, R548): `cut` where the field is lost within a WRITE's frame or
response. -/
def State.tagOff (s : State) (cut : Bool) : State :=
  let s := s.harvestOff
  let s := match s.nfc.undo with
    | some m => if cut then s.upNfc fun c => { c with image := m, rollbacks := satInc c.rollbacks } else s
    | none => s
  let s := match s.nfc.tagBerth with
    | some n => if (s.berth n).id.kind = 4#3 then s.castOff n 0x0A#8 else s
    | none => s
  (s.upNfc fun c => { c with
    tagField := false, tagState := .noField, tagSession := false, tagBerth := none, undo := none
    delayUntil := none, tagKey := [], tagRa := [], tagRb := [], tagFrameEnd := min c.tagFrameEnd s.now }).tagIdle

/-- TAG_DEACTIVATION (R540). -/
def execTagDeactivation (cut : Bool) (s : State) : Host.Outcome State Fault Refusal := s.whenDo s.nfc.tagField (s.tagOff cut)

/-- HARV_TIMEOUT (R551). -/
def execHarvTimeout (s : State) : Host.Outcome State Fault Refusal :=
  match s.nfc.harvOn with
  | none => .next s
  | some t => s.whenDo (s.elapsed t (sec s.nfc.harvSeconds)) s.harvestOff

/-! Boundaries and power-up (R52, R538, R552). -/

/-- Harvest record `i` waits to be copied (R552): one whose HARV is still on does not. -/
def Nfc.uncopied (c : Nfc) (i : Nat) : Bool :=
  Mem.read c.image (0x1C0C + 32 * i) != 0#8 && !(Mem.read c.image (0x1C0D + 32 * i)).getLsbD 0 && c.harvRec != some i

/-- The records that wait to be copied, oldest first. -/
def Nfc.waiting (c : Nfc) : List Nat := ((List.range 16).map fun k => (c.recNext + k) % 16).filter c.uncopied

/-- HARVEST_RECORD_COPY (R552, R554). -/
def State.copyHarvest (s : State) : State :=
  let l := s.nfc.waiting
  (l.foldl (fun s i => (s.logRecord 0x06 (Mem.load s.nfc.image (0x1C00 + 32 * i) 32)).modImage fun m =>
    Mem.write m (0x1C0D + 32 * i) (Mem.read m (0x1C0D + 32 * i) ||| 1#8)) s).latchIf (!l.isEmpty) 31

/-- The berths of cards that wait for RA (R538). -/
def State.raDue (s : State) : List Nat := berthNos.filter fun n =>
  (s.berth n).id.kind == 3#3 && (s.berth n).id.st.held && (s.berth n).se.nonceDue &&
    !s.trng.held.any fun h => h.who == .cardRa n

/-- NFC at a boundary, after the power state has changed (R533, R536, R538, R552). -/
def State.nfcBoundary (s : State) : State :=
  let s := s.raDue.foldl (fun s n => s.request (.cardRa n)) s
  let s := s.upNfc fun c => { c with
    rescanDue := c.rescanDue || c.rescan, rescan := false
    reader := if s.readerRuns then (if c.reader = 0#2 then 1#2 else c.reader) else 0#2 }
  s.copyHarvest

end Sys2Proof.Machine
end

