-- ==== Sys2Proof/Machine/Pier.lean ====
section
/-! DEFINITION. Pier links (R601 to R643): training, blocks, enumeration, the harbourmaster's side of
every message, and the tender's side but for the tide mirror. -/

namespace Sys2Proof.Machine

/-! Ports and training (R603, R606 to R608). -/

/-- This device is the harbourmaster. -/
def State.isHost (s : State) : Bool := s.cfg.role == .harbourmaster

/-- Port `n` is enabled (R603). -/
def State.portWanted (s : State) (n : Nat) : Bool :=
  match s.cfg.role with
  | .harbourmaster => s.cfg.linkMask.getLsbD n
  | .standalone => false
  | _ => match s.pier.upstream with
    | none => true
    | some u => u.toNat == n

/-- A port enters TRAINING (R606). -/
def State.train (s : State) (n : Nat) : State :=
  s.modPier n fun l => { l with firstRetry := l.firstRetry || l.st == .adrift, st := .training, since := s.now }

/-- PIER_PORT_ENABLE (R603, R606). -/
def execPierPortEnable (n : BitVec 5) (s : State) : Host.Outcome State Fault Refusal :=
  s.whenDo (s.mainUp && (s.link n.toNat).st == .disabled && s.portWanted n.toNat) (s.train n.toNat)

/-- PIER_RETRAIN_TIMER (R608): 1 ms after a link went adrift, then every 100 ms. -/
def execPierRetrainTimer (n : BitVec 5) (s : State) : Host.Outcome State Fault Refusal :=
  let l := s.link n.toNat
  s.whenDo (s.mainUp && s.portWanted n.toNat &&
      ((l.st == .adrift && s.elapsed l.since (if l.firstRetry then ms 100 else ms 1)) ||
        (l.st == .down && s.elapsed l.since (ms 100))))
    (s.train n.toNat)

/-- PIER_TRAINING_TIMEOUT (R606): 2 ms pass without completion. -/
def execPierTrainingTimeout (n : BitVec 5) (s : State) : Host.Outcome State Fault Refusal :=
  s.whenDo (s.mainUp && (s.link n.toNat).st == .training && s.elapsed (s.link n.toNat).since (ms 2))
    (s.modPier n.toNat fun l => { l with
      st := .down, since := s.now, trainFails := satInc l.trainFails, trainTime := 2000#16 })

/-! Enumeration by the harbourmaster (R634 to R637). -/

/-- The body of ENUM (R616, log entry 28). -/
def State.enumBody (s : State) : Bytes :=
  le 8 s.ident.device.toNat ++ le 4 s.tide.number.toNat ++ [BitVec.ofNat 8 s.tide.life.code]

/-- The next link of the order is enumerated (R634). -/
def State.enumNext (s : State) : State :=
  match s.pier.order with
  | [] => s.upPier fun p => { p with next := 63#6 }
  | n :: rest =>
    let s := s.upPier fun p => { p with order := rest, next := BitVec.ofNat 6 n }
    (s.modPier n fun l => { l with admission := .enumerating, cause := 0#4, anchor := BitVec.ofNat 6 (n + 1) }).pierRequest
      n 0x01 (BitVec.ofNat 32 (n + 1)) s.enumBody

/-- The enumeration goes on with the next link where it stands at `n`. -/
def State.enumAfter (s : State) (n : Nat) : State := if s.pier.next.toNat = n then s.enumNext else s

/-- A tender is refused (R634). -/
def State.refuseLink (s : State) (n cause : Nat) : State :=
  (((s.modPier n fun l => { l with admission := .refused, cause := BitVec.ofNat 4 cause, joins := false }).upPier fun p =>
    { p with enumerated := p.enumerated + 1#6 }).pierEvent n 3).enumAfter n

/-- A tender is admitted: it joins service at a boundary (R637). -/
def State.admitLink (s : State) (n : Nat) : State :=
  (((s.modPier n fun l => { l with admission := .admitted, joins := true }).upPier fun p =>
    { p with enumerated := p.enumerated + 1#6 }).pierEvent n 2).enumAfter n

/-- The firmware comparison (R707). -/
def State.compareFw (s : State) (n : Nat) : State :=
  if (s.link n).peerFw = s.fwVersion then s.admitLink n
  else
    let b := s.fw.bank s.fw.cur.active
    (s.modPier n fun l => { l with admission := .pushing, fwPush := true }).pushImage n true false (s.fwVersion.setWidth 32)
      (Mem.load b.image 0 b.len)

/-- The serial comparison (R634, R635). -/
def State.compareSerial (s : State) (n : Nat) : State :=
  if (s.link n).peerSerial = s.runSerial then s.compareFw n
  else (s.modPier n fun l => { l with admission := .pushing, fwPush := false }).pushImage n false true s.runSerial
    (s.mf.bank s.mf.runBank).bytes

/-- A link that cannot be bound (R624). -/
def State.unboundLink (s : State) (n : Nat) : State :=
  if s.tide.life = .fleet then s.refuseLink n 4 else s.compareSerial n

/-- The response to ENUM (R622, R634). -/
def State.enumAnswer (s : State) (n : Nat) (b : Bytes) : State :=
  let s := s.modPier n fun l => { l with
    peerId := BitVec.ofNat 64 (leAt b 0 8), peerSerial := BitVec.ofNat 32 (leAt b 8 4)
    peerFw := BitVec.ofNat 16 (leAt b 12 2), peerLife := BitVec.ofNat 2 (byteAt b 14)
    peerFleet := BitVec.ofNat 64 (leAt b 15 8), peerReady := BitVec.ofNat 7 (byteAt b 23) }
  let l := s.link n
  if !s.cfg.linkMask.getLsbD n then s.refuseLink n 1
  else if l.peerLife.toNat ≠ s.tide.life.code then s.refuseLink n 2
  else if s.tide.life = .fleet ∧ l.peerFleet ≠ s.keys.fleetId then s.refuseLink n 3
  else if s.keys.vr.valid && l.peerReady.getLsbD 0 then
    (s.modPier n fun l => { l with bindDue := true }).request (.pierNh n)
  else s.unboundLink n

/-- The response to BIND (R622). -/
def State.bindAnswer (s : State) (n : Nat) (b : Bytes) : State :=
  let l := s.link n
  let (k, macT, macH) := s.bindKeys n l.nh (b.take 16) l.peerId s.ident.device
  if b.length = 32 ∧ b.drop 16 = macT ∧ s.canDerive then
    ((s.derivations 4 3#2 26#5).modPier n fun l => { l with nt := b.take 16, kbind := k }).pierRequest n 0x03 0#32 macH
  else s.unboundLink n

/-- The response to BIND_FINISH (R622, R623). -/
def State.bindDone (s : State) (n : Nat) (ok : Bool) : State :=
  if ok then (s.modPier n fun l => { l with bound := true, txCtr := 0#64, rxCtr := none }).compareSerial n
  else s.unboundLink n

/-- The response to PUSH_END: under a commit, under a firmware activation, or under enumeration. -/
def State.pushAnswer (s : State) (n : Nat) (r : BitVec 32) : State :=
  let ready : Bool := r == 1#32
  if s.mf.state = .writing ∧ s.mf.pushSet.getLsbD n then s.mfTender n ready
  else if s.fw.state = .distributing ∧ s.fw.pushSet.getLsbD n then s.fwTender n ready
  else if (s.link n).admission = .pushing then
    if !ready then (s.latchIf (!(s.link n).fwPush) 39).refuseLink n 5
    else if (s.link n).fwPush then
      ((s.modPier n fun l => { l with peerFw := s.fwVersion }).commitAll (bitMask 32 n) true (s.tide.number + 2#32)).admitLink n
    else (s.modPier n fun l => { l with peerSerial := s.runSerial, pushed := true }).compareFw n
  else s

/-! Adrift (R613, R614, R620). -/

/-- What a request that ends unanswered fails: `code` is what the key store answers for it (R459, R640). -/
def State.requestLost (s : State) (n : Nat) (r : PierReq) (code : Nat) : State :=
  if r.typ = 0x30#8 then
    (s.modPier n fun l => { l with rbusy := false, rresult := 3#3 }).pierEvent n 6
  else if r.typ = 0x18#8 ∧ r.arg = 1#32 ∧ s.keys.forward = some n then
    (s.upKeys fun k => { k with forward := none }).keysEnd code (if code = 16 then n + 1 else 0)
  else s

/-- A link loses what it carried (R614, R620). -/
def Pier.emptied (l : Pier) : Pier :=
  { l with admission := .none, cause := 0#4, bound := false, anchor := 0#6, reqs := [], waiting := [], msgs := [], window := []
           kbind := [], nh := [], nt := [], bindDue := false, joins := false, pushed := false, fwPush := false, slackAsked := false }

/-- What the harbourmaster does as a link goes adrift (R30, R100, R101, R614): a tender that a commit or an
activation still waited for no longer takes part in it. -/
def State.adriftHost (s : State) (n : Nat) (reqs : List PierReq) : State :=
  let s := reqs.foldl (fun s r => s.requestLost n r 16) s
  let s := s.castAll (s.heldBerths.filter fun k => (s.berth k).id.anchor.toNat == n + 1) 0x0F#8
  let s := s.upPier fun p => { p with serving := setBit p.serving n false, order := p.order.filter (· != n) }
  let s := (s.upMf fun m => { m with pushSet := setBit m.pushSet n false, pushAll := setBit m.pushAll n false }).mfArm
  let s := (s.upFw fun f => { f with pushSet := setBit f.pushSet n false, pushAll := setBit f.pushAll n false }).fwArm
  s.enumAfter n

/-- What a tender does as its link goes adrift (R119, R614): the contexts of the berths go, and with them the links of
their phones. -/
def State.adriftTender (s : State) : State :=
  ((((s.upKeys fun k => { k with slots := [] }).upUwb fun u => { u with schedule := [], rounds := 0#8 }).upNb fun b =>
    { b with csWait := [], csNext := [], csRunning := [], links := [] }).upTend fun t => { t with
      sched := [], harvGot := none, push := if t.writing || t.commitTide.isSome then t.push else none
      synced := false, pushRq := none })

/-- Link `n` goes adrift with cause `cause` (R606, R613, R614). -/
def State.goAdrift (s : State) (n : Nat) (cause : BitVec 4) : State :=
  let reqs := (s.link n).reqs ++ (s.link n).waiting.map fun m => { PierReq.reset with typ := m.typ, arg := m.arg }
  let s := s.modPier n fun l => { l.emptied with
    st := .adrift, since := s.now, firstRetry := false, adriftCount := satInc l.adriftCount, adriftLast := cause }
  let s := (s.pierEvent n 1).logRecord 0x29 [BitVec.ofNat 8 n, cause.setWidth 8]
  if s.isHost then s.adriftHost n reqs else s.adriftTender

/-- PIER_ADRIFT (R613): 2 signal, 3 alignment, 4 code errors; a SLACK link whose short retraining fails. -/
def execPierAdrift (n : BitVec 5) (cause : BitVec 4) (s : State) : Host.Outcome State Fault Refusal :=
  let l := s.link n.toNat
  s.whenDo (s.mainUp && (l.st == .active || l.st == .slack) && (cause == 2#4 || cause == 3#4 || cause == 4#4))
    (s.goAdrift n.toNat cause)

/-- Byte address of a register of PIER[n]. -/
def pierAddr (n o : Nat) : Nat := 0x30000 + 256 * n + o

/-- PIER[n].CTRL is written (R606). -/
def State.pierCtrl (s : State) (n : Nat) (v : BitVec 32) : State :=
  if v.getLsbD 0 then
    if (s.link n).st = .disabled then s.notice 3 (pierAddr n 4) else s.goAdrift n 5#4
  else s

/-- PIER_RETRAIN. -/
def execPierRetrain (n : BitVec 5) (s : State) : Host.Outcome State Fault Refusal :=
  .next (s.farWrite (pierAddr n.toNat 4) fun s => s.pierCtrl n.toNat 1#32)

/-- A link that trained late joins the order after the one that is being enumerated (R634). -/
def State.joinOrder (s : State) (n : Nat) : State :=
  if s.pier.started then
    let s := s.upPier fun p => { p with
      order := (p.order.filter (decide <| · < n)) ++ n :: p.order.filter fun k => decide (n < k) }
    if s.pier.next = 63#6 then s.enumNext else s
  else s

/-- Training of link `n` completes (R603, R606). -/
def State.trained (s : State) (n : Nat) (latency : BitVec 16) : State :=
  let s := s.modPier n fun l => { l with
    st := .active, latency := latency, trainTime := clampNat 16 ((s.now - l.since) / 64), since := s.now
    firstRetry := false, rxSeq := 0#4, nakSent := false, txSeq := 0#4, window := [], ackFrom := s.now
    admission := .none, cause := 0#4, bound := false, bindDue := false }
  let s := s.pierEvent n 0
  if s.isHost then s.joinOrder n
  else
    let s := s.upPier fun p => { p with
      upstream := some (BitVec.ofNat 5 n)
      links := p.links.mapIdx fun k l => if k = n then l else { l with st := .disabled } }
    s.modPier n (Pier.pump s.now 8)

/-- PIER_TRAINING_COMPLETE (R606, R607). -/
def execPierTrainingComplete (n : BitVec 5) (latency : BitVec 16) (s : State) : Host.Outcome State Fault Refusal :=
  s.whenDo (s.mainUp && (s.link n.toNat).st == .training) (s.trained n.toNat latency)

/-- ENUMERATION_START (R634, R697): from the boundary that ends the restart tide on. -/
def execEnumerationStart (s : State) : Host.Outcome State Fault Refusal :=
  s.whenDo (s.mainUp && s.isHost && s.sys.verdictsFrom && !s.pier.started)
    ((s.upPier fun p => { p with
      started := true, order := (List.range 32).filter fun n => (s.link n).st == .active && (s.link n).admission == .none }).enumNext)

/-! Blocks (R609 to R612). -/

/-- A block arrives (R610). -/
def Pier.block (seq : BitVec 4) (crcOk codeOk : Bool) (l : Pier) : Pier :=
  if crcOk && codeOk && seq == l.rxSeq then { l with rxSeq := l.rxSeq + 1#4, nakSent := false }
  else { l with
    crc := if crcOk then l.crc else satInc l.crc
    code := if codeOk then l.code else satInc l.code
    nak := if l.nakSent then l.nak else satInc l.nak
    nakSent := true }

/-- PIER_BLOCK_RECEIVED (R610). -/
def execPierBlockReceived (n : BitVec 5) (seq : BitVec 4) (crcOk codeOk : Bool) (s : State) :
    Host.Outcome State Fault Refusal :=
  s.whenDo (s.mainUp && (s.link n.toNat).st == .active) (s.modPier n.toNat (Pier.block seq crcOk codeOk))

/-- The place of SEQ `q` in the unacknowledged window (R611). -/
def Pier.place (l : Pier) (q : BitVec 4) : Option Nat :=
  let i := (q - (l.txSeq - BitVec.ofNat 4 l.window.length)).toNat
  if i < l.window.length then some i else none

/-- An ACK (R605, R611, R612). -/
def Pier.acked (t : Nat) (q : BitVec 4) (l : Pier) : Pier :=
  match l.place q with
  | some i => ({ l with window := l.window.drop (i + 1), ackFrom := t }).pump t 8
  | none => { l with code := satInc l.code }

/-- PIER_ACK (R611). -/
def execPierAck (n : BitVec 5) (q : BitVec 4) (s : State) : Host.Outcome State Fault Refusal :=
  s.whenDo (s.mainUp && (s.link n.toNat).st == .active) (s.modPier n.toNat (Pier.acked s.now q))

/-- The unacknowledged blocks from place `i` on are sent again; one that would go out for the 9th time sends
the link adrift (R611, R613). -/
def State.resendFrom (s : State) (n i : Nat) : State :=
  let l := s.link n
  if (l.window.drop i).any fun w => decide (7 ≤ w.1) then s.goAdrift n 1#4
  else s.modPier n fun l => { l with
    window := l.window.take i ++ (l.window.drop i).map fun w => (w.1 + 1, w.2)
    resent := satAdd l.resent (l.window.length - i), ackFrom := s.now }

/-- A NAK (R605, R611, R612). -/
def State.pierNaked (s : State) (n : Nat) (q : BitVec 4) : State :=
  match (s.link n).place q with
  | some i => s.resendFrom n i
  | none => s.modPier n fun l => { l with code := satInc l.code }

/-- PIER_NAK (R611). -/
def execPierNak (n : BitVec 5) (q : BitVec 4) (s : State) : Host.Outcome State Fault Refusal :=
  s.whenDo (s.mainUp && (s.link n.toNat).st == .active) (s.pierNaked n.toNat q)

/-- PIER_RESEND_TIMEOUT (R611): 16 µs without an ACK that advances the window. -/
def execPierResendTimeout (n : BitVec 5) (s : State) : Host.Outcome State Fault Refusal :=
  let l := s.link n.toNat
  s.whenDo (s.mainUp && l.st == .active && !l.window.isEmpty && s.elapsed l.ackFrom (us 16)) (s.resendFrom n.toNat 0)

/-! Responses and timeouts (R618 to R620). -/

/-- The tender's outcome ends INSTALL_ROOT (R459), and aligns the switch of the anchors staged for one root (R460). -/
def State.rootAnswer (s : State) (n : Nat) (r : Nat) : State :=
  let s := (s.upKeys fun k => { k with forward := none }).keysEnd r (if r = 16 then n + 1 else 0)
  if r = 1 then s.alignRoot (BitVec.ofNat 1 (Mem.num s.keys.buf 0 1)) else s

/-- What an accepted response does, by the request that it answers. -/
def State.responseTo (s : State) (n : Nat) (r : PierReq) (arg : BitVec 32) (body : Bytes) : State :=
  match r.typ.toNat with
  | 0x01 => s.enumAnswer n body
  | 0x02 => s.bindAnswer n body
  | 0x03 => s.bindDone n (arg == 1#32)
  | 0x12 => s.pushAnswer n arg
  | 0x18 =>
    if s.keys.forward = some n ∧ r.arg = 1#32 then s.rootAnswer n (arg.toNat % 32) else s
  | 0x30 =>
    (s.modPier n fun l => { l with rbusy := false, rdata := arg, rresult := if byteAt body 0 = 2 then 2#3 else 1#3 }
      ).pierEvent n 6
  | _ => s

/-- A response arrives (R619, R620): a stale one is dropped and counted. -/
def State.pierResponded (s : State) (n : Nat) (typ tag : BitVec 8) (epoch : BitVec 4) (arg : BitVec 32) (body : Bytes) :
    State :=
  match (s.link n).reqs.find? fun r => r.tag == tag && r.epoch == epoch && r.typ + 0x80#8 == typ &&
      decide ((s.tide.number - r.tide).toNat < 4) with
  | some r => (s.retire n tag).responseTo n r arg body
  | none => (s.modPier n fun l => { l with stale := satInc l.stale }).pierEvent n 4

/-- PIER_RESPONSE (R619). -/
def execPierResponse (n : BitVec 5) (typ tag : BitVec 8) (epoch : BitVec 4) (arg : BitVec 32) (body : Bytes) (s : State) :
    Host.Outcome State Fault Refusal :=
  s.whenDo (s.mainUp && s.isHost && ((s.link n.toNat).st == .active || (s.link n.toNat).st == .slack))
    (s.pierResponded n.toNat typ tag epoch arg body)

/-- A request retires unanswered (R620): a push under way counts as refused, and an enumeration that stood at
the link is tried again after the others. -/
def State.requestTimeout (s : State) (n : Nat) (r : PierReq) : State :=
  let s := (s.retire n r.tag).modPier n fun l => { l with timeout := satInc l.timeout }
  let s := (s.pierEvent n 5).requestLost n r 14
  let push : Bool := r.typ == 0x12#8
  let s := if push then (s.mfTender n false).fwTender n false else s
  if s.pier.next.toNat = n ∧ (r.typ = 0x01#8 ∨ r.typ = 0x02#8 ∨ r.typ = 0x03#8 ∨ push) then
    (s.upPier fun p => { p with order := p.order ++ [n] }).enumNext
  else s

/-- PIER_REQUEST_TIMEOUT (R620): at the 4th boundary after it was sent. -/
def execPierRequestTimeout (n : BitVec 5) (tag : BitVec 8) (s : State) : Host.Outcome State Fault Refusal :=
  match (s.link n.toNat).reqs.find? fun r => r.tag == tag with
  | none => .next s
  | some r => s.whenDo (s.mainUp && decide (4 ≤ (s.tide.number - r.tide).toNat)) (s.requestTimeout n.toNat r)

/-! SLACK (R631 to R633). -/

/-- A manifest commit, a register commit or a root switch is armed (R631). -/
def State.anyArmed (s : State) : Bool :=
  s.mf.state == .armed || s.reg.state == .armed || !s.keys.staged.isEmpty

/-- SLACK (R606, R631): at the harbourmaster, its response has been acknowledged; at a tender, the request
`rq` arrives and is answered. -/
def execSlack (n : BitVec 5) (rq : ReqId) (s : State) : Host.Outcome State Fault Refusal :=
  let n := n.toNat
  let l := s.link n
  let into (s : State) : State := s.modPier n fun l => { l with st := .slack, since := s.now, slackAsked := false }
  if s.isHost then
    s.whenDo (s.mainUp && s.tide.power.asleep && l.st == .active && l.slackAsked && !s.anyArmed && !l.reqs.any fun r => r.typ == 0x09#8) (into s)
  else s.whenDo (s.mainUp && l.st == .active && s.upPort? == some n) (into (s.pierAnswer n 0x09 rq 0#32 []))

/-- WAKE_BEACON (R606, R633): the harbourmaster senses a tender's beacon, a wake event; a tender's link leaves
SLACK with its beacon. The spec gives a beacon no WAKE_CAUSE bit: FIRST reads 15 for it, and no bit of CAUSE
rises, until the tender's EVENT names the event (DESIGN CHOICE, log entry 51). -/
def execWakeBeacon (n : BitVec 5) (s : State) : Host.Outcome State Fault Refusal :=
  let n := n.toNat
  s.whenDo (s.mainUp && (s.link n).st == .slack)
    (if s.isHost then
      (((s.pierEvent n 7).wake 15).upTide fun t => { t with beacon := true }).modPier n fun l => { l with st := .active, since := s.now }
     else s.modPier n fun l => ({ l with st := .active, since := s.now }).pump s.now 8)

/-! Remote access (R640). -/

/-- PIER[n].RCMD is written. -/
def State.remote (s : State) (n cmd : Nat) : State :=
  let a := pierAddr n 0x48
  if !s.isHost then s
  else if cmd = 0 ∨ 2 < cmd then s.notice 2 a
  else if (s.link n).rbusy then (s.modPier n fun l => { l with rresult := 5#3 }).notice 3 a
  else if (s.link n).admission ≠ .admitted then (s.modPier n fun l => { l with rresult := 4#3 }).pierEvent n 6
  else
    let l := s.link n
    (s.leaveSlack.modPier n fun l => { l with rbusy := true, rresult := 0#3 }).pierRequest n 0x30 (l.raddr.setWidth 32)
      (BitVec.ofNat 8 cmd :: (if cmd = 2 then le 4 l.rdata.toNat else []))

/-- REMOTE_READ. -/
def execRemoteRead (n : BitVec 5) (s : State) : Host.Outcome State Fault Refusal :=
  .next (s.farWrite (pierAddr n.toNat 0x48) fun s => s.remote n.toNat 1)

/-- REMOTE_WRITE. -/
def execRemoteWrite (n : BitVec 5) (s : State) : Host.Outcome State Fault Refusal :=
  .next (s.farWrite (pierAddr n.toNat 0x48) fun s => s.remote n.toNat 2)

/-! Results and events that tenders report (R616, R629, R639). -/

/-- The tick of a stamp of the timebase. -/
def State.tickOf (s : State) (stamp : BitVec 48) : Nat := stamp.toNat + s.tide.tbOff

/-- One measurement of a tender (R249, R629): it counts in the round of its berth that is on the air, where
its stamp lies in the current tide. -/
def State.takeResult (s : State) (r : TenderResult) : State :=
  match s.uwb.schedule.find? fun x => x.berth == r.berth.toNat && x.airborne with
  | none => s
  | some x =>
    let a := r.rx.anchor.toNat
    if s.tickOf (BitVec.ofNat 48 r.tick) < s.tide.startAt || !s.hears x a then s
    else match r.kind.toNat with
      | 0 => s.takePoll x r.rx
      | 1 => if x.slots.contains a then s.setResponse x a r.rx.stamp else s
      | 2 => s.takeFinal x r.rx
      | _ => s

/-- What a tender's LF drivers showed (R171, R205): the antennas that are disabled, and in kind 4 the currents of the
latest poll of a berth, which the tide of the entry names. -/
def State.takeDrivers (s : State) (r : TenderResult) : State :=
  let off := ofBits 16 ((r.drivers.filter fun d => d.2.2).map fun d => d.1.toNat)
  let named := ofBits 16 (r.drivers.map fun d => d.1.toNat)
  let s := s.upLf fun l => { l with farOff := (l.farOff &&& ~~~named) ||| off }
  let x := (s.berth r.berth.toNat).lf
  if r.kind ≠ 4#3 ∨ !x.polled ∨ x.pollTide.toNat ≠ r.tick then s
  else s.modBlf r.berth.toNat fun b => { b with sensed := (r.drivers.map fun d => (d.1.toNat, d.2.1.toNat)) ++ b.sensed }

/-- A measurement by one of the sources `srcs` of anchor `a` comes with its RESULT only where the anchor's ROUTE has bit 6
(R85, R86, R311). -/
def State.exported (s : State) (a : Nat) (srcs : List Nat) : Bool := srcs.any (s.anchorCfg a).outs.getLsbD

/-- A part of a CIR record arrives on link `n` (R262, R617): the second completes it, and the record's chain must be
one that the anchor exports. -/
def State.takeCir (s : State) (n : Nat) (r : TenderResult) : State :=
  let b := (s.link n).cirPart ++ r.cir
  if r.tick = 0 then s.modPier n fun l => { l with cirPart := r.cir }
  else
    let s := s.modPier n fun l => { l with cirPart := [] }
    if b.length = 272 && s.moored 4 && s.exported (n + 1) [(b.getD 6 0#8).toNat % 4] then s.cirPut b else s

/-- A tender's set of channel sounding (R303, R309, R616). -/
def State.takeSounding (s : State) (a : Nat) (r : TenderResult) : State :=
  let n := r.berth.toNat
  if (s.berth n).id.st.moored? ∧ s.linkAnchor n = a then
    s.soundSet n a (BitVec.ofNat 32 r.tick) { dist := r.cs.1, spread := r.cs.2.1, valid := true, chains := r.cs.2.2.1
                                              tones := r.cs.2.2.2, tide := BitVec.ofNat 16 r.tick }
  else s

/-- One entry of a RESULT message of link `n`. -/
def State.takeEntry (n : Nat) (s : State) (r : TenderResult) : State :=
  if r.kind = 3#3 then if s.exported (n + 1) [4, 5, 6, 7] then s.takeSounding (n + 1) r else s
  else if r.kind = 4#3 ∨ r.kind = 6#3 then s.takeDrivers r
  else if r.kind = 5#3 then s.takeCir n r
  else if r.rx.anchor.toNat = n + 1 ∧ s.exported (n + 1) [0, 1, 2, 3] then s.takeResult r
  else s

/-- RESULT_MESSAGE. -/
def execResultMessage (n : BitVec 5) (results : List TenderResult) (s : State) : Host.Outcome State Fault Refusal :=
  s.whenDo (s.mainUp && s.isHost && s.pier.serving.getLsbD n.toNat)
    (results.foldl (State.takeEntry n.toNat) s)

/-- A tender's EVENT names its wake event: the one that its beacon has made already, or a new one (R126, R633). -/
def State.tenderWake (s : State) (bit : Nat) : State :=
  let b := BitVec.ofNat 4 bit
  if s.tide.beacon then s.upTide fun t => { t with
    beacon := false, wakeCause := setBit t.wakeCause bit true
    firstWake := t.firstWake.map fun e => if e.2 = 15#4 then (e.1, b) else e
    wakeWaiting := t.wakeWaiting.map fun e => if e.2 = 15#4 then (e.1, b) else e
    wakeFirst := if t.wakeFirst = 15#4 then b else t.wakeFirst }
  else s.wake bit

/-- EVENT of a tender by its kind: 0 handle touch, 1 start button, 2 UHF frame, 3 wake cause, 4 tamper; each counts
from its stamp (R629). -/
def State.tenderEvent (s : State) (n kind : Nat) (arg : BitVec 32) (stamp : BitVec 48) (body : Bytes) : State :=
  match kind with
  | 0 => s.touched arg.toNat
  | 1 => (s.tenderWake 6).startRequest (s.tickOf stamp)
  | 2 => s.uhfDeliver (BitVec.ofNat 6 (n + 1)) (s.tickOf stamp) body
  | 3 => s.tenderWake (arg.toNat % 9)
  | 4 => (((s.tamperEffects.unstageRoots).tamperZeroes.latch 46).logRecord 0x27 [body.headD 0#8]).tamperLinks
  | _ => s

/-- EVENT_MESSAGE (R616, R639). -/
def execEventMessage (n : BitVec 5) (kind : BitVec 8) (arg : BitVec 32) (stamp : BitVec 48) (body : Bytes) (s : State) :
    Host.Outcome State Fault Refusal :=
  s.whenDo (s.mainUp && s.isHost && (s.link n.toNat).admission == .admitted)
    (s.tenderEvent n.toNat kind.toNat arg stamp body)

/-! A tender answers (R616, R622, R635, R636, R707). -/

/-- The upstream link of a device that is no harbourmaster is ACTIVE. -/
def State.upActive (s : State) : Bool := match s.upPort? with
  | some n => s.mainUp && !s.isHost && (s.link n).st == .active
  | none => false

/-- The upstream port as a number. -/
def State.up (s : State) : Nat := s.upPort?.getD 0

/-- A response on the upstream link. -/
def State.answerUp (s : State) (typ : Nat) (rq : ReqId) (arg : BitVec 32) (body : Bytes) : State :=
  s.pierAnswer s.up typ rq arg body

/-- What a tender answers to ENUM (R616). -/
def State.enumReply (s : State) : Bytes :=
  le 8 s.ident.device.toNat ++ le 4 s.runSerial.toNat ++ le 2 s.fwVersion.toNat ++
    [BitVec.ofNat 8 s.tide.life.code] ++ le 8 s.keys.fleetId.toNat ++ [s.keysReady.setWidth 8]

/-- ENUM at a tender (R81, R616): the anchor number is known from here on; the sections of a new one are read at
the next boundary. -/
def State.enumerated (s : State) (rq : ReqId) (host : BitVec 64) (anchor : Nat) : State :=
  let s := s.upTend fun t => { t with hostDev := host, enumAnchor := anchor }
  let s := s.modPier s.up fun l => { l with bound := false, anchor := BitVec.ofNat 6 anchor }
  s.answerUp 0x01 rq 0#32 s.enumReply

/-- ENUM. -/
def execEnum (rq : ReqId) (host : BitVec 64) (anchor : BitVec 6) (s : State) : Host.Outcome State Fault Refusal :=
  s.whenDo s.upActive (s.enumerated rq host anchor.toNat)

/-- BIND at a tender (R622): NT is drawn, and the answer follows. -/
def execBind (rq : ReqId) (nh : Bytes) (s : State) : Host.Outcome State Fault Refusal :=
  s.whenDo (s.upActive && s.keys.vr.valid)
    (((s.modPier s.up fun l => { l with nh := padTo 16 nh, bindDue := true }).upTend fun t => { t with bindReq := rq }).request
      .pierNt)

/-- BIND_FINISH at a tender (R622, R623): RESULT 1 where MAC_H verifies, else 3. -/
def State.bindFinished (s : State) (rq : ReqId) (macH : Bytes) : State :=
  let l := s.link s.up
  let ok : Bool := s.canDerive && macH == (s.bindKeys s.hostLink l.nh l.nt s.ident.device s.tend.hostDev).2.2
  let s := s.modPier s.up fun l => if ok then { l with bound := true, txCtr := 0#64, rxCtr := none } else { l with bound := false }
  s.answerUp 0x03 rq (if ok then 1#32 else 3#32) []

/-- BIND_FINISH. -/
def execBindFinish (rq : ReqId) (macH : Bytes) (s : State) : Host.Outcome State Fault Refusal :=
  s.whenDo (s.upActive && !(s.link s.up).nt.isEmpty) (s.bindFinished rq macH)

/-- In FLEET an unbound tender receives only ENUM, BIND and BIND_FINISH (R624). -/
def State.upServed (s : State) : Bool := s.upActive && (s.tide.life != .fleet || (s.link s.up).bound)

/-- PUSH_BEGIN at a tender (R635, R636, R707): `adopt` under enumeration. -/
def execPushBegin (rq : ReqId) (fw adopt : Bool) (serial len : BitVec 32) (s : State) : Host.Outcome State Fault Refusal :=
  s.whenDo s.upServed
    ((s.upTend fun t => { t with
      push := some { Push.reset with fw := fw, adopt := adopt, serial := serial, len := len.toNat } }).answerUp
        0x10 rq 1#32 [])

/-- A fragment of the image (R621): a gap discards the object and is counted. -/
def State.pushFragment (s : State) (p : Push) (offset : Nat) (data : Bytes) : State :=
  if p.bad then s
  else if offset ≠ p.got then
    (s.upTend fun t => { t with push := some { p with bad := true } }).modPier s.up fun l => { l with timeout := satInc l.timeout }
  else s.upTend fun t => { t with push := some { p with got := p.got + data.length, data := Mem.store p.data offset data } }

/-- PUSH_DATA (R616, R621). -/
def execPushData (offset : BitVec 32) (data : Bytes) (last : Bool) (s : State) : Host.Outcome State Fault Refusal :=
  match s.tend.push with
  | none => .next s
  | some p =>
    let t := s.pushFragment p offset.toNat data
    s.whenDo s.upServed (if last then t.upTend fun x => { x with push := x.push.map fun p => { p with bad := p.bad || p.got != p.len } } else t)

/-- A pushed firmware image is checked and programmed into the inactive bank (R701, R707): the RESULT code, 1
for READY. -/
def State.pushedFw (s : State) (p : Push) : Nat × State :=
  let b := Mem.load p.data 0 p.len
  let (r, v) := s.fwCheck b
  let s := s.countVerify v
  if r = 1 then
    (1, s.upFw fun f => { (f.modBank f.other fun _ => { Bank.reset with valid := true, image := p.data, len := p.len }) with
      stagedVer := BitVec.ofNat 16 (leAt b 0xC 2), stagedFloor := BitVec.ofNat 16 (leAt b 0xE 2) })
  else (r, s)

/-- The bank of R67 is to hold a pushed image of a commit: marked invalid first, and begun once an adopted image has
its bank and its record. -/
def State.writePushed (s : State) (rq : ReqId) : State :=
  if s.tend.own.isSome || s.tend.recordDue.isSome then s.upTend fun t => { t with pushRq := some rq }
  else (s.upMf fun m => m.modBank m.target Bank.invalid).upTend fun t => { t with writing := true, pushRq := some rq }

/-- PUSH_END at a tender (R621, R635, R636): refused with its RESULT code; READY once verified under
enumeration, and after the read-back of the bank under a commit. -/
def State.pushEnded (s : State) (rq : ReqId) (p : Push) : State :=
  let drop (s : State) : State := s.upTend fun t => { t with push := none }
  if p.bad ∨ p.got ≠ p.len then (drop s).answerUp 0x12 rq 2#32 []
  else if p.fw then
    let (r, s) := s.pushedFw p
    (drop s).answerUp 0x12 rq (BitVec.ofNat 32 r) []
  else
    let (r, v) := s.imageCheck p.len (Mem.load p.data 0 p.len)
    let s := s.countVerify v
    match r with
    | .error (code, _) => (drop s).answerUp 0x12 rq (BitVec.ofNat 32 code) []
    | .ok _ =>
      if p.adopt then (s.upTend fun t => { t with push := none, adopt := some p }).answerUp 0x12 rq 1#32 []
      else (s.upTend fun t => { t with push := some { p with done := true } }).writePushed rq

/-- PUSH_END. -/
def execPushEnd (rq : ReqId) (s : State) : Host.Outcome State Fault Refusal :=
  s.whenDo s.upServed (match s.tend.push with
    | none => s.answerUp 0x12 rq 2#32 []
    | some p => s.pushEnded rq p)

/-- The bank of an adopted image has been written and read back (R102, R636): the bank record names it at the next
boundary, where the read-back passes. -/
def State.ownWritten (s : State) (p : Push) (ok : Bool) : State :=
  (if ok then s.writeBank p.data p.len else s).upTend fun t => { t with
    writing := false, own := none, recordDue := if ok then some p.serial else none }

/-- The bank of a commit's image has been written and read back (R636): READY goes out, or BANK. -/
def State.pushWritten (s : State) (rq : ReqId) (ok : Bool) : State :=
  let p := s.tend.push.getD Push.reset
  let t := if ok then s.writeBank p.data p.len else s
  (t.upTend fun t => { t with writing := false, pushRq := none }).answerUp 0x12 rq (if ok then 1#32 else 14#32) []

/-- TENDER_BANK_WRITE_DONE (R636). -/
def execTenderBankWriteDone (ok : Bool) (s : State) : Host.Outcome State Fault Refusal :=
  s.whenDo (s.mainUp && s.tend.writing) (match s.tend.own with
    | some p => s.ownWritten p ok
    | none => match s.tend.pushRq with
      | some rq => s.pushWritten rq ok
      | none => s.upTend fun t => { t with writing := false })

/-- COMMIT_AT at a tender (R99, R616, R707): tide 0 discards. -/
def State.commitAt (s : State) (fw : Bool) (tide : BitVec 32) : State :=
  if fw then
    if tide = 0#32 then (s.upFw fun f => f.modBank f.other Bank.invalid).upTend fun t => { t with fwTide := none }
    else s.upTend fun t => { t with fwTide := some tide }
  else if tide = 0#32 then
    let mine := s.tend.own.isSome || s.tend.recordDue.isSome
    (s.upMf fun m => if mine then m else m.modBank m.target Bank.invalid).upTend fun t => { t with
      push := none, commitTide := none, writing := t.writing && mine, pushRq := none }
  else s.upTend fun t => { t with commitTide := some tide }

/-- COMMIT_AT. -/
def execCommitAt (rq : ReqId) (fw : Bool) (tide : BitVec 32) (s : State) : Host.Outcome State Fault Refusal :=
  s.whenDo s.upServed ((s.commitAt fw tide).answerUp 0x13 rq 0#32 [])

/-- The life-cycle state `l` may follow here (R137, R138): the next one, and FLEET only with both roots installed and
a manifest that allows it; the lock keeper and the signing tree of the vehicle are its harbourmaster's
(DEDUCED, log entry 53). -/
def State.mayFollow (s : State) (l : LifeCycle) : Bool :=
  l.code == s.tide.life.code + 1 && (l != .fleet || (s.keysReady &&& 0x13#7) == 0x13#7)

/-- A forwarded command at a tender (R458, R468, R638): 1 root record, 2 public key, 3 fleet identifier,
6 ADVANCE, 7 RETURN. -/
def State.forwarded (s : State) (code : Nat) (b : Bytes) : State :=
  match code with
  | 1 => s.installHere (padTo 0x50 b) (byteAt b 1 == s.tend.enumAnchor)
  | 2 => s.pubHere b
  | 3 => s.fleetHere b
  | 6 =>
    let next : LifeCycle := if s.tide.life = .manufacture then .provision else .fleet
    if (s.tide.life ≠ .manufacture ∧ s.tide.life ≠ .provision) ∨ (s.tide.life = .manufacture ∧ s.keys.seed.isEmpty) then
      s.keysEnd 6
    else if s.mayFollow next then (s.upTide fun t => { t with lifeNext := some next }).keysEnd 1
    else s.keysEnd 12 s.keysReady.toNat
  | 7 => if s.tide.life = .fleet then (s.upTide fun t => { t with lifeNext := some .returned }).keysEnd 1 else s.keysEnd 6
  | _ => s.keysEnd 2

/-- A forwarded command at a tender and its answer (R459, R485): BUSY while the key store runs another command; held
until the random number generator first delivers (R481). Code 8 is the switch tide of a staged root (R460, log entry 28). -/
def State.keyFwd (s : State) (rq : ReqId) (code : BitVec 8) (b : Bytes) : State :=
  if code = 8#8 then
    (s.retimeRoot (BitVec.ofNat 1 (byteAt b 0)) (BitVec.ofNat 32 (leAt b 1 4))).answerUp 0x18 rq 1#32 []
  else if !s.trng.inst then s.upKeys fun k => { k with heldFwd := k.heldFwd ++ [(rq, code, b)] }
  else if s.keys.busy then s.answerUp 0x18 rq 7#32 []
  else
    let t := s.forwarded code.toNat b
    if t.keys.busy then t else t.answerUp 0x18 rq (t.keys.result.setWidth 32) []

/-- KEY_FWD. -/
def execKeyFwd (rq : ReqId) (code : BitVec 8) (body : Bytes) (s : State) : Host.Outcome State Fault Refusal :=
  s.whenDo s.upServed (s.keyFwd rq code body)

/-- The requests that the key store holds are served once the generator delivers (R481). -/
def State.runHeld (s : State) : State :=
  if s.trng.inst then
    s.keys.heldFwd.foldl (fun s x => s.keyFwd x.1 x.2.1 x.2.2) ((s.upKeys fun k => { k with heldFwd := [] }).runHeldKeys)
  else s

/-- NOISE_BLOCK_DONE (R514 to R517). -/
def execNoiseBlockDone (raw : BitVec 1024) (s : State) : Host.Outcome State Fault Refusal :=
  s.whenDo s.trng.running ((s.noiseBlock raw).runHeld)

/-- SESSION_SET at a tender (R456): the slot of the identifier is written. -/
def State.sessionIn (s : State) (b : Bytes) : State :=
  let sid := leAt b 0 4
  (s.putSlot { k := sid % 4096, sts := slice b 4 16, mac := slice b 20 16, link := slice b 36 16, ctr := slice b 52 12
               attr := BitVec.ofNat 32 (leAt b 64 4) }).upBt fun t => { t with sidBase := some (BitVec.ofNat 32 (sid - sid % 4096)) }

/-- SESSION_SET (R456, R623). -/
def execSessionSet (header body : Bytes) (s : State) : Host.Outcome State Fault Refusal :=
  s.whenDo s.upServed (match s.pierOpen s.up header body with
    | (some b, s) => s.sessionIn b
    | (none, s) => s)

/-- A fragment of the harvest table (R553, R621): the table is taken at the next tag idle once it is whole, and
a gap discards it and is counted. -/
def State.harvestIn (s : State) (header b : Bytes) : State :=
  let off := leAt header 4 4
  let last := (header.getD 2 0#8).getLsbD 4
  match if off = 0 then some 0 else s.tend.harvGot with
  | none => s
  | some got =>
    if off = got then
      let s := s.upTend fun t => { t with
        harvPend := Mem.store (if off = 0 then [] else t.harvPend) off b
        harvGot := if last then none else some (got + b.length), harvHave := last }
      if last && !s.nfc.tagField then s.tagIdle else s
    else (s.upTend fun t => { t with harvGot := none }).modPier s.up fun l => { l with timeout := satInc l.timeout }

/-- HARVEST_TABLE (R553, R623). -/
def execHarvestTable (header body : Bytes) (s : State) : Host.Outcome State Fault Refusal :=
  s.whenDo s.upServed (match s.pierOpen s.up header body with
    | (some b, s) => s.harvestIn header b
    | (none, s) => s)

/-- The round that a SCHEDULE instant describes (log entry 28). -/
def scheduledRound (tide : BitVec 32) (e : Nat × Bytes) : Round :=
  { Round.reset with
    berth := byteAt e.2 1, ds := byteAt e.2 2 % 2 == 1, hprf := byteAt e.2 2 / 2 == 1, n := byteAt e.2 3
    sid := leAt e.2 4 4 % 4096, index := BitVec.ofNat 28 (leAt e.2 8 4), airEnd := leAt e.2 12 6, tk := leAt e.2 18 2
    slots := (e.2.drop 20).map (·.toNat), start := e.1, ctrlAt := e.1, tide := tide }

/-- One instant of SCHEDULE (R630): one that comes too late is skipped and counted. -/
def State.scheduleOne (tide : BitVec 32) (s : State) (e : Nat × Bytes) : State :=
  if e.1 < s.now + us 100 then s.modPier s.up fun l => { l with lateSched := satInc l.lateSched }
  else if byteAt e.2 0 = 2 then
    s.upUwb fun u => { u with schedule := u.schedule ++ [scheduledRound tide e], rounds := u.rounds + 1#8 }
  else if byteAt e.2 0 = 1 ∧ byteAt e.2 1 = 6 then
    s.cutAt e.1
  else s.upTend fun t => { t with sched := t.sched ++ [e] }

/-- SCHEDULE at a tender (R616, R630). -/
def execSchedule (tide : BitVec 32) (work : List Stamped) (s : State) : Host.Outcome State Fault Refusal :=
  s.whenDo s.upServed (work.foldl (State.scheduleOne tide) s)

/-- TAMPER at a tender (R639): session slots are zeroed, and its outputs are held as after any tamper event of
the vehicle (R148). -/
def execTamperMessage (s : State) : Host.Outcome State Fault Refusal :=
  s.whenDo s.upActive s.tamperEffects.unstageRoots

/-! What a boundary does for the links (R625, R631, R637). -/

/-- The harvest key table as tender `n` gets it: NKEYS and 96 entries, each key derived for its device (R553) where the
fleet root gives keys (R452, R499); the lookups touch pages (R373, R397). -/
def State.harvestFor (s : State) (n : Nat) : Bytes × State :=
  let c := s.nfc
  let keys := min 96 (Mem.num c.image 6 1)
  let entry (x : Bytes × State) (i : Nat) : Bytes × State :=
    let cred : BitVec 64 := BitVec.ofNat 64 (Mem.num c.image (0x1000 + 32 * i) 8)
    match if i < keys ∧ (Mem.read c.image (0x1018 + 32 * i)).getLsbD 0 ∧ s.fleetDerives ∧ s.canDerive then x.2.lookup cred
      else (none, x.2) with
    | (some k, s) =>
      (x.1 ++ (le 8 cred.toNat ++ padTo 16 (s.harvestKey cred (s.reg.member k).gen (s.link n).peerId) ++ padTo 8 [1#8]),
        s.useCells.derivations 2 2#2 31#5)
    | (none, s) => (x.1 ++ List.replicate 32 0#8, s)
  (List.range 96).foldl entry ([BitVec.ofNat 8 keys], s)

/-- HARVEST_TABLE goes out in fragments of 216 bytes (R553, R621, R623). -/
def State.sendHarvest (s : State) (n : Nat) : State :=
  let (table, s) := s.harvestFor n
  let parts := chunks 216 16 table
  (parts.zip (List.range parts.length)).foldl (fun s p =>
    s.pierProtected n 0x1A (BitVec.ofNat 32 (216 * p.2)) p.1 (last := p.2 + 1 == parts.length)) s

/-- A tender joins service (R637): it gets the session sets in use and the harvest key table. -/
def State.joinService (s : State) (n : Nat) : State :=
  let s := (s.modPier n fun l => { l with joins := false }).upPier fun p => { p with
    serving := setBit p.serving n true, harvDue := setBit p.harvDue n true }
  (s.mooredBerths.filterMap fun k => (s.berth k).se.sid).foldl (fun s k =>
    match s.slot k with
    | some x => s.shareSlot x (s.sidOf k) [n]
    | none => s) s

/-- The links whose tenders join service now; one that adopted an image at this boundary joins at the next. -/
def State.joinLinks (s : State) : State :=
  (List.range 32).foldl (fun s n =>
    let l := s.link n
    if l.joins then
      if l.pushed then s.modPier n fun l => { l with pushed := false } else s.joinService n
    else s) s

/-- Bindings that wait for random words ask again (R622). -/
def State.bindAgain (s : State) : State :=
  (List.range 32).foldl (fun s n =>
    if (s.link n).bindDue && (s.link n).st == .active then
      let who : Requester := if s.isHost then .pierNh n else .pierNt
      if s.trng.held.any fun h => h.who == who then s else s.request who
    else s) s

/-- The commit flags of TIDE: bit 0 manifest, 1 register, 2 root (log entry 28). -/
def State.commitFlags (s : State) : BitVec 8 :=
  ofBits 8 ((if s.mf.state == .armed then [0] else []) ++ (if s.reg.state == .armed then [1] else []) ++
    (if s.keys.staged.isEmpty then [] else [2]))

/-- A power state as TIDE.STATE.POWER reads it. -/
def Power.code : Power → Nat
  | .deep => 0
  | .standby => 1
  | .watch => 2
  | .service => 3
  | .drive => 4

/-- TIDE goes out on every ACTIVE link after MARK (R616, R624, R625). -/
def State.sendTide (s : State) : State :=
  let body := le 6 s.tide.boundary.toNat ++ le 2 s.tide.lengthMs ++
    [BitVec.ofNat 8 s.tide.power.code, BitVec.ofNat 8 s.tide.life.code, s.commitFlags]
  (List.range 32).foldl (fun s n =>
    if (s.link n).st == .active && s.linkServed n then s.pierPost n 0x08 s.tide.number body else s) s

/-- SLACK goes out on every ACTIVE link in STANDBY and DEEP (R624, R631). -/
def State.sendSlack (s : State) : State :=
  if s.tide.power.asleep && !s.anyArmed then
    let body := le 2 (min 0xFFFF ((s.now - s.tide.parkStart) / sec 60)) ++ le 4 ((s.now - s.tide.lfPollAt) / 64)
    (List.range 32).foldl (fun s n =>
      if (s.link n).st == .active && s.linkServed n && !(s.link n).slackAsked then
        (s.modPier n fun l => { l with slackAsked := true }).pierRequest n 0x09 0#32 body
      else s) s
  else if s.tide.power.asleep then s
  else (List.range 32).foldl (fun s n => if (s.link n).slackAsked then s.modPier n fun l => { l with slackAsked := false } else s) s

/-- The links at a boundary of the harbourmaster. -/
def State.pierBoundary (s : State) : State :=
  if s.isHost then
    let s := s.sendTide.joinLinks.bindAgain
    let due := (bitsOf (s.pier.harvDue &&& s.pier.serving)).filter fun n => (s.anchorCfg (n + 1)).nfcPorts.getLsbD 2
    let s := s.upPier fun p => { p with harvDue := p.harvDue &&& ~~~(ofBits 32 due) }
    let s := due.foldl State.sendHarvest s
    s.sendSlack
  else s.bindAgain

/-- A tender commits the image that the harbourmaster pushed for this tide (R99, R102, R636). -/
def State.tenderCommit (s : State) : State :=
  let t := s.upTend fun t => { t with commitTide := none, push := none }
  match s.tend.push with
  | some p => if p.done && !p.adopt && s.tide.life != .returned then (t.recordBank p.serial).adoptImage p.data p.len else t
  | none => t

/-- The bank record names an adopted image that is in its bank (R102); a commit's image that waited for it is
written now. R102 writes the record at commit boundaries only and R636 writes the bank within 14 ms of an adoption
under enumeration, which has none: the record follows at the first boundary after the bank (DESIGN CHOICE, log entry
79). -/
def State.takeRecord (s : State) : State :=
  match s.tend.recordDue with
  | none => s
  | some serial =>
    let s := (s.recordBank serial).upTend fun t => { t with recordDue := none }
    match s.tend.pushRq with
    | some rq => s.writePushed rq
    | none => s

/-- A tender adopts an image pushed under enumeration from SRAM; its bank is marked invalid and written (R67,
R101, R636). -/
def State.adoptPushed (s : State) : State :=
  match s.tend.adopt with
  | none => s
  | some p =>
    ((s.adoptImage p.data p.len).upMf fun m => m.modBank m.target Bank.invalid).upTend fun t => { t with
      adopt := none, own := some p, recordDue := none, writing := true }

/-- The sections of the anchor number that ENUM gave are read, where the image has that anchor as a tender (R81):
the role stays as it is (R117). -/
def State.takeAnchor (s : State) : State :=
  let a := s.tend.enumAnchor
  let b := (s.mf.bank s.mf.runBank).bytes
  if s.cfg.loaded && s.cfg.role == .tender && s.cfg.anchor != a && s.tend.own.isNone && Machine.isTender b a then
    s.apply (settingsIn b a)
  else s

/-- What a boundary does for a tender's own images (R99, R101, R102, R636). Where the tide number is not the
harbourmaster's, a commit waits for the next TIDE, which judges it. -/
def State.tenderBoundary (s : State) : State :=
  let due := s.tend.synced && s.upLive && s.tend.commitTide == some s.tide.number
  ((if due then s.tenderCommit else s).takeRecord).adoptPushed.takeAnchor

end Sys2Proof.Machine
end

