-- ==== Sys2Proof/Machine/Reset.lean ====
section
/-! DEFINITION. Supplies, hold-up and resets (R683 to R696, R699, R739): what a main-domain reset and
a power-on reset leave, and the events that cause them. -/

namespace Sys2Proof.Machine

/-! What a main-domain reset leaves of each block (R695). -/

/-- The port region works on; the imports lose the bulk window (R667, R695). -/
def Port.mainReset (p : Port) : Port := { p with main := .reset, bulk := .none, bulkQueue := [], staging := [] }

/-- The AON part of the tide unit runs on (R696); a wake event of the old tide is forgotten, a
life-cycle step armed but not taken too. -/
def Tide.mainReset (t : Tide) : Tide :=
  { t with firstWake := none, wakeWaiting := [], dwellOut := false, lifeNext := none }

/-- Berths are lost; the RWT booking stays with the half that waits (R695). -/
def BerthTable.mainReset (b : BerthTable) : BerthTable :=
  { BerthTable.reset with booking := b.booking, bookLo := b.bookLo, bookHi := b.bookHi, bookLoFresh := b.bookLoFresh,
                           bookNoLo := b.bookNoLo }

/-- The override ticket is discarded (R346); OVR_SERIAL is in MRAM (R349). -/
def Verdict.mainReset (v : Verdict) : Verdict := { Verdict.reset with ovrSerial := v.ovrSerial }

/-- The staged manifest is discarded; banks and record are in MRAM (R65, R695). -/
def Manifest.mainReset (m : Manifest) : Manifest :=
  { Manifest.reset with bankA := m.bankA, bankB := m.bankB, recA := m.recA, recB := m.recB, runBank := m.runBank }

/-- The counter cache is in MRAM (R191); TUNE overrides are RWT (R169, R695). -/
def Lf.mainReset (l : Lf) : Lf :=
  { Lf.reset with cache := l.cache, drivers := l.drivers.map fun d => { LfDriver.reset with ovr := d.ovr } }

/-- The calibration temperature is in AON (R220); TX_ATTEN is RWT (R218, R695). -/
def Uwb.mainReset (u : Uwb) : Uwb := { Uwb.reset with tempCal := u.tempCal, atten0 := u.atten0, atten1 := u.atten1 }

/-- The calibration results stay until a power-on reset (R275); the RWT registers are kept (R695). -/
def Nb.mainReset (b : Nb) : Nb :=
  { Nb.reset with
    tempBle := b.tempBle, tempUhf0 := b.tempUhf0, tempUhf1 := b.tempUhf1, irrBle := b.irrBle, irrUhf := b.irrUhf
    advPower := b.advPower, connPower := b.connPower, company := b.company, interval := b.interval }

/-- What of the register is in MRAM (R354, R355). -/
def MemberReg.stored (r : MemberReg) : MemberReg :=
  { MemberReg.reset with
    phys := r.phys, map := r.map, leaves := r.leaves, profA := r.profA, profB := r.profB, wear := r.wear
    recA := r.recA, recB := r.recB, useA := r.useA, journal := r.journal, jPages := r.jPages, floor := r.floor
    floorCopy := r.floorCopy }

/-- The committed contents and the register clock stay; the verified bitmap is lost (R373, R695). -/
def MemberReg.mainReset (r : MemberReg) : MemberReg :=
  { r.stored with clockBase := r.clockBase, clockAt := r.clockAt, estimated := r.estimated, floorHour := r.floorHour }

/-- What of the key store is in MRAM; a signing tree that was being generated is absent again (R470). -/
def Keys.stored (k : Keys) : Keys :=
  { Keys.reset with
    vr := k.vr, fr := k.fr, seed := k.seed, vrPrev := k.vrPrev, retag := k.retag, fleetId := k.fleetId
    pubManifest := k.pubManifest, pubRegister := k.pubRegister, pubOverride := k.pubOverride
    xmss := if k.xmss = 1#2 then 0#2 else k.xmss }

/-- Session keys and staged roots go (R461, R475); the tamper inputs are in AON (R695). -/
def Keys.mainReset (k : Keys) : Keys :=
  { k.stored with tamper := k.tamper, tamperLatch := k.tamperLatch, tamperCount := k.tamperCount
                  tamperQuiet := k.tamperQuiet, tamperHold := k.tamperHold }

/-- The signing records and the tree's public key are in MRAM (R504, R506). -/
def Crypto.mainReset (c : Crypto) : Crypto :=
  { Crypto.reset with recA := c.recA, recB := c.recB, seeds := c.seeds, pub := c.pub, dayBase := c.dayBase }

/-- The personalisation record is in MRAM (R521). -/
def Trng.stored (t : Trng) : Trng := { Trng.reset with persRec := t.persRec }

/-- The fatal alarms are counted since power-on reset (R526). -/
def Trng.mainReset (t : Trng) : Trng := { t.stored with fatalCount := t.fatalCount }

/-- What of the NFC block is non-volatile (R542, R543, R555). -/
def Nfc.stored (c : Nfc) : Nfc :=
  { Nfc.reset with image := c.image, uid := c.uid, orig := c.orig, recNext := c.recNext }

/-- The reader loses its cards and the host's waiting writes; the tag port runs as if unpowered: a
field-powered activation goes on, a powered one starts again (R540, R549, R699). -/
def Nfc.mainReset (c : Nfc) : Nfc :=
  let r := { c.stored with tagField := c.tagField, harvOn := c.harvOn, harvRec := c.harvRec, tagPowered := false
                           tagFrameEnd := c.tagFrameEnd }
  if c.tagPowered then { r with tagState := if c.tagField then .field else .noField }
  else { r with tagState := c.tagState, tagSession := c.tagSession, undo := c.undo, tagKey := c.tagKey, tagRa := c.tagRa
                tagRb := c.tagRb, tagCred := c.tagCred, delayUntil := c.delayUntil, response := c.response }

/-- A controller of the main domain: recessive, off the bus; what RWT registers store is kept (R557,
R573, R695). -/
def CanCtl.mainReset (c : CanCtl) : CanCtl :=
  if c.locked then c
  else { CanCtl.reset with
    mode := c.mode, owner := c.owner, filtLen := c.filtLen, armed := c.armed, armedAt := c.armedAt
    armedBefore := c.armedBefore
    objs := c.objs.map fun o => { MObj.reset with
      cfg := o.cfg, idr := o.idr
      cfgPending := o.cfg.stored != MObj.reset.cfgForce || o.idr.stored != MObj.reset.idForce } }

/-- A link in electrical idle (R695); TRAIN and ADRIFT count on, the anchor stays enumerated. -/
def Pier.mainReset (l : Pier) : Pier :=
  { Pier.reset with trainFails := l.trainFails, adriftCount := l.adriftCount, adriftLast := l.adriftLast }

/-- All links; the upstream port stays until a power-on reset (R603), and the tenders enumerated are counted since
one (R643). -/
def PierBlk.mainReset (p : PierBlk) : PierBlk :=
  { PierBlk.reset with links := p.links.map Pier.mainReset, upstream := p.upstream, enumerated := p.enumerated }

/-- The anchor number that ENUM gave stays known. -/
def Tender.mainReset (t : Tender) : Tender := { Tender.reset with enumAnchor := t.enumAnchor }

/-- The firmware import is discarded (R703); banks and record are in MRAM, and so is a trial. The registers of
the HOST block keep their values (R695). -/
def Fw.mainReset (f : Fw) : Fw :=
  { Fw.reset with recA := f.recA, recB := f.recB, bankA := f.bankA, bankB := f.bankB
                  fwLen := f.fwLen, block := f.block, switchTide := f.switchTide, result := f.result
                  detail := f.detail, blockResult := f.blockResult, stagedVer := f.stagedVer }

/-- The MFP outputs are high-impedance in a reset (R699). -/
def Pins.mainReset (p : Pins) : Pins := { p with outputs := 0#24, driven := false, pulses := [], actions := [] }

/-- What of the logbook is in MRAM (R712, R715). -/
def Logbook.stored (l : Logbook) : Logbook :=
  { Logbook.reset with ring := l.ring, head := l.head, tail := l.tail, mark := l.mark, cpSeq := l.cpSeq
                       cpLast := l.cpLast, digest := l.digest }

/-- A main-domain reset of cause `cause` (R691, R695); `supply`: the supplies in brown-out. A reset
that starts before the restart boundary of the previous one is a second fault (R710). -/
def State.mainReset (s : State) (cause : BitVec 3) (supply : BitVec 8) : State :=
  let second : Bool := s.port.main == .reset
  let at' := if second then s.sys.resetAt else s.now
  let tide := if second then s.sys.resetTide else s.tide.number
  { s with
    port := s.port.mainReset, tide := s.tide.mainReset, bt := s.bt.mainReset, ver := s.ver.mainReset
    mf := s.mf.mainReset, lf := s.lf.mainReset, uwb := s.uwb.mainReset, nb := s.nb.mainReset
    reg := s.reg.mainReset, keys := s.keys.mainReset, cry := s.cry.mainReset, trng := s.trng.mainReset
    nfc := s.nfc.mainReset, can := { s.can with ctl := s.can.ctl.map CanCtl.mainReset }
    pier := s.pier.mainReset, tend := s.tend.mainReset, fw := s.fw.mainReset, pins := s.pins.mainReset
    log := { s.log.stored with activeFrom := s.log.activeFrom, activeSpent := s.log.activeSpent }
    lk := { s.lk with mainResets := if s.lk.alive then s.lk.mainResets + 1#16 else s.lk.mainResets }
    sys := { s.sys with
      causeNext := cause, supplyNext := supply, resetAt := at', resetTide := tide
      faulted := s.sys.faulted || second, pairAUp := false, pairBUp := false, pairFault := []
      restartTide := false, verdictsFrom := false } }

/-! Power-on reset (R691, R746). -/

/-- POWER_ON_RESET (R691, R696): everything but what is in MRAM and the tag memory is at its reset
value, both counters are 0; the main domain leaves reset 1 ms later (R684). -/
def State.powerOn (s : State) : State :=
  let d := s.deepHoldup.sys
  { State.reset with
    pending := s.pending
    tide := { Tide.reset with life := s.tide.life }
    ver := s.ver.mainReset
    mf := s.mf.mainReset
    lf := { Lf.reset with cache := s.lf.cache }
    reg := { s.reg.stored with clockBase := s.reg.floorNow }
    lk := { LockKeeper.reset with mram := s.lk.mram, record := s.lk.record, paired := s.lk.paired }
    keys := s.keys.stored
    cry := { s.cry.mainReset with dayBase := s.aonDay }
    trng := s.trng.stored
    nfc := s.nfc.stored
    can := { CanBlk.reset with ctl := s.can.ctl.map fun c => { CanCtl.reset with owner := c.owner } }
    tend := s.tend.mainReset
    fw := { Fw.reset with recA := s.fw.recA, recB := s.fw.recB, bankA := s.fw.bankA, bankB := s.fw.bankB }
    log := s.log.stored
    ident := s.ident
    pins := { Pins.reset with inputs := s.pins.inputs }
    sys := { Sys.reset with
      clean := d.clean, holdupDeep := d.holdupDeep, brown := true, resetAt := ms 1, powerUps := d.powerUps
      resetTide := if s.port.main = .reset then d.resetTide else s.tide.number, faulted := d.faulted } }

/-- POWER_ON_RESET. -/
def execPowerOnReset (s : State) : Host.Outcome State Fault Refusal := .next s.powerOn

/-! Hold-up (R687 to R690). -/

/-- The supplies that a brown-out newly finds low, as bits of HOST.SUPPLY. -/
def State.lower (s : State) (v : BitVec 8) : State :=
  let new := (v.setWidth 7 &&& 0x1F#7) &&& ~~~s.sys.low
  (s.upSys fun y => { y with low := y.low ||| new, lowLatch := y.lowLatch ||| new }).latchIf (new != 0#7) 62

/-- BROWN_OUT (R687, R688): the hold-up record, the clean marker and a main-domain reset. A supply that
follows while a hold-up's reset still waits for the supplies belongs to that hold-up. -/
def State.brownOut (s : State) (v : BitVec 8) : State :=
  let sup := v &&& 0x1F#8
  let running : Bool := s.port.main != .reset || (s.sys.low &&& 0x1F#7) == 0#7
  let s := s.lower sup
  if running then
    let s := s.signCut.mainReset (if sup.getLsbD 0 then 1#3 else 2#3) sup
    let s := s.logRecord 0x21 [sup, Config.holdupWrites s.log.head]
    s.upSys fun y => { y with clean := true, brown := true, holdupDeep := false, brownAt := s.now }
  else s.upSys fun y => { y with supplyNext := y.supplyNext ||| sup }

/-- BROWN_OUT. -/
def execBrownOut (supplies : BitVec 8) (s : State) : Host.Outcome State Fault Refusal :=
  s.whenDo ((supplies &&& 0x1F#8) != 0#8) (s.brownOut supplies)

/-- SUPPLY_WARNING (R685): supply `b` falls below its warning level or rises above its release level;
once every supply of the main domain has been released, the reset ends 1 ms later (R684). -/
def State.supplyCross (s : State) (b : Nat) (below : Bool) : State :=
  if below then
    (s.upSys fun y => { y with low := setBit y.low b true, lowLatch := setBit y.lowLatch b true }).latch 62
  else
    let s := s.upSys fun y => { y with low := setBit y.low b false }
    if s.port.main = .reset ∧ s.sys.low &&& 0x1F#7 = 0#7 then s.upSys fun y => { y with resetAt := s.now + ms 1 } else s

/-- SUPPLY_WARNING. -/
def execSupplyWarning (bit : BitVec 3) (below : Bool) (s : State) : Host.Outcome State Fault Refusal :=
  s.whenDo (bit.toNat < 6 && s.sys.low.getLsbD bit.toNat != below) (s.supplyCross bit.toNat below)

/-- A VIO bank in brown-out is below its warning level too (R685). -/
def State.bankLow (s : State) : State := if s.sys.low.getLsbD 5 then s else s.supplyCross 5 true

/-- VIO_BROWN_OUT (R685, R686): bank 0 VIO_H, 1 VIO_M, 2 VIO_C; its pins are high-impedance. -/
def execVioBrownOut (bank : BitVec 2) (s : State) : Host.Outcome State Fault Refusal :=
  s.whenDo (bank != 3#2 && !s.sys.vioLow.getLsbD bank.toNat)
    (let s := s.bankLow.upSys fun y => { y with vioLow := setBit y.vioLow bank.toNat true }
     if bank = 1#2 then s.upPins fun p => { p with driven := false } else s)

/-- VIO_BANK_RELEASE (R686). -/
def execVioBankRelease (bank : BitVec 2) (s : State) : Host.Outcome State Fault Refusal :=
  s.whenDo (bank != 3#2 && s.sys.vioLow.getLsbD bank.toNat)
    (let s := s.upSys fun y => { y with vioLow := setBit y.vioLow bank.toNat false }
     if bank = 1#2 then s.upPins fun p => { p with driven := s.mainUp } else s)

/-! The other causes (R691 to R694). -/

/-- The watchdog has gone unserviced for its time (R693). -/
def State.watchdogOut (s : State) : Bool :=
  match s.tide.power with
  | .deep => false
  | .standby => decide (4 ≤ s.sys.wdTides)
  | _ => s.elapsed s.sys.wdAt (ms 250)

/-- WATCHDOG_EXPIRY (R693). -/
def execWatchdogExpiry (s : State) : Host.Outcome State Fault Refusal :=
  s.whenDo (s.mainUp && s.watchdogOut) (s.mainReset 3#3 0#8)

/-- A mismatch in a pair (R691, R692, R706): the pair stops; the second pair of a tide resets the main
domain; under TRIAL the firmware reverts at once. -/
def State.lockstep (s : State) (b : Bool) : State :=
  let s := ((s.stopPair b).latch 63).logRecord 0x26 [BitVec.ofNat 8 (b2n b)]
  let both : Bool := s.sys.pairFault.any fun f => f.1 != b2n b && f.2 == s.tide.number
  let s := s.upSys fun y => { y with
    pairRestarts := y.pairRestarts + 1#16, pairFault := (b2n b, s.tide.number) :: y.pairFault.take 1 }
  if both then s.mainReset 4#3 0#8 else if s.fw.state = .trial then s.fwRevert else s

/-- LOCKSTEP_FAULT. -/
def execLockstepFault (pairB : Bool) (s : State) : Host.Outcome State Fault Refusal :=
  s.whenDo (s.mainUp && s.pairUp pairB) (s.lockstep pairB)

/-- A commit of HOST.RESET (R694). -/
def State.hostReset (s : State) (v : BitVec 32) : State :=
  if fieldN v 15 0 = 0x7256 ∧ v.getLsbD 16 then s.mainReset 5#3 0#8 else s.notice 2 0x2C

/-- HOST_RESET. -/
def execHostReset (v : BitVec 32) (s : State) : Host.Outcome State Fault Refusal :=
  .next (s.nearWrite 0x2C fun s => s.hostReset v)

/-- CRYSTAL_CHANGEOVER (R739): the AON count goes on without a gap. -/
def execCrystalChangeover (s : State) : Host.Outcome State Fault Refusal :=
  s.whenDo (!s.sys.crystal) (s.upSys fun y => { y with crystal := true })

/-! Pin states (R686, R699). -/

/-- Which of a pin's banks is in brown-out: 0 VIO_H, 1 VIO_M, 2 VIO_C (R686). -/
def PinGroup.bank : PinGroup → Option Nat
  | .hostData | .hrdy | .hirq => some 0
  | .mfp => some 1
  | .canTx n => if n = 7#3 then none else some 2
  | _ => none

/-- The state of the pins in a power-on reset (R699); `t` ticks of it have passed. -/
def PinGroup.inPowerReset (locked : Bool) (t : Nat) : PinGroup → PinDrive
  | .hostData | .lfDriver | .mfp => .highZ
  | .hrdy | .hirq => .floats
  | .canTx n => if n = 7#3 ∧ locked ∧ ms 9 ≤ t then .recessive else .highZ
  | .sten => .running
  | .radio => .quiet
  | .tagPort => .fieldPowered
  | .pierTx => .idle

/-- The state of the pins in a main-domain reset or a hold-up (R699): the port region and the island run on. -/
def PinGroup.inMainReset (locked : Bool) : PinGroup → PinDrive
  | .hostData | .hrdy | .hirq | .sten => .running
  | .lfDriver | .mfp => .highZ
  | .canTx n => if n = 7#3 ∧ locked then .running else .recessive
  | .radio => .quiet
  | .tagPort => .fieldPowered
  | .pierTx => .idle

/-- The state of a group of output pins (R407, R434, R686, R699). -/
def State.pinDrive (s : State) (g : PinGroup) : PinDrive :=
  let locked := (s.can.ctl.getD 7 CanCtl.reset).locked
  if g.bank.any s.sys.vioLow.getLsbD ∨ (g = .sten ∧ s.stenHiZ) then .highZ
  else if s.powerReset then g.inPowerReset locked s.now
  else if s.port.main = .reset then g.inMainReset locked
  else .running

/-- HOST.STATUS.MAIN as it reads: STARTING once the reset has been released (R667, R684). -/
def State.mainShown (s : State) : MainState :=
  if s.port.main = .reset ∧ s.sys.low &&& 0x1F#7 = 0#7 ∧ s.sys.resetAt ≤ s.now then .starting
  else s.port.main

end Sys2Proof.Machine
end

