-- ==== Sys2Proof/Machine/Tide.lean ====
section
/-! DEFINITION. The tide unit (R117 to R159): the boundary and everything that takes effect at it, the
power states, wake boundaries, and a tender's mirror of them (R118, R625 to R628). -/

namespace Sys2Proof.Machine

/-! Power states (R131 to R135). -/

/-- A power state's place in the order of R131. -/
def Power.ofCode (n : Nat) : Power :=
  match n with
  | 0 => .deep
  | 1 => .standby
  | 2 => .watch
  | 3 => .service
  | _ => .drive

/-- The state that a REQ asks to hold at least (R159): 1 WATCH, 2 SERVICE. -/
def reqLevel (req : BitVec 3) : Nat := if req = 1#3 then 2 else if req = 2#3 then 3 else 0

/-- The device takes its tides from its harbourmaster (R118): its upstream link is ACTIVE. -/
def State.mirrored (s : State) : Bool := !s.isHost && match s.upPort? with
  | some n => (s.link n).st == .active
  | none => false

/-- REQ as it is in force here: a tender ignores POWER_REQ (R118, R157). -/
def State.req (s : State) : BitVec 3 := if s.cfg.role = .tender then 0#3 else s.tide.powerReq.force

/-- REQ lets WATCH end (R131, R133). -/
def State.reqFree (s : State) : Bool := s.req == 0#3 || (s.req == 3#3 && s.tide.life != .fleet)

/-- The dwell of WATCH is over (R131, R133): 20 s with no live berth and no wake event. -/
def State.watchOver (s : State) : Bool :=
  s.tide.power == .watch && s.liveBerths.isEmpty && s.elapsed s.tide.dwellFrom (sec 20)

/-- The dwell of SERVICE is over (R131, R133): 10 s with no berth MOORED or RANGED. -/
def State.serviceOver (s : State) : Bool :=
  s.tide.power == .service && s.mooredBerths.isEmpty && s.elapsed s.tide.dwellFrom (sec 10)

/-- WATCH_DWELL_EXPIRY (R133): the next ordinary boundary acts on it. -/
def execWatchDwellExpiry (s : State) : Host.Outcome State Fault Refusal :=
  s.whenDo (s.mainUp && s.watchOver) (s.upTide fun t => { t with dwellOut := true })

/-- SERVICE_DWELL_EXPIRY (R133). -/
def execServiceDwellExpiry (s : State) : Host.Outcome State Fault Refusal :=
  s.whenDo (s.mainUp && s.serviceOver) (s.upTide fun t => { t with dwellOut := true })

/-- The power state that an ordinary boundary begins (R131, R134, R119): a tender that has lost its link
enters STANDBY; a device that becomes FLEET in DEEP enters STANDBY (R130, log entry 45). -/
def State.ordinaryPower (s : State) : Power :=
  if s.cfg.role = .tender ∧ s.upPort?.isSome ∧ s.upLive = false then .standby
  else match s.tide.power with
    | .deep => if s.tide.life = .fleet then .standby else .deep
    | .standby => if s.req = 3#3 ∧ s.tide.life ≠ .fleet then .deep else .standby
    | .watch => if (s.tide.dwellOut || s.watchOver) && s.liveBerths.isEmpty && s.reqFree then .standby else .watch
    | .service =>
      if s.tide.engineRunning then .drive
      else if (s.tide.dwellOut || s.serviceOver) && s.mooredBerths.isEmpty && s.req != 2#3 then .watch else .service
    | .drive => if s.tide.ignitionOff && !s.lk.state.released? then .service else .drive

/-- The power state that a wake boundary begins, by the bit of its event (R131, R132). -/
def State.wakePower (s : State) (bit : BitVec 4) : Power :=
  match s.tide.power with
  | .deep => .standby
  | .standby => .watch
  | .watch => if bit = 8#4 ∨ s.req = 2#3 then .service else .watch
  | p => p

/-- The power state becomes `p` (R131, R133, R135, R513; source 1). The spec does not say whether a dwell begins as
its state is entered or runs on from an event before: it begins here (DESIGN CHOICE, log entry 79). -/
def State.setPower (s : State) (p : Power) : State :=
  let old := s.tide.power
  if p = old then s
  else
    let park := p == .standby && s.tide.parkArmed
    let s := s.upTide fun t => { t with
      power := p, dwellFrom := s.now, dwellOut := false, lfPer := 0
      parkArmed := (t.parkArmed && !park) || p == .service || p == .drive
      parkStart := if park then s.now else t.parkStart
      ignitionOff := t.ignitionOff && old != .drive }
    let s := if p.asleep && !old.asleep then
        (s.upLog fun l => { l with activeSpent := l.activeSpent + (s.now - l.activeFrom) }).upTrng fun t => { t with running := false }
      else if old.asleep && !p.asleep then
        (s.upLog fun l => { l with activeFrom := s.now }).wakeNoise
      else s
    s.latch 1

/-- The length of the tide that a boundary begins (R121). A tender ignores its TIDE section: while its link carries
tides, and until another comes, its tides have the length last mirrored (R118, R632). -/
def State.tideLength (s : State) : Nat :=
  if s.cfg.role = .tender then s.tide.mirrorMs
  else if s.tide.lengthReq.force ≠ 0#11 then s.tide.lengthReq.force.toNat
  else s.cfg.tideMs.getD (match s.tide.power with
    | .watch => 1
    | .service => 2
    | .drive => 3
    | _ => 0) 1024

/-! Life cycle (R137, R346, R410, R472). -/

/-- The life-cycle state becomes `l`: the lock key record is rewritten, an override ticket goes, RETURN
invalidates the fleet root, in FLEET REQ never holds 3 (R133), in FLEET and RETURN no CAN controller loops back (R556);
source 3. -/
def State.lifeTo (s : State) (l : LifeCycle) : State :=
  if s.tide.life = l then s
  else
    let s := (s.upTide fun t => { t with
      life := l, powerReq := if l = .fleet then t.powerReq.without 3#3 else t.powerReq }).writeRecord fun r => { r with life := l }
    let s := s.upVer fun v => { v with
      ovrState := if v.ovrState = .active then .idle else v.ovrState, ovrPrev := .idle, ovrUses := 0#5 }
    let s := if l = .returned then s.invalidateRoot 1 else s
    (if l = .fleet ∨ l = .returned then s.endLoopback else s).latch 3

/-- A step that has been armed takes effect. -/
def State.lifeBoundary (s : State) : State :=
  match s.tide.lifeNext with
  | none => s
  | some l => (s.upTide fun t => { t with lifeNext := none }).lifeTo l

/-! The boundary (R122 to R127). -/

/-- The wake events that are still to act at a boundary (R17, R126): those after the event that makes it, and
those of the boundary's own tick, which belong to the new tide. -/
def State.laterWakes (s : State) (wake : Option (BitVec 4)) : List (BitVec 4) :=
  let all := s.tide.firstWake.toList ++ s.tide.wakeWaiting
  (if s.tide.power.low then all.drop (b2n wake.isSome) else all.filter fun e => e.1 == s.now).map (·.2)

/-- The boundary's stamp, the tide number and source 0 (R121, R122). A wake boundary records its event and
latches source 2 (R126). The spec does not say whether a REQ that changed takes force at a wake boundary (R9, R125)
or at the next ordinary one (R159): it does at every boundary (DESIGN CHOICE, log entry 79). -/
def State.newTide (s : State) (wake : Option (BitVec 4)) : State :=
  let s := s.upTide fun t => { t with
    number := t.number + 1#32, startAt := s.now, boundary := s.stamp, firstWake := none, wakeWaiting := []
    starts := (s.now :: t.starts).take 16
    wakeFirst := wake.getD t.wakeFirst
    powerReq := t.powerReq.boundary s.now, lengthReq := t.lengthReq.boundary s.now }
  (s.latch 0).latchIf wake.isSome 2

/-- The wake events of the tide that begins (R126, R159): those that waited, of which DEEP admits the host's
request alone, and REQ above the state. A write of POWER_REQ in the boundary's own tick belongs to this tide and is
judged by its state (R17). -/
def State.wakesOf (s : State) (waited : List (BitVec 4)) : State :=
  let asks := s.cfg.role != .tender && (decide (s.tide.power.code < reqLevel s.tide.powerReq.stored) ||
    (s.tide.reqDue && s.tide.power == .deep && decide (s.tide.powerReq.stored.toNat ≤ 2)))
  let waited := waited.filter fun b => s.tide.power != .deep || b == 7#4
  let acts := if asks && !waited.contains 7#4 then waited ++ [7#4] else waited
  let s := s.upTide fun t => { t with reqDue := false, wakeCause := if asks then setBit t.wakeCause 7 true else t.wakeCause }
  if s.tide.power.low then acts.foldl (fun s b => s.upTide fun t => t.noteWake s.now b) s else s

/-- The dwells go on while berths hold the state (R133). -/
def State.dwellBoundary (s : State) (live : Bool) : State :=
  if (s.tide.power == .watch && live) || (s.tide.power == .service && !s.mooredBerths.isEmpty) then
    s.upTide fun t => { t with dwellFrom := s.now }
  else s

/-- Berths that still wait for a challenge nonce ask again (R523). -/
def State.nonceBoundary (s : State) : State :=
  (berthNos.filter fun n => s.berthIs n .hailed && (s.berth n).se.nonceDue && (s.berth n).id.kind != 3#3 &&
    !s.trng.held.any fun h => h.who == .berthNonce n).foldl (fun s n => s.request (.berthNonce n)) s

/-- What a boundary does in the radio and CAN blocks, once the power state is settled. -/
def State.blocksBoundary (s : State) (env : TideEnv) : State :=
  let s := s.lfBoundary.schedulePolls
  let s := ((s.nbBoundary env.temp).bleMeasured env.temp env.vrf2).uwbBoundary env.temp
  let s := s.renewSessions.scheduleRounds.nfcBoundary
  s.canConfigBoundary.canFilterBoundary.canRunBoundary.canHeldBoundary

/-- The watchdog is serviced where a pair runs (R693). -/
def State.serviceWatchdog (s : State) : State :=
  s.upSys fun y => if y.pairAUp || y.pairBUp then { y with wdAt := s.now, wdTides := 0 } else { y with wdTides := y.wdTides + 1 }

/-- The end of the restart tide starts the verdicts (R697). -/
def State.restartOver (s : State) : State :=
  if s.sys.restartTide then s.upSys fun y => { y with restartTide := false, verdictsFrom := true } else s

/-- What takes effect before the power state: manifest or adopted image, register, key roots (R127). -/
def State.takeSettings (s : State) (toReturn : Bool) : State :=
  ((s.manifestBoundary.tenderBoundary).regBoundary toReturn).keysBoundary

/-- The berth table at a boundary: the berths cast off before it become FREE, the booking takes force. -/
def State.tableBoundary (s : State) (cast : List Nat) : State :=
  ((s.freeCastOff cast).upBt fun b => { b.takeBooking s.now with
    sightings := [] }).verdictBoundary.startBoundary

/-- What a boundary does once the power state and the length of its tide are settled. A tide without verdicts has its
share of the register's background check at once (R375). -/
def State.runTide (s : State) (env : TideEnv) (cast : List Nat) (live : Bool) (waited : List (BitVec 4)) : State :=
  let s := (((s.restartOver.tamperBoundary env.tamper).vlfBoundary env.vlf)).lkBoundary.deferBoundary.unmooredBoundary
  let s := s.pollsEnded.jamBoundary (s.tide.number - 1#32) env.jam
  let s := (s.tableBoundary cast).blocksBoundary env
  let s := (s.dwellBoundary live).nonceBoundary.signBoundary
  let s := (s.serviceWatchdog.fwBoundary.pierBoundary).wakesOf waited
  if s.ver.outAt.isNone then s.regBackground else s

/-- The length of the tide that begins (R121); the restart tide lasts at most `cap` ms (R696). -/
def State.setLength (s : State) (cap : Nat) : State := s.upTide fun t => { t with lengthMs := min cap s.tideLength }

/-- A tide boundary (R122, R127): `power` gives the state that begins, `wake` the event of a wake boundary.
Life cycle, manifest, register, roots and power state take effect in this order. -/
def State.boundary (s : State) (env : TideEnv) (power : State → Power) (wake : Option (BitVec 4)) (cap : Nat := 1024) : State :=
  let old := s.publish
  let s := (old.newTide wake).lifeBoundary.takeSettings (old.tide.lifeNext == some .returned)
  ((s.setPower (power s)).setLength cap).runTide env old.castBerths (!old.liveBerths.isEmpty) (old.laterWakes wake)

/-- The tick of the wake boundary of an event at tick `t` (R124): the first whole millisecond of the tide
strictly after it. -/
def State.wakeTick (s : State) (t : Nat) : Nat := s.tide.startAt + ms ((t - s.tide.startAt) / ms 1 + 1)

/-- An ordinary boundary is due (R121, R124): the tide's length has run out and no wake boundary comes first. -/
def State.boundaryDue (s : State) : Bool :=
  s.mainUp && !s.mirrored && decide (s.tideEnd ≤ s.now) &&
    (match s.tide.firstWake with
    | none => true
    | some (t, _) => !s.tide.power.low || decide (s.tideEnd < s.wakeTick t))

/-- TIDE_BOUNDARY (R122). -/
def execTideBoundary (env : TideEnv) (s : State) : Host.Outcome State Fault Refusal :=
  s.whenDo s.boundaryDue (s.boundary env State.ordinaryPower none)

/-- A wake boundary is due (R124). -/
def State.wakeDue (s : State) : Bool :=
  s.mainUp && !s.mirrored && s.cfg.role != .tender && s.tide.power.low &&
    s.tide.firstWake.any fun w => decide (s.wakeTick w.1 ≤ s.now)

/-- WAKE_BOUNDARY (R124, R125). -/
def execWakeBoundary (env : TideEnv) (s : State) : Host.Outcome State Fault Refusal :=
  match s.tide.firstWake with
  | none => .next s
  | some (_, b) =>
    s.whenDo s.wakeDue
      ((s.upTide fun x => { x with dwellOut := false }).boundary env (fun s => s.wakePower b) (some b))

/-! POWER_REQ (R159). -/

/-- Byte address of TIDE.POWER_REQ. -/
def powerReqAddr : Nat := 0x2008

/-- A write of TIDE.POWER_REQ (R118, R159): 3 in FLEET and 4 to 7 store 0; a REQ above the state wakes. A write in the
tick of a boundary is an event of the new tide (R17), which judges it (`State.wakesOf`). The spec
does not say whether a write of 4 to 7 in DEEP, which stores 0, is a write of REQ 0: it wakes; nor whether a
tender's ignored write makes a notice: it makes none (DESIGN CHOICE, log entry 51). -/
def State.powerReqWrite (s : State) (v : BitVec 32) : State :=
  if s.cfg.role = .tender then s
  else
    let r : BitVec 3 := BitVec.ofNat 3 (fieldN v 2 0)
    let clamp : Bool := decide (4 ≤ r.toNat) || (r == 3#3 && s.tide.life == .fleet)
    let w := if clamp then 0#3 else r
    let due := s.boundaryDue || s.wakeDue
    let s := s.upTide fun t => { t with powerReq := t.powerReq.write s.now w, reqDue := t.reqDue || due }
    let wakes := if due then false else if s.tide.power = .deep then decide (w.toNat ≤ 2) else decide (s.tide.power.code < reqLevel w)
    (if wakes then s.wake 7 else s).noticeIf clamp 1 powerReqAddr

/-- POWER_REQ_WRITE. -/
def execPowerReqWrite (v : BitVec 32) (s : State) : Host.Outcome State Fault Refusal :=
  .next (s.farWrite powerReqAddr fun s => s.powerReqWrite v)

/-! The tide mirror of a tender (R118, R626 to R628). -/

/-- PIER_MARK (R626): the tender takes its boundary at the arrival of MARK, in the state it is in; TIDE
brings what the harbourmaster decided. -/
def execPierMark (env : TideEnv) (s : State) : Host.Outcome State Fault Refusal :=
  s.whenDo (s.mainUp && s.mirrored)
    ((s.boundary env (fun s => s.tide.power) none).upTend fun t => { t with markAt := some s.now })

/-- The phase correction of R627 in ticks: LATENCY counts in 0.8 ns, and at most 2 ticks are moved. -/
def phaseStep (stamp own latency : Nat) : Int :=
  let d : Int := (stamp : Int) - ((own : Int) - (roundDiv (latency * 8) 156 : Nat))
  max (-2) (min 2 d)

/-- The blocks follow a power state that TIDE brings; in FLEET the lowest is STANDBY (R130). -/
def State.followPower (s : State) (p' : Power) : State :=
  let p := if p' = .deep ∧ s.tide.life = .fleet then .standby else p'
  if p = s.tide.power then s
  else
    let s := s.setPower p
    s.nbPower.uwbPower.nfcBoundary.canRunBoundary.canHeldBoundary

/-- A commit that a tender still holds at the first TIDE since its link trained (R101): where the boundary of that
tide was the commit's, or a later one, it has passed while the tender did not follow its harbourmaster. The image goes,
the old manifest stays, and the next enumeration pushes the active image. -/
def State.lateCommit (s : State) : State :=
  match s.tend.commitTide with
  | none => s
  | some t =>
    if (s.tide.number - t).toNat < 2 ^ 31 then
      (s.upMf fun m => m.modBank m.target Bank.invalid).upTend fun x => { x with commitTide := none, push := none }
    else s

/-- The MARK that a TIDE belongs to, and the phase correction that it gives (R626, R627): without a MARK the
tender takes its boundary at the TIDE. -/
def State.takeMark (s : State) (stamp : BitVec 48) : State × Int :=
  match s.tend.markAt with
  | some own => (s.upTend fun t => { t with markAt := none },
      phaseStep stamp.toNat (s.baseAt own % 2 ^ 48) (s.link s.up).latency.toNat)
  | none =>
    let s := s.modPier s.up fun l => { l with markMissed := satInc l.markMissed }
    (s.boundary { temp := s.uwb.temp, vlf := s.lf.vlf, vrf2 := s.nb.vrf2, jam := [], tamper := s.keys.tamper }
      (fun s => s.tide.power) none, 0)

/-- The tide's number, stamp and length become the harbourmaster's, and the tender's phase moves (R118, R627). -/
def State.takeTide (s : State) (number : BitVec 32) (stamp : BitVec 48) (length : Nat) (step : Int) : State :=
  let s := s.upTend fun t => { t with phase := t.phase + step }
  let s := s.atTick ((s.now : Int) + step).toNat
  let len := max 1 (min length 1024)
  s.upTide fun t => { t with number := number, boundary := stamp, lengthMs := len, mirrorMs := len }

/-- The first TIDE since the link trained settles a commit that waited (R101). -/
def State.tideSynced (s : State) : State :=
  if s.tend.synced then s else s.lateCommit.upTend fun t => { t with synced := true }

/-- The life-cycle state that a TIDE carries, where the tender may follow it (R118, R137, R138). -/
def State.followLife (s : State) (life : Nat) : State :=
  let l : LifeCycle := match life with
    | 0 => .manufacture
    | 1 => .provision
    | 2 => .fleet
    | _ => .returned
  if s.mayFollow l then s.lifeTo l else s

/-- TIDE (R118, R626, R627): number, stamp, length, power state and life cycle of the harbourmaster. -/
def State.tideIn (s : State) (number : BitVec 32) (stamp : BitVec 48) (length : Nat) (power : Nat) (life : Nat) : State :=
  let m := s.takeMark stamp
  ((m.1.takeTide number stamp length m.2).tideSynced.followLife life).followPower (Power.ofCode power)

/-- TIDE_MESSAGE. -/
def execTideMessage (number : BitVec 32) (stamp : BitVec 48) (length : BitVec 11) (power : BitVec 3) (life : BitVec 2)
    (s : State) : Host.Outcome State Fault Refusal :=
  s.whenDo (s.mainUp && s.mirrored) (s.tideIn number stamp length.toNat power.toNat life.toNat)

end Sys2Proof.Machine
end

