-- ==== Sys2Proof/Machine/Start.lean ====
section
/-! DEFINITION. The main start (R697) and the restart boundary (R696). -/

namespace Sys2Proof.Machine

/-- A commit record is valid (R372): its CRC and its TAG verify under the vehicle root. -/
def State.recOk (s : State) (c : CommitRec) : Bool := s.keys.vr.valid && c.validUnder s.keys.vr.key

/-- The register with its records tagged under the vehicle root in force (R462), and the valid one with the higher
RECORD_SEQ selected (R372). -/
def State.regSelect (s : State) : MemberReg :=
  let r := match s.keys.vrPrev with
    | some old => s.reg.retag old s.keys.vr.key
    | none => s.reg
  { r with useA := s.recOk r.recA && (!s.recOk r.recB || decide (r.recB.rseq.toNat ≤ r.recA.rseq.toNat)) }

/-- The check of R373 over a valid record: its root over the leaf table, its profile digest. -/
def MemberReg.checks (r : MemberReg) : Bool :=
  merkleRoot r.leaf == r.cur.root && shake256 (Mem.load r.profiles 0 49152) 32 == r.cur.digest

/-- The register at a main start (R353, R373, R376): the journal of a valid record first, then the check. Source 34 and
a logbook record where it fails. -/
def State.regStart (s : State) : State :=
  if s.isTender then s
  else
    let r := s.regSelect
    let ok := s.recOk r.cur
    let r := if ok then r.settled s.keys.vr.key else r
    let pass := ok && r.checks
    let t := s.upReg fun _ => { r with
      ramMap := r.map, ramProf := r.profiles, verified := [], bad := [], scan := 0, scanFrom := s.now
      health := if pass then 1#2 else 2#2 }
    if pass then t else (t.latch 34).logRecord 0x24 [0xFF#8, 0xFF#8]

/-- The newest logbook record is dropped where its CRC fails (R714). -/
def Logbook.recover (l : Logbook) : Logbook :=
  match l.ring with
  | r :: rest => if r.crcOk then l else { l with ring := rest, head := l.head - 1#32 }
  | [] => l

/-- The conditions of R711 at this main start. -/
def State.conditions (s : State) : BitVec 4 :=
  let y := s.sys
  let worn : Bool := s.reg.wear.any fun w => decide (1000000 < w.2.toNat)
  let twice : Bool := y.faulted || (s.log.ring.find? fun r => r.kind == 0x20#8).any fun r => r.tide == y.resetTide
  ofBits 4 ((if y.holdupDeep || (y.brown && !y.clean) then [0] else []) ++
    (if Config.slewBad y.powerUps then [1] else []) ++ (if worn then [2] else []) ++ (if twice then [3] else []))

/-- The start record, and the condition record where a condition holds (R711, R713). -/
def State.startRecords (s : State) : State :=
  let c := s.conditions
  let s := s.logRecord 0x20 ([s.sys.causeNext.setWidth 8, BitVec.ofNat 8 s.lk.state.code] ++ le 2 s.lk.mainResets.toNat)
  let s := if c = 0#4 then s else s.logRecord 0x22 [c.setWidth 8]
  s.upSys fun y => { y with clean := false, brown := false, holdupDeep := false, faulted := false }

/-- RESET_CAUSE, the pairs and the watchdog at a main start (R691, R692, R718). -/
def State.sysStart (s : State) : State :=
  let y := s.sys
  let s := s.upSys fun _ => { y with
    cause := y.causeNext, supply := if y.causeNext = 1#3 ∨ y.causeNext = 2#3 then y.supplyNext else 0#8
    supplyNext := 0#8, powerUps := y.powerUps + 1, pairAUp := true, pairBUp := true, wdAt := s.now, wdTides := 0 }
  let s := s.upPort fun p => { p with main := .running }
  if y.causeNext = 0#3 then s else (s.upPort fun p => { p with resets := p.resets + 1#16 }).latch 63

/-- The known-answer tests (R499): `kat` names the engines that fail; the noise source starts unless its
DRBG, or the AES engine that the DRBG runs on, has failed. -/
def State.katStart (s : State) (kat : BitVec 4) : State :=
  let s := (s.upCry fun c => { c with selftest := kat }).latchIf (kat != 0#4) 63
  if s.cry.drbgOk then (s.upTrng Trng.start).request .sidBase else s

/-- The settings of the manifest reach the blocks: pins, CAN pool and owners, LF calibration (R166, R697). -/
def State.cfgStart (s : State) : State :=
  let s := (s.canOwners fun n => n < 7).upCan fun c => { c with total := s.cfg.canTotal }
  (s.upLf fun l => { l with calReq := true }).upPins fun p => { p with driven := s.mfpSeen }

/-- The power state that the restart boundary begins (R134): DRIVE while a release is held, else STANDBY. -/
def State.restartPower (s : State) : Power :=
  if s.lk.state.released? && s.cfg.role != .tender then .drive else .standby

/-- The restart boundary (R696): the restart tide lasts 16 ms, or the length in force where that is shorter. -/
def State.restart (s : State) (env : TideEnv) : State :=
  (s.boundary env State.restartPower none 16).upSys fun y => { y with restartTide := true }

/-- Persistent key cells whose check fails are invalid, and their roots count as absent (R480): bit 0 the vehicle
root, 1 the fleet root, 2 the attestation seed, 3 the seeds of the signing tree, 4 the vehicle root before a switch. -/
def Keys.checkCells (bad : BitVec 6) (k : Keys) : Keys :=
  { k with
    vr := if bad.getLsbD 0 then { k.vr with valid := false, key := [] } else k.vr
    fr := if bad.getLsbD 1 then { k.fr with valid := false, key := [] } else k.fr
    seed := if bad.getLsbD 2 then [] else k.seed
    xmss := if bad.getLsbD 3 then 0#2 else k.xmss
    vrPrev := if bad.getLsbD 4 then none else k.vrPrev
    retag := k.retag && !bad.getLsbD 4 }

/-- The key cells at a main start (R479, R480): their checks, bit 5 that of the lock key record, which then holds no
current key for the lock keeper to adopt, and a new scrambling key. -/
def State.cellStart (s : State) (bad : BitVec 6) : State :=
  let s := s.upKeys fun k => { k.checkCells bad with scramble := Config.scrambleKey s.sys.powerUps, remasks := 0 }
  let s := if bad.getLsbD 3 then s.upCry fun c => { c with seeds := [], pub := [] } else s
  if bad.getLsbD 5 then s.writeRecord fun r => { r with key := [], epoch := 0#8, prevKey := [], prevEpoch := 0#8 } else s

/-- MAIN_START (R697): firmware, logbook, manifest, register, tests, then the restart boundary. -/
def State.mainStart (s : State) (env : TideEnv) (kat : BitVec 4) (cells : BitVec 6) : State :=
  let s := (s.sysStart.cellStart cells).upLog Logbook.recover
  let s := if s.fw.cur.trial then s.fwRevert else s
  let s := s.mfPowerUp.startRecords.regStart
  ((s.katStart kat).cfgStart).restart env

/-- MAIN_START (R684): 1 ms after the supplies are released. `kat`: the known-answer tests that fail (R499);
`cells`: the persistent key cells whose check fails (R480). -/
def execMainStart (env : TideEnv) (kat : BitVec 4) (cells : BitVec 6) (s : State) : Host.Outcome State Fault Refusal :=
  s.whenDo (s.port.main == .reset && (s.sys.low &&& 0x1F#7) == 0#7 && decide (s.sys.resetAt ≤ s.now))
    (s.mainStart env kat cells)

end Sys2Proof.Machine
end

