-- ==== Sys2Proof/Machine/Flags.lean ====
section
/-! DEFINITION. The codes of the states that registers show, and the status words that are put together
from the state of a block as they are read. -/

namespace Sys2Proof.Machine

/-! The ball TCXO_EN. -/

/-- In STANDBY a burst or a poll needs the reference (R731): a BLE event, an LF frame, or a window that it opened. -/
def State.airNeedsReference (s : State) : Bool :=
  decide (s.now < s.nb.airUntil) || s.lf.busy || s.lf.calib ||
    s.lf.fallbacks.any fun f => f.state == .window || f.state == .round

/-- The main domain needs the reference (R731): in the states whose clocks come from PLL A, and in STANDBY and DEEP
for a far access (R652) or a CAN frame on its way (R571). -/
def State.mainNeedsReference (s : State) : Bool :=
  s.port.main != .reset && (!s.tide.power.asleep || s.port.coreClk || s.canReceives)

/-- The level of TCXO_EN (R731). -/
def State.tcxoEn (s : State) : Bool := s.mainNeedsReference || (s.mainUp && s.airNeedsReference)

/-! State codes, as the register tables give them. -/

/-- HOST.STATUS.MAIN (R667, R682). -/
def MainState.code : MainState → Nat
  | .reset => 0
  | .starting => 1
  | .running => 2

/-- HOST.STATUS.BULK (R664, R682). -/
def BulkHolder.code : BulkHolder → Nat
  | .none => 0
  | .manifest => 1
  | .firmware => 2

/-- BERTH[n].STATE.STATE (R30, R63). -/
def BerthState.code : BerthState → Nat
  | .free => 0
  | .sighted => 1
  | .hailed => 2
  | .moored => 3
  | .ranged => 4
  | .castOff => 5

/-- OVR_STATUS.STATE (R346, R351). -/
def OvrState.code : OvrState → Nat
  | .idle => 0
  | .verifying => 1
  | .active => 2

/-- MANIFEST.STATUS.STATE (R95). -/
def ImpState.code : ImpState → Nat
  | .idle => 0
  | .loading => 1
  | .verifying => 2
  | .verified => 3
  | .writing => 4
  | .armed => 5
  | .refused => 6

/-- REGISTER.STATUS.STATE (R386). -/
def RegState.code : RegState → Nat
  | .idle => 0
  | .loading => 1
  | .verifying => 2
  | .verified => 3
  | .staging => 4
  | .armed => 5
  | .refused => 6

/-- HOST.FW_STATUS.STATE (R703). -/
def FwState.code : FwState → Nat
  | .idle => 0
  | .loading => 1
  | .verifying => 2
  | .verified => 3
  | .distributing => 4
  | .armed => 5
  | .handover => 6
  | .trial => 7
  | .refused => 8

/-- A synthesiser as UWB.STATUS and NBRADIO.STATUS show it (R225, R278). -/
def Pll.code : Pll → Nat
  | .off => 0
  | .locking => 1
  | .calibrating => 2
  | .locked => 3
  | .fail => 4

/-- TRNG.STATUS.STATE (R518). -/
def TrngState.code : TrngState → Nat
  | .starting => 0
  | .ready => 1
  | .reseeding => 2
  | .fatal => 3

/-- NFC.STATUS.TAG (R555). -/
def TagState.code : TagState → Nat
  | .noField => 0
  | .field => 1
  | .pending0 => 2
  | .pending1 => 3
  | .secured0 => 4
  | .secured1 => 5

/-- MOBJ[k].STATUS.STATE (R588, R600). -/
def ObjState.code : ObjState → Nat
  | .disabled => 0
  | .idle => 1
  | .pending => 2
  | .onAir => 3
  | .aground => 4
  | .nomem => 5

/-- PIER[n].STATE.STATE (R606). -/
def LinkState.code : LinkState → Nat
  | .disabled => 0
  | .down => 1
  | .training => 2
  | .active => 3
  | .slack => 4
  | .adrift => 5

/-- PIER[n].STATE.ADMIT (R643). -/
def Admit.code : Admit → Nat
  | .none => 0
  | .enumerating => 1
  | .pushing => 2
  | .admitted => 3
  | .refused => 4

/-- PIER.SELF.ROLE (R643). -/
def Role.code : Role → Nat
  | .standalone => 0
  | .harbourmaster => 1
  | .tender => 2
  | .none => 3

/-! Status words. -/

/-- The low 32 bits of a longer value. -/
def lo32 {w : Nat} (v : BitVec w) : BitVec 32 := v.setWidth 32

/-- Bits 32 and above of a longer value. -/
def hi32 {w : Nat} (v : BitVec w) : BitVec 32 := BitVec.ofNat 32 (v.toNat / 2 ^ 32)

/-- Bits of flags, bit 0 first. -/
def flagBits (l : List Bool) : Nat := l.foldr (fun b n => b2n b + 2 * n) 0

/-- HOST.STATUS (R682). -/
def State.hostStatus (s : State) : BitVec 32 :=
  fields32 [(0, s.mainShown.code), (4, s.port.bulk.code), (16, s.port.resets.toNat)]

/-- HOST.FW_STATUS (R718). -/
def State.fwStatus (s : State) : BitVec 32 :=
  fields32 [(0, s.fw.state.code), (4, s.fw.blockResult.toNat), (8, s.fw.result.toNat), (16, s.fw.detail.toNat)]

/-- TIDE.STATE (R157). -/
def State.tideState (s : State) : BitVec 32 :=
  fields32 [(0, s.tide.power.code), (4, s.tide.life.code), (16, s.tide.lengthMs)]

/-- TIDE.PARK (R135, R152): minutes of the park clock and the row of the polling table. -/
def State.park (s : State) : BitVec 32 :=
  fields32 [(0, min ((s.now - s.tide.parkStart) / sec 60) 0xFFFF), (16, s.lfStep)]

/-- The owner codes of timers `k` to `k + 7` (R129). -/
def State.timers (s : State) (k : Nat) : BitVec 32 :=
  fields32 ((List.range 8).map fun i => (4 * i, (s.cfg.owners.getD (k + i) 0#4).toNat))

/-- MANIFEST.STATUS (R95). -/
def State.mfStatus (s : State) : BitVec 32 :=
  let m := s.mf
  fields32 [(0, m.state.code), (4, m.blockResult.toNat), (6, b2n m.deferred), (7, b2n m.late),
    (8, m.result.toNat), (16, m.detail.toNat)]

/-- BERTH[n].STATE (R63). -/
def BerthId.stateWord (b : BerthId) : BitVec 32 :=
  fields32 [(0, b.st.code), (4, b.kind.toNat), (8, b.anchor.toNat), (16, b.cause.toNat)]

/-- BERTH[n].VERDICT (R63). -/
def BerthFuse.verdictWord (b : BerthFuse) : BitVec 32 :=
  fields32 [(0, b.zone.toNat), (4, b.conf.toNat), (8, b.relay.toNat), (16, b.age.toNat)]

/-- A ticket is held: active, or waiting while another is verified (R346). -/
def Verdict.holds (v : Verdict) : Bool := v.ovrState == .active || (v.ovrState == .verifying && v.ovrPrev == .active)

/-- OVR_STATUS (R351): LEFT_S counts the whole seconds of the timebase left in the window of the ticket held. -/
def State.ovrStatus (s : State) : BitVec 32 :=
  let v := s.ver
  fields32 [(0, v.ovrState.code), (4, v.ovrResult.toNat), (8, v.ovrUses.toNat),
    (16, if v.holds then (v.ovrEnd - s.baseAt s.now) / sec 1 else 0)]

/-- LF.STATUS.ROUND (R195, R210): the slotted round of the oldest fallback in progress. -/
def State.roundShown (s : State) : Nat := ((s.lf.fallbacks.find? fun f => f.k != 0).map (·.k)).getD 0

/-- LF.STATUS (R210). -/
def State.lfStatus (s : State) : BitVec 32 :=
  let l := s.lf
  fields32 [(0, b2n l.busy), (1, b2n l.calib), (2, b2n l.vlfLow), (4, s.roundShown), (8, s.disabledDrivers)]

/-- LF.DRV[n].STATUS (R170, R173). -/
def LfDriver.statusWord (d : LfDriver) : BitVec 32 := fields32 [(0, d.bits.toNat), (8, d.latch.toNat)]

/-- TX_STATE.STATE of a transmitter: ON_AIR while a frame of it is on the air, HELD while one waits for lock (R225,
R271, R278, R310). -/
def txShown (onAir held : Bool) : Nat := if onAir then 2 else if held then 1 else 0

/-- UWB.TX_STATE (R271). -/
def State.uwbTxState (s : State) : BitVec 32 :=
  fields32 [(0, txShown (s.uwb.airTx.any fun w => decide (w.1 ≤ s.now) && decide (s.now < w.2)) s.uwb.held.isSome), (4, s.uwb.txLast.toNat), (8, s.uwb.txChain.toNat)]

/-- NBRADIO.TX_STATE (R310). -/
def State.nbTxState (s : State) : BitVec 32 :=
  fields32 [(0, txShown (decide (s.nb.txFrom ≤ s.now) && decide (s.now < s.nb.txUntil)) !s.nb.held.isEmpty), (4, s.nb.txLast.toNat)]

/-- NBRADIO.STATUS (R310). -/
def State.nbStatus (s : State) : BitVec 32 :=
  fields32 [(0, s.nb.blePll.code), (4, s.nb.uhf0Pll.code), (8, s.nb.uhf1Pll.code),
    (16, s.linksAt s.cfg.anchor), (24, s.nb.tuner.toNat)]

/-- NFC.STATUS (R555). -/
def State.nfcStatus (s : State) : BitVec 32 :=
  let c := s.nfc
  fields32 [(0, c.reader.toNat), (2, c.cards.length), (8, c.tagState.code), (11, b2n !c.tagPowered),
    (12, b2n c.harvOn.isSome)]

/-- CRYPTO.STATUS (R493, R526). -/
def State.cryStatus (s : State) : BitVec 32 :=
  let c := s.cry
  fields32 [(0, c.selftest.toNat), (4, flagBits ((List.range 4).map fun l => c.jobs.any fun j => j.level.toNat == l)),
    (16, c.suspends.toNat)]

/-- CRYPTO.BUDGET (R509). -/
def State.budget (s : State) : BitVec 32 :=
  let today := ((s.cry.signRec.days.filter fun d => d.1 == s.aonDay).map (·.2.1)).sum
  fields32 [(0, min s.signWindow.1 4095), (12, min s.signWindow.2 4095), (24, min today 255)]

/-- KEYS.STATUS (R485, R487). -/
def State.keysStatus (s : State) : BitVec 32 :=
  let k := s.keys
  fields32 [(0, if k.busy then 1 else if k.staged.isEmpty then 0 else 2), (4, k.result.toNat), (16, k.detail.toNat)]

/-- TRNG.STATUS (R526). -/
def State.trngStatus (s : State) : BitVec 32 :=
  let t := s.trng
  fields32 [(0, t.state.code), (4, t.result.toNat), (8, t.held.length), (16, t.since)]

/-- REGISTER.STATUS (R398). -/
def State.regStatus (s : State) : BitVec 32 :=
  let r := s.reg
  fields32 [(0, r.state.code), (4, r.blockResult.toNat), (7, b2n r.late), (8, r.result.toNat), (16, r.detail.toNat)]

/-- REGISTER.BAD (R374, R398). -/
def MemberReg.badWord (r : MemberReg) : BitVec 32 :=
  fields32 [(0, r.bad.length), (16, r.bad.foldl min 0x3FFF)]

/-- LOGBOOK.STATUS (R718). -/
def State.logStatus (s : State) : BitVec 32 :=
  fields32 [(0, min (s.log.head - s.log.cpLast).toNat 0xFFFF), (16, b2n s.log.due)]

/-- LOCKKEEPER.TICKET (R425, R426, R441): LEFT is the rest of a held ticket's window in 10 ms. -/
def State.lkTicket (s : State) : BitVec 32 :=
  let k := s.lk
  let left := match k.ticket with
    | some t => (t.issued + sec k.record.lock.ticketS - k.shadow) / ms 10
    | none => 0
  fields32 [(0, b2n k.ticket.isSome), (1, b2n k.shown.override), (8, k.shown.berth.toNat), (16, min left 12000)]

/-- CAN[n].STATUS (R600): the lock keeper's controller shows its OWNER alone (R558). -/
def CanCtl.statusWord (c : CanCtl) : BitVec 32 :=
  if c.locked then fields32 [(0, c.owner.toNat % 8)]
  else fields32 [(0, c.owner.toNat % 8), (4, c.state.toNat), (6, b2n c.protoExc),
    (8, if c.state = 3#2 then 255 else min c.tecN 255), (16, min c.recN 255)]

/-- MOBJ[k].STATUS (R600). -/
def MObj.statusWord (o : MObj) : BitVec 32 :=
  fields32 [(0, o.st.code), (3, b2n o.cfgPending), (8, o.tries.toNat), (16, o.queue.length), (24, o.txns.length)]

/-- The oldest owned entry of the selected object, header and data (R585, R586). -/
def CanCtl.rxHead (c : CanCtl) : Bytes :=
  match (c.obj c.rxsel.toNat).queue with
  | [] => []
  | e :: _ => le 4 e.id.toNat ++ le 4 e.info.toNat ++ le 6 e.stamp.toNat ++ le 2 e.tide.toNat ++ e.data

/-- PIER[n].STATE (R643). -/
def Pier.stateWord (l : Pier) : BitVec 32 :=
  fields32 [(0, l.st.code), (4, l.admission.code), (8, l.cause.toNat), (12, b2n l.bound), (16, l.anchor.toNat)]

/-- PIER.START.COMPLETE (R643): enumeration has begun, and every tender of LINK_MASK serves or is refused. -/
def State.enumComplete (s : State) : Bool :=
  s.pier.started && (bitsOf s.cfg.linkMask).all fun n => s.pier.serving.getLsbD n || (s.link n).admission == .refused

/-- PIER.SELF (R643). -/
def State.pierSelf (s : State) : BitVec 32 :=
  fields32 [(0, s.cfg.role.code), (8, s.cfg.anchor), (16, (s.upPort?.getD 0))]

/-- PIER.START (R643). -/
def State.pierStart (s : State) : BitVec 32 :=
  fields32 [(0, s.pier.enumerated.toNat), (8, s.pier.next.toNat), (15, b2n s.enumComplete)]

end Sys2Proof.Machine
end

