-- ==== Sys2Proof/Machine/Operands.lean ====
section
/-! DEFINITION. The register index of chapter 17 as the host reads it: what each register returns, which
fields a low-half read clears (R659), and what each DATA window holds (R660). An offset that none of the
tables names is reserved (R661, R719). -/

namespace Sys2Proof.Machine

/-! HOST and INTC. -/

/-- HOST registers (R682, R718). -/
def State.readHost (s : State) (o : Nat) : Option (BitVec 32) :=
  match o with
  | 0x00 => some (fields32 [(0, 0x7256), (16, 0xB1)])
  | 0x04 => some (lo32 s.ident.device)
  | 0x08 => some (hi32 s.ident.device)
  | 0x0C => some (fields32 [(0, s.fwVersion.toNat), (16, s.fw.cur.active.toNat)])
  | 0x10 => some s.hostStatus
  | 0x14 => some (lo32 s.port.clampAddr)
  | 0x18 => some (fields32 [(0, s.port.clampCount.toNat), (16, s.port.clampKind.toNat)])
  | 0x1C => some (fields32 [(0, s.port.errUnmapped.toNat), (8, s.port.errOrphan.toNat),
      (16, s.port.errProtocol.toNat), (24, s.port.errDropped.toNat)])
  | 0x20 => some s.port.scratch
  | 0x24 => some (fields32 [(0, s.sys.cause.toNat), (8, s.sys.supply.toNat), (16, s.sys.pairRestarts.toNat)])
  | 0x28 => some (fields32 [(0, s.sys.low.toNat), (8, s.sys.lowLatch.toNat)])
  | 0x2C => some 0#32
  | 0x40 => some 0#32
  | 0x44 => some (lo32 s.fw.fwLen)
  | 0x48 => some (lo32 s.fw.block)
  | 0x4C => some 0#32
  | 0x50 => some s.fwStatus
  | 0x54 => some s.fw.switchTide
  | 0x58 => some (fields32 [(0, s.fw.cur.floor.toNat), (16, s.fw.stagedVer.toNat)])
  | 0x5C => some (lo32 s.fw.left)
  | _ => none

/-- INTC registers (R669 to R679, R682). CLAIM_H shows the latest claim: its low-half read makes a new one. -/
def State.readIntc (s : State) (o : Nat) : Option (BitVec 32) :=
  let i := s.intc
  match o with
  | 0x00 => some (lo32 i.pending)
  | 0x04 => some (hi32 i.pending)
  | 0x08 => some (lo32 i.enH)
  | 0x0C => some (hi32 i.enH)
  | 0x10 => some (lo32 i.enA)
  | 0x14 => some (hi32 i.enA)
  | 0x18 => some (lo32 i.enB)
  | 0x1C => some (hi32 i.enB)
  | 0x20 => some (lo32 i.actH)
  | 0x24 => some (hi32 i.actH)
  | 0x28 => some (lo32 i.asgH)
  | 0x2C => some (hi32 i.asgH)
  | 0x30 => some (lo32 i.claimed)
  | 0x34 => some 0#32
  | 0x38 => some (fields32 [(0, i.strayCount.toNat), (16, i.straySource.toNat), (24, i.strayTarget.toNat)])
  | 0x3C => some (fields32 [(0, b2n i.hirqHigh), (1, b2n i.hirqPushPull)])
  | 0x40 => some 0#32
  | _ => none

/-! TIDE and MANIFEST. -/

/-- TIDE registers (R157). -/
def State.readTide (s : State) (o : Nat) : Option (BitVec 32) :=
  match o with
  | 0x00 => some s.tide.number
  | 0x04 => some s.tideState
  | 0x08 => some (lo32 s.tide.powerReq.stored)
  | 0x0C => some (lo32 s.tide.lengthReq.stored)
  | 0x10 => some (lo32 s.tide.boundary)
  | 0x14 => some (hi32 s.tide.boundary)
  | 0x18 => some s.park
  | 0x1C => some (fields32 [(0, s.tide.wakeCause.toNat), (16, s.tide.wakeFirst.toNat)])
  | 0x20 => some (s.timers 0)
  | 0x24 => some (s.timers 8)
  | _ => none

/-- MANIFEST registers (R95, R115). While FALLBACK is 1, SERIAL is the fallback serial. -/
def State.readManifest (s : State) (o : Nat) : Option (BitVec 32) :=
  let m := s.mf
  match o with
  | 0x00 => some 0#32
  | 0x04 => some (lo32 m.loadLen)
  | 0x08 => some (lo32 m.block)
  | 0x0C => some 0#32
  | 0x10 => some s.mfStatus
  | 0x14 => some m.commitTide
  | 0x18 => some (fields32 [(0, m.runBank.toNat), (1, b2n m.fallback), (2, b2n m.noImage)])
  | 0x1C => some s.cfg.serial
  | 0x20 => some m.stagedSerial
  | 0x24 => some m.commitAt
  | 0x28 => some (fields32 [(0, m.stagedClamps.toNat), (16, m.clampFirst.toNat)])
  | 0x2C => some m.unmoored
  | 0x30 => some m.unmooredLatch
  | _ => none

/-! LOCKKEEPER and BERTH. -/

/-- LOCKKEEPER registers (R441). -/
def State.readLk (s : State) (o : Nat) : Option (BitVec 32) :=
  let k := s.lk
  match o with
  | 0x00 => some (fields32 [(0, k.state.code), (4, k.engine.toNat), (8, b2n k.toggling), (12, k.cause.toNat)])
  | 0x04 => some (fields32 [(0, flagBits [k.busOff, k.ecuSilent, k.epochUnknown, k.stenFault, k.tamperSeen])])
  | 0x08 => some s.lkTicket
  | 0x0C => some (BitVec.ofNat 32 k.shown.issued)
  | 0x10 => some (BitVec.ofNat 32 (k.shown.issued / 2 ^ 32 % 2 ^ 16))
  | 0x14 => some (lo32 k.shown.cred)
  | 0x18 => some (hi32 k.shown.cred)
  | 0x1C => some (fields32 [(0, k.record.lock.ticketS), (8, k.record.epoch.toNat), (16, k.record.prevEpoch.toNat),
      (24, b2n k.recPending)])
  | 0x20 => some (fields32 [(0, k.accepted.toNat), (16, k.rejects.toNat)])
  | 0x24 => some (fields32 [(0, k.expired.toNat), (16, k.refused.toNat)])
  | 0x28 => some (fields32 [(0, k.resends.toNat), (16, k.badMac.toNat)])
  | 0x2C => some (lo32 k.releaseAt)
  | 0x30 => some (hi32 k.releaseAt)
  | 0x34 => some (lo32 k.mainResets)
  | 0x38 => some (fields32 [(0, k.seq.toNat), (8, k.reqCtr.toNat), (16, k.answerUs.toNat)])
  | _ => none

/-- The registers of one berth (R63). -/
def Berth.readReg (b : Berth) (o : Nat) : Option (BitVec 32) :=
  match o with
  | 0x00 => some b.id.stateWord
  | 0x04 => some (lo32 b.id.cred)
  | 0x08 => some (hi32 b.id.cred)
  | 0x0C => some (fields32 [(0, b.id.rights.toNat), (16, b.id.status.toNat), (24, b.id.gen.toNat)])
  | 0x10 => some b.fu.verdictWord
  | 0x14 => some b.fu.vtide
  | 0x18 => some (fields32 [(0, b.fu.range.toNat), (16, b.fu.az.toNat)])
  | 0x1C => some b.id.sightTide
  | 0x20 => some (lo32 b.id.tMoor)
  | 0x24 => some (hi32 b.id.tMoor)
  | 0x28 => some 0#32
  | _ => none

/-- The global registers of the BERTH block, by offset in the block (R64, R351). -/
def State.readBerthGlobal (s : State) (o : Nat) : Option (BitVec 32) :=
  let v := s.ver
  match o with
  | 0x4000 => some s.bt.bookLo
  | 0x4004 => some s.bt.bookHi
  | 0x4008 => some (fields32 [(0, s.liveBerths.length), (16, s.cfg.count)])
  | 0x400C => some (lo32 s.bt.full)
  | 0x4010 => some (fields32 [(0, s.bt.winner.toNat), (8, s.bt.result.toNat), (12, s.bt.reason.toNat)])
  | 0x4020 => some (fields32 [(0, v.issued.toNat), (16, v.publish.toNat)])
  | 0x4024 => some (fields32 [(0, v.seen.toNat), (16, v.flagged.toNat)])
  | 0x4028 => some (lo32 v.vsel)
  | 0x402C => some (fields32 [(0, v.view.x.toNat), (16, v.view.y.toNat)])
  | 0x4030 => some (fields32 [(0, v.view.z.toNat), (16, v.view.sigma.toNat)])
  | 0x4034 => some (fields32 [(0, v.view.support.toNat), (4, v.view.streak.toNat), (8, v.view.handle.toNat),
      (16, v.view.margin.toNat)])
  | 0x4100 => some 0#32
  | 0x4104 => some s.ovrStatus
  | 0x4108 => some v.ovrSerial
  | 0x410C => some (lo32 v.ovrNonce)
  | 0x4110 => some (hi32 v.ovrNonce)
  | _ => none

/-- BERTH registers: zero on a tender (R62). -/
def State.readBerth (s : State) (o : Nat) : Option (BitVec 32) :=
  let v := if o < 0x4000 then (s.berth (o / 64)).readReg (o % 64) else s.readBerthGlobal o
  if s.isTender then v.map fun _ => 0#32 else v

/-! CAN and PIER. -/

/-- The registers of a message object (R600). -/
def MObj.readReg (o : MObj) (r : Nat) : Option (BitVec 32) :=
  match r with
  | 0x0 => some o.cfg.stored
  | 0x4 => some o.idr.stored
  | 0x8 => some (fields32 [(8, o.len.toNat)])
  | 0xC => some o.statusWord
  | _ => none

/-- The registers of CAN[n] (R600), by offset. -/
def State.readCanCtl (s : State) (n o : Nat) : Option (BitVec 32) :=
  let c := s.ctl n
  let t := s.canTiming n
  if 0x800 ≤ o then (c.obj ((o - 0x800) / 16)).readReg (o % 16)
  else match o with
  | 0x000 => some (lo32 c.mode.stored)
  | 0x004 => some c.statusWord
  | 0x008 => some t.1
  | 0x00C => some t.2.1
  | 0x010 => some t.2.2
  | 0x014 => some (lo32 c.events)
  | 0x018 => some (lo32 c.irqEn)
  | 0x01C => some (lo32 c.clash)
  | 0x020 => some (fields32 [(0, c.overrun.toNat), (8, c.unmatched.toNat), (16, c.stale.toNat)])
  | 0x024 => some (fields32 [(0, c.filtLen.toNat), (8, c.activeLen.toNat), (15, b2n c.armed)])
  | 0x040 => some (lo32 c.rxsel)
  | 0x044 => some (fields32 [(0, (c.obj c.rxsel.toNat).queue.length), (8, cfgDepth (c.obj c.rxsel.toNat).cfgForce)])
  | 0x048 => some 0#32
  | _ => none

/-- CAN registers: of the lock keeper's controller the host reads STATUS.OWNER alone (R558, R600). -/
def State.readCan (s : State) (o : Nat) : Option (BitVec 32) :=
  if o < 0x8000 then
    let n := o / 0x1000
    let v := s.readCanCtl n (o % 0x1000)
    if (s.ctl n).locked && o % 0x1000 != 4 then v.map fun _ => 0#32 else v
  else if o = 0x8000 then some (fields32 [(0, s.can.total), (16, s.can.free)])
  else none

/-- The registers of PIER[n] (R643). -/
def Pier.readReg (l : Pier) (o : Nat) : Option (BitVec 32) :=
  match o with
  | 0x00 => some l.stateWord
  | 0x04 => some 0#32
  | 0x08 => some (lo32 l.peerId)
  | 0x0C => some (hi32 l.peerId)
  | 0x10 => some l.peerSerial
  | 0x14 => some (fields32 [(0, l.peerFw.toNat), (16, l.peerLife.toNat), (24, l.peerReady.toNat)])
  | 0x18 => some (lo32 l.latency)
  | 0x1C => some (fields32 [(0, l.trainTime.toNat), (16, l.trainFails.toNat)])
  | 0x20 => some (fields32 [(0, l.resent.toNat), (16, l.nak.toNat)])
  | 0x24 => some (fields32 [(0, l.crc.toNat), (16, l.code.toNat)])
  | 0x28 => some (fields32 [(0, l.stale.toNat), (8, l.timeout.toNat), (16, l.markMissed.toNat), (24, l.lateSched.toNat)])
  | 0x2C => some (fields32 [(0, l.adriftCount.toNat), (16, l.adriftLast.toNat)])
  | 0x30 => some (lo32 l.events)
  | 0x34 => some (lo32 l.irqEn)
  | 0x40 => some (lo32 l.raddr &&& 0xFFFFC#32)
  | 0x44 => some l.rdata
  | 0x48 => some 0#32
  | 0x4C => some (fields32 [(0, b2n l.rbusy), (4, l.rresult.toNat)])
  | _ => none

/-- PIER[n] carries values: on a tender the upstream port alone (R643). -/
def State.portShown (s : State) (n : Nat) : Bool := !s.isTender || s.upPort? == some n

/-- PIER registers (R643). -/
def State.readPier (s : State) (o : Nat) : Option (BitVec 32) :=
  if o < 0x2000 then
    let n := o / 256
    let v := (s.link n).readReg (o % 256)
    if s.portShown n && (!s.isTender || o % 256 < 0x40) then v else v.map fun _ => 0#32
  else match o with
  | 0x2000 => some s.pierSelf
  | 0x2004 => some s.pierStart
  | 0x2008 => some s.pier.serving
  | _ => none

/-! The radios. -/

/-- The registers of a driver (R210). -/
def State.readDrv (s : State) (n o : Nat) : Option (BitVec 32) :=
  let d := s.driver n
  match o with
  | 0x0 => some (fields32 [(0, d.code.toNat), (8, d.ovr.stored.toNat % 64), (15, d.ovr.stored.toNat / 64)])
  | 0x4 => some (fields32 [(0, d.iamp.toNat), (16, (BitVec.ofInt 8 d.phase).toNat)])
  | 0x8 => some d.statusWord
  | 0xC => some (fields32 [(0, s.driverTarget n), (16, (s.driverAntenna n).getD 0x1F)])
  | _ => none

/-- LF registers (R210): the fit registers are zero on a tender. -/
def State.readLf (s : State) (o : Nat) : Option (BitVec 32) :=
  let l := s.lf
  let fit (v : BitVec 32) := some (if s.isTender then 0#32 else v)
  if 0x100 ≤ o ∧ o < 0x200 then s.readDrv ((o - 0x100) / 16) (o % 16)
  else match o with
  | 0x00 => some 0#32
  | 0x04 => some s.lfStatus
  | 0x08 => some (lo32 l.vlf)
  | 0x0C => some (BitVec.ofNat 32 s.cfg.radio.lfFreq)
  | 0x10 => some (fields32 [(0, l.collisions.toNat), (16, l.unresolved.toNat)])
  | 0x14 => some (fields32 [(0, l.rejStale.toNat), (8, l.rejMac.toNat), (16, l.rejReport.toNat), (24, l.rejIdle.toNat)])
  | 0x20 => fit (fields32 [(0, l.fitBerth.toNat), (8, l.fitStrong.toNat), (15, b2n l.fitValid)])
  | 0x24 => fit (fields32 [(0, l.fitX.toNat), (16, l.fitY.toNat)])
  | 0x28 => fit (fields32 [(0, l.fitZ.toNat), (16, l.fitResidual.toNat)])
  | 0x2C => fit l.fitTide
  | _ => none

/-- UWB registers (R270, R271): RES and CIR registers are zero on a tender. -/
def State.readUwb (s : State) (o : Nat) : Option (BitVec 32) :=
  let u := s.uwb
  let res (v : BitVec 32) := some (if s.isTender then 0#32 else v)
  match o with
  | 0x00 => some 0#32
  | 0x04 => some (fields32 [(0, u.pll.code), (4, s.cfg.radio.uwbChannel), (8, u.rounds.toNat)])
  | 0x08 => some (fields32 [(0, u.temp.toNat), (16, u.tempCal.toNat)])
  | 0x0C => some s.uwbTxState
  | 0x10 => some (fields32 [(0, u.atten0.stored.toNat), (8, u.atten1.stored.toNat)])
  | 0x14 => some (fields32 [(0, u.done.toNat), (16, u.lost.toNat)])
  | 0x18 => some (fields32 [(0, u.late.toNat), (8, u.foreign.toNat), (16, u.macFail.toNat), (24, u.cals.toNat)])
  | 0x20 => res (fields32 [(0, u.selBerth.toNat), (8, u.selAnchor.toNat)])
  | 0x24 => res (fields32 [(0, u.view.dist.toNat), (16, u.view.fpPower.toNat)])
  | 0x28 => res (fields32 [(0, u.view.az.toNat), (16, u.view.el.toNat)])
  | 0x2C => res (fields32 [(0, b2n u.view.valid), (1, b2n u.view.ds), (2, b2n u.view.nlos), (3, b2n u.view.listener),
      (8, u.view.cfo.toNat), (16, u.view.tide.toNat)])
  | 0x30 => res u.viewSid
  | 0x40 => res (fields32 [(0, b2n u.cirEnable), (1, b2n u.cirAll), (8, u.cirBerth.toNat)])
  | 0x44 => res (fields32 [(0, u.cirRing.length), (16, u.cirDropped.toNat)])
  | 0x48 => res (lo32 u.cirSel)
  | 0x50 => some (fields32 [(4, u.testChain.toNat), (8, u.testTol.toNat), (24, u.testFrames.toNat)])
  | _ => none

/-- NBRADIO registers (R309, R310): CS_RESULT and CS_INFO are zero on a tender. -/
def State.readNb (s : State) (o : Nat) : Option (BitVec 32) :=
  let b := s.nb
  let cs (v : BitVec 32) := some (if s.isTender then 0#32 else v)
  match o with
  | 0x00 => some 0#32
  | 0x04 => some s.nbStatus
  | 0x08 => some b.irrBle
  | 0x0C => some (fields32 [(0, b.irrUhf.toNat), (16, b.tempBle.toNat)])
  | 0x10 => some s.nbTxState
  | 0x14 => some (fields32 [(0, b.advPower.stored.toNat), (8, b.connPower.stored.toNat), (16, b.applied.toNat)])
  | 0x18 => some (fields32 [(0, b.tunerSeries.toNat), (8, b.tunerShunt.toNat), (16, b.tunerRl.toNat),
      (24, b.tunerLatch.toNat)])
  | 0x1C => some (lo32 b.company.stored)
  | 0x20 => some (lo32 b.interval.stored)
  | 0x24 => some (fields32 [(0, b.late.toNat), (8, b.skipped.toNat), (16, b.foreign.toNat), (24, b.linkFull.toNat)])
  | 0x28 => some (fields32 [(0, b.rssi0.toNat), (8, b.rssi1.toNat), (16, b.jam.toNat)])
  | 0x2C => some (fields32 [(0, b.uhfFrames.toNat), (16, b.uhfCrc.toNat)])
  | 0x30 => some (lo32 b.csSel)
  | 0x34 => cs (fields32 [(0, b.csView.dist.toNat), (16, b.csView.spread.toNat)])
  | 0x38 => cs (fields32 [(0, b2n b.csView.valid), (1, b.csView.chains.toNat), (8, b.csView.tones.toNat),
      (16, b.csView.tide.toNat)])
  | 0x40 => some (fields32 [(8, b.testChan.toNat), (24, b.testFrames.toNat)])
  | _ => none

/-- NFC registers (R555). -/
def State.readNfc (s : State) (o : Nat) : Option (BitVec 32) :=
  let c := s.nfc
  match o with
  | 0x00 => some 0#32
  | 0x04 => some s.nfcStatus
  | 0x08 => some (lo32 c.cardSel)
  | 0x0C => some (fields32 [(0, c.cardView.uidLen.toNat), (4, c.cardView.cid.toNat), (7, b2n c.cardView.access),
      (8, c.cardView.berth.toNat)])
  | 0x10 => some (BitVec.ofNat 32 (leAt c.cardView.uid 0 4))
  | 0x14 => some (BitVec.ofNat 32 (leAt c.cardView.uid 4 4))
  | 0x18 => some (BitVec.ofNat 32 (leAt c.cardView.uid 8 2))
  | 0x1C => some (fields32 [(0, c.collisions.toNat), (8, c.foreign.toNat), (16, c.overflow.toNat), (24, c.reactivate.toNat)])
  | 0x20 => some (fields32 [(0, c.authFail.toNat), (8, c.rollbacks.toNat), (16, c.hostWaits.toNat)])
  | 0x24 => some (fields32 [(0, c.failures), (8, c.waiting.length)])
  | 0x28 => some (lo32 c.uid)
  | 0x2C => some (hi32 c.uid)
  | _ => none

/-! CRYPTO, KEYS and TRNG. -/

/-- CRYPTO registers (R526). AES_KEY and AES_IN are write-only. -/
def State.readCry (s : State) (o : Nat) : Option (BitVec 32) :=
  let c := s.cry
  if 0x20 ≤ o ∧ o < 0x50 then some 0#32
  else if 0x50 ≤ o ∧ o < 0x60 then some (BitVec.ofNat 32 (leAt c.aesOut (o - 0x50) 4))
  else match o with
  | 0x00 => some s.cryStatus
  | 0x04 => some (fields32 [(1, b2n c.aesDir), (4, c.aesKsize.toNat), (8, b2n c.aesBusy)])
  | 0x80 => some 0#32
  | 0x84 => some (fields32 [(0, c.signState.toNat), (4, c.signResult.toNat)])
  | 0x88 => some (BitVec.ofNat 32 c.signRec.next)
  | 0x8C => some s.budget
  | 0x90 => some (fields32 [(0, c.verPass.toNat), (16, c.verFail.toNat)])
  | _ => none

/-- KEYS registers (R487). -/
def State.readKeys (s : State) (o : Nat) : Option (BitVec 32) :=
  let k := s.keys
  match o with
  | 0x00 => some 0#32
  | 0x04 => some s.keysStatus
  | 0x08 => some (fields32 [(0, b2n k.vr.valid), (1, b2n k.fr.valid), (8, k.vr.gen.toNat), (16, k.fr.gen.toNat)])
  | 0x0C => some k.switchTide
  | 0x10 => some (lo32 s.keysReady)
  | 0x14 => some (lo32 k.fleetId)
  | 0x18 => some (hi32 k.fleetId)
  | 0x1C => some (BitVec.ofNat 32 k.slots.length)
  | 0x20 => some (fields32 [(0, k.violation.toNat), (16, k.violMaster.toNat)])
  | 0x24 => some (fields32 [(0, k.tamper.toNat), (8, k.tamperLatch.toNat), (16, k.tamperCount.toNat)])
  | 0x28 => some (fields32 [(0, k.xmss.toNat),
      (8, if k.xmss = 1#2 then (Config.xmssPercent (s.now - k.xmssFrom)).val else k.xmssProgress.toNat)])
  | 0x2C => some (lo32 k.cred)
  | 0x30 => some (hi32 k.cred)
  | 0x34 => some (lo32 k.nonce)
  | 0x38 => some (hi32 k.nonce)
  | _ => none

/-- TRNG registers (R526). -/
def State.readTrng (s : State) (o : Nat) : Option (BitVec 32) :=
  let t := s.trng
  match o with
  | 0x00 => some 0#32
  | 0x04 => some (lo32 t.genLen)
  | 0x08 => some s.trngStatus
  | 0x0C => some (fields32 [(0, t.rct.toNat), (8, t.apt.toNat), (16, min (t.window.filter id).length 4),
      (24, t.fatalCount.toNat)])
  | 0x10 => some (lo32 t.kbps)
  | 0x14 => some (lo32 t.drops)
  | _ => none

/-! REGISTER and LOGBOOK. -/

/-- REGISTER registers (R398): zero on a tender (R353). -/
def State.readRegister (s : State) (o : Nat) : Option (BitVec 32) :=
  let r := s.reg
  let v : Option (BitVec 32) := match o with
    | 0x00 => some 0#32
    | 0x04 => some (lo32 r.loadLen)
    | 0x08 => some (lo32 r.block)
    | 0x0C => some 0#32
    | 0x10 => some s.regStatus
    | 0x14 => some r.commitTide
    | 0x18 => some r.cur.seq
    | 0x1C => some r.stagedSeq
    | 0x20 => some r.commitAt
    | 0x24 => some (fields32 [(0, r.cur.live.toNat), (24, r.noop.toNat)])
    | 0x28 => some (fields32 [(0, r.freePages), (16, (r.staged.map Staged.pages).getD 0)])
    | 0x2C => some (fields32 [(0, r.health.toNat), (16, r.verified.length)])
    | 0x30 => some r.badWord
    | 0x34 => some (r.clock s.now)
    | 0x38 => some (fields32 [(0, b2n r.estimated)])
    | 0x3C => some r.floorNow
    | 0x40 => some (BitVec.ofNat 32 ((r.wear.map (·.2.toNat)).foldl max 0))
    | 0x80 => some 0#32
    | 0x84 => some (lo32 r.mbCred)
    | 0x88 => some (hi32 r.mbCred)
    | 0x8C => some (fields32 [(0, b2n r.mbBusy), (4, r.mbResult.toNat), (7, b2n r.mbAllowed), (8, r.mbSlot.toNat)])
    | 0x90 => some r.mbMember
    | _ => none
  if s.isTender then v.map fun _ => 0#32 else v

/-- LOGBOOK registers (R718). -/
def State.readLog (s : State) (o : Nat) : Option (BitVec 32) :=
  match o with
  | 0x00 => some 0#32
  | 0x04 => some s.log.head
  | 0x08 => some s.log.tail
  | 0x0C => some s.log.mark
  | 0x10 => some s.logStatus
  | 0x14 => some s.log.cpSeq
  | 0x18 => some s.log.sel
  | _ => none

/-! The whole register space (R719). -/

/-- The register at byte address `a`, none where the address is unmapped, reserved or in a window. -/
def State.readReg (s : State) (a : Nat) : Option (BitVec 32) :=
  if a < 0x1000 then s.readHost a
  else if a < 0x2000 then s.readIntc (a - 0x1000)
  else if a < 0x4000 then s.readTide (a - 0x2000)
  else if a < 0x8000 then s.readManifest (a - 0x4000)
  else if a < 0x10000 then s.readLk (a - 0x8000)
  else if a < 0x20000 then s.readBerth (a - 0x10000)
  else if a < 0x30000 then s.readCan (a - 0x20000)
  else if a < 0x40000 then s.readPier (a - 0x30000)
  else if a < 0x48000 then s.readLf (a - 0x40000)
  else if a < 0x50000 then s.readUwb (a - 0x48000)
  else if a < 0x58000 then s.readNb (a - 0x50000)
  else if a < 0x60000 then s.readNfc (a - 0x58000)
  else if a < 0x68000 then s.readCry (a - 0x60000)
  else if a < 0x70000 then s.readKeys (a - 0x68000)
  else if a < 0x80000 then s.readTrng (a - 0x70000)
  else if a < 0xC0000 then s.readRegister (a - 0x80000)
  else if a < 0x100000 then s.readLog (a - 0xC0000)
  else none

/-- Byte address `a` lies in a range. -/
def within (a lo hi : Nat) : Bool := decide (lo ≤ a) && decide (a ≤ hi)

/-- The address lies in one of the DATA windows (R660): there each half is an access of its own. -/
def isWindow (a : Nat) : Bool :=
  within a 0x15000 0x15BFF ||
  (within a 0x20000 0x27FFF &&
    (within (a % 0x1000) 0x80 0xCF || within (a % 0x1000) 0x100 0x13F || within (a % 0x1000) 0x400 0x7FF)) ||
  within a 0x49000 0x4910F || within a 0x5C000 0x5DFFF ||
  within a 0x60100 0x6010F || within a 0x60200 0x60243 || within a 0x61000 0x61B43 ||
  within a 0x68200 0x6823F || within a 0x69000 0x69FFF ||
  within a 0x70100 0x701FF || within a 0x70200 0x7022F ||
  within a 0x81000 0x81FFF || within a 0xC0100 0xC013F || decide (0x100000 ≤ a)

/-- Half words of the windows of one controller, by offset: zero where the lock keeper has it (R558). -/
def CanCtl.windowHalf (c : CanCtl) (o : Nat) : BitVec 16 :=
  if c.locked then 0#16
  else if o < 0x100 then BitVec.ofNat 16 (leAt c.rxHead (o - 0x80) 2)
  else if o < 0x400 then Mem.half c.txbuf (o - 0x100)
  else Mem.half c.shadow (o - 0x400)

/-- The bulk window as it reads (R665): the staged byte pair, zero beyond the load length and while
no import holds the window. -/
def State.bulkHalf (s : State) (o : Nat) : BitVec 16 :=
  let len := match s.port.bulk with
    | .none => 0
    | .manifest => s.mf.len
    | .firmware => s.fw.len
  BitVec.ofNat 16 (ofLe ((List.range 2).map fun i => if o + i < len then Mem.read s.port.staging (o + i) else 0#8))

/-- A half word of a window at byte address `a` (R660). -/
def State.readWindow (s : State) (a : Nat) : BitVec 16 :=
  let out (b : Bytes) (o : Nat) : BitVec 16 := BitVec.ofNat 16 (leAt b o 2)
  if 0x100000 ≤ a then s.bulkHalf (a - 0x100000)
  else if 0xC0100 ≤ a then out s.log.record (a - 0xC0100)
  else if 0x81000 ≤ a then 0#16
  else if 0x70200 ≤ a then Mem.half s.trng.pers (a - 0x70200)
  else if 0x70100 ≤ a then out s.trng.out (a - 0x70100)
  else if 0x69000 ≤ a then Mem.half s.keys.buf (a - 0x69000)
  else if 0x68200 ≤ a then out s.keys.out (a - 0x68200)
  else if 0x61000 ≤ a then out s.cry.attestOut (a - 0x61000)
  else if 0x60200 ≤ a then out s.cry.pub (a - 0x60200)
  else if 0x60100 ≤ a then Mem.half s.cry.challenge (a - 0x60100)
  else if 0x5C000 ≤ a then BitVec.ofNat 16 (ofLe [s.nfc.hostByte (a - 0x5C000), s.nfc.hostByte (a - 0x5C000 + 1)])
  else if 0x49000 ≤ a then if s.isTender then 0#16 else out s.uwb.cirWin (a - 0x49000)
  else if 0x20000 ≤ a then (s.ctl ((a - 0x20000) / 0x1000)).windowHalf (a % 0x1000)
  else if s.isTender then 0#16 else Mem.half s.ver.ovrBuf (a - 0x15000)

/-! What a low-half read clears (R659). -/

/-- The state after a low-half read of the register at `a`: every RC field of it is cleared. -/
def State.clearRc (s : State) (a : Nat) : State :=
  if a = 0x18 then s.upPort fun p => { p with clampCount := 0#16 }
  else if a = 0x1C then s.upPort fun p => { p with errUnmapped := 0#8, errOrphan := 0#8, errProtocol := 0#8, errDropped := 0#8 }
  else if a = 0x1038 then s.upIntc fun i => { i with strayCount := 0#16 }
  else if a = 0x201C then s.upTide fun t => { t with wakeCause := 0#9, wakeFirst := 0#4 }
  else if a = 0x1400C then if s.isTender then s else s.upBt fun b => { b with full := 0#16 }
  else if a = 0x14024 then if s.isTender then s else s.upVer fun v => { v with seen := 0#8, flagged := 0#16 }
  else if 0x20000 ≤ a ∧ a < 0x28000 then
    let n := (a - 0x20000) / 0x1000
    if (s.ctl n).locked then s
    else if a % 0x1000 = 0x1C then s.modCtl n fun c => { c with clash := 0#16 }
    else if a % 0x1000 = 0x20 then s.modCtl n fun c => { c with overrun := 0#8, unmatched := 0#8, stale := 0#8 }
    else s
  else if 0x30000 ≤ a ∧ a < 0x32000 then
    let n := (a - 0x30000) / 256
    if !s.portShown n then s
    else if a % 256 = 0x20 then s.modPier n fun l => { l with resent := 0#16, nak := 0#16 }
    else if a % 256 = 0x24 then s.modPier n fun l => { l with crc := 0#16, code := 0#16 }
    else if a % 256 = 0x28 then s.modPier n fun l => { l with stale := 0#8, timeout := 0#8, markMissed := 0#8, lateSched := 0#8 }
    else s
  else if a = 0x40010 then s.upLf fun l => { l with collisions := 0#16, unresolved := 0#16 }
  else if a = 0x40014 then s.upLf fun l => { l with rejStale := 0#8, rejMac := 0#8, rejReport := 0#8, rejIdle := 0#8 }
  else if a = 0x48014 then s.upUwb fun u => { u with done := 0#16, lost := 0#16 }
  else if a = 0x48018 then s.upUwb fun u => { u with late := 0#8, foreign := 0#8, macFail := 0#8, cals := 0#8 }
  else if a = 0x48044 then if s.isTender then s else s.upUwb fun u => { u with cirDropped := 0#16 }
  else if a = 0x50024 then s.upNb fun b => { b with late := 0#8, skipped := 0#8, foreign := 0#8, linkFull := 0#8 }
  else if a = 0x5002C then s.upNb fun b => { b with uhfFrames := 0#16, uhfCrc := 0#16 }
  else if a = 0x5801C then s.upNfc fun c => { c with collisions := 0#8, foreign := 0#8, overflow := 0#8, reactivate := 0#8 }
  else if a = 0x58020 then s.upNfc fun c => { c with authFail := 0#8, rollbacks := 0#8, hostWaits := 0#16 }
  else if a = 0x60000 then s.upCry fun c => { c with suspends := 0#16 }
  else if a = 0x60090 then s.upCry fun c => { c with verPass := 0#16, verFail := 0#16 }
  else if a = 0x68020 then s.upKeys fun k => { k with violation := 0#16 }
  else if a = 0x7000C then s.upTrng fun t => { t with rct := 0#8, apt := 0#8 }
  else if a = 0x70014 then s.upTrng fun t => { t with drops := 0#16 }
  else if a = 0x80024 then if s.isTender then s else s.upReg fun r => { r with noop := 0#8 }
  else s

/-- A low-half read of the register at `a` (R61, R659, R674): its value, and the state after it. -/
def State.takeReg (s : State) (a : Nat) (v : BitVec 32) : BitVec 32 × State :=
  if a = 0x1030 then s.claimHost else (v, s.clearRc a)

end Sys2Proof.Machine
end

