-- ==== Sys2Proof/Machine/HostWrite.lean ====
section
/-! DEFINITION. Host accesses of every kind: the write latch, commits with their clamps, the DATA windows,
reads with the capture, unmapped addresses, and the core clock that a far access starts (R644 to R667). -/

namespace Sys2Proof.Machine

/-! Registers that hold a value without more ado. -/

/-- The bits that a write of `v` to a W1C field at bit `lo` leaves of `old` (R9). -/
def w1c {w : Nat} (old : BitVec w) (v : BitVec 32) (lo : Nat) : BitVec w :=
  old &&& ~~~(BitVec.ofNat w (v.toNat / 2 ^ lo))

/-- `n` moved into the range `lo` to `hi` (R11). -/
def clampTo (lo hi n : Nat) : Nat := max lo (min n hi)

/-- A write of HOST.FW_LEN (R702, R718). -/
def State.fwLenWrite (s : State) (v : BitVec 32) : State :=
  let n := fieldN v 21 0
  let w := clampTo 2756 2097152 n
  (s.upFw fun f => { f with fwLen := BitVec.ofNat 22 w }).noticeIf (w != n) 1 0x44

/-- A write of HOST.FW_BLOCK: at most the last block (R718). -/
def State.fwBlockWrite (s : State) (v : BitVec 32) : State :=
  let n := fieldN v 8 0
  let len := if s.fw.state = .idle then s.fw.fwLen.toNat else s.fw.len
  let w := min n (blockCount len - 1)
  (s.upFw fun f => { f with block := BitVec.ofNat 9 w }).noticeIf (w != n) 1 0x48

/-- A write of INTC.HIRQ_CFG (R679, R682): active high is push-pull. -/
def State.hirqWrite (s : State) (v : BitVec 32) : State :=
  let bad := v.getLsbD 0 && !v.getLsbD 1
  (s.upIntc fun i => { i with hirqHigh := v.getLsbD 0, hirqPushPull := v.getLsbD 1 || bad }).noticeIf bad 1 0x103C

/-- A write of TIDE.LENGTH_REQ (R121, R157): ignored on a tender. -/
def State.lengthReqWrite (s : State) (v : BitVec 32) : State :=
  if s.isTender then s
  else
    let n := fieldN v 10 0
    let w := min n 1024
    (s.upTide fun t => { t with lengthReq := t.lengthReq.write s.now (BitVec.ofNat 11 w) }).noticeIf (w != n) 1 0x200C

/-- A write of MANIFEST.LOAD_LEN (R95). -/
def State.mfLenWrite (s : State) (v : BitVec 32) : State :=
  let n := fieldN v 19 0
  let w := clampTo 2624 524288 n
  (s.upMf fun m => { m with loadLen := BitVec.ofNat 20 w }).noticeIf (w != n) 1 0x4004

/-- A write of MANIFEST.BLOCK (R95): at most the last block. -/
def State.mfBlockWrite (s : State) (v : BitVec 32) : State :=
  let n := fieldN v 6 0
  let len := if s.mf.state = .idle then s.mf.loadLen.toNat else s.mf.len
  let w := min n (blockCount len - 1)
  (s.upMf fun m => { m with block := BitVec.ofNat 7 w }).noticeIf (w != n) 1 0x4008

/-- A write of REGISTER.LOAD_LEN (R386). -/
def State.regLenWrite (s : State) (v : BitVec 32) : State :=
  let n := fieldN v 20 0
  let w := clampTo 2564 1048576 n
  (s.upReg fun r => { r with loadLen := BitVec.ofNat 21 w }).noticeIf (w != n) 1 0x80004

/-- A write of REGISTER.BLOCK (R386): at most the last block. -/
def State.regBlockWrite (s : State) (v : BitVec 32) : State :=
  let n := fieldN v 7 0
  let len := if s.reg.state = .idle then s.reg.loadLen.toNat else s.reg.len
  let w := min n (blocks4k len - 1)
  (s.upReg fun r => { r with block := BitVec.ofNat 8 w }).noticeIf (w != n) 1 0x80008

/-- A write of LOGBOOK.MARK (R716, R718). -/
def State.markWrite (s : State) (v : BitVec 32) : State :=
  let w := if v.toNat < s.log.tail.toNat then s.log.tail else if s.log.head.toNat < v.toNat then s.log.head else v
  (s.upLog fun l => { l with mark := w }).noticeIf (w != v) 1 0xC000C

/-- A write of LF.DRV[n].TUNE (R169, R210): OVR_EN is not written in FLEET and RETURN. -/
def State.tuneWrite (s : State) (n : Nat) (v : BitVec 32) : State :=
  let barred := s.tide.life == .fleet || s.tide.life == .returned
  let old := (s.driver n).ovr.stored.getLsbD 6
  let en := if barred then old else v.getLsbD 15
  let w : BitVec 7 := BitVec.ofNat 7 (fieldN v 13 8 + 64 * b2n en)
  (s.upLf fun l => { l with drivers := l.drivers.modify n fun d => { d with ovr := d.ovr.write s.now w } }).noticeIf
    (en != v.getLsbD 15) 3 (0x40100 + 16 * n)

/-- A write of UWB.TX_ATTEN (R218). -/
def State.attenWrite (s : State) (v : BitVec 32) : State :=
  s.upUwb fun u => { u with atten0 := u.atten0.write s.now (BitVec.ofNat 6 (fieldN v 5 0))
                            atten1 := u.atten1.write s.now (BitVec.ofNat 6 (fieldN v 13 8)) }

/-- A write of UWB.CIR_CTRL (R262). -/
def State.cirCtrlWrite (s : State) (v : BitVec 32) : State :=
  s.upUwb fun u => { u with cirEnable := v.getLsbD 0, cirAll := v.getLsbD 1, cirBerth := BitVec.ofNat 8 (fieldN v 15 8) }

/-- A write of NBRADIO.TX_POWER (R305): codes above BLE_TX_MAX store BLE_TX_MAX. -/
def State.txPowerWrite (s : State) (v : BitVec 32) : State :=
  let lim := s.cfg.radio.bleTxMax
  let a := fieldN v 5 0
  let c := fieldN v 13 8
  (s.upNb fun b => { b with advPower := b.advPower.write s.now (BitVec.ofNat 6 (min a lim))
                            connPower := b.connPower.write s.now (BitVec.ofNat 6 (min c lim)) }).noticeIf
    (lim < a || lim < c) 1 0x50014

/-- A write of NBRADIO.CONN_INTERVAL (R286, R310): 6 to 24. -/
def State.intervalWrite (s : State) (v : BitVec 32) : State :=
  let n := fieldN v 7 0
  let w := clampTo 6 24 n
  (s.upNb fun b => { b with interval := b.interval.write s.now (BitVec.ofNat 8 w) }).noticeIf (w != n) 1 0x50020

/-- A write of TRNG.GEN_LEN (R526): 1 to 64. -/
def State.genLenWrite (s : State) (v : BitVec 32) : State :=
  let n := fieldN v 6 0
  let w := clampTo 1 64 n
  (s.upTrng fun t => { t with genLen := BitVec.ofNat 7 w }).noticeIf (w != n) 1 0x70004

/-- A register pair of 64 bits with one half replaced. -/
def halfOf64 (old : BitVec 64) (hi : Bool) (v : BitVec 32) : BitVec 64 :=
  BitVec.ofNat 64 (if hi then (lo32 old).toNat + 2 ^ 32 * v.toNat else v.toNat + 2 ^ 32 * (hi32 old).toNat)

/-! Command registers (R666): a code that none of them defines is KIND 2. -/

/-- A write of KEYS.CMD. -/
def State.keysCmdWrite (s : State) (v : BitVec 32) : State :=
  let c := fieldN v 3 0
  if 1 ≤ c ∧ c ≤ 12 then s.keysCmd v else s.notice 2 keysCmdAddr

/-- A write of TRNG.CMD. -/
def State.trngCmdWrite (s : State) (v : BitVec 32) : State :=
  match fieldN v 1 0 with
  | 1 => s.hostGenerate
  | 2 => s.hostReseedCmd
  | 3 => s.setPersCmd
  | _ => s.notice 2 trngCmdAddr

/-- A write of CRYPTO.SIGN_CMD. -/
def State.signCmdWrite (s : State) (v : BitVec 32) : State :=
  if fieldN v 1 0 = 1 then s.attestCmd else s.notice 2 signCmdAddr

/-- A write of REGISTER.CMD. -/
def State.regCommand (s : State) (v : BitVec 32) : State :=
  match fieldN v 3 0 with
  | 1 => s.regOpen
  | 2 => s.regVerify
  | 3 => s.regCommit
  | 4 => s.regAbort
  | _ => s.notice 2 regCmdAddr

/-- A write of REGISTER.MB_CMD. -/
def State.mbCommand (s : State) (v : BitVec 32) : State :=
  match fieldN v 1 0 with
  | 1 => s.mbStart false
  | 2 => s.mbStart true
  | _ => s.notice 2 0x80080

/-- The commit of `v` to the register at `a` carries a command code that no command defines (R666, R694). -/
def undefinedCode (a : Nat) (v : BitVec 32) : Bool :=
  if a = 0x2C then !(fieldN v 15 0 == 0x7256 && v.getLsbD 16)
  else if a = 0x40 then fieldN v 2 0 == 0 || decide (4 < fieldN v 2 0)
  else if a = 0x4000 ∨ a = 0x80000 then fieldN v 3 0 == 0 || decide (4 < fieldN v 3 0)
  else if a = 0x14100 then fieldN v 3 0 == 0 || decide (5 < fieldN v 3 0)
  else if a = 0x68000 then fieldN v 3 0 == 0 || decide (12 < fieldN v 3 0)
  else if a = 0x60080 then fieldN v 1 0 != 1
  else if a = 0x70000 then fieldN v 1 0 == 0
  else if a = 0x80080 then fieldN v 1 0 == 0 || fieldN v 1 0 == 3
  else if 0x30000 ≤ a ∧ a < 0x32000 ∧ a % 256 = 0x48 then fieldN v 1 0 == 0 || fieldN v 1 0 == 3
  else false

/-! Commits, block by block (R655). A register that has no arm here is read-only. -/

/-- HOST registers. -/
def State.writeHost (s : State) (o : Nat) (v : BitVec 32) : State :=
  match o with
  | 0x20 => s.upPort fun p => { p with scratch := v }
  | 0x28 => s.upSys fun y => { y with lowLatch := w1c y.lowLatch v 8 }
  | 0x2C => s.hostReset v
  | 0x40 => s.fwCommand v
  | 0x44 => s.fwLenWrite v
  | 0x48 => s.fwBlockWrite v
  | 0x4C => s.fwBlockCrc v
  | 0x54 => s.upFw fun f => { f with switchTide := v }
  | _ => s

/-- INTC registers. -/
def State.writeIntc (s : State) (o : Nat) (v : BitVec 32) : State :=
  match o with
  | 0x00 => s.pendingWrite false v
  | 0x04 => s.pendingWrite true v
  | 0x08 => s.enableHost false v
  | 0x0C => s.enableHost true v
  | 0x34 => s.upIntc fun i => i.complete 0 (fieldN v 5 0)
  | 0x3C => s.hirqWrite v
  | 0x40 => s.triggerWrite v
  | _ => s

/-- TIDE registers. -/
def State.writeTide (s : State) (o : Nat) (v : BitVec 32) : State :=
  match o with
  | 0x08 => s.powerReqWrite v
  | 0x0C => s.lengthReqWrite v
  | _ => s

/-- MANIFEST registers. -/
def State.writeManifest (s : State) (o : Nat) (v : BitVec 32) : State :=
  match o with
  | 0x00 => s.mfCommand v
  | 0x04 => s.mfLenWrite v
  | 0x08 => s.mfBlockWrite v
  | 0x0C => s.mfBlockCrc v
  | 0x14 => s.upMf fun m => { m with commitTide := v }
  | 0x30 => s.upMf fun m => { m with unmooredLatch := w1c m.unmooredLatch v 0 }
  | _ => s

/-- BERTH registers: a tender ignores them (R62). -/
def State.writeBerth (s : State) (o : Nat) (v : BitVec 32) : State :=
  if s.isTender then s
  else if o < 0x4000 then if o % 64 = 0x28 then s.castWrite (o / 64) v else s
  else match o with
  | 0x4000 => s.bookLo v
  | 0x4004 => s.bookHi v
  | 0x4028 => s.vselWrite v
  | 0x4100 => s.ovrCommand v
  | _ => s

/-- CAN registers (R600). -/
def State.writeCan (s : State) (o : Nat) (v : BitVec 32) : State :=
  let n := o / 0x1000
  let r := o % 0x1000
  let k := (r - 0x800) / 16
  if 0x8000 ≤ o then s
  else if 0x800 ≤ r then
    match r % 16 with
    | 0x0 => s.canCfgWrite n k v
    | 0x4 => s.canIdWrite n k v
    | 0x8 => s.canCtrlWrite n k v
    | _ => s
  else match r with
  | 0x000 => s.canModeWrite n v
  | 0x014 => s.canWrite n (canAddr n r) fun s => s.modCtl n fun c => { c with events := w1c c.events v 0 }
  | 0x018 => s.canWrite n (canAddr n r) fun s => s.modCtl n fun c => { c with irqEn := BitVec.ofNat 8 (fieldN v 7 0) }
  | 0x024 => s.canFiltCtrl n v
  | 0x040 => s.canWrite n (canAddr n r) fun s => s.modCtl n fun c => { c with rxsel := BitVec.ofNat 7 (fieldN v 6 0) }
  | 0x048 => s.canAck n (fieldN v 5 0)
  | _ => s

/-- PIER registers: on a tender the upstream port's alone, without remote access (R643). -/
def State.writePier (s : State) (o : Nat) (v : BitVec 32) : State :=
  let n := o / 256
  if 0x2000 ≤ o || !s.portShown n || (s.isTender && decide (0x40 ≤ o % 256)) then s
  else match o % 256 with
  | 0x04 => s.pierCtrl n v
  | 0x30 => s.modPier n fun l => { l with events := w1c l.events v 0 }
  | 0x34 => s.modPier n fun l => { l with irqEn := BitVec.ofNat 8 (fieldN v 7 0) }
  | 0x40 => s.modPier n fun l => { l with raddr := BitVec.ofNat 20 (4 * fieldN v 19 2) }
  | 0x44 => s.modPier n fun l => { l with rdata := v }
  | 0x48 => s.remote n (fieldN v 1 0)
  | _ => s

/-- LF registers. -/
def State.writeLf (s : State) (o : Nat) (v : BitVec 32) : State :=
  if o = 0 then s.lfCtrl v
  else if 0x100 ≤ o ∧ o < 0x200 then
    let n := (o - 0x100) / 16
    if o % 16 = 0 then s.tuneWrite n v
    else if o % 16 = 8 then s.upLf fun l =>
      { l with drivers := l.drivers.modify n fun d => { d with latch := w1c d.latch v 8 } }
    else s
  else s

/-- UWB registers. -/
def State.writeUwb (s : State) (o : Nat) (v : BitVec 32) : State :=
  match o with
  | 0x00 => s.uwbCtrl v
  | 0x10 => s.attenWrite v
  | 0x20 => s.resSelect v
  | 0x40 => s.cirCtrlWrite v
  | 0x48 => s.cirSelect v
  | 0x50 => s.uwbTest v
  | _ => s

/-- NBRADIO registers. -/
def State.writeNb (s : State) (o : Nat) (v : BitVec 32) : State :=
  match o with
  | 0x00 => s.nbCtrl v
  | 0x14 => s.txPowerWrite v
  | 0x18 => s.upNb fun b => { b with tunerLatch := w1c b.tunerLatch v 24 }
  | 0x1C => s.upNb fun b => { b with company := b.company.write s.now (BitVec.ofNat 16 (fieldN v 15 0)) }
  | 0x20 => s.intervalWrite v
  | 0x30 => s.csSelect v
  | 0x40 => s.nbTest v
  | _ => s

/-- NFC registers. -/
def State.writeNfc (s : State) (o : Nat) (v : BitVec 32) : State :=
  match o with
  | 0x00 => s.nfcCtrl v
  | 0x08 => s.cardSelect v
  | _ => s

/-- CRYPTO registers. -/
def State.writeCry (s : State) (o : Nat) (v : BitVec 32) : State :=
  if 0x20 ≤ o ∧ o < 0x40 then s.upCry fun c => { c with aesKey := Mem.store c.aesKey (o - 0x20) (le 4 v.toNat) }
  else if 0x40 ≤ o ∧ o < 0x50 then s.upCry fun c => { c with aesIn := Mem.store c.aesIn (o - 0x40) (le 4 v.toNat) }
  else match o with
  | 0x04 => s.aesCtrl v
  | 0x80 => s.signCmdWrite v
  | _ => s

/-- KEYS registers. -/
def State.writeKeys (s : State) (o : Nat) (v : BitVec 32) : State :=
  match o with
  | 0x00 => s.keysCmdWrite v
  | 0x24 => s.upKeys fun k => { k with tamperLatch := w1c k.tamperLatch v 8 }
  | 0x2C => s.upKeys fun k => { k with cred := halfOf64 k.cred false v }
  | 0x30 => s.upKeys fun k => { k with cred := halfOf64 k.cred true v }
  | _ => s

/-- TRNG registers. -/
def State.writeTrng (s : State) (o : Nat) (v : BitVec 32) : State :=
  match o with
  | 0x00 => s.trngCmdWrite v
  | 0x04 => s.genLenWrite v
  | _ => s

/-- REGISTER registers: a tender ignores them (R353). -/
def State.writeRegister (s : State) (o : Nat) (v : BitVec 32) : State :=
  if s.isTender then s
  else match o with
  | 0x00 => s.regCommand v
  | 0x04 => s.regLenWrite v
  | 0x08 => s.regBlockWrite v
  | 0x0C => s.regBlockCrc v
  | 0x14 => s.upReg fun r => { r with commitTide := v }
  | 0x34 => s.clockSet v
  | 0x80 => s.mbCommand v
  | 0x84 => s.upReg fun r => { r with mbCred := halfOf64 r.mbCred false v }
  | 0x88 => s.upReg fun r => { r with mbCred := halfOf64 r.mbCred true v }
  | _ => s

/-- LOGBOOK registers. -/
def State.writeLog (s : State) (o : Nat) (v : BitVec 32) : State :=
  match o with
  | 0x00 => if v.getLsbD 0 then s.checkpointDemand else s
  | 0x0C => s.markWrite v
  | 0x18 => s.logSel v
  | _ => s

/-- What a commit of `v` does to the register at byte address `a` (R655, R719). -/
def State.writeReg (s : State) (a : Nat) (v : BitVec 32) : State :=
  if a < 0x1000 then s.writeHost a v
  else if a < 0x2000 then s.writeIntc (a - 0x1000) v
  else if a < 0x4000 then s.writeTide (a - 0x2000) v
  else if a < 0x8000 then s.writeManifest (a - 0x4000) v
  else if a < 0x10000 then s
  else if a < 0x20000 then s.writeBerth (a - 0x10000) v
  else if a < 0x30000 then s.writeCan (a - 0x20000) v
  else if a < 0x40000 then s.writePier (a - 0x30000) v
  else if a < 0x48000 then s.writeLf (a - 0x40000) v
  else if a < 0x50000 then s.writeUwb (a - 0x48000) v
  else if a < 0x58000 then s.writeNb (a - 0x50000) v
  else if a < 0x60000 then s.writeNfc (a - 0x58000) v
  else if a < 0x68000 then s.writeCry (a - 0x60000) v
  else if a < 0x70000 then s.writeKeys (a - 0x68000) v
  else if a < 0x80000 then s.writeTrng (a - 0x70000) v
  else if a < 0xC0000 then s.writeRegister (a - 0x80000) v
  else s.writeLog (a - 0xC0000) v

/-! Windows (R660). -/

/-- FORMAT 3 is written into a filter entry (R578). -/
def filterClamp (o : Nat) (d : BitVec 16) : Bool := o % 16 == 8 && d &&& 0x600#16 == 0x600#16

/-- A half word of a filter entry as it is stored (R12, R578): FORMAT 3 stores 0, reserved bits read 0. -/
def filterHalf (o : Nat) (d : BitVec 16) : BitVec 16 :=
  match o % 16 with
  | 6 => d &&& 0x1FFF#16
  | 8 => if filterClamp o d then d &&& 0x097F#16 else d &&& 0x0F7F#16
  | 10 => 0#16
  | 12 => 0#16
  | 14 => 0#16
  | _ => d

/-- A half word written into a window of the blocks at byte address `a`; a busy block ignores it with a
notice of KIND 3 (R485, R351), a read-only window ignores it. -/
def State.writeWindow (s : State) (a : Nat) (d : BitVec 16) : State :=
  if within a 0x15000 0x15BFF then
    if s.isTender then s
    else if s.ver.ovrState = .verifying then s.notice 3 a
    else s.upVer fun v => { v with ovrBuf := Mem.setHalf v.ovrBuf (a - 0x15000) d }
  else if within a 0x20000 0x27FFF then
    let n := (a - 0x20000) / 0x1000
    let o := a % 0x1000
    if o < 0x100 then s
    else s.canWrite n a fun s => (State.noticeIf · (decide (0x400 ≤ o) && filterClamp o d) 1 a) <| s.modCtl n fun c =>
      if o < 0x400 then { c with txbuf := Mem.setHalf c.txbuf (o - 0x100) d }
      else { c with shadow := Mem.setHalf c.shadow (o - 0x400) (filterHalf o d) }
  else if within a 0x5C000 0x5DFFF then s.tagHostWrite (a - 0x5C000) d
  else if within a 0x60100 0x6010F then s.upCry fun c => { c with challenge := Mem.setHalf c.challenge (a - 0x60100) d }
  else if within a 0x69000 0x69FFF then
    if s.keys.busy then s.notice 3 a else s.upKeys fun k => { k with buf := Mem.setHalf k.buf (a - 0x69000) d }
  else if within a 0x70200 0x7022F then s.upTrng fun t => { t with pers := Mem.setHalf t.pers (a - 0x70200) d }
  else if within a 0x81000 0x81FFF then if s.isTender then s else s.importWrite a d
  else s

/-! The latch (R655 to R657). -/

/-- The address of a half word's register. -/
def regOf (a : Nat) : Nat := a - a % 4

/-- Byte address of a host word address (R646). -/
def byteOf (ha : BitVec 20) : Nat := 2 * ha.toNat

/-- The half word belongs to a register that the tables name, outside the windows. -/
def State.isReg (s : State) (ha : BitVec 20) : Bool := !isWindow (byteOf ha) && (s.readReg (regOf (byteOf ha))).isSome

/-- Low half of a register. -/
def lowHalf (ha : BitVec 20) : Bool := byteOf ha % 4 == 0

/-- A low half is held; one held for another register is discarded (R657). -/
def State.latchLow (s : State) (a : Nat) (lo : BitVec 16) : State :=
  let t := match s.port.latch with
    | some (b, _) =>
      if b.toNat = a then s
      else (s.upPort fun p => { p with errOrphan := satInc p.errOrphan }).notice 6 b.toNat
    | none => s
  t.upPort fun p => { p with latch := some (BitVec.ofNat 21 a, lo) }

/-- The value that a high half commits to the register at `a` (R655, R656). -/
def State.commitValue (s : State) (a : Nat) (hi : BitVec 16) : BitVec 32 :=
  let live := loHalf ((s.readReg a).getD 0#32)
  joinHalves hi (match s.port.latch with
    | some (b, lo) => if b.toNat = a then lo else live
    | none => live)

/-- A high half commits (R655). -/
def State.commitHigh (s : State) (a : Nat) (hi : BitVec 16) : State :=
  let v := s.commitValue a hi
  if a < 0x1000 then s.nearWrite a fun s => s.writeReg a v else s.farWrite a fun s => s.writeReg a v

/-- A low-half write (R655, R657): a far one in a main-domain reset is ignored (R667). -/
def State.lowWrite (s : State) (a : Nat) (lo : BitVec 16) : State :=
  if a < 0x1000 then if s.portUp then s.latchLow a lo else s
  else s.windowAccess a fun s => s.latchLow a lo

/-- REGISTER_WRITE (R655). -/
def execRegisterWrite (ha : BitVec 20) (hi : BitVec 16) (s : State) : Host.Outcome State Fault Refusal :=
  s.whenDo (s.isReg ha && !lowHalf ha) (s.commitHigh (regOf (byteOf ha)) hi)

/-- LOW_HALF_WRITE (R655, R657). -/
def execLowHalfWrite (ha : BitVec 20) (lo : BitVec 16) (s : State) : Host.Outcome State Fault Refusal :=
  s.whenDo (s.isReg ha && lowHalf ha) (s.lowWrite (byteOf ha) lo)

/-- UNDEFINED_COMMAND_CODE (R666): the commit of a code that no command defines. -/
def execUndefinedCommandCode (ha : BitVec 20) (hi : BitVec 16) (s : State) : Host.Outcome State Fault Refusal :=
  let a := regOf (byteOf ha)
  s.whenDo (s.isReg ha && !lowHalf ha && undefinedCode a (s.commitValue a hi)) (s.commitHigh a hi)

/-- WINDOW_WRITE (R660): bulk window writes pass through their queue (R662). -/
def execWindowWrite (ha : BitVec 20) (d : BitVec 16) (s : State) : Host.Outcome State Fault Refusal :=
  let a := byteOf ha
  s.whenDo (isWindow a)
    (if 0x100000 ≤ a then (if s.portUp then s.bulkWrite (a - 0x100000) d else s)
     else s.windowAccess a fun s => s.writeWindow a d)

/-! Reads (R658 to R661, R665). -/

/-- A far read of the half word `d`, which returns 0 in a main-domain reset (R667). -/
def State.farHalf (s : State) (a : Nat) (d : BitVec 16) : State :=
  if s.portUp then s.beginFar (some (if s.mainUp || alwaysServed a then d else 0#16)) else s

/-- A half word appears on HD at once (R650). -/
def State.nearHalf (s : State) (d : BitVec 16) : State := if s.portUp then s.upPort fun p => { p with hd := d } else s

/-- A low-half read of a register (R61, R658, R659). -/
def State.lowRead (s : State) (a : Nat) : State :=
  let v := (s.readReg a).getD 0#32
  if a < 0x1000 then
    if s.portUp then
      ((s.clearRc a).upPort fun p => { p with capture := some (BitVec.ofNat 21 a, hiHalf v) }).nearHalf (loHalf v)
    else s
  else s.farRead a fun s => s.takeReg a v

/-- A high-half read of a register (R658): the captured half, or the live one. -/
def State.highRead (s : State) (a : Nat) : State :=
  let live := hiHalf ((s.readReg a).getD 0#32)
  let d := match s.port.capture with
    | some (b, h) => if b.toNat = a then h else live
    | none => live
  if a < 0x1000 then s.nearHalf d else s.farHalf a d

/-- A read of a half word of a window (R660, R665); the tag memory counts a running frame (R546). -/
def State.windowRead (s : State) (a : Nat) : State :=
  let t := s.drainBulk.farHalf a (s.drainBulk.readWindow a)
  if within a 0x5C000 0x5DFFF && s.portUp && s.mainUp then t.tagWait else t

/-- PORT_LOW_HALF_READ (R658): an address that is no low half of a register reads as R658 and R660 say. -/
def execPortLowHalfRead (ha : BitVec 20) (s : State) : Host.Outcome State Fault Refusal :=
  let a := byteOf ha
  if isWindow a then .next (s.windowRead a)
  else s.whenDo (s.isReg ha) (if lowHalf ha then s.lowRead a else s.highRead (regOf a))

/-- UNMAPPED_ACCESS (R661, R666): a read, or a write of `d`. -/
def State.unmapped (s : State) (a : Nat) (d : Option (BitVec 16)) : State :=
  if s.portUp then
    let s := if a < 0x1000 then (match d with
        | none => s.nearHalf 0#16
        | some _ => s)
      else s.beginFar (match d with
        | none => some 0#16
        | some _ => none)
    (s.upPort fun p => { p with errUnmapped := satInc p.errUnmapped }).noticeIf d.isSome 5 a
  else s

/-- UNMAPPED_ACCESS (R661). -/
def execUnmappedAccess (ha : BitVec 20) (d : Option (BitVec 16)) (s : State) : Host.Outcome State Fault Refusal :=
  s.whenDo (!isWindow (byteOf ha) && !s.isReg ha) (s.unmapped (byteOf ha) d)

/-! The core clock of a far access (R652). -/

/-- CORE_CLOCK_STOP (R652): 1 ms after the last far access in STANDBY or DEEP. -/
def execCoreClockStop (s : State) : Host.Outcome State Fault Refusal :=
  s.whenDo (s.tide.power.asleep && s.port.coreClk && s.elapsed s.port.lastFar (ms 1))
    (s.upPort fun p => { p with coreClk := false })

end Sys2Proof.Machine
end

