-- ==== Sys2Proof/Machine/Dispatch.lean ====
section
/-! DEFINITION. The effect of each command on everything but the queue: one arm a command. -/

namespace Sys2Proof.Machine

/-- What a command does to the state. -/
def exec (i : Instr) (s : State) : Host.Outcome State Fault Refusal :=
  match i with
  | .tideBoundary env => Sys2Proof.Machine.execTideBoundary env s
  | .wakeBoundary env => Sys2Proof.Machine.execWakeBoundary env s
  | .watchDwellExpiry => Sys2Proof.Machine.execWatchDwellExpiry s
  | .serviceDwellExpiry => Sys2Proof.Machine.execServiceDwellExpiry s
  | .powerReqWrite v => Sys2Proof.Machine.execPowerReqWrite v s
  | .registerWrite ha hi => Sys2Proof.Machine.execRegisterWrite ha hi s
  | .lowHalfWrite ha lo => Sys2Proof.Machine.execLowHalfWrite ha lo s
  | .undefinedCommandCode ha hi => Sys2Proof.Machine.execUndefinedCommandCode ha hi s
  | .portLowHalfRead ha => Sys2Proof.Machine.execPortLowHalfRead ha s
  | .farAccessComplete => Sys2Proof.Machine.execFarAccessComplete s
  | .busProtocolError => Sys2Proof.Machine.execBusProtocolError s
  | .unmappedAccess ha d => Sys2Proof.Machine.execUnmappedAccess ha d s
  | .bulkWindowWrite ha d => Sys2Proof.Machine.execBulkWindowWrite ha d s
  | .portStartAfterPor => Sys2Proof.Machine.execPortStartAfterPor s
  | .hostReset v => Sys2Proof.Machine.execHostReset v s
  | .bleAdvertisement company typ fleet token heard => Sys2Proof.Machine.execBleAdvertisement company typ fleet token heard s
  | .advertisingBurst x => Sys2Proof.Machine.execAdvertisingBurst x s
  | .advertisingEvent x => Sys2Proof.Machine.execAdvertisingEvent x s
  | .scanWindow => Sys2Proof.Machine.execScanWindow s
  | .connectionEvent link returnLoss peer => Sys2Proof.Machine.execConnectionEvent link returnLoss peer s
  | .hello link token cred gen caps tk => Sys2Proof.Machine.execHello link token cred gen caps tk s
  | .helloTimeout link => Sys2Proof.Machine.execHelloTimeout link s
  | .bleResponse n mac => Sys2Proof.Machine.execBleResponse n mac s
  | .encryptionRefused n => Sys2Proof.Machine.execEncryptionRefused n s
  | .ready n sid mac => Sys2Proof.Machine.execReady n sid mac s
  | .fieldFrame n hailTag seq a field mac => Sys2Proof.Machine.execFieldFrame n hailTag seq a field mac s
  | .close n reason => Sys2Proof.Machine.execClose n reason s
  | .accessFrameForeign link typ len => Sys2Proof.Machine.execAccessFrameForeign link typ len s
  | .bleDisconnection n => Sys2Proof.Machine.execBleDisconnection n s
  | .hailTimeout n => Sys2Proof.Machine.execHailTimeout n s
  | .quietTimeout n => Sys2Proof.Machine.execQuietTimeout n s
  | .farTimeout n => Sys2Proof.Machine.execFarTimeout n s
  | .berthCast n v => Sys2Proof.Machine.execBerthCast n v s
  | .bookingLoWrite v => Sys2Proof.Machine.execBookingLoWrite v s
  | .bookingHiWrite v => Sys2Proof.Machine.execBookingHiWrite v s
  | .startButtonPress mfp => Sys2Proof.Machine.execStartButtonPress mfp s
  | .startDebounceEnd mfp => Sys2Proof.Machine.execStartDebounceEnd mfp s
  | .verdictPublication => Sys2Proof.Machine.execVerdictPublication s
  | .latchPulseEnd mfp => Sys2Proof.Machine.execLatchPulseEnd mfp s
  | .ovrVerify => Sys2Proof.Machine.execOvrVerify s
  | .ovrVerifyDone => Sys2Proof.Machine.execOvrVerifyDone s
  | .fireRule rule => Sys2Proof.Machine.execFireRule rule s
  | .fireStart => Sys2Proof.Machine.execFireStart s
  | .ovrCancel => Sys2Proof.Machine.execOvrCancel s
  | .ovrNewNonce => Sys2Proof.Machine.execOvrNewNonce s
  | .ovrWindowEnd => Sys2Proof.Machine.execOvrWindowEnd s
  | .vselWrite v => Sys2Proof.Machine.execVselWrite v s
  | .handleTouch mfp => Sys2Proof.Machine.execHandleTouch mfp s
  | .lfFrameStart => Sys2Proof.Machine.execLfFrameStart s
  | .lfPatternEnd senses => Sys2Proof.Machine.execLfPatternEnd senses s
  | .answerWindowClose air => Sys2Proof.Machine.execAnswerWindowClose air s
  | .slottedRoundClose air => Sys2Proof.Machine.execSlottedRoundClose air s
  | .lfPollingPattern => Sys2Proof.Machine.execLfPollingPattern s
  | .uhfSniff => Sys2Proof.Machine.execUhfSniff s
  | .wakeAnswer rx flags fob idle => Sys2Proof.Machine.execWakeAnswer rx flags fob idle s
  | .challengeResponse rx flags fob counter mac => Sys2Proof.Machine.execChallengeResponse rx flags fob counter mac s
  | .buttonTelegram rx command fob counter idle mac => Sys2Proof.Machine.execButtonTelegram rx command fob counter idle mac s
  | .pollReport rx flags hailTag seq resv field mac => Sys2Proof.Machine.execPollReport rx flags hailTag seq resv field mac s
  | .fieldFit n => Sys2Proof.Machine.execFieldFit n s
  | .lfCal => Sys2Proof.Machine.execLfCal s
  | .lfCalibrationDone results => Sys2Proof.Machine.execLfCalibrationDone results s
  | .clrIdle => Sys2Proof.Machine.execClrIdle s
  | .driverTrip d => Sys2Proof.Machine.execDriverTrip d s
  | .vlfLow mv => Sys2Proof.Machine.execVlfLow mv s
  | .uwbCal => Sys2Proof.Machine.execUwbCal s
  | .pllUCalDone ok temp => Sys2Proof.Machine.execPllUCalDone ok temp s
  | .pllULock => Sys2Proof.Machine.execPllULock s
  | .pllULossOfLock => Sys2Proof.Machine.execPllULossOfLock s
  | .roundPreparation temp => Sys2Proof.Machine.execRoundPreparation temp s
  | .uwbCtrlTransmit => Sys2Proof.Machine.execUwbCtrlTransmit s
  | .uwbPoll rx => Sys2Proof.Machine.execUwbPoll rx s
  | .uwbResponseTransmit slot => Sys2Proof.Machine.execUwbResponseTransmit slot s
  | .uwbFinal rx => Sys2Proof.Machine.execUwbFinal rx s
  | .uwbFinalData begin_ payload => Sys2Proof.Machine.execUwbFinalData begin_ payload s
  | .uwbRoundEnd => Sys2Proof.Machine.execUwbRoundEnd s
  | .roundResults => Sys2Proof.Machine.execRoundResults s
  | .foreignUwbFrame f => Sys2Proof.Machine.execForeignUwbFrame f s
  | .uwbTestGo v => Sys2Proof.Machine.execUwbTestGo v s
  | .resSelWrite v => Sys2Proof.Machine.execResSelWrite v s
  | .cirSelWrite v => Sys2Proof.Machine.execCirSelWrite v s
  | .nbradioCal => Sys2Proof.Machine.execNbradioCal s
  | .synthCalibration which => Sys2Proof.Machine.execSynthCalibration which s
  | .synthCalDone which ok temp irr => Sys2Proof.Machine.execSynthCalDone which ok temp irr s
  | .synthLock => Sys2Proof.Machine.execSynthLock s
  | .synthLossOfLock which => Sys2Proof.Machine.execSynthLossOfLock which s
  | .csProcedure n => Sys2Proof.Machine.execCsProcedure n s
  | .csResults n chains => Sys2Proof.Machine.execCsResults n chains s
  | .csSelWrite v => Sys2Proof.Machine.execCsSelWrite v s
  | .nbradioTestGo v => Sys2Proof.Machine.execNbradioTestGo v s
  | .reqaPoll => Sys2Proof.Machine.execReqaPoll s
  | .cardActivation uids => Sys2Proof.Machine.execCardActivation uids s
  | .cardSelect cid sw role cred => Sys2Proof.Machine.execCardSelect cid sw role cred s
  | .cardAuthBeginResponse cid rb macC sw => Sys2Proof.Machine.execCardAuthBeginResponse cid rb macC sw s
  | .cardAuthEndResponse cid sw => Sys2Proof.Machine.execCardAuthEndResponse cid sw s
  | .cardLeftField cid => Sys2Proof.Machine.execCardLeftField cid s
  | .readerFieldReturn present => Sys2Proof.Machine.execReaderFieldReturn present s
  | .nfcRescan => Sys2Proof.Machine.execNfcRescan s
  | .cardSelWrite v => Sys2Proof.Machine.execCardSelWrite v s
  | .tagFieldOn => Sys2Proof.Machine.execTagFieldOn s
  | .tagSelect => Sys2Proof.Machine.execTagSelect s
  | .tagAuthBegin kind cred device ra noise => Sys2Proof.Machine.execTagAuthBegin kind cred device ra noise s
  | .tagWtx => Sys2Proof.Machine.execTagWtx s
  | .harvestDelayEnd noise => Sys2Proof.Machine.execHarvestDelayEnd noise s
  | .tagAuthEnd macR => Sys2Proof.Machine.execTagAuthEnd macR s
  | .tagRead off len => Sys2Proof.Machine.execTagRead off len s
  | .tagWrite off data => Sys2Proof.Machine.execTagWrite off data s
  | .tagReadOrig off len => Sys2Proof.Machine.execTagReadOrig off len s
  | .tagDeactivation cut => Sys2Proof.Machine.execTagDeactivation cut s
  | .harvTimeout => Sys2Proof.Machine.execHarvTimeout s
  | .tagMemHostAccess ha d => Sys2Proof.Machine.execTagMemHostAccess ha d s
  | .registerOpen => Sys2Proof.Machine.execRegisterOpen s
  | .registerBlockCrc crc => Sys2Proof.Machine.execRegisterBlockCrc crc s
  | .importWindowWrite ha d => Sys2Proof.Machine.execImportWindowWrite ha d s
  | .registerVerify => Sys2Proof.Machine.execRegisterVerify s
  | .registerVerifyDone => Sys2Proof.Machine.execRegisterVerifyDone s
  | .registerCommit => Sys2Proof.Machine.execRegisterCommit s
  | .stagingDone ok => Sys2Proof.Machine.execStagingDone ok s
  | .registerAbort => Sys2Proof.Machine.execRegisterAbort s
  | .journalApply => Sys2Proof.Machine.execJournalApply s
  | .mbLookup => Sys2Proof.Machine.execMbLookup s
  | .mbScrub => Sys2Proof.Machine.execMbScrub s
  | .mailboxDone => Sys2Proof.Machine.execMailboxDone s
  | .clockWrite v => Sys2Proof.Machine.execClockWrite v s
  | .clockFloorHour => Sys2Proof.Machine.execClockFloorHour s
  | .installRoot => Sys2Proof.Machine.execInstallRoot s
  | .installPub => Sys2Proof.Machine.execInstallPub s
  | .setFleetId => Sys2Proof.Machine.execSetFleetId s
  | .pair => Sys2Proof.Machine.execPair s
  | .genXmss => Sys2Proof.Machine.execGenXmss s
  | .genXmssDone => Sys2Proof.Machine.execGenXmssDone s
  | .advance => Sys2Proof.Machine.execAdvance s
  | .keysReturn => Sys2Proof.Machine.execKeysReturn s
  | .respond => Sys2Proof.Machine.execRespond s
  | .exportHarvest => Sys2Proof.Machine.execExportHarvest s
  | .keysNewNonce => Sys2Proof.Machine.execKeysNewNonce s
  | .destroy vehicle => Sys2Proof.Machine.execDestroy vehicle s
  | .keysAbort => Sys2Proof.Machine.execKeysAbort s
  | .rootRetagDone => Sys2Proof.Machine.execRootRetagDone s
  | .pairingFrame => Sys2Proof.Machine.execPairingFrame s
  | .pairingTimeout => Sys2Proof.Machine.execPairingTimeout s
  | .tamperLineRise source => Sys2Proof.Machine.execTamperLineRise source s
  | .aesGo v => Sys2Proof.Machine.execAesGo v s
  | .aesBlockDone => Sys2Proof.Machine.execAesBlockDone s
  | .aesJobArrival level cell master fleet blocks feature dir => Sys2Proof.Machine.execAesJobArrival level cell master fleet blocks feature dir s
  | .aesJobResume => Sys2Proof.Machine.execAesJobResume s
  | .keccakJobArrival level verify permutations feature => Sys2Proof.Machine.execKeccakJobArrival level verify permutations feature s
  | .attest => Sys2Proof.Machine.execAttest s
  | .signRelease ok => Sys2Proof.Machine.execSignRelease ok s
  | .trngGenerate => Sys2Proof.Machine.execTrngGenerate s
  | .trngReseed => Sys2Proof.Machine.execTrngReseed s
  | .setPers => Sys2Proof.Machine.execSetPers s
  | .noiseBlockDone raw => Sys2Proof.Machine.execNoiseBlockDone raw s
  | .fatalRestart => Sys2Proof.Machine.execFatalRestart s
  | .drbgReseedTimer => Sys2Proof.Machine.execDrbgReseedTimer s
  | .entropyRequestTimeout => Sys2Proof.Machine.execEntropyRequestTimeout s
  | .maskGeneratorReseed => Sys2Proof.Machine.execMaskGeneratorReseed s
  | .ticketDelivery => Sys2Proof.Machine.execTicketDelivery s
  | .requestTimerExpiry => Sys2Proof.Machine.execRequestTimerExpiry s
  | .lkChallenge reqCtr epoch nonce answerUs => Sys2Proof.Machine.execLkChallenge reqCtr epoch nonce answerUs s
  | .lkStatus engine verdict epoch seq mac => Sys2Proof.Machine.execLkStatus engine verdict epoch seq mac s
  | .ticketWindowEnd => Sys2Proof.Machine.execTicketWindowEnd s
  | .crankWindowEnd => Sys2Proof.Machine.execCrankWindowEnd s
  | .ecuSilent => Sys2Proof.Machine.execEcuSilent s
  | .stenReadback agrees => Sys2Proof.Machine.execStenReadback agrees s
  | .lkBusOff => Sys2Proof.Machine.execLkBusOff s
  | .islandSupplyTrip => Sys2Proof.Machine.execIslandSupplyTrip s
  | .islandPowerUp testsOk => Sys2Proof.Machine.execIslandPowerUp testsOk s
  | .islandSelftestRetry testsOk => Sys2Proof.Machine.execIslandSelftestRetry testsOk s
  | .canFrameReceived n frame sof => Sys2Proof.Machine.execCanFrameReceived n frame sof s
  | .canTxRequest n k => Sys2Proof.Machine.execCanTxRequest n k s
  | .canLoad n k => Sys2Proof.Machine.execCanLoad n k s
  | .canCancel n k => Sys2Proof.Machine.execCanCancel n k s
  | .canArbitrationStart n => Sys2Proof.Machine.execCanArbitrationStart n s
  | .canTxSuccess n => Sys2Proof.Machine.execCanTxSuccess n s
  | .canTxAttemptFailed n kind => Sys2Proof.Machine.execCanTxAttemptFailed n kind s
  | .canBusOffRecovery n => Sys2Proof.Machine.execCanBusOffRecovery n s
  | .canBusIntegration n => Sys2Proof.Machine.execCanBusIntegration n s
  | .canProtocolException n => Sys2Proof.Machine.execCanProtocolException n s
  | .canRxAck n c => Sys2Proof.Machine.execCanRxAck n c s
  | .canTransactTimeout n k tag => Sys2Proof.Machine.execCanTransactTimeout n k tag s
  | .pierPortEnable n => Sys2Proof.Machine.execPierPortEnable n s
  | .pierTrainingComplete n latency => Sys2Proof.Machine.execPierTrainingComplete n latency s
  | .pierTrainingTimeout n => Sys2Proof.Machine.execPierTrainingTimeout n s
  | .pierRetrainTimer n => Sys2Proof.Machine.execPierRetrainTimer n s
  | .pierAdrift n cause => Sys2Proof.Machine.execPierAdrift n cause s
  | .pierRetrain n => Sys2Proof.Machine.execPierRetrain n s
  | .pierBlockReceived n seq crcOk codeOk => Sys2Proof.Machine.execPierBlockReceived n seq crcOk codeOk s
  | .pierAck n sq => Sys2Proof.Machine.execPierAck n sq s
  | .pierNak n sq => Sys2Proof.Machine.execPierNak n sq s
  | .pierResendTimeout n => Sys2Proof.Machine.execPierResendTimeout n s
  | .pierMark env => Sys2Proof.Machine.execPierMark env s
  | .tideMessage number stamp length power life => Sys2Proof.Machine.execTideMessage number stamp length power life s
  | .enumerationStart => Sys2Proof.Machine.execEnumerationStart s
  | .enum rq host anchor => Sys2Proof.Machine.execEnum rq host anchor s
  | .bind rq nh => Sys2Proof.Machine.execBind rq nh s
  | .bindFinish rq macH => Sys2Proof.Machine.execBindFinish rq macH s
  | .pierResponse n typ tag epoch arg body => Sys2Proof.Machine.execPierResponse n typ tag epoch arg body s
  | .pierRequestTimeout n tag => Sys2Proof.Machine.execPierRequestTimeout n tag s
  | .slack n rq => Sys2Proof.Machine.execSlack n rq s
  | .wakeBeacon n => Sys2Proof.Machine.execWakeBeacon n s
  | .pushBegin rq fw adopt serial len => Sys2Proof.Machine.execPushBegin rq fw adopt serial len s
  | .pushData offset data last => Sys2Proof.Machine.execPushData offset data last s
  | .pushEnd rq => Sys2Proof.Machine.execPushEnd rq s
  | .commitAt rq fw tide => Sys2Proof.Machine.execCommitAt rq fw tide s
  | .keyFwd rq code body => Sys2Proof.Machine.execKeyFwd rq code body s
  | .sessionSet header body => Sys2Proof.Machine.execSessionSet header body s
  | .harvestTable header body => Sys2Proof.Machine.execHarvestTable header body s
  | .schedule tide work => Sys2Proof.Machine.execSchedule tide work s
  | .resultMessage n results => Sys2Proof.Machine.execResultMessage n results s
  | .eventMessage n kind arg stamp body => Sys2Proof.Machine.execEventMessage n kind arg stamp body s
  | .tamperMessage => Sys2Proof.Machine.execTamperMessage s
  | .remoteRead n => Sys2Proof.Machine.execRemoteRead n s
  | .remoteWrite n => Sys2Proof.Machine.execRemoteWrite n s
  | .manifestOpen => Sys2Proof.Machine.execManifestOpen s
  | .manifestBlockCrc crc => Sys2Proof.Machine.execManifestBlockCrc crc s
  | .manifestVerify => Sys2Proof.Machine.execManifestVerify s
  | .manifestVerifyDone => Sys2Proof.Machine.execManifestVerifyDone s
  | .manifestCommit => Sys2Proof.Machine.execManifestCommit s
  | .manifestWriteDone ok => Sys2Proof.Machine.execManifestWriteDone ok s
  | .manifestAbort => Sys2Proof.Machine.execManifestAbort s
  | .claim => Sys2Proof.Machine.execClaim s
  | .complete v => Sys2Proof.Machine.execComplete v s
  | .pendingClear hiReg v => Sys2Proof.Machine.execPendingClear hiReg v s
  | .enableHWrite hiReg v => Sys2Proof.Machine.execEnableHWrite hiReg v s
  | .pairEnableWrite pairB mask => Sys2Proof.Machine.execPairEnableWrite pairB mask s
  | .trigger v => Sys2Proof.Machine.execTrigger v s
  | .powerOnReset => Sys2Proof.Machine.execPowerOnReset s
  | .brownOut supplies => Sys2Proof.Machine.execBrownOut supplies s
  | .supplyWarning bit below => Sys2Proof.Machine.execSupplyWarning bit below s
  | .vioBrownOut bank => Sys2Proof.Machine.execVioBrownOut bank s
  | .watchdogExpiry => Sys2Proof.Machine.execWatchdogExpiry s
  | .lockstepFault pairB => Sys2Proof.Machine.execLockstepFault pairB s
  | .pairRejoin pairB => Sys2Proof.Machine.execPairRejoin pairB s
  | .mainStart env kat cells => Sys2Proof.Machine.execMainStart env kat cells s
  | .crystalChangeover => Sys2Proof.Machine.execCrystalChangeover s
  | .fwOpen => Sys2Proof.Machine.execFwOpen s
  | .fwBlockCrc crc => Sys2Proof.Machine.execFwBlockCrc crc s
  | .fwVerify => Sys2Proof.Machine.execFwVerify s
  | .fwVerifyDone => Sys2Proof.Machine.execFwVerifyDone s
  | .fwActivate => Sys2Proof.Machine.execFwActivate s
  | .fwDistributionDone ok => Sys2Proof.Machine.execFwDistributionDone ok s
  | .fwAbort => Sys2Proof.Machine.execFwAbort s
  | .fwHandoverDone => Sys2Proof.Machine.execFwHandoverDone s
  | .fwTrialEnd => Sys2Proof.Machine.execFwTrialEnd s
  | .checkpoint => Sys2Proof.Machine.execCheckpoint s
  | .checkpointDue => Sys2Proof.Machine.execCheckpointDue s
  | .logbookSelWrite v => Sys2Proof.Machine.execLogbookSelWrite v s
  | .pairClaim pairB => Sys2Proof.Machine.execPairClaim pairB s
  | .pairComplete pairB source => Sys2Proof.Machine.execPairComplete pairB source s
  | .windowWrite ha d => Sys2Proof.Machine.execWindowWrite ha d s
  | .canReceiveError n inc => Sys2Proof.Machine.execCanReceiveError n inc s
  | .vioBankRelease bank => Sys2Proof.Machine.execVioBankRelease bank s
  | .coreClockStop => Sys2Proof.Machine.execCoreClockStop s
  | .sessionIdBaseRetry => Sys2Proof.Machine.execSessionIdBaseRetry s
  | .tenderBankWriteDone ok => Sys2Proof.Machine.execTenderBankWriteDone ok s

end Sys2Proof.Machine
end

