-- ==== Sys2Proof/Machine/Tick.lean ====
section
/-! DEFINITION. What happens by itself while no command waits: one tick of the timebase, the lock
keeper's shadow of it, the running AES and Keccak jobs, and the bulk queue's way into staging (log entry 1). -/

namespace Sys2Proof.Machine

/-- One tick of 15.625 ns passes (R15). The lock keeper's shadow advances by 4 at each LK cycle, which here begin at every
fourth tick of the timebase (R405, log entry 68). Queued bulk writes reach staging while the core clock
runs (R662). In STANDBY the timebase counts only while a controller receives (R571). -/
def tick (s : State) : State :=
  let s := s.atTick (s.now + 1)
  let s := s.upLk fun k => { k with shadow := if s.now % 4 = 0 then k.shadow + 4 else k.shadow }
  let s := s.aesTick.kecTick
  let s := if s.tide.power == .standby && !s.canReceives then s.upTide fun t => { t with tbOff := t.tbOff + 1 } else s
  if s.tide.power.asleep && !s.port.coreClk then s else s.drainBulk

end Sys2Proof.Machine
end

