-- ==== Sys2Proof/Safety.lean ====
section
/-! DEFINITION. What the statements call a sound state, and what a command leaves alone. -/

namespace Sys2Proof.Machine

/-- What R671 to R675 say of one source, by its bits: assigned to at most one target of host, A and B
(`aH`, `aA`, `aB`), pending (`p`) while it is assigned, active at one target at most (`cH`, `cA`, `cB`) and
assigned to none while it is active; a pair has it enabled only while the host has not (`eH`, `eA`, `eB`, R673). -/
def deliveryOk (aH aA aB cH cA cB p eH eA eB : Bool) : Bool :=
  !(aH && aA) && !(aH && aB) && !(aA && aB) && !(cH && cA) && !(cH && cB) && !(cA && cB) &&
    (!(aH || aA || aB) || p) && !((aH || aA || aB) && (cH || cA || cB)) && !(eH && (eA || eB))

/-- Source `n` is delivered as R671 to R675 say. -/
def Intc.okAt (i : Intc) (n : Nat) : Bool :=
  deliveryOk (i.asgH.getLsbD n) (i.asgA.getLsbD n) (i.asgB.getLsbD n) (i.actH.getLsbD n) (i.actA.getLsbD n)
    (i.actB.getLsbD n) (i.pending.getLsbD n) (i.enH.getLsbD n) (i.enA.getLsbD n) (i.enB.getLsbD n)

/-- Every source is delivered as R671 to R675 say. -/
def Intc.ok (i : Intc) : Bool := (List.range 64).all i.okAt

/-- The start-enable pins toggle exactly while a release is held (R428, R434). -/
def LockKeeper.ok (k : LockKeeper) : Bool := k.toggling == k.state.released?

/-- The table holds 256 berths (R23). -/
def BerthTable.ok (b : BerthTable) : Bool := b.berths.length == 256

/-- The LF block has 16 drivers (address map, LF.DRV). -/
def Lf.ok (l : Lf) : Bool := l.drivers.length == 16

/-- There are 8 CAN controllers (chapter 13, address map). -/
def CanBlk.ok (c : CanBlk) : Bool := c.ctl.length == 8

/-- There are 32 pier links (R601). -/
def PierBlk.ok (p : PierBlk) : Bool := p.links.length == 32

/-- The invariant of the block: interrupt delivery, start enable, and the sizes of the device's tables. -/
def State.sound (s : State) : Bool :=
  s.intc.ok && s.lk.ok && s.bt.ok && s.lf.ok && s.can.ok && s.pier.ok

/-- What only a tide boundary or the passing of time changes: the tide's number, its start, its stamp, its length,
the power state, the life-cycle state (R121, R122, R131, R137), and the ticks that the timebase has stood still
(R571). -/
def Tide.clock (t : Tide) : BitVec 32 × Nat × BitVec 48 × Nat × Power × LifeCycle × Nat :=
  (t.number, t.startAt, t.boundary, t.lengthMs, t.power, t.life, t.tbOff)

/-- What every step leaves alone, from state `b` to state `s`: the queue of waiting commands, the device's
identity, the invariant; and it begins no release of the start lock. -/
structure Kept (b s : State) : Prop where
  /-- the queue of waiting commands -/
  pending : s.pending = b.pending
  /-- DEVICE_ID -/
  ident : s.ident = b.ident
  /-- the invariant -/
  sound : b.sound = true → s.sound = true
  /-- a release that is held was held before -/
  starts : s.lk.state.released? = true → b.lk.state.released? = true

/-- What a command that is no boundary leaves alone: besides that, the time and the tide. -/
structure Keeps (b s : State) : Prop where
  /-- the queue of waiting commands -/
  pending : s.pending = b.pending
  /-- DEVICE_ID -/
  ident : s.ident = b.ident
  /-- the tick -/
  now : s.now = b.now
  /-- the tide -/
  clock : s.tide.clock = b.tide.clock
  /-- the invariant -/
  sound : b.sound = true → s.sound = true
  /-- a release that is held was held before -/
  starts : s.lk.state.released? = true → b.lk.state.released? = true

/-- What a STATUS of the engine controller leaves alone: as `Keeps`, but a release may begin (R428). -/
structure Clocked (b s : State) : Prop where
  /-- the queue of waiting commands -/
  pending : s.pending = b.pending
  /-- DEVICE_ID -/
  ident : s.ident = b.ident
  /-- the tick -/
  now : s.now = b.now
  /-- the tide -/
  clock : s.tide.clock = b.tide.clock
  /-- the invariant -/
  sound : b.sound = true → s.sound = true

/-- The host's accesses to the main domain are served: the port takes accesses and the main domain runs
(R667, R686, R746). -/
def State.hostReady (s : State) : Bool := s.portUp && s.mainUp

/-- The state in which a far write that is served reaches the register at byte address `a` (R650, R655). -/
def State.reached (s : State) (a : Nat) : State := (s.beginFar none).upPort fun p => p.unlatch a

/-- A UHF frame of body `b` reaches this device, which keeps the berths, by its own chain while it listens, and is
neither a copy of an earlier one nor spoilt (R140, R182, R294 to R297). -/
def State.hearsUhf (s : State) (rx : UhfRx) (b : Bytes) : Bool :=
  s.uhfRuns && s.berthsRun && uhfGood rx b && rx.anchor.toNat == s.cfg.anchor && s.cfg.role != .tender &&
    s.uhfChain rx.chain.toNat && s.uhfHears rx.stamp b && s.nb.uhfSeen.isEmpty

/-- The state after a UHF frame has been counted and remembered (R295, R310). -/
def State.heardUhf (s : State) (rx : UhfRx) (b : Bytes) : State :=
  (s.uhfCount rx b).upNb fun x => { x with uhfSeen := [(b, rx.stamp, rx.anchor.toNat)] }

/-- A KEYS command of the host runs at once (R481, R485, R487): none runs, and the generator has delivered. -/
def State.keysReadyFor (s : State) : Bool := s.hostReady && !s.keys.busy && s.trng.inst

/-- The state in which a KEYS command runs: its access made, OUT zeroed. -/
def State.keysBegun (s : State) : State :=
  (s.reached 0x68000).upKeys fun k => { k with out := [], heldCmd := none, busy := false }

end Sys2Proof.Machine
end

