-- ==== Sys2Proof/Certificates/Slice0/Obligations.lean ====
section
/-! DEFINITION. The statements for the provers. Each docstring names the rules of the spec it rests on. A
clause for a command says under which conditions on the state and the operands it completes, and gives the
next state: by a record update, which leaves every other part as it was, or by the parts that may change. -/

open Sys2Proof Sys2Proof.Machine

/-! The step. -/

/-- One step takes the command at the front of the queue and runs it on the state with the rest. -/
def Obligations.StepRunsFront : Prop :=
  ∀ (c : Instr) (s : State) (rest : List Instr), s.pending = c :: rest →
    step s = Sys2Proof.Machine.exec c { s with pending := rest }

/-- On an empty queue a step is one tick of the timebase and of the lock keeper's shadow of it, and leaves the tide and the
berth table alone, but that in STANDBY, while no CAN controller receives, the timebase falls one tick behind (R571); where
no AES or Keccak job runs and no bulk write waits it changes nothing else (R15; R405, with the phase of the LK cycles that
log entry 68 names; log entry 1: the model's choice). -/
def Obligations.IdleStepTicks : Prop :=
  ∀ s : State, s.pending = [] →
    ∃ t, step s = .next t ∧ t.now = s.now + 1 ∧ t.lk = { s.lk with shadow := if (s.now + 1) % 4 = 0 then s.lk.shadow + 4 else s.lk.shadow } ∧
      t.tide = (if s.tide.power = .standby ∧ s.canReceives = false then { s.tide with tbOff := s.tide.tbOff + 1 } else s.tide) ∧
      t.bt = s.bt ∧ (s.cry.jobs = [] → s.cry.kjobs = [] → s.port.bulkQueue = [] →
        t = { s with now := s.now + 1, lk := t.lk, tide := t.tide })

/-- Whatever a state holds, its next step answers a next state: no command stops the block. The step takes
one command off the queue, adds none, and leaves the device's identity alone. -/
def Obligations.EveryStepGoesOn : Prop :=
  ∀ s : State, ∃ t, step s = .next t ∧ t.pending = s.pending.tail ∧ t.ident = s.ident

/-- The invariant holds right after reset. -/
def Obligations.ResetIsSound : Prop := State.reset.sound = true

/-- Every step keeps the invariant. -/
def Obligations.StepKeepsSound : Prop :=
  ∀ s t : State, s.sound = true → step s = .next t → t.sound = true

/-- Right after reset the port has not started, the count of ticks is 0, no source is pending, every berth is FREE, and the
start-enable pins do not toggle (R30, R434, R671, R696, R746). -/
def Obligations.ResetValues : Prop :=
  State.reset.port.started = false ∧ State.reset.now = 0 ∧ State.reset.intc.pending = 0#64 ∧
    (∀ n, (State.reset.berth n).id.st = .free) ∧ State.reset.lk.toggling = false
/-! The interrupt controller. -/

/-- R674: the source that a claim takes is the highest-numbered one that is pending and assigned to the
target; where there is none, the claim takes none. -/
def Obligations.ClaimTakesHighest : Prop :=
  ∀ (i : Intc) (t : Nat),
    (∀ n, i.top t = some n → n < 64 ∧ (i.assigned t).getLsbD n = true ∧ i.pending.getLsbD n = true ∧
      ∀ m, n < m → ((i.assigned t).getLsbD m && i.pending.getLsbD m) = false) ∧
    (i.top t = none → ∀ m, ((i.assigned t).getLsbD m && i.pending.getLsbD m) = false)

/-- R669, R671, R672: an event of a source sets its pending bit. A source that is assigned to nobody and
active nowhere goes to the first target, after the one of its previous delivery, that has it enabled, and
to no other; where no target has it enabled it stays unassigned. A source that is assigned or active
stays where it is. No other source is touched. -/
def Obligations.EventIsDelivered : Prop :=
  ∀ (i : Intc) (n : Nat), n < 64 →
    (i.event n).pending.getLsbD n = true ∧
    (∀ m, m ≠ n → (i.event n).pending.getLsbD m = i.pending.getLsbD m) ∧
    (∀ t, t < 3 → ∀ m, m ≠ n → ((i.event n).assigned t).getLsbD m = (i.assigned t).getLsbD m) ∧
    (∀ t, t < 3 → (i.event n).active t = i.active t ∧ (i.event n).enables t = i.enables t) ∧
    (i.free n = false → ∀ t, t < 3 → (i.event n).assigned t = i.assigned t) ∧
    (i.free n = true → ∀ t, t < 3 →
      ((i.event n).assigned t).getLsbD n = true →
        (i.enables t).getLsbD n = true ∧
        (∀ k, k < (t + 2 - i.last n) % 3 → (i.enables ((i.last n + 1 + k) % 3)).getLsbD n = false)) ∧
    (i.free n = true → (∃ t, t < 3 ∧ (i.enables t).getLsbD n = true) →
      ∃ t, t < 3 ∧ ((i.event n).assigned t).getLsbD n = true)

/-- R674, R677: a host claim gives the source and makes it active at the host; the high half of the register
is captured; nothing but the controller and the port changes beside the access itself. A completion of an
active source deactivates it and settles it again; one of a source that is not active at the host is counted
with its number and target. -/
def Obligations.HostClaimAndComplete : Prop :=
  (∀ (s : State) (n : Nat), s.portUp = true → s.intc.top 0 = some n →
    ∃ t, Sys2Proof.Machine.exec .claim s = .next t ∧
      t.intc = { s.intc with
        pending := setBit s.intc.pending n false, asgH := setBit s.intc.asgH n false
        actH := setBit s.intc.actH n true, claimed := BitVec.ofNat 16 n } ∧
      t.port = { (s.beginFar none).port with
        far := some (some (BitVec.ofNat 16 n)), capture := some (0x1030#21, 0#16) } ∧
      t = { s.beginFar none with intc := t.intc, port := t.port }) ∧
  (∀ (s : State), s.portUp = true → s.intc.top 0 = none →
    ∃ t, Sys2Proof.Machine.exec .claim s = .next t ∧
      t.intc = { s.intc with claimed := 0x8000#16 } ∧
      t.port = { (s.beginFar none).port with
        far := some (some 0x8000#16), capture := some (0x1030#21, 0#16) } ∧
      t = { s.beginFar none with intc := t.intc, port := t.port }) ∧
  (∀ (s : State) (v : BitVec 32), s.portUp = true → s.intc.actH.getLsbD (fieldN v 5 0) = true →
    Sys2Proof.Machine.exec (.complete v) s = .next ((s.reached 0x1034).upIntc fun i =>
      ({ i with actH := setBit i.actH (fieldN v 5 0) false }).settle (fieldN v 5 0))) ∧
  (∀ (s : State) (v : BitVec 32), s.portUp = true → s.intc.actH.getLsbD (fieldN v 5 0) = false →
    Sys2Proof.Machine.exec (.complete v) s = .next ((s.reached 0x1034).upIntc fun i => { i with
      strayCount := satInc i.strayCount, straySource := BitVec.ofNat 6 (fieldN v 5 0), strayTarget := 0#2 }))

/-- R681: with no named source held by a pair, PENDING_LO and PENDING_HI clear exactly the sources that the
written bits name, and take them from the host. R682: TRIGGER raises an event in MANUFACTURE and PROVISION,
and makes a notice of KIND 3 in the other stages. R672, R673: a host enable is written for the 32 sources of
its register, and what the host has enabled no pair has. -/
def Obligations.HostInterruptWrites : Prop :=
  (∀ (s : State) (hi : Bool) (v : BitVec 32), s.portUp = true →
    (∀ n, n < 32 → v.getLsbD n = true →
      s.intc.asgA.getLsbD (if hi then n + 32 else n) = false ∧ s.intc.asgB.getLsbD (if hi then n + 32 else n) = false) →
    ∃ t, Sys2Proof.Machine.exec (.pendingClear hi v) s = .next t ∧
      (∀ n, n < 32 →
        t.intc.pending.getLsbD (if hi then n + 32 else n) =
          (s.intc.pending.getLsbD (if hi then n + 32 else n) && !v.getLsbD n) ∧
        t.intc.asgH.getLsbD (if hi then n + 32 else n) =
          (s.intc.asgH.getLsbD (if hi then n + 32 else n) && !v.getLsbD n) ∧
        t.intc.pending.getLsbD (if hi then n else n + 32) = s.intc.pending.getLsbD (if hi then n else n + 32) ∧
        t.intc.asgH.getLsbD (if hi then n else n + 32) = s.intc.asgH.getLsbD (if hi then n else n + 32)) ∧
      t.intc = { s.intc with pending := t.intc.pending, asgH := t.intc.asgH } ∧
      t = { s.reached (if hi then 0x1004 else 0x1000) with intc := t.intc }) ∧
  (∀ (s : State) (v : BitVec 32), s.portUp = true → v.getLsbD 8 = true →
    s.tide.life = .manufacture ∨ s.tide.life = .provision →
    Sys2Proof.Machine.exec (.trigger v) s = .next ((s.reached 0x1040).latch (fieldN v 5 0))) ∧
  (∀ (s : State) (v : BitVec 32), s.portUp = true → v.getLsbD 8 = true →
    s.tide.life = .fleet ∨ s.tide.life = .returned →
    Sys2Proof.Machine.exec (.trigger v) s = .next ((s.reached 0x1040).notice 3 0x1040)) ∧
  (∀ (s : State) (hi : Bool) (v : BitVec 32), s.portUp = true →
    ∃ t, Sys2Proof.Machine.exec (.enableHWrite hi v) s = .next t ∧
      (∀ n, n < 32 → t.intc.enH.getLsbD (if hi then n + 32 else n) = v.getLsbD n ∧
        t.intc.enH.getLsbD (if hi then n else n + 32) = s.intc.enH.getLsbD (if hi then n else n + 32) ∧
        (v.getLsbD n = true → t.intc.enA.getLsbD (if hi then n + 32 else n) = false ∧
          t.intc.enB.getLsbD (if hi then n + 32 else n) = false)) ∧
      t.intc = { s.intc with
        enH := t.intc.enH, enA := t.intc.enA, enB := t.intc.enB, asgH := t.intc.asgH, asgA := t.intc.asgA
        asgB := t.intc.asgB, lastH := t.intc.lastH, lastA := t.intc.lastA } ∧
      t = { s.reached (if hi then 0x100C else 0x1008) with intc := t.intc })

/-- R670, R674, R677, R745: what the firmware of a running pair does at the controller changes nothing
else. A claim with a source to take makes it active at the pair; a completion of an active source takes it
from the pair; enables reach exactly the sources that the host has not enabled. -/
def Obligations.PairInterruptCommands : Prop :=
  (∀ (s : State) (b : Bool) (n : Nat), s.pairUp b = true → s.intc.top (pairTarget b) = some n →
    Sys2Proof.Machine.exec (.pairClaim b) s = .next (s.upIntc fun i =>
      (({ i with pending := setBit i.pending n false }).setAssigned
        (setBit (i.assigned (pairTarget b)) n false) (pairTarget b)).setActive
          (setBit (i.active (pairTarget b)) n true) (pairTarget b))) ∧
  (∀ (s : State) (b : Bool) (n : BitVec 6), s.pairUp b = true →
    (s.intc.active (pairTarget b)).getLsbD n.toNat = true →
    Sys2Proof.Machine.exec (.pairComplete b n) s = .next (s.upIntc fun i =>
      (i.setActive (setBit (i.active (pairTarget b)) n.toNat false) (pairTarget b)).settle n.toNat)) ∧
  (∀ (s : State) (b : Bool) (mask : BitVec 64), s.pairUp b = true →
    ∃ t, Sys2Proof.Machine.exec (.pairEnableWrite b mask) s = .next t ∧ t = { s with intc := t.intc } ∧
      t.intc.enH = s.intc.enH ∧ t.intc.pending = s.intc.pending ∧
      ∀ n, n < 64 → (t.intc.enables (pairTarget b)).getLsbD n = (mask.getLsbD n && !s.intc.enH.getLsbD n))

/-! The host port. -/

/-- R650: HRDY rises and a read shows its data. R645: a bus protocol error is counted. R746: the port starts
once. R652: the core clock stops 1 ms after the last far access. R661, R666: an access to an address that no
table names is counted as unmapped, and a write makes a notice of KIND 5 that names it. -/
def Obligations.PortEvents : Prop :=
  (∀ (s : State) (d : Option (BitVec 16)), s.port.far = some d → s.nfc.hostWaiting = false →
    Sys2Proof.Machine.exec .farAccessComplete s =
      .next ((s.upPort fun p => { p with far := none, hd := d.getD p.hd }).upNfc fun c => { c with hostWaiting := false })) ∧
  (∀ s : State, s.portUp = true →
    Sys2Proof.Machine.exec .busProtocolError s = .next (s.upPort fun p => { p with errProtocol := satInc p.errProtocol })) ∧
  (∀ s : State, s.port.started = false →
    Sys2Proof.Machine.exec .portStartAfterPor s = .next (s.upPort fun p => { p with started := true })) ∧
  (∀ s : State, s.tide.power.asleep = true → s.port.coreClk = true → s.port.lastFar + 64000 ≤ s.now →
    Sys2Proof.Machine.exec .coreClockStop s = .next (s.upPort fun p => { p with coreClk := false })) ∧
  (∀ (s : State) (ha : BitVec 20) (d : BitVec 16), s.portUp = true → isWindow (byteOf ha) = false →
    s.isReg ha = false → 0x1000 ≤ byteOf ha →
    Sys2Proof.Machine.exec (.unmappedAccess ha (some d)) s =
      .next (((s.beginFar none).upPort fun p => { p with errUnmapped := satInc p.errUnmapped }).notice 5 (byteOf ha))) ∧
  (∀ (s : State) (ha : BitVec 20), s.portUp = true → isWindow (byteOf ha) = false →
    s.isReg ha = false → 0x1000 ≤ byteOf ha →
    Sys2Proof.Machine.exec (.unmappedAccess ha none) s =
      .next ((s.beginFar (some 0#16)).upPort fun p => { p with errUnmapped := satInc p.errUnmapped }))

/-- R655, R657, R658: a low-half write is held in the latch and touches no register; one held for another
register is discarded, counted and noted with KIND 6. The high half commits the held low half with it, and
the latch is free again; SCRATCH takes the whole value and nothing else of the device changes. A low-half read
captures the high half, which a high-half read of the same register then returns. -/
def Obligations.PortHalves : Prop :=
  (∀ (s : State) (lo : BitVec 16), s.portUp = true → s.port.latch = none →
    Sys2Proof.Machine.exec (.lowHalfWrite 0x10#20 lo) s =
      .next (s.upPort fun p => { p with latch := some (0x20#21, lo) })) ∧
  (∀ (s : State) (lo old : BitVec 16), s.portUp = true → s.port.latch = some (0x28#21, old) →
    Sys2Proof.Machine.exec (.lowHalfWrite 0x10#20 lo) s =
      .next (((s.upPort fun p => { p with errOrphan := satInc p.errOrphan }).notice 6 0x28).upPort fun p =>
        { p with latch := some (0x20#21, lo) })) ∧
  (∀ (s : State) (lo hi : BitVec 16), s.portUp = true → s.port.latch = some (0x20#21, lo) →
    Sys2Proof.Machine.exec (.registerWrite 0x11#20 hi) s =
      .next (s.upPort fun p => { p with latch := none, scratch := joinHalves hi lo })) ∧
  (∀ (s : State), s.portUp = true →
    Sys2Proof.Machine.exec (.portLowHalfRead 0x10#20) s =
      .next (s.upPort fun p => { p with
        capture := some (0x20#21, hiHalf s.port.scratch), hd := loHalf s.port.scratch })) ∧
  (∀ (s : State) (h : BitVec 16), s.portUp = true → s.port.capture = some (0x20#21, h) →
    Sys2Proof.Machine.exec (.portLowHalfRead 0x11#20) s = .next (s.upPort fun p => { p with hd := h }))

/-- R666: an undefined command code is ignored with a notice of KIND 2 at the register's address. R660, R662,
R663: half words written into the bulk window of a LOADING import are queued in order; outside the import's length, and
with no import loading, they make a notice of KIND 4; a half word written into the PERS window of the random generator is
stored there. -/
def Obligations.PortWindowsAndCodes : Prop :=
  (∀ (s : State) (hi : BitVec 16), s.hostReady = true → undefinedCode 0x70000 (s.commitValue 0x70000 hi) = true →
    Sys2Proof.Machine.exec (.undefinedCommandCode 0x38001#20 hi) s = .next ((s.reached 0x70000).notice 2 0x70000)) ∧
  (∀ (s : State) (ha : BitVec 20) (d : BitVec 16) (n : Nat), s.portUp = true → s.bulkLen = some n →
    0x80000 ≤ ha.toNat → 2 * ha.toNat - 0x100000 < n → s.port.bulkQueue.length < 64 →
    Sys2Proof.Machine.exec (.bulkWindowWrite ha d) s =
      .next (s.upPort fun p => { p with bulkQueue := p.bulkQueue ++ [(2 * ha.toNat - 0x100000, d)] })) ∧
  (∀ (s : State) (ha : BitVec 20) (d : BitVec 16), s.portUp = true → s.bulkLen = none → 0x80000 ≤ ha.toNat →
    Sys2Proof.Machine.exec (.bulkWindowWrite ha d) s =
      .next (s.notice 4 (0x100000 + (2 * ha.toNat - 0x100000)))) ∧
  (∀ (s : State) (ha : BitVec 20) (d : BitVec 16) (n : Nat), s.portUp = true → s.bulkLen = some n →
    0x80000 ≤ ha.toNat → n ≤ 2 * ha.toNat - 0x100000 →
    Sys2Proof.Machine.exec (.bulkWindowWrite ha d) s =
      .next (s.notice 4 (0x100000 + (2 * ha.toNat - 0x100000)))) ∧
  (∀ (s : State) (o : Nat) (d : BitVec 16), s.hostReady = true → o < 24 →
    Sys2Proof.Machine.exec (.windowWrite (BitVec.ofNat 20 (0x38100 + o)) d) s =
      .next ((s.beginFar none).upTrng fun t => { t with pers := Mem.setHalf t.pers (2 * o) d }))

/-! Tides and power states. -/

/-- Time, tide, power state and life cycle change only at a boundary, at a start or power-on reset, or as a
message from the harbourmaster brings them: every other command leaves the tick, the tide's number, start,
stamp and length, the power state and the life-cycle state as they were (R122, R123, R131, R137). -/
def Obligations.OnlyBoundariesChangeTide : Prop :=
  ∀ (c : Instr) (s t : State), Sys2Proof.Machine.exec c s = .next t →
    (∀ env, c ≠ .tideBoundary env) → (∀ env, c ≠ .wakeBoundary env) → (∀ env, c ≠ .pierMark env) →
    (∀ n st l p li, c ≠ .tideMessage n st l p li) → (∀ env kat cells, c ≠ .mainStart env kat cells) → c ≠ .powerOnReset →
    t.now = s.now ∧ t.tide.number = s.tide.number ∧ t.tide.startAt = s.tide.startAt ∧
      t.tide.boundary = s.tide.boundary ∧ t.tide.lengthMs = s.tide.lengthMs ∧ t.tide.power = s.tide.power ∧
      t.tide.life = s.tide.life

/-- R121, R122, R130, R131: an ordinary boundary that is due advances the tide number by 1 modulo 2^32 and
stamps the tide. The state that begins is STANDBY, or else: DEEP after DEEP and STANDBY, WATCH after WATCH, SERVICE,
DRIVE or WATCH after SERVICE, DRIVE or SERVICE after DRIVE; in FLEET it is never DEEP. -/
def Obligations.TideBoundary : Prop :=
  ∀ (s : State) (env : TideEnv), s.boundaryDue = true →
    ∃ t, Sys2Proof.Machine.exec (.tideBoundary env) s = .next t ∧
      t.tide.number = s.tide.number + 1#32 ∧ t.tide.startAt = s.now ∧ t.tide.boundary = s.stamp ∧ t.now = s.now ∧
      (t.tide.life = .fleet → t.tide.power ≠ .deep) ∧
      (t.tide.power ≠ .standby → match s.tide.power with
        | .deep => t.tide.power = .deep
        | .standby => t.tide.power = .deep
        | .watch => t.tide.power = .watch
        | .service => t.tide.power = .service ∨ t.tide.power = .drive ∨ t.tide.power = .watch
        | .drive => t.tide.power = .drive ∨ t.tide.power = .service)

/-- R122, R124, R131, R132: a wake boundary advances the tide number and raises the state by one step at most: DEEP to
STANDBY, STANDBY to WATCH, WATCH to WATCH or SERVICE; in SERVICE and DRIVE no wake event cuts the tide. -/
def Obligations.WakeBoundary : Prop :=
  (∀ (s : State) (env : TideEnv) (at_ : Nat) (b : BitVec 4), s.tide.firstWake = some (at_, b) → s.mainUp = true →
    s.mirrored = false → s.cfg.role ≠ .tender → s.wakeTick at_ ≤ s.now → s.tide.power.low = true →
    ∃ t, Sys2Proof.Machine.exec (.wakeBoundary env) s = .next t ∧
      t.tide.number = s.tide.number + 1#32 ∧ t.tide.startAt = s.now ∧ t.now = s.now ∧
      match s.tide.power with
      | .deep => t.tide.power = .standby
      | .standby => t.tide.power = .watch
      | .watch => t.tide.power = .watch ∨ t.tide.power = .service
      | .service => t.tide.power = .service
      | .drive => t.tide.power = .drive) ∧
  (∀ (s : State) (env : TideEnv), s.tide.power = .service ∨ s.tide.power = .drive →
    Sys2Proof.Machine.exec (.wakeBoundary env) s = .next s)

/-- R133: the dwells of WATCH without a live berth and of SERVICE without a moored one, once over, are marked for the next
ordinary boundary, and nothing else changes. R159: a write of POWER_REQ waits for its boundary: in DRIVE REQ 0, 1 and 2, and 3
outside FLEET, are stored as written, and 3 in FLEET and 4 to 7 store 0 with a notice of KIND 1; in STANDBY a REQ of 2 is
a wake event as well. A write in the tick of a boundary is left to the tide that begins there (R17). R118: a tender ignores
the write. -/
def Obligations.PowerRequests : Prop :=
  (∀ s : State, s.mainUp = true → s.tide.power = .watch → s.liveBerths = [] → s.tide.dwellFrom + sec 20 ≤ s.now →
    Sys2Proof.Machine.exec .watchDwellExpiry s = .next (s.upTide fun t => { t with dwellOut := true })) ∧
  (∀ s : State, s.mainUp = true → s.tide.power = .service → s.mooredBerths = [] → s.tide.dwellFrom + sec 10 ≤ s.now →
    Sys2Proof.Machine.exec .serviceDwellExpiry s = .next (s.upTide fun t => { t with dwellOut := true })) ∧
  (∀ s : State, (s.mainUp && s.watchOver) = false → Sys2Proof.Machine.exec .watchDwellExpiry s = .next s) ∧
  (∀ (s : State) (v : BitVec 32), s.hostReady = true → s.cfg.role ≠ .tender → s.tide.power = .drive →
    fieldN v 2 0 < 3 ∨ (fieldN v 2 0 = 3 ∧ s.tide.life ≠ .fleet) →
    Sys2Proof.Machine.exec (.powerReqWrite v) s = .next ((s.reached 0x2008).upTide fun t =>
      { t with powerReq := t.powerReq.write s.now (BitVec.ofNat 3 (fieldN v 2 0))
               reqDue := t.reqDue || s.boundaryDue })) ∧
  (∀ (s : State) (v : BitVec 32), s.hostReady = true → s.cfg.role ≠ .tender → s.tide.power = .drive →
    3 < fieldN v 2 0 ∨ (fieldN v 2 0 = 3 ∧ s.tide.life = .fleet) →
    Sys2Proof.Machine.exec (.powerReqWrite v) s = .next (((s.reached 0x2008).upTide fun t =>
      { t with powerReq := t.powerReq.write s.now 0#3, reqDue := t.reqDue || s.boundaryDue }).notice 1 0x2008)) ∧
  (∀ (s : State) (v : BitVec 32), s.hostReady = true → s.cfg.role = .tender →
    Sys2Proof.Machine.exec (.powerReqWrite v) s = .next (s.reached 0x2008)) ∧
  (∀ (s : State) (v : BitVec 32), s.hostReady = true → s.cfg.role ≠ .tender → s.tide.power = .standby →
    fieldN v 2 0 = 2 → s.boundaryDue = false → s.wakeDue = false →
    Sys2Proof.Machine.exec (.powerReqWrite v) s = .next (((s.reached 0x2008).upTide fun t =>
      { t with powerReq := t.powerReq.write s.now 2#3 }).wake 7)) ∧
  (∀ (s : State) (v : BitVec 32), s.hostReady = true → s.cfg.role ≠ .tender → s.tide.power = .standby →
    fieldN v 2 0 = 2 → s.boundaryDue = true ∨ s.wakeDue = true →
    Sys2Proof.Machine.exec (.powerReqWrite v) s = .next ((s.reached 0x2008).upTide fun t =>
      { t with powerReq := t.powerReq.write s.now 2#3, reqDue := true }))

/-! Supplies, resets, start. -/

/-- R691, R746: a power-on reset stops the main domain and the port, empties berth table and interrupt controller, and
keeps the banks, the lock key record and the life-cycle state. R694: HOST.RESET with the key resets the main domain with
CAUSE 5, any other value makes a notice of KIND 2. R687, R688: a brown-out of a running device leaves its hold-up record and
its cause, and the berths are lost. R693: the watchdog resets with CAUSE 3. R5, R404: none of these main-domain resets touches
the lock keeper beyond its count of them. -/
def Obligations.Resets : Prop :=
  (∀ s : State, ∃ t, Sys2Proof.Machine.exec .powerOnReset s = .next t ∧
    t.port.started = false ∧ t.port.main = .reset ∧ t.now = 0 ∧ t.intc = Intc.reset ∧ t.bt = BerthTable.reset ∧
    t.tide.life = s.tide.life ∧ t.mf.bankA = s.mf.bankA ∧ t.mf.bankB = s.mf.bankB ∧ t.lk.mram = s.lk.mram ∧
    t.fw.bankA = s.fw.bankA ∧ t.fw.bankB = s.fw.bankB ∧ t.ident = s.ident) ∧
  (∀ (s : State) (v : BitVec 32), s.portUp = true → fieldN v 15 0 = 0x7256 → v.getLsbD 16 = true →
    ∃ t, Sys2Proof.Machine.exec (.hostReset v) s = .next t ∧ t.port.main = .reset ∧ t.sys.causeNext = 5#3 ∧
      t.port.started = true ∧ t.intc = s.intc ∧ t.bt.berths = BerthTable.reset.berths ∧
      t.lk = { s.lk with mainResets := t.lk.mainResets } ∧
      t.mf.bankA = s.mf.bankA ∧ t.mf.bankB = s.mf.bankB ∧ t.log.mark = s.log.mark) ∧
  (∀ (s : State) (v : BitVec 32), s.portUp = true → ¬(fieldN v 15 0 = 0x7256 ∧ v.getLsbD 16 = true) →
    Sys2Proof.Machine.exec (.hostReset v) s = .next ((s.upPort fun p => p.unlatch 0x2C).notice 2 0x2C)) ∧
  (∀ (s : State) (v : BitVec 8), s.mainUp = true → v &&& 0x1F#8 ≠ 0#8 →
    ∃ t, Sys2Proof.Machine.exec (.brownOut v) s = .next t ∧ t.port.main = .reset ∧ t.sys.clean = true ∧
      t.sys.causeNext = (if v.getLsbD 0 then 1#3 else 2#3) ∧ t.bt.berths = BerthTable.reset.berths ∧
      t.log.head = s.log.head + 1#32 ∧ t.port.started = s.port.started ∧
      t.lk = { s.lk with mainResets := t.lk.mainResets }) ∧
  (∀ s : State, s.mainUp = true → s.watchdogOut = true →
    ∃ t, Sys2Proof.Machine.exec .watchdogExpiry s = .next t ∧ t.port.main = .reset ∧ t.sys.causeNext = 3#3 ∧
      t.intc = s.intc ∧ t.bt.berths = BerthTable.reset.berths ∧
      t.lk = { s.lk with mainResets := t.lk.mainResets })

/-- R685: a supply below its warning level shows and latches source 62; above its release level it shows good again,
and outside a main-domain reset nothing else changes. R686: a pin bank in brown-out shows, below its
warning level too, and only the MFP bank's outputs stop being driven with it. R739: the crystal takes over once. -/
def Obligations.SupplyEvents : Prop :=
  (∀ (s : State) (b : BitVec 3), b.toNat < 6 → s.sys.low.getLsbD b.toNat = false →
    Sys2Proof.Machine.exec (.supplyWarning b true) s = .next ((s.upSys fun y =>
      { y with low := setBit y.low b.toNat true, lowLatch := setBit y.lowLatch b.toNat true }).latch 62)) ∧
  (∀ (s : State) (b : BitVec 3), b.toNat < 6 → s.sys.low.getLsbD b.toNat = true → s.port.main ≠ .reset →
    Sys2Proof.Machine.exec (.supplyWarning b false) s = .next (s.upSys fun y =>
      { y with low := setBit y.low b.toNat false })) ∧
  (∀ s : State, s.sys.vioLow.getLsbD 1 = false →
    let u := if s.sys.low.getLsbD 5 then s else (s.upSys fun y =>
      { y with low := setBit y.low 5 true, lowLatch := setBit y.lowLatch 5 true }).latch 62
    Sys2Proof.Machine.exec (.vioBrownOut 1#2) s = .next ((u.upSys fun y =>
      { y with vioLow := setBit y.vioLow 1 true }).upPins fun p => { p with driven := false })) ∧
  (∀ (s : State) (b : BitVec 2), b = 0#2 ∨ b = 2#2 → s.sys.vioLow.getLsbD b.toNat = false →
    let u := if s.sys.low.getLsbD 5 then s else (s.upSys fun y =>
      { y with low := setBit y.low 5 true, lowLatch := setBit y.lowLatch 5 true }).latch 62
    Sys2Proof.Machine.exec (.vioBrownOut b) s = .next (u.upSys fun y => { y with vioLow := setBit y.vioLow b.toNat true })) ∧
  (∀ s : State, s.sys.vioLow.getLsbD 1 = true →
    Sys2Proof.Machine.exec (.vioBankRelease 1#2) s = .next ((s.upSys fun y =>
      { y with vioLow := setBit y.vioLow 1 false }).upPins fun p => { p with driven := s.mainUp })) ∧
  (∀ (s : State) (b : BitVec 2), b = 0#2 ∨ b = 2#2 → s.sys.vioLow.getLsbD b.toNat = true →
    Sys2Proof.Machine.exec (.vioBankRelease b) s = .next (s.upSys fun y => { y with vioLow := setBit y.vioLow b.toNat false })) ∧
  (∀ s : State, s.sys.crystal = false →
    Sys2Proof.Machine.exec .crystalChangeover s = .next (s.upSys fun y => { y with crystal := true }))

/-- R118, R626, R627: MARK makes the boundary of a tender that mirrors, which keeps its power state; the tick at which it came is
kept. TIDE brings the harbourmaster's number, stamp, length and power state, which in FLEET is never DEEP (R130), and its
life-cycle state where that may follow the tender's own (R137, R138). R684, R696, R697: with the supplies
released and the start due, MAIN_START begins a tide in STANDBY or DRIVE. -/
def Obligations.MirrorAndStart : Prop :=
  (∀ (s : State) (env : TideEnv), s.mainUp = true → s.mirrored = true →
    ∃ t, Sys2Proof.Machine.exec (.pierMark env) s = .next t ∧ t.tide.number = s.tide.number + 1#32 ∧
      t.tide.startAt = s.now ∧ t.tide.power = s.tide.power ∧ t.now = s.now ∧ t.tend.markAt = some s.now) ∧
  (∀ (s : State) (n : BitVec 32) (st : BitVec 48) (len : BitVec 11) (p : BitVec 3) (l : BitVec 2),
    s.mainUp = true → s.mirrored = true →
    ∃ t, Sys2Proof.Machine.exec (.tideMessage n st len p l) s = .next t ∧ t.tide.number = n ∧ t.tide.boundary = st ∧
      t.tide.lengthMs = max 1 (min len.toNat 1024) ∧
      t.tide.power = (if Power.ofCode p.toNat = .deep ∧ t.tide.life = .fleet then .standby else Power.ofCode p.toNat) ∧
      (s.tend.markAt ≠ none → t.tide.life = if s.mayFollow (match l.toNat with
        | 0 => .manufacture
        | 1 => .provision
        | 2 => .fleet
        | _ => .returned) then (match l.toNat with
        | 0 => .manufacture
        | 1 => .provision
        | 2 => .fleet
        | _ => .returned) else s.tide.life)) ∧
  (∀ (s : State) (env : TideEnv) (kat : BitVec 4) (cells : BitVec 6), s.port.main = .reset → s.sys.low &&& 0x1F#7 = 0#7 →
    s.sys.resetAt ≤ s.now →
    ∃ t, Sys2Proof.Machine.exec (.mainStart env kat cells) s = .next t ∧ t.tide.number = s.tide.number + 1#32 ∧
      t.tide.startAt = s.now ∧ t.now = s.now ∧ (t.tide.power = .standby ∨ t.tide.power = .drive))

/-! The manifest. -/

/-- R95, R664: OPEN takes the bulk window for a new image in IDLE; elsewhere, or while another import holds the window,
it ends with RESULT 15 and a notice of KIND 3. A block whose CRC matches becomes good, one whose CRC does not is
good no more, and no other block changes. VERIFY of a complete image starts the checks; VERIFY with a block missing names
it with RESULT 13 and latches source 36. The checks' signature is a verification job of the Keccak engine (R497). -/
def Obligations.ManifestImport : Prop :=
  (∀ s : State, s.hostReady = true → s.mf.state = .idle → s.port.bulk = .none →
    Sys2Proof.Machine.exec .manifestOpen s = .next (((s.reached 0x4000).upMf fun m => { m with
      state := .loading, good := [], len := m.loadLen.toNat, late := false, ownRead := false }).upPort fun p =>
        { p with bulk := .manifest })) ∧
  (∀ s : State, s.hostReady = true → s.mf.state ≠ .idle ∨ s.port.bulk ≠ .none →
    Sys2Proof.Machine.exec .manifestOpen s = .next (((s.reached 0x4000).upMf fun m =>
      { m with result := 15#4, detail := 0#8 }).notice 3 0x4000)) ∧
  (∀ (s : State) (crc : BitVec 32), s.hostReady = true → s.mf.state = .loading →
    ∃ t, Sys2Proof.Machine.exec (.manifestBlockCrc crc) s = .next t ∧
      t = { s.reached 0x400C with mf := { s.mf with blockResult := t.mf.blockResult, good := t.mf.good } } ∧
      (crc32c ((s.reached 0x400C).windowBlock s.mf.block.toNat s.mf.len) = crc →
        t.mf.blockResult = 1#2 ∧ s.mf.block.toNat ∈ t.mf.good) ∧
      (crc32c ((s.reached 0x400C).windowBlock s.mf.block.toNat s.mf.len) ≠ crc →
        t.mf.blockResult = 2#2 ∧ s.mf.block.toNat ∉ t.mf.good) ∧
      (∀ b, b ≠ s.mf.block.toNat → (b ∈ t.mf.good ↔ b ∈ s.mf.good))) ∧
  (∀ s : State, s.hostReady = true → s.mf.state = .loading → missingBlock s.mf.len s.mf.good = none →
    Sys2Proof.Machine.exec .manifestVerify s = .next (((s.reached 0x4000).upMf fun m =>
      { m with state := .verifying, verifyAt := s.now }).verification .manifest s.mf.len)) ∧
  (∀ (s : State) (b : Nat), s.hostReady = true → s.mf.state = .loading → missingBlock s.mf.len s.mf.good = some b →
    Sys2Proof.Machine.exec .manifestVerify s = .next (((s.reached 0x4000).upMf fun m =>
      { m with result := 13#4, detail := BitVec.ofNat 8 b }).latch 36))

/-- R95, R751: the checks end in VERIFIED with RESULT 1 where every check passes and in REFUSED with the result and detail of
the failed check where one does; source 36 latches. R67, R95: COMMIT of a verified image of a standalone device marks the
bank to be written invalid before the write; in RETURN it is ignored with a notice of KIND 3 (R139; log entry 53: the model's
reading). R95: a failed write refuses with RESULT 14 and latches source 39;
a good one, with no tender to wait for, fills the bank, leaves the other, and arms the commit. ABORT of an import that is
loading, verified or refused returns to IDLE and releases the window. -/
def Obligations.ManifestCommit : Prop :=
  (∀ s : State, s.mainUp = true → s.canVerify = true → s.mf.state = .verifying →
    ∃ t, Sys2Proof.Machine.exec .manifestVerifyDone s = .next t ∧
      t = { s with mf := t.mf, cry := t.cry, intc := t.intc } ∧ t.intc = s.intc.event 36 ∧
      match (s.imageCheck s.mf.len (Mem.load s.port.staging 0 s.mf.len)).1 with
      | .ok _ => t.mf.state = .verified ∧ t.mf.result = 1#4
      | .error (r, d) => t.mf.state = .refused ∧ t.mf.result = BitVec.ofNat 4 r ∧ t.mf.detail = BitVec.ofNat 8 d) ∧
  (∀ s : State, s.hostReady = true → s.tide.life = .returned →
    Sys2Proof.Machine.exec .manifestCommit s = .next ((s.reached 0x4000).notice 3 0x4000)) ∧
  (∀ s : State, s.hostReady = true → s.mf.state = .verified → s.cfg.role = .standalone → s.tide.life ≠ .returned →
    Sys2Proof.Machine.exec .manifestCommit s = .next ((s.reached 0x4000).upMf fun m =>
      { (m.modBank m.target Bank.invalid) with
        state := .writing, verifyAt := s.now, ownRead := false, pushSet := 0#32, pushAll := 0#32 })) ∧
  (∀ s : State, s.mainUp = true → s.mf.state = .writing → s.mf.ownRead = false → s.mf.pushAll = 0#32 →
    Sys2Proof.Machine.exec (.manifestWriteDone false) s = .next ((s.upMf fun m => { m with
      state := .refused, pushSet := 0#32, pushAll := 0#32, result := 14#4, detail := 0#8 }).latch 39)) ∧
  (∀ s : State, s.mainUp = true → s.mf.state = .writing → s.mf.ownRead = false → s.mf.pushSet = 0#32 →
    s.mf.pushAll = 0#32 →
    ∃ t, Sys2Proof.Machine.exec (.manifestWriteDone true) s = .next t ∧ t = { s with mf := t.mf } ∧
      t.mf.state = .armed ∧ t.mf.armed = (commitTideOf s.mf.commitTide s.tide.number).1 ∧
      (t.mf.bank s.mf.target).valid = true ∧ (t.mf.bank s.mf.target).image = s.port.staging ∧
      t.mf.bank (~~~s.mf.target) = s.mf.bank (~~~s.mf.target)) ∧
  (∀ s : State, s.hostReady = true → s.mf.state = .loading ∨ s.mf.state = .verified ∨ s.mf.state = .refused →
    Sys2Proof.Machine.exec .manifestAbort s = .next (((s.reached 0x4000).upMf fun m => { m with
      state := .idle, pushSet := 0#32, pushAll := 0#32, ownRead := false }).upPort fun p =>
        { p with bulk := .none, bulkQueue := [] }))

/-! Firmware. -/

/-- R702, R703: OPEN in IDLE takes the bulk window and marks the inactive bank invalid; a block whose CRC matches goes into
the inactive bank and becomes good, one whose CRC does not is good no more; VERIFY of a complete image releases the window
and starts the checks, with a verification job of the Keccak engine (R497); their end gives their result, and VERIFIED if it is 1, else REFUSED; ACTIVATE of a verified image of a
standalone device starts the distribution. -/
def Obligations.FirmwareImport : Prop :=
  (∀ s : State, s.portUp = true → s.fw.state = .idle → s.port.bulk = .none →
    Sys2Proof.Machine.exec .fwOpen s = .next (((s.upPort fun p => p.unlatch 0x40).upFw fun f =>
      { (f.modBank f.other Bank.invalid) with
        state := .loading, good := [], len := f.fwLen.toNat, ownRead := false }).upPort fun p => { p with bulk := .firmware })) ∧
  (∀ (s : State) (crc : BitVec 32), s.portUp = true → s.fw.state = .loading →
    let u := (s.upPort fun p => p.unlatch 0x4C).drainBulk
    let b := s.fw.block.toNat
    let data := Mem.load u.port.staging (4096 * (b % 256)) (min 4096 (s.fw.len - 4096 * b))
    (crc32c data = crc → Sys2Proof.Machine.exec (.fwBlockCrc crc) s = .next (u.upFw fun f =>
      { (f.modBank f.other fun k => { k with image := Mem.store k.image (4096 * b) data }) with
        blockResult := 1#2, good := b :: f.good.filter (· != b) })) ∧
    (crc32c data ≠ crc → Sys2Proof.Machine.exec (.fwBlockCrc crc) s = .next (u.upFw fun f =>
      { f with blockResult := 2#2, good := f.good.filter (· != b) }))) ∧
  (∀ s : State, s.portUp = true → s.fw.state = .loading → missingBlock s.fw.len s.fw.good = none → s.port.bulk = .firmware →
    Sys2Proof.Machine.exec .fwVerify s = .next ((((s.upPort fun p => p.unlatch 0x40).upFw fun f =>
      { f with state := .verifying, verifyAt := s.now }).upPort fun p =>
        { p with bulk := .none, bulkQueue := [] }).verification .firmware s.fw.len)) ∧
  (∀ s : State, s.mainUp = true → s.canVerify = true → s.fw.state = .verifying →
    ∃ t, Sys2Proof.Machine.exec .fwVerifyDone s = .next t ∧ t = { s with fw := t.fw, cry := t.cry } ∧
      t.fw.result = BitVec.ofNat 4 (s.fwCheck s.fwImage).1 ∧
      t.fw.state = (if (s.fwCheck s.fwImage).1 = 1 then .verified else .refused) ∧
      t.fw.bankA = s.fw.bankA ∧ t.fw.bankB = s.fw.bankB) ∧
  (∀ s : State, s.portUp = true → s.fw.state = .verified → s.cfg.role = .standalone →
    Sys2Proof.Machine.exec .fwActivate s = .next ((s.upPort fun p => p.unlatch 0x40).upFw fun f => { f with
      state := .distributing, verifyAt := s.now, ownRead := false, pushSet := 0#32, pushAll := 0#32 }))

/-- R703, R705: with the own bank read back and no tender to wait for, the import is armed; a failed read-back refuses with
RESULT 11. ABORT of a verified image marks the inactive bank invalid and returns to IDLE. When both pairs run the new bank a new
record names it active, under trial, for 1,024 boundaries; after the last of them a new record confirms the image and takes
its floor, and the change is logged. -/
def Obligations.FirmwareActivation : Prop :=
  (∀ s : State, s.mainUp = true → s.fw.state = .distributing → s.fw.ownRead = false → s.fw.pushSet = 0#32 →
    s.fw.pushAll = 0#32 →
    Sys2Proof.Machine.exec (.fwDistributionDone true) s = .next (s.upFw fun f =>
      { (f.modBank f.other fun k => { k with valid := true, len := f.len }) with
        ownRead := true, state := .armed, armed := (commitTideOf s.fw.switchTide s.tide.number).1 })) ∧
  (∀ s : State, s.mainUp = true → s.fw.state = .distributing → s.fw.ownRead = false → s.fw.pushAll = 0#32 →
    Sys2Proof.Machine.exec (.fwDistributionDone false) s = .next (s.upFw fun f => { f with
      state := .refused, pushSet := 0#32, pushAll := 0#32, result := 11#4, detail := 0#8 })) ∧
  (∀ s : State, s.portUp = true → s.fw.state = .verified → s.fw.pushAll = 0#32 → s.port.bulk ≠ .firmware →
    Sys2Proof.Machine.exec .fwAbort s = .next ((s.upPort fun p => p.unlatch 0x40).upFw fun f =>
      { (f.modBank f.other Bank.invalid) with state := .idle, pushSet := 0#32, pushAll := 0#32, ownRead := false })) ∧
  (∀ s : State, s.mainUp = true → s.fw.state = .handover → s.fw.hoA = true → s.fw.hoB = true →
    s.sys.pairAUp = true → s.sys.pairBUp = true →
    let r := { (s.fw.cur.activate s.fw.other s.fw.stagedVer) with trial := true, seq := s.fw.cur.seq + 1, crcOk := true }
    ∃ t, Sys2Proof.Machine.exec .fwHandoverDone s = .next t ∧ t = { s with fw := t.fw } ∧
      (t.fw = { s.fw with recA := r, state := .trial, left := 1024#11 } ∨
        t.fw = { s.fw with recB := r, state := .trial, left := 1024#11 })) ∧
  (∀ s : State, s.mainUp = true → s.fw.state = .trial → s.fw.left = 0#11 →
    let r := { s.fw.cur with trial := false, floor := s.fw.stagedFloor, seq := s.fw.cur.seq + 1, crcOk := true }
    ∃ t, Sys2Proof.Machine.exec .fwTrialEnd s = .next t ∧ t = { s with fw := t.fw, log := t.log, intc := t.intc } ∧
      (t.fw = { s.fw with recA := r, state := .idle } ∨ t.fw = { s.fw with recB := r, state := .idle }) ∧
      t.log.head = s.log.head + 1#32)

/-- R691, R692: a lockstep fault of one pair of a device that is not under trial, with no fault before it, stops that pair and
its enables, counts it, makes source 63 pending and is recorded; the pair comes back, and outside a handover nothing else
changes with it. -/
def Obligations.PairFaults : Prop :=
  (∀ (s : State) (b : Bool), s.mainUp = true → s.pairUp b = true → s.sys.pairFault = [] → s.fw.state ≠ .trial →
    ∃ t, Sys2Proof.Machine.exec (.lockstepFault b) s = .next t ∧ t.pairUp b = false ∧ t.pairUp (!b) = s.pairUp (!b) ∧
      t.sys.pairRestarts = s.sys.pairRestarts + 1#16 ∧ t.log.head = s.log.head + 1#32 ∧ t.port.main = s.port.main ∧
      t.intc.enables (pairTarget b) = 0#64 ∧ t.intc.pending.getLsbD 63 = true ∧
      t = { s with intc := t.intc, sys := t.sys, log := t.log }) ∧
  (∀ s : State, s.mainUp = true → s.sys.pairAUp = false → s.fw.state ≠ .handover →
    Sys2Proof.Machine.exec (.pairRejoin false) s = .next (s.upSys fun y => { y with pairAUp := true })) ∧
  (∀ s : State, s.mainUp = true → s.sys.pairBUp = false → s.fw.state ≠ .handover →
    Sys2Proof.Machine.exec (.pairRejoin true) s = .next (s.upSys fun y => { y with pairBUp := true }))

/-! Berths. -/

/-- R26 to R28, R30: a sighting opens the lowest-numbered FREE berth, as SIGHTED with its kind, anchor, tide and stamp and
everything else at its reset value, latches source 4 and in WATCH starts the dwell again (R133); no other berth changes. With no FREE berth it is
dropped, counted in FULL, and source 11 latches. -/
def Obligations.SightingOpensLowest : Prop :=
  ∀ (s : State) (kind : Nat) (anchor : BitVec 6) (stamp : Nat), s.bt.berths.length = 256 →
    (∀ n, s.freeBerth = some n →
      (∀ m, m < n → (s.berth m).id.st ≠ .free) ∧ n < s.cfg.count ∧ (s.sight kind anchor stamp).2 = some n ∧
      (let t := (s.sight kind anchor stamp).1
       t.berth n = { Berth.reset with id := { BerthId.reset with
         st := .sighted, kind := BitVec.ofNat 3 kind, anchor := anchor
         sightTide := s.tideOf stamp, sightAt := s.now, sightStamp := stamp, quietFrom := s.now } } ∧
       (∀ m, m ≠ n → t.berth m = s.berth m) ∧ t.intc = s.intc.event 4 ∧
       t = { s with bt := { s.bt with berths := t.bt.berths }, intc := t.intc
                    tide := if s.tide.power = .watch then { s.tide with dwellOut := false, dwellFrom := s.now } else s.tide })) ∧
    (s.freeBerth = none → (s.sight kind anchor stamp).2 = none ∧
      (s.sight kind anchor stamp).1 = (s.upBt fun b => { b with full := satInc b.full }).latch 11)

/-- R30, R38, R289: a berth that is cast off keeps what it holds but its state and cause; a phone's link gets CLOSE with the
cause at the end of its queue; no other berth changes. A berth that is FREE or CAST_OFF already is left alone. -/
def Obligations.CastOffBerth : Prop :=
  ∀ (s : State) (n : Nat) (cause : BitVec 8),
    ((s.berth n).id.st.held = false → s.castOff n cause = s) ∧
    ((s.berth n).id.st.held = true →
      let t := s.castOff n cause
      t.berth n = { s.berth n with id := { (s.berth n).id with st := .castOff, cause := cause } } ∧
      (∀ m, m ≠ n → t.berth m = s.berth m) ∧
      (s.linkOf n = none → t.nb = s.nb) ∧
      (∀ k, s.linkOf n = some k → t.nb = { s.nb with
        links := s.nb.links.modify k fun l => { l with queue := l.queue ++ [[7#8, 1#8, cause]] } }) ∧
      t.tide = { s.tide with dwellFrom := t.tide.dwellFrom } ∧
      t = { s with bt := { s.bt with berths := t.bt.berths }, nb := t.nb, tide := t.tide })

/-- R31, R34, R129: with a timer for the berth timers, a berth that is not moored within HAIL_TIMEOUT is cast off with cause 6,
one that is quiet for its time with cause 8, one that stays FAR for longer than the far timeout with cause 9; without that
timer none of them ends (log entry 52: the model's reading). R30, R63: CAST casts a held berth
off with cause 0x0C and makes a notice of KIND 3 for another; a tender ignores it. -/
def Obligations.BerthTimers : Prop :=
  (∀ (s : State) (n : BitVec 8), (s.berth n.toNat).id.st = .sighted ∨ (s.berth n.toNat).id.st = .hailed →
    s.berthTimers = true → s.timerElapsed (s.berth n.toNat).id.sightAt (ms s.cfg.hailMs) = true →
    Sys2Proof.Machine.exec (.hailTimeout n) s = .next (s.castOff n.toNat 6#8)) ∧
  (∀ (s : State) (n : BitVec 8), (s.berth n.toNat).id.st = .moored ∨ (s.berth n.toNat).id.st = .ranged →
    s.berthTimers = true → s.timerElapsed (s.berth n.toNat).id.quietFrom (sec s.cfg.quietS) = true →
    Sys2Proof.Machine.exec (.quietTimeout n) s = .next (s.castOff n.toNat 8#8)) ∧
  (∀ (s : State) (n : BitVec 8) (t : Nat), (s.berth n.toNat).id.st = .ranged →
    s.berthTimers = true → (s.berth n.toNat).id.farFrom = some t → t + sec s.cfg.farS < s.now →
    Sys2Proof.Machine.exec (.farTimeout n) s = .next (s.castOff n.toNat 9#8)) ∧
  (∀ (s : State) (n : BitVec 8), s.berthTimers = false →
    Sys2Proof.Machine.exec (.hailTimeout n) s = .next s ∧ Sys2Proof.Machine.exec (.quietTimeout n) s = .next s ∧
      Sys2Proof.Machine.exec (.farTimeout n) s = .next s) ∧
  (∀ (s : State) (n : BitVec 8) (v : BitVec 32), s.hostReady = true → s.cfg.role ≠ .tender → v.getLsbD 0 = true →
    (s.berth n.toNat).id.st.held = true →
    Sys2Proof.Machine.exec (.berthCast n v) s =
      .next ((s.reached (0x10000 + 64 * n.toNat + 0x28)).castOff n.toNat 0x0C#8)) ∧
  (∀ (s : State) (n : BitVec 8) (v : BitVec 32), s.hostReady = true → s.cfg.role ≠ .tender → v.getLsbD 0 = true →
    (s.berth n.toNat).id.st.held = false →
    Sys2Proof.Machine.exec (.berthCast n v) s =
      .next ((s.reached (0x10000 + 64 * n.toNat + 0x28)).notice 3 (0x10000 + 64 * n.toNat + 0x28))) ∧
  (∀ (s : State) (n : BitVec 8) (v : BitVec 32), s.hostReady = true → s.cfg.role = .tender →
    Sys2Proof.Machine.exec (.berthCast n v) s = .next (s.reached (0x10000 + 64 * n.toNat + 0x28)))

/-- R64: a write of BOOKING_LO is held; the write of BOOKING_HI that follows it arms both halves together. R352: VSEL copies the
verdict view of the named berth as one unit. -/
def Obligations.BookingAndView : Prop :=
  (∀ (s : State) (v : BitVec 32), s.hostReady = true → s.cfg.role ≠ .tender →
    Sys2Proof.Machine.exec (.bookingLoWrite v) s = .next ((s.reached 0x14000).upBt fun b =>
      { b with bookLo := v, bookLoFresh := true })) ∧
  (∀ (s : State) (v : BitVec 32), s.hostReady = true → s.cfg.role ≠ .tender → s.bt.bookLoFresh = true →
    Sys2Proof.Machine.exec (.bookingHiWrite v) s = .next ((s.reached 0x14004).upBt fun b =>
      { b with bookHi := v, bookLoFresh := false, bookNoLo := false
               booking := b.booking.write s.now (BitVec.ofNat 64 (s.bt.bookLo.toNat + 2 ^ 32 * v.toNat)) })) ∧
  (∀ (s : State) (v : BitVec 32), s.hostReady = true → s.cfg.role ≠ .tender →
    Sys2Proof.Machine.exec (.vselWrite v) s = .next ((s.reached 0x14028).upVer fun w =>
      { w with vsel := BitVec.ofNat 8 (fieldN v 7 0), view := (s.berth (fieldN v 7 0)).fu.view }))

/-! The start request and verdicts. -/

/-- R55: the winner of a start request is a berth that qualifies, and wins over every other berth that qualifies: the
holder of the booking in force (a BOOKING of 0 is none) wins; else the earlier T_MOOR; at equal T_MOOR
the lower number. There is a winner exactly if a berth qualifies. -/
def Obligations.StartWinner : Prop :=
  ∀ s : State,
    (∀ n, s.startWinner = some n → n < 256 ∧ s.qualifies n = true ∧
      let books (k : Nat) : Prop := s.bt.booking.force ≠ 0#64 ∧ (s.berth k).id.cred = s.bt.booking.force
      ∀ m, m < 256 → s.qualifies m = true → m = n ∨ (books n ∧ ¬ books m) ∨ ((books n ↔ books m) ∧
        ((s.berth n).id.tMoor < (s.berth m).id.tMoor ∨ (s.berth n).id.tMoor = (s.berth m).id.tMoor ∧ n < m))) ∧
    (s.startWinner = none ↔ ∀ m, m < 256 → s.qualifies m = false)

/-- R53: a press at a start pin of a device that is no tender is a wake event and starts the debounce of its pin. 2 ms later the
request is evaluated: with a winner it is granted to that berth, whose ticket goes to the lock keeper's queue;
while the lock keeper holds a release it is answered HELD (R56, R58, R425). -/
def Obligations.StartRequest : Prop :=
  (∀ (s : State) (m : BitVec 5), s.startPin m.toNat = true → s.cfg.role ≠ .tender → s.bt.debounce = [] →
    Sys2Proof.Machine.exec (.startButtonPress m) s = .next ((s.wake 6).upBt fun b => { b with debounce := [(m, s.now)] })) ∧
  (∀ (s : State) (m : BitVec 5) (t : Nat) (n : Nat), s.bt.debounce = [(m, t)] → t + ms 2 ≤ s.now → s.berthsRun = true →
    s.tide.power ≠ .deep → s.startBusy = false → s.lk.state.released? = false → s.ver.outAt = none →
    s.startWinner = some n →
    ∃ u, Sys2Proof.Machine.exec (.startDebounceEnd m) s = .next u ∧ u.bt.result = 2#3 ∧ u.bt.winner = BitVec.ofNat 8 n ∧
      u.bt.debounce = [] ∧ u.bt.berths = s.bt.berths ∧
      u.lk = { s.lk with queue := some { override := false, berth := BitVec.ofNat 8 n, cred := (s.berth n).id.cred, issued := s.baseAt s.now } } ∧
      u = { s with bt := u.bt, lk := u.lk, intc := u.intc, log := u.log }) ∧
  (∀ (s : State) (m : BitVec 5) (t : Nat), s.bt.debounce = [(m, t)] → t + ms 2 ≤ s.now → s.berthsRun = true →
    s.tide.power = .service → s.startBusy = false → s.lk.state.released? = true →
    Sys2Proof.Machine.exec (.startDebounceEnd m) s = .next (s.upBt fun b => { b with
      debounce := [], result := 3#3, reason := 0#4 }))

/-- R316, R60: where verdicts wait and the main domain runs, VERDICT_PUBLICATION publishes them all: none waits any more, and
PUBLISH gives the time since the boundary in microseconds. A berth that is MOORED or RANGED and has a verdict is RANGED
with the verdict's zone, confidence, relay flags, range and bearing, age 0 and the tide's number, and source 7 is pending;
the verdict of a berth in another state is dropped but for its relay flags (R351), and a berth without one keeps its
identity, zone and confidence, and counts in AGE the boundary whose verdicts these are, unless it is FREE (R63, R315).
Source 7 is pending where a verdict was issued. R148, R342: a latch pulse raises its output for its time, not while tamper holds the
outputs; its end lowers that output and leaves the other outputs and pulses. -/
def Obligations.VerdictPublished : Prop :=
  (∀ (s : State) (at_ : Nat), s.mainUp = true → s.ver.outAt = some at_ →
    ∃ t, Sys2Proof.Machine.exec .verdictPublication s = .next t ∧ t.now = s.now ∧ t.tide.number = s.tide.number ∧
      t.ver.out = [] ∧ t.ver.outAt = none ∧ t.ver.publish = clampNat 10 (roundDiv (s.now - at_) 64) ∧
      (∀ (o : VerdictOut) (before after : List VerdictOut), s.ver.out = before ++ o :: after →
        (∀ p ∈ after, p.berth ≠ o.berth) → (s.berth o.berth).id.st.moored? = true →
        (t.berth o.berth).id.st = .ranged ∧ (t.berth o.berth).fu.zone = o.zone ∧ (t.berth o.berth).fu.conf = o.conf ∧
          (t.berth o.berth).fu.relay = o.relay ∧ (t.berth o.berth).fu.range = o.range ∧ (t.berth o.berth).fu.az = o.az ∧
          (t.berth o.berth).fu.age = 0#8 ∧ (t.berth o.berth).fu.vtide = s.tide.number ∧
          t.intc.pending.getLsbD 7 = true) ∧
      (s.ver.out ≠ [] → t.intc.pending.getLsbD 7 = true) ∧
      (∀ n, (∀ o ∈ s.ver.out, o.berth ≠ n) ∨ (s.berth n).id.st.moored? = false →
        (t.berth n).id = (s.berth n).id ∧ (t.berth n).fu.zone = (s.berth n).fu.zone ∧
          (t.berth n).fu.conf = (s.berth n).fu.conf ∧
          (t.berth n).fu.age = (if (s.berth n).id.st ≠ .free ∧ (s.berth n).fu.ageDue = true then satInc (s.berth n).fu.age
            else (s.berth n).fu.age))) ∧
  (∀ (s : State) (o : VerdictOut), (s.berth o.berth).id.st.moored? = true →
    let t := s.storeVerdict o
    (t.berth o.berth).id.st = .ranged ∧ (t.berth o.berth).fu.zone = o.zone ∧ (t.berth o.berth).fu.conf = o.conf ∧
      (t.berth o.berth).fu.relay = o.relay ∧ (t.berth o.berth).fu.range = o.range ∧ (t.berth o.berth).fu.az = o.az ∧
      (t.berth o.berth).fu.age = 0#8 ∧ (t.berth o.berth).fu.vtide = s.tide.number ∧
      (t.berth o.berth).se = (s.berth o.berth).se ∧ (∀ m, m ≠ o.berth → t.berth m = s.berth m) ∧
      t = { s with bt := { s.bt with berths := t.bt.berths }, ver := { s.ver with seen := t.ver.seen, flagged := t.ver.flagged } }) ∧
  (∀ (s : State) (o : VerdictOut), (s.berth o.berth).id.st.moored? = false → s.storeVerdict o = s.upVer fun v => { v with
    seen := v.seen ||| o.relay, flagged := if o.relay = 0#8 then v.flagged else satInc v.flagged }) ∧
  (∀ (s : State) (m : BitVec 5) (t : Nat), (m, t) ∈ s.pins.pulses → t ≤ s.now →
    Sys2Proof.Machine.exec (.latchPulseEnd m) s = .next (s.upPins fun p => { p with
      outputs := setBit p.outputs m.toNat false, pulses := p.pulses.filter fun q => q.1 != m })) ∧
  (∀ (s : State) (pin : Nat), s.keys.tamperHold = true → s.latchPulse pin = s) ∧
  (∀ (s : State) (pin : Nat), s.keys.tamperHold = false → s.moored 19 = true → s.tide.power ≠ .deep →
    s.latchPulse pin = s.upPins fun p => { p with
      outputs := setBit p.outputs pin true
      pulses := (BitVec.ofNat 5 pin, s.now + ms (s.cfg.pins.getD pin PinCfg.reset).param.toNat) ::
        p.pulses.filter fun q => q.1.toNat != pin })

/-! Override tickets. -/

/-- R346, R349: VERIFY starts the checks, whose signature is a verification job of the Keccak engine (R497), and keeps the state to return to; a second one meanwhile makes a notice of KIND 3. A
ticket that passes writes its serial, becomes ACTIVE with between 1 and 16 uses, and is logged; one that fails leaves the
state before VERIFY, its serial unwritten, and gives its result. -/
def Obligations.OverrideVerify : Prop :=
  (∀ s : State, s.hostReady = true → s.cfg.role ≠ .tender → s.ver.ovrState ≠ .verifying →
    Sys2Proof.Machine.exec .ovrVerify s = .next (((s.reached 0x14100).upVer fun v =>
      { v with ovrState := .verifying, ovrPrev := s.ver.ovrState, ovrAt := s.now }).verification .ticket 64)) ∧
  (∀ s : State, s.hostReady = true → s.cfg.role ≠ .tender → s.ver.ovrState = .verifying →
    Sys2Proof.Machine.exec .ovrVerify s = .next ((s.reached 0x14100).notice 3 0x14100)) ∧
  (∀ s : State, s.mainUp = true → s.ver.ovrState = .verifying → s.canVerify = true →
    ∃ t, Sys2Proof.Machine.exec .ovrVerifyDone s = .next t ∧
      if s.ovrCheck (Mem.load s.ver.ovrBuf 0 0xC00) = 1 then
        t.ver.ovrState = .active ∧ t.ver.ovrResult = 1#4 ∧
        t.ver.ovrSerial = BitVec.ofNat 32 (leAt (Mem.load s.ver.ovrBuf 0 0xC00) 0x18 4) ∧
        1 ≤ t.ver.ovrUses.toNat ∧ t.ver.ovrUses.toNat ≤ 16 ∧ t.log.head = s.log.head + 1#32 ∧
        t = { s with
          ver := t.ver, log := t.log, intc := t.intc
          cry := { s.cry with verPass := satInc s.cry.verPass, kjobs := t.cry.kjobs } }
      else t.ver = { s.ver with
          ovrState := s.ver.ovrPrev, ovrResult := BitVec.ofNat 4 (s.ovrCheck (Mem.load s.ver.ovrBuf 0 0xC00)) } ∧
        t = { s with ver := t.ver, cry := { s.cry with verFail := t.cry.verFail, kjobs := t.cry.kjobs } })

/-- R346, R348: with no ticket a FIRE command gives RESULT 10. FIRE_RULE carries out a rule that the ticket grants, latches
source 8 and uses the ticket once; one that it does not grant gives RESULT 11. FIRE_START issues a release
ticket where the ticket grants it and no start is under way. CANCEL and the end of the window discard the ticket, the
latter with RESULT 12. NEW_NONCE draws 8 bytes from a generator that delivers. -/
def Obligations.OverrideFire : Prop :=
  (∀ (s : State) (r : BitVec 8), s.hostReady = true → s.cfg.role ≠ .tender → s.ver.ovrState = .idle →
    Sys2Proof.Machine.exec (.fireRule r) s = .next ((s.reached 0x14100).upVer fun v => { v with ovrResult := 10#4 }) ∧
    Sys2Proof.Machine.exec .fireStart s = .next ((s.reached 0x14100).upVer fun v => { v with ovrResult := 10#4 })) ∧
  (∀ (s : State) (r : BitVec 8) (x : Rule), s.hostReady = true → s.cfg.role ≠ .tender → s.ver.ovrState = .active →
    s.ver.ovrGrant.getLsbD 0 = true → r ∈ s.ver.ovrRules → s.cfg.rules.find? (fun q => q.id == r) = some x →
    Sys2Proof.Machine.exec (.fireRule r) s = .next ((((s.reached 0x14100).act x).latch 8).ovrUse 2 r)) ∧
  (∀ (s : State) (r : BitVec 8), s.hostReady = true → s.cfg.role ≠ .tender → s.ver.ovrState = .active →
    s.ver.ovrGrant.getLsbD 0 = false ∨ r ∉ s.ver.ovrRules →
    Sys2Proof.Machine.exec (.fireRule r) s = .next ((s.reached 0x14100).upVer fun v => { v with ovrResult := 11#4 })) ∧
  (∀ s : State, s.hostReady = true → s.cfg.role ≠ .tender → s.ver.ovrState = .active → s.ver.ovrGrant.getLsbD 1 = true →
    s.cfg.loaded = true → s.startBusy = false → s.lk.state.released? = false →
    Sys2Proof.Machine.exec .fireStart s = .next (((s.reached 0x14100).issueTicket true 0xFF#8 0#64).ovrUse 3 0#8)) ∧
  (∀ s : State, s.hostReady = true → s.cfg.role ≠ .tender → s.ver.ovrState = .active →
    Sys2Proof.Machine.exec .ovrCancel s = .next ((s.reached 0x14100).upVer fun v =>
      { v with ovrState := .idle, ovrPrev := .idle, ovrUses := 0#5 })) ∧
  (∀ s : State, s.ver.ovrState = .active → s.ver.ovrEnd ≤ s.baseAt s.now →
    Sys2Proof.Machine.exec .ovrWindowEnd s = .next (s.upVer fun v =>
      { v with ovrState := .idle, ovrPrev := .idle, ovrUses := 0#5, ovrResult := 12#4 })) ∧
  (∀ s : State, s.hostReady = true → s.cfg.role ≠ .tender → s.trng.serves = true → s.trng.held = [] →
    Sys2Proof.Machine.exec .ovrNewNonce s = .next (((s.reached 0x14100).draw 8).2.upVer fun v =>
      { v with ovrNonce := BitVec.ofNat 64 (leAt (s.draw 8).1 0 8), ovrNonceAt := s.baseAt s.now }))

/-! The lock keeper. -/

/-- R428, R430: the start lock is released by nothing but a valid STATUS of the engine controller that accepts the handshake
under way: no other command takes the lock keeper from a state without a release to one with it. -/
def Obligations.OnlyStatusReleases : Prop :=
  ∀ (c : Instr) (s t : State), Sys2Proof.Machine.exec c s = .next t → s.lk.state.released? = false →
    t.lk.state.released? = true →
    ∃ e ep sq mac, c = .lkStatus e 1#2 ep sq mac ∧ s.lk.alive = true ∧ s.lk.ownsCan = true ∧ s.lk.state = .answered ∧
      s.statusValid e 1#2 ep sq mac = true

/-- R427, R430: a ticket that reaches the lock keeper in LOCKED with its window open is accepted: a REQUEST with the next REQ_CTR
is handed to controller 7 and the state is REQUESTED, and the view of the latest release stands (R433). In another state it is refused, counted and logged, and the start request
ends with REASON 4. At the end of its window an unconsumed ticket is discarded and counted; within the window the
request timer takes the next REQ_CTR for a new REQUEST. -/
def Obligations.TicketHandling : Prop :=
  (∀ (s : State) (k : Ticket), s.lk.alive = true → s.lk.queue = some k → s.lk.state = .locked → s.lk.busOff = false →
    s.lk.windowOpen k = true →
    ∃ t, Sys2Proof.Machine.exec .ticketDelivery s = .next t ∧ t.lk.state = .requested ∧ t.lk.ticket = some k ∧
      t.lk.queue = none ∧ t.lk.viewTicket = s.lk.viewTicket ∧ t.lk.shown = k ∧ t.lk.reqCtr = s.lk.reqNext ∧
      t.lk.reqNext = s.lk.reqNext + 1#8 ∧
      t.lk.waiting = s.lk.waiting ++ [le 4 s.lk.record.lock.idRequest.toNat ++
        padTo 8 [1#8, s.lk.reqNext, s.lk.record.epoch, if k.override then 1#8 else 0#8]] ∧
      t.lk.timerFrom = s.lk.shadow ∧ t.lk.toggling = s.lk.toggling ∧
      t = { s with lk := t.lk, intc := t.intc }) ∧
  (∀ (s : State) (k : Ticket), s.lk.alive = true → s.lk.queue = some k → s.lk.state ≠ .locked → s.port.main ≠ .reset →
    ∃ t, Sys2Proof.Machine.exec .ticketDelivery s = .next t ∧ t.lk = { s.lk with queue := none, refused := s.lk.refused + 1#16 } ∧
      t.bt = { s.bt with result := 4#3, reason := 4#4 } ∧ t.log.head = s.log.head + 1#32 ∧
      t = { s with lk := t.lk, bt := t.bt, log := t.log, intc := t.intc }) ∧
  (∀ (s : State) (k : Ticket), s.lk.ticket = some k → s.lk.state = .requested ∨ s.lk.state = .answered →
    k.issued + sec s.lk.record.lock.ticketS ≤ s.lk.shadow →
    Sys2Proof.Machine.exec .ticketWindowEnd s = .next ((s.upLk fun x =>
      { x with ticket := none, state := .locked, expired := x.expired + 1#16 }).lkLatch 56)) ∧
  (∀ (s : State) (k : Ticket), s.lk.ticket = some k → s.lk.state = .requested → s.lk.timerFrom + ms 100 ≤ s.lk.shadow →
    s.lk.windowOpen k = true →
    ∃ t, Sys2Proof.Machine.exec .requestTimerExpiry s = .next t ∧ t.lk.state = .requested ∧
      t.lk.reqCtr = s.lk.reqNext ∧ t.lk.reqNext = s.lk.reqNext + 1#8 ∧ t.lk.resends = s.lk.resends + 1#16 ∧
      t.lk.timerFrom = s.lk.shadow ∧ t.lk.ticket = some k ∧ t = { s with lk := t.lk })

/-- Where the lock keeper owns controller 7 (R402): R420, R430: in REQUESTED a CHALLENGE that names the REQ_CTR of the request, under an epoch whose key is held, is answered
with RESULT 0 and the leading 48 bits of the CMAC over NONCE, REQ_CTR, KEY_EPOCH and the device identifier, and the
state is ANSWERED; in LOCKED every CHALLENGE is answered DENY. R422, R430, R433: a valid STATUS that accepts the
handshake consumes the ticket, counts it and begins a release: the pins toggle, the view keeps the ticket, and ENGINE 3 is
reported to the tide unit (R438). A valid STATUS that rejects it discards the ticket, counts the rejection and
latches sources 59 and 56 (R430, R444). A STATUS that is not valid is counted and does nothing else. -/
def Obligations.Handshake : Prop :=
  (∀ (s : State) (ctr ep : BitVec 8) (nonce : BitVec 48) (us_ : BitVec 16) (key : Bytes), s.lk.alive = true →
    s.lk.ownsCan = true → s.lk.state = .requested → ctr = s.lk.reqCtr → s.lk.keyOf ep = some key →
    Sys2Proof.Machine.exec (.lkChallenge ctr ep nonce us_) s = .next (s.upLk fun k => { k with
      nonce := nonce, epochUnknown := false, answerUs := us_, state := .answered
      tx := ((le 4 k.record.lock.idAnswer.toNat ++ padTo 8 ([0#8, ctr] ++ padTo 6
        ((cmac key (le 6 nonce.toNat ++ [ctr, ep] ++ le 8 s.ident.device.toNat)).take 6))) :: k.tx).take 16
      waiting := k.waiting ++ [le 4 k.record.lock.idAnswer.toNat ++ padTo 8 ([0#8, ctr] ++ padTo 6
        ((cmac key (le 6 nonce.toNat ++ [ctr, ep] ++ le 8 s.ident.device.toNat)).take 6))] })) ∧
  (∀ (s : State) (ctr ep : BitVec 8) (nonce : BitVec 48) (us_ : BitVec 16), s.lk.alive = true → s.lk.ownsCan = true →
    s.lk.state = .locked →
    Sys2Proof.Machine.exec (.lkChallenge ctr ep nonce us_) s = .next (s.upLk fun k => { k with
      nonce := nonce, answerUs := us_
      tx := ((le 4 k.record.lock.idAnswer.toNat ++ padTo 8 ([1#8, ctr] ++ padTo 6 [])) :: k.tx).take 16
      waiting := k.waiting ++ [le 4 k.record.lock.idAnswer.toNat ++ padTo 8 ([1#8, ctr] ++ padTo 6 [])] })) ∧
  (∀ (s : State) (e : BitVec 2) (ep sq : BitVec 8) (mac : BitVec 32) (k : Ticket), s.lk.alive = true →
    s.lk.ownsCan = true → s.lk.state = .answered → s.lk.ticket = some k → s.statusValid e 1#2 ep sq mac = true →
    ∃ t, Sys2Proof.Machine.exec (.lkStatus e 1#2 ep sq mac) s = .next t ∧
      t.lk.state = (if e = 3#2 then .running else .released) ∧ t.lk.toggling = true ∧ t.lk.ticket = none ∧
      t.lk.viewTicket = k ∧ t.lk.accepted = s.lk.accepted + 1#16 ∧ t.lk.engine = e ∧
      t.log.head = (if s.port.main = .reset then s.log.head else s.log.head + 1#32) ∧
      t.tide = (if e = 3#2 then { s.tide with engineRunning := true, ignitionOff := false } else s.tide) ∧
      t = { s with lk := t.lk, log := t.log, intc := t.intc, tide := t.tide }) ∧
  (∀ (s : State) (e : BitVec 2) (ep sq : BitVec 8) (mac : BitVec 32), s.lk.alive = true → s.lk.ownsCan = true →
    s.lk.state = .answered → s.statusValid e 2#2 ep sq mac = true →
    Sys2Proof.Machine.exec (.lkStatus e 2#2 ep sq mac) s = .next (((s.upLk fun k => { k with
      engine := e, seq := sq, seqSeen := true, statusFrom := k.shadow, ecuSilent := false
      rejects := k.rejects + 1#16, ticket := none, state := .locked }).lkLatch 59).lkLatch 56)) ∧
  (∀ (s : State) (e v : BitVec 2) (ep sq : BitVec 8) (mac : BitVec 32), s.lk.alive = true → s.lk.ownsCan = true →
    s.statusValid e v ep sq mac = false →
    Sys2Proof.Machine.exec (.lkStatus e v ep sq mac) s = .next (s.upLk fun k => { k with badMac := k.badMac + 1#16 }))

/-- R430, R434, R436: 60 s in RELEASED without ENGINE 3 end the release: the pins are static, the state is LOCKED, and
the end is logged, unless the main domain is in reset (R443). R424: 1 s without a valid STATUS sets ECU_SILENT. R435: the third reading in a row that disagrees with the
driven level sets STEN_FAULT, and the pattern goes on. R417: the bus-off of a controller 7 that the lock keeper
owns is flagged. Source 59 latches for the last three,
unless the main domain is in reset (R443). -/
def Obligations.LockTimers : Prop :=
  (∀ s : State, s.lk.state = .released → s.lk.crankFrom + sec 60 ≤ s.lk.shadow →
    ∃ t, Sys2Proof.Machine.exec .crankWindowEnd s = .next t ∧ t.lk = { s.lk with toggling := false, state := .locked } ∧
      t.log.head = (if s.port.main = .reset then s.log.head else s.log.head + 1#32) ∧
      t = { s with lk := t.lk, log := t.log, intc := t.intc }) ∧
  (∀ s : State, s.lk.alive = true → s.lk.ecuSilent = false → s.lk.statusFrom + sec 1 ≤ s.lk.shadow →
    Sys2Proof.Machine.exec .ecuSilent s = .next ((s.upLk fun k => { k with ecuSilent := true }).lkLatch 59)) ∧
  (∀ s : State, s.lk.alive = true → s.lk.stenFault = false → s.lk.stenBad < 2 →
    Sys2Proof.Machine.exec (.stenReadback false) s = .next (s.upLk fun k => { k with
      stenBad := s.lk.stenBad + 1, stenGood := 0 })) ∧
  (∀ s : State, s.lk.alive = true → s.lk.stenFault = false → s.lk.stenBad = 2 →
    Sys2Proof.Machine.exec (.stenReadback false) s = .next ((s.upLk fun k => { k with
      stenBad := 3, stenGood := 0, stenFault := true }).lkLatch 59)) ∧
  (∀ s : State, s.lk.alive = true → s.lk.record.can.owner = 2#8 → s.lk.busOff = false →
    Sys2Proof.Machine.exec .lkBusOff s = .next (((s.modCtl 7 fun c => { c with
      tecN := 255, recN := min (s.ctl 7).recN 255, state := if c.state = 0#2 then 0#2 else 3#2 }).upLk fun k =>
        { k with busOff := true }).lkLatch 59)) ∧
  (∀ s : State, (s.lkLatch 59).intc = if s.port.main = .reset then s.intc else s.intc.event 59)

/-- R406: a supply trip holds the island in reset: no release, ticket or engine state survives it, the record does, the
pins are high-impedance, and a PAIR that waits ends with RESULT 14. R407, R409: its power-up reads the record; with the tests passed it is LOCKED or INACTIVE
as the record says, with a failed test INACTIVE with cause SELFTEST, and never with a release; a record that gives it
controller 7 configures that controller and puts it on the bus (R414). The sequence repeated 1 s after a failed test
keeps the registers (R442). -/
def Obligations.IslandSupply : Prop :=
  (∀ s : State, ∃ t, Sys2Proof.Machine.exec .islandSupplyTrip s = .next t ∧ t.lk.alive = false ∧
    t.lk.state = LockKeeper.reset.state ∧ t.lk.toggling = false ∧ t.lk.ticket = none ∧ t.lk.queue = none ∧
    t.lk.mram = s.lk.mram ∧ t.sten = none ∧
    t.keys = (if s.keys.pairing then { s.keys with busy := false, pairing := false, result := 14#5 } else s.keys) ∧
    t.intc = (if s.keys.pairing then s.intc.event 44 else s.intc) ∧
    t.tide = { s.tide with engineRunning := false, ignitionOff := false } ∧
    t = { s with lk := t.lk, keys := t.keys, intc := t.intc, tide := t.tide
                 sys := { s.sys with holdupDeep := t.sys.holdupDeep } }) ∧
  (∀ s : State, s.lk.alive = false →
    ∃ t, Sys2Proof.Machine.exec (.islandPowerUp true) s = .next t ∧ t.lk.alive = true ∧ t.lk.record = s.lk.mram ∧
      t.lk.state = s.lk.mram.stateOf.1 ∧ t.lk.cause = s.lk.mram.stateOf.2 ∧ t.lk.toggling = false ∧
      t.lk.state.released? = false ∧ t.sten = some (false, true) ∧
      t.can = (if s.lk.mram.can.owner = 2#8 then (s.modCtl 7 fun c =>
        { c with owner := 2#8, state := 1#2, tecN := 0, recN := 0, protoExc := false }).can else s.can) ∧
      t = { s with lk := t.lk, can := t.can }) ∧
  (∀ s : State, s.lk.alive = false →
    ∃ t, Sys2Proof.Machine.exec (.islandPowerUp false) s = .next t ∧ t.lk.state = .inactive ∧ t.lk.cause = 4#3 ∧
      t.lk.toggling = false ∧ t.sten = some (false, true) ∧ t = { s with lk := t.lk }) ∧
  (∀ s : State, s.lk.alive = true → s.lk.state = .inactive → s.lk.cause = 4#3 →
    s.lk.selftestAt + sec 1 ≤ s.lk.shadow →
    ∃ t, Sys2Proof.Machine.exec (.islandSelftestRetry true) s = .next t ∧ t.lk.record = s.lk.mram ∧
      t.lk = { s.lk with
        record := t.lk.record, recPending := false, state := s.lk.mram.stateOf.1, cause := s.lk.mram.stateOf.2
        busOff := t.lk.busOff, pairing := t.lk.pairing, pairLeft := t.lk.pairLeft } ∧
      t = { s with lk := t.lk, can := t.can })


/-! Low-frequency field and fobs. -/

/-- R161, R172, R181, R196, R199: the frame that is due first by its rank goes on the air until its end, leaving the work; it
drives those of its antennas that are present and find room, and says what a poll of this tide says or what its work holds.
R169, R195: at its end a wake, a touch or a polling pattern opens an answer window, a slotted wake its round; a pattern that a
touch has cut opens none. R194, R195: a window without a collision ends the fallback; with one, source 21 latches and a
slotted round of k = 1 waits for its seed; so does the next k after a round with a collision, below 4; at 4 it counts
UNRESOLVED and latches source 23; either way the answers it holds are then delivered in their order. R197: a touch wakes the
device and asks for a wake frame on the antennas of its zone that are present; with none, or in DRIVE, it is recorded
instead. R142, R198: a polling pattern asks for one on the chart's mask. R140: a sniff is noted. -/
def Obligations.LfFrames : Prop :=
  (∀ (s : State) (w : LfWork), firstByRank s.lfDue = some w → s.lfReady = true → s.lf.vlfLow = false → s.lfValid w = true →
    ∃ t, Sys2Proof.Machine.exec .lfFrameStart s = .next t ∧ t.lf.busy = true ∧ t.lf.queue = s.lf.queue.erase w ∧
      (let d := if w.kind = .poll ∧ s.cfg.role ≠ .tender then s.pollData w.berth s.now else w.data
       t.lf.frame = s.frameOf (s.cappedMask w.mask) d ∧
       t.lf.onAir = some { w with
         mask := ofBits 16 (s.cappedMask w.mask), notBefore := s.now + slotTicks t.lf.frame, data := d }) ∧
      t.lf.drivers = s.lf.drivers ∧ (w.kind ≠ .poll → t.bt = s.bt ∧ t.lf.fallbacks = s.lf.fallbacks) ∧
      t = { s with lf := t.lf, tend := { s.tend with sched := t.tend.sched }, bt := t.bt }) ∧
  (∀ (s : State) (w : LfWork) (l : List LfSense), s.lf.onAir = some w → s.mainUp = true → w.notBefore ≤ s.now →
    s.lf.touchCut = false → s.cfg.role ≠ .tender →
    ∃ t, Sys2Proof.Machine.exec (.lfPatternEnd l) s = .next t ∧ t.lf.busy = false ∧ t.lf.onAir = none ∧
      (w.kind = .slotted → t.lf.fallbacks = s.lf.fallbacks.map fun f => if f.no = w.berth then
        { f with state := .round, windowAt := s.now, answers := [], bad := false } else f) ∧
      (w.kind = .wake ∨ w.kind = .handle ∨ w.kind = .pollPattern → t.lf.fallbacks = s.lf.fallbacks ++
        [{ Fallback.reset with no := s.lf.fallbackNo, state := .window, mask := w.mask, windowAt := s.now }]) ∧
      t.lf.drivers.length = s.lf.drivers.length ∧ t = { s with lf := t.lf, bt := t.bt, intc := t.intc }) ∧
  (∀ (s : State) (w : LfWork) (l : List LfSense), s.lf.onAir = some w → s.mainUp = true → w.notBefore ≤ s.now →
    s.lf.touchCut = true →
    ∃ t, Sys2Proof.Machine.exec (.lfPatternEnd l) s = .next t ∧ t.lf.busy = false ∧ t.lf.onAir = none ∧
      t.lf.fallbacks = s.lf.fallbacks ∧ t = { s with lf := t.lf, intc := t.intc }) ∧
  (∀ (s : State) (f : Fallback) (air : AirHeard),
    s.lf.fallbacks.find? (fun g => g.state == .window && s.elapsed g.windowAt (us 1250)) = some f → s.mainUp = true →
    let shut (l : Lf) : Lf := { l with closed := ((f.windowAt + us 50, f.windowAt + f.span, f.mask) :: l.closed).take 4 }
    (f.collided air = false → Sys2Proof.Machine.exec (.answerWindowClose air) s =
      .next (State.deliverAnswers f.mask [] f.answers (s.upLf fun l =>
        { (shut l) with fallbacks := l.fallbacks.filter fun g => g.no != f.no }))) ∧
    (f.collided air = true → Sys2Proof.Machine.exec (.answerWindowClose air) s =
      .next ((State.deliverAnswers f.mask [] f.answers (((s.upLf fun l => { l with
        collisions := satInc l.collisions }).latch 21).upLf fun l => { (shut l) with
          fallbacks := l.fallbacks.map fun g => if g.no = f.no then
            { g with state := .slotted, k := 1, seedDue := true, answers := [], bad := false } else g })).request .lfSeed))) ∧
  (∀ (s : State) (f : Fallback) (air : AirHeard),
    s.lf.fallbacks.find? (fun g => g.state == .round && s.elapsed g.windowAt (us (100 + 1250 * 2 ^ (g.k + 2)))) = some f →
    s.mainUp = true →
    let shut (l : Lf) : Lf := { l with closed := ((f.windowAt + us 50, f.windowAt + f.span, f.mask) :: l.closed).take 4 }
    let drop (l : Lf) : Lf := { (shut l) with fallbacks := l.fallbacks.filter fun g => g.no != f.no }
    let hit (s : State) : State := s.upLf fun l => { l with collisions := satInc l.collisions }
    (f.collided air = false → Sys2Proof.Machine.exec (.slottedRoundClose air) s =
      .next (State.deliverAnswers f.mask [] f.answers (s.upLf drop))) ∧
    (f.collided air = true → f.k < 4 → Sys2Proof.Machine.exec (.slottedRoundClose air) s =
      .next ((State.deliverAnswers f.mask [] f.answers ((hit s).upLf fun l => { (shut l) with
          fallbacks := l.fallbacks.map fun g => if g.no = f.no then
            { g with state := .slotted, k := f.k + 1, seedDue := true, answers := [], bad := false } else g })).request
        .lfSeed)) ∧
    (f.collided air = true → 4 ≤ f.k → Sys2Proof.Machine.exec (.slottedRoundClose air) s =
      .next (State.deliverAnswers f.mask [] f.answers ((((hit s).upLf fun l => { l with
        unresolved := satInc l.unresolved }).latch 23).upLf drop)))) ∧
  (∀ (s : State) (m : BitVec 5), (s.cfg.pins.getD m.toNat PinCfg.reset).func = 2#8 → s.mainUp = true → s.mfpSeen = true →
    s.moored 20 = true → s.tide.power ≠ .deep → s.cfg.role ≠ .tender →
    let zone := (s.cfg.pins.getD m.toNat PinCfg.reset).param.toNat
    let on := (s.wake 0).presentOf ((s.cfg.chart.handles[zone]?.map (·.mask)).getD 0#16)
    ∃ t, Sys2Proof.Machine.exec (.handleTouch m) s = .next t ∧ t.tide = (s.wake 0).tide ∧ t.bt = s.bt ∧
      t.lf.drivers = s.lf.drivers ∧
      (on ≠ [] → s.tide.power ≠ .drive → ∃ at_, t.lf.queue = s.lf.queue ++
        [{ LfWork.reset with kind := .handle, mask := ofBits 16 on, notBefore := at_ }]) ∧
      (on = [] ∨ s.tide.power = .drive → t.lf.queue = s.lf.queue ∧ t.log.head = s.log.head + 1#32)) ∧
  (∀ (s : State) (p : Nat), s.lfPeriod = some p → s.mainUp = true → s.cfg.loaded = true → s.moored 0 = true →
    s.plansPolling = true → s.timerElapsed s.tide.lfPollAt (ms p) = true → s.wakePending = false →
    ofBits 16 (s.presentOf s.cfg.chart.pollMask) ≠ 0#16 → s.tidePolls = false → s.lf.vlfLow = false →
    Sys2Proof.Machine.exec .lfPollingPattern s = .next ((s.upTide fun t => { t with
      lfPollAt := s.now, lfPer := if s.tide.power = .standby then 250 * 2 ^ s.lfStep else 0 }).lfQueue
        { LfWork.reset with kind := .pollPattern, mask := ofBits 16 (s.presentOf s.cfg.chart.pollMask) })) ∧
  (∀ s : State, s.mainUp = true → s.tide.power = .standby → s.moored 7 = true →
    s.timerElapsed s.tide.sniffAt (ms 100) = true →
    Sys2Proof.Machine.exec .uhfSniff s = .next (s.upTide fun t => { t with sniffAt := s.now }))

/-- R166, R187: CAL asks for a calibration, CLR_IDLE empties the IDLE list. R162, R167, R171: a calibration whose time is over
stores the code that its search found for an enabled driver that no override holds, and enables again one found within
limits; the other drivers stay as they are, but that an override sets the bank of its driver. R164, R170, R173: a trip of a
driver that carries current marks it SHORT and disables it, which a tender reports; a flag that changes latches source 22. R170: VLF below
7.5 V is low at once. -/
def Obligations.LfDrivers : Prop :=
  (∀ s : State, s.hostReady = true →
    Sys2Proof.Machine.exec .lfCal s = .next ((s.reached 0x40000).upLf fun l => { l with calReq := true }) ∧
    Sys2Proof.Machine.exec .clrIdle s = .next ((s.reached 0x40000).upLf fun l => { l with idleList := [] })) ∧
  (∀ (s : State) (i : BitVec 4) (phases : List Int), s.lf.ok = true → s.lf.calib = true → s.mainUp = true →
    s.cfg.role ≠ .tender → s.lf.calAt + s.calTicks ≤ s.now → s.lf.calDue = false →
    s.cfg.radio.lfEnable.getLsbD i.toNat = true → (s.driver i.toNat).ovr.force.getLsbD 6 = false →
    ∃ t, Sys2Proof.Machine.exec (.lfCalibrationDone [{ driver := i, phases := phases, ok := true }]) s = .next t ∧
      t.lf.calib = false ∧ (t.driver i.toNat).code = calCode phases ∧ (t.driver i.toNat).opn = false ∧
      (t.driver i.toNat).short = false ∧ (t.driver i.toNat).disabled = false ∧
      (∀ j, j ≠ i.toNat → t.driver j = { s.driver j with code := (t.driver j).code } ∧
        ((s.driver j).ovr.force.getLsbD 6 = false → (t.driver j).code = (s.driver j).code)) ∧
      t = { s with lf := { s.lf with drivers := t.lf.drivers, calib := false }, intc := t.intc }) ∧
  (∀ (s : State) (d : BitVec 4), s.lf.ok = true → s.mainUp = true → d.toNat ∈ s.driving →
    ∃ t, Sys2Proof.Machine.exec (.driverTrip d) s = .next t ∧ (t.driver d.toNat).short = true ∧
      (t.driver d.toNat).disabled = true ∧ (t.driver d.toNat).code = (s.driver d.toNat).code ∧
      (∀ j, j ≠ d.toNat → t.driver j = s.driver j) ∧
      t.intc = (if (s.driver d.toNat).short = true ∧ (s.driver d.toNat).disabled = true then s.intc else s.intc.event 22) ∧
      (s.cfg.role ≠ .tender → t.pier = s.pier) ∧
      t = { s with lf := { s.lf with drivers := t.lf.drivers }, intc := t.intc, pier := t.pier }) ∧
  (∀ (s : State) (v : BitVec 12), s.mainUp = true → v.toNat < 750 →
    Sys2Proof.Machine.exec (.vlfLow v) s = .next ((s.upLf fun l =>
      { l with vlfLow := true, vlfNow := v, vlfGoodFrom := none }).latchIf (!s.lf.vlfLow) 22))

/-- R195: a wake answer in an open window or round waits for its close. R186, R187: one that is delivered, of a fob that holds no
berth and is not remembered idle, sights it. R30, R183, R191: a challenge response whose MAC holds caches its counter
and moors the berth; one whose MAC does not casts it off with cause 5. R190, R192: a telegram of a moored fob whose MAC
holds, with a counter above the cached one and not more than 256 above it, is a wake event, and its command is accepted.
R182, R184: a poll report of the expected count, as long as its poll asks, whose MAC holds is taken. R205, R206: the fit of
a report fills the FIT registers and latches source 20. Each check is a use of the berth's authentication key, which is the
AES engine's job at the verdict path's level (R491), once the generator has delivered and while the engine has not failed
(R481, R499); a use that R452 refuses is counted, and nothing else comes of the frame. -/
def Obligations.FobFrames : Prop :=
  (∀ (s : State) (rx : UhfRx) (flags : BitVec 4) (fob : BitVec 64) (idle : BitVec 8) (f : Fallback),
    s.hearsUhf rx (wakeAnswerBytes flags fob idle) = true → s.lf.fallbacks.find? (fun g => g.hears rx.stamp) = some f →
    Sys2Proof.Machine.exec (.wakeAnswer rx flags fob idle) s =
      .next ((s.heardUhf rx (wakeAnswerBytes flags fob idle)).upLf fun l => { l with fallbacks := l.fallbacks.map fun g =>
        if g.no = f.no then { g with answers := g.answers ++ [(rx.anchor, rx.stamp, wakeAnswerBytes flags fob idle)] }
        else g })) ∧
  (∀ (s : State) (m : BitVec 16) (anchor : BitVec 6) (stamp : Nat) (flags : BitVec 4) (fob : BitVec 64) (idle : BitVec 8),
    s.berthOf fob = none → s.lf.idleList.contains fob = false →
    State.deliverAnswers m [] [(anchor, stamp, wakeAnswerBytes flags fob idle)] s =
      (if 60 < idle.toNat ∧ flags.getLsbD 0 = false then s else s.upLf fun l =>
        { l with idleList := l.idleList.filter (· != fob) }).sightAnswer m anchor stamp fob
          (decide (60 < idle.toNat) && !flags.getLsbD 0 && !s.pressedLately fob)) ∧
  (∀ (s : State) (rx : UhfRx) (flags : BitVec 4) (fob : BitVec 64) (c : BitVec 32) (mac : BitVec 64) (n : Nat),
    s.hearsUhf rx (responseBytes flags fob c mac) = true → s.berthOf fob = some n → (s.berth n).id.st = .hailed →
    (s.berth n).isFob = true → (s.berth n).se.challengeSent = true → (s.berth n).se.kept = none →
    s.keysServe = true →
    let u := (s.heardUhf rx (responseBytes flags fob c mac)).keyJob (.auth n) 3#2 4#4 7#5 17
    let good := macOf (s.berth n).se.authKey 8 ((s.berth n).nonce5 ++ be 8 fob.toNat ++ be 4 c.toNat) == be 8 mac.toNat
    (s.useAdmits (.auth n) 4#4 true 1 = true → good = true →
      Sys2Proof.Machine.exec (.challengeResponse rx flags fob c mac) s =
        .next (((u.cacheCounter fob c).modSe n fun b => { b with counter := c, kept := none }).moor n)) ∧
    (s.useAdmits (.auth n) 4#4 true 1 = true → good = false →
      Sys2Proof.Machine.exec (.challengeResponse rx flags fob c mac) s = .next (u.castOff n 5#8)) ∧
    (s.useAdmits (.auth n) 4#4 true 1 = false →
      Sys2Proof.Machine.exec (.challengeResponse rx flags fob c mac) s =
        .next ((s.heardUhf rx (responseBytes flags fob c mac)).violation 4#4))) ∧
  (∀ (s : State) (rx : UhfRx) (cmd : BitVec 4) (fob : BitVec 64) (c l : BitVec 32) (idle : BitVec 8) (mac : BitVec 64) (n : Nat),
    s.hearsUhf rx (telegramBytes cmd fob c idle mac) = true → cmd.toNat < 8 → s.lf.recent = [] → s.berthOf fob = some n →
    (s.berth n).id.st.moored? = true → (s.berth n).isFob = true → s.cached fob = some l → l.toNat < c.toNat →
    c.toNat ≤ l.toNat + 256 →
    s.keysServe = true → s.useAdmits (.auth n) 4#4 true 1 = true →
    macOf (s.berth n).se.authKey 8 (BitVec.ofNat 8 (64 + cmd.toNat) :: (be 8 fob.toNat ++ be 4 c.toNat ++ [idle])) =
      be 8 mac.toNat →
    Sys2Proof.Machine.exec (.buttonTelegram rx cmd fob c idle mac) s =
      .next (((((((((s.heardUhf rx (telegramBytes cmd fob c idle mac)).wake 1).unquiet n).betterSighting n rx.anchor rx.stamp
        ).keyJob (.auth n) 3#2 4#4 7#5 14).cacheCounter fob c).acceptedTelegram fob c).modSe n fun b => { b with counter := c }).fobCommand n cmd)) ∧
  (∀ (s : State) (rx : UhfRx) (flags : BitVec 4) (tag : BitVec 16) (seq : BitVec 2) (resv : BitVec 6) (field : Bytes)
    (mac : BitVec 32) (n : Nat), s.hearsUhf rx (reportBytes flags tag seq resv field mac) = true →
    s.tagBerth tag = some n → (s.berth n).lf.pollCount.setWidth 2 = seq → field.length = 3 * (s.berth n).lf.order.length →
    s.keysServe = true → s.useAdmits (.auth n) 4#4 true 1 = true →
    let msg := ((BitVec.ofNat 8 (48 + flags.toNat) :: (be 2 tag.toNat ++
      [BitVec.ofNat 8 (64 * seq.toNat + resv.toNat)] ++ field)) ++ (s.berth n).nonce5 ++
      be 2 (s.berth n).lf.pollCount.toNat)
    macOf (s.berth n).se.authKey 4 msg = be 4 mac.toNat →
    Sys2Proof.Machine.exec (.pollReport rx flags tag seq resv field mac) s =
      .next (((s.heardUhf rx (reportBytes flags tag seq resv field mac)).keyJob (.auth n) 3#2 4#4 1#5 msg.length
        ).takeReport n (s.berth n).lf.pollCount field)) ∧
  (∀ (s : State) (n : BitVec 8), s.bt.berths.length = 256 → s.mainUp = true →
    (s.berth n.toNat).id.st.moored? = true → (s.berth n.toNat).lf.report ≠ [] →
    ∃ t, Sys2Proof.Machine.exec (.fieldFit n) s = .next t ∧ t.lf.fitBerth = n ∧
      t.lf.fitTide = (s.berth n.toNat).lf.pollTide ∧ (t.berth n.toNat).lf.report = [] ∧ t.intc = s.intc.event 20 ∧
      (∀ m, m ≠ n.toNat → t.berth m = s.berth m) ∧
      t = { s with lf := t.lf, bt := { s.bt with berths := t.bt.berths }, intc := t.intc })

/-! The narrowband radios. -/

/-- R24, R26, R124, R140, R284, R286: an advertisement of the fleet that falls into the open scan window is a wake event in
STANDBY; elsewhere the first of a new token in a tide opens the lowest FREE berth and a link at the anchor that heard it; one of
another company, type or fleet, or outside every window, is ignored. R151, R156, R273, R282, R283, R306: while the chain is free a
burst or an event measures temperature and VRF2 and advertises, or is held while the synthesiser locks; scan windows rotate over
channels 37 to 39, one after the other. R280, R281, R285, R286: a connection event of an open link sends
what waits, takes 2M, a channel map and a data length from the phone and answers each unsupported request; one of a phone that
connects opens its link first; a link that sounding keeps
from its event counts it as skipped; a packet that must answer after T_IFS while the synthesiser locks is late. R285: a phone that
connected and sends no HELLO in 100 ms is disconnected. R30: a disconnection casts its berth off with cause 0x0A. -/
def Obligations.BleLinks : Prop :=
  (∀ (s : State) (company : BitVec 16) (typ : BitVec 8) (fleet : BitVec 32) (token : BitVec 64) (heard : Heard),
    company ≠ s.nb.company.force ∨ typ ≠ 0xA1#8 ∨ fleet ≠ s.cfg.fleetId.setWidth 32 →
    Sys2Proof.Machine.exec (.bleAdvertisement company typ fleet token heard) s = .next s) ∧
  (∀ (s : State) (token : BitVec 64) (heard : Heard), s.bleRuns = true → s.tide.power = .standby →
    Sys2Proof.Machine.exec (.bleAdvertisement s.nb.company.force 0xA1#8 (s.cfg.fleetId.setWidth 32) token heard) s =
      .next (if heard.any fun h => h.1.toNat == s.cfg.anchor && s.scanned h.2 then s.wakeHere 4 else s)) ∧
  (∀ (s : State) (token : BitVec 64) (a : BitVec 6) (stamp n : Nat), s.bleRuns = true → s.berthsRun = true →
    s.tide.power ≠ .standby → s.tokenHeld token = false → (token, s.tide.number) ∉ s.bt.sightings →
    s.tokenAt (a, stamp) = true → s.linksAt a.toNat < 32 → s.freeBerth = some n →
    Sys2Proof.Machine.exec (.bleAdvertisement s.nb.company.force 0xA1#8 (s.cfg.fleetId.setWidth 32) token [(a, stamp)]) s =
      .next ((((s.upBt fun b => { b with sightings := (token, s.tide.number) :: b.sightings }).sight 0 a stamp).1.modSe n
        fun b => { b with token := token }).openLink a.toNat (some n) false)) ∧
  (∀ (s : State) (x : BleSense), s.bleRuns = true → s.bleChain = true → s.bleTaken = false → s.tide.power = .standby →
    s.wakePending = false → s.timerElapsed s.tide.burstAt (sec s.burstPeriod) = true → s.nb.testUntil ≤ s.now →
    s.nb.held = [] → s.nb.tuner ≠ 2#2 → s.nb.blePll = .locked →
    Sys2Proof.Machine.exec (.advertisingBurst x) s = .next (((((s.upTide fun t => { t with burstAt := s.now }).upNb fun b =>
      { b with scanChan := 37#6 }).bleMeasured x.temp x.vrf2).advSent x.rl s.now))) ∧
  (∀ (s : State) (x : BleSense), s.bleRuns = true → s.bleChain = true → s.bleTaken = false → s.tide.power ≠ .standby →
    s.tide.burstAt + ms 100 ≤ s.now → s.nb.testUntil ≤ s.now → (s.nb.held.any fun h => h.kind == 3#2) = false →
    s.nb.tuner ≠ 2#2 →
    let u := (s.upTide fun t => { t with burstAt := s.now }).bleMeasured x.temp x.vrf2
    (s.nb.blePll = .locked → Sys2Proof.Machine.exec (.advertisingEvent x) s = .next (u.advSent x.rl s.now)) ∧
    (s.nb.blePll = .locking ∨ s.nb.blePll = .calibrating →
      Sys2Proof.Machine.exec (.advertisingEvent x) s = .next (u.upNb fun b => { b with
        held := b.held ++ [{ kind := 0#2, planned := s.now, tol := ms 10, ref := x.rl.toNat }], txState := 1#2 }))) ∧
  (∀ s : State, s.bleRuns = true → s.bleChain = true → s.bleTaken = false → s.tide.power ≠ .standby →
    s.nb.scanUntil ≤ s.now → ∀ c d : BitVec 6, (c, d) ∈ [(37#6, 38#6), (38#6, 39#6), (39#6, 37#6)] → s.nb.scanChan = c →
      Sys2Proof.Machine.exec .scanWindow s = .next (((s.upNb fun b => { b with
        scanChan := d }).scanOpen s.now (s.now + ms 40)).bleAir (s.now + ms 40))) ∧
  (∀ (s : State) (k : Nat) (rl : BitVec 8) (peer : List PeerPdu), s.bleRuns = true → s.tide.power ≠ .standby →
    k < s.nb.links.length →
    let l := s.nb.links.getD k Link.reset
    (l.anchor = s.cfg.anchor → s.bleChain = true → s.soundsOver l = false → s.nb.testUntil ≤ s.now →
      (s.nb.held.any fun h => h.kind == 3#2) = false → s.nb.tuner ≠ 2#2 → s.nb.blePll = .locked →
      Sys2Proof.Machine.exec (.connectionEvent k rl peer) s = .next ((s.serveLink k rl s.now).peerPdus k peer)) ∧
    (l.anchor ≠ s.cfg.anchor → s.soundsOver l = false →
      Sys2Proof.Machine.exec (.connectionEvent k rl peer) s = .next ((s.serveFrames k).peerPdus k peer)) ∧
    (l.anchor = s.cfg.anchor → s.bleChain = true → s.soundsOver l = true →
      s.now + us (1250 * l.interval.toNat) < l.supervision + sec 2 →
      Sys2Proof.Machine.exec (.connectionEvent k rl peer) s =
        .next (s.upNb fun b => { b with skipped := satInc b.skipped })) ∧
    (l.anchor = s.cfg.anchor → s.bleChain = true → s.soundsOver l = false → l.periph = true → s.nb.testUntil ≤ s.now →
      (s.nb.held.any fun h => h.kind == 3#2) = false → s.nb.blePll = .locking →
      Sys2Proof.Machine.exec (.connectionEvent k rl peer) s = .next ((s.upNb fun b => { b with
        txState := 0#2, txLast := 2#2, late := satInc b.late }).latch 28))) ∧
  (∀ (s : State) (rl : BitVec 8) (peer : List PeerPdu), s.bleRuns = true → s.bleChain = true → s.tide.power ≠ .standby →
    s.berthsRun = true ∨ s.isTender = true → s.linksAt s.cfg.anchor < 32 → s.nb.csRunning = [] → s.nb.testUntil ≤ s.now →
    (s.nb.held.any fun h => h.kind == 3#2) = false → s.nb.tuner ≠ 2#2 → s.nb.blePll = .locked →
    Sys2Proof.Machine.exec (.connectionEvent s.nb.links.length rl peer) s =
      .next (((s.openLink s.cfg.anchor none true).serveLink s.nb.links.length rl s.now).peerPdus s.nb.links.length peer)) ∧
  (∀ (s : State) (k : Nat) (l : Link), s.nb.links[k]? = some l → l.periph = true → l.hello = false → l.openAt + ms 100 ≤ s.now →
    Sys2Proof.Machine.exec (.helloTimeout k) s = .next (s.upNb fun b => { b with links := b.links.eraseIdx k })) ∧
  (∀ (s : State) (n : BitVec 8) (k : Nat), s.linkOf n.toNat = some k →
    Sys2Proof.Machine.exec (.bleDisconnection n) s =
      .next ((s.upNb fun b => { b with links := b.links.eraseIdx k }).castOff n.toNat 0x0A#8))

/-- R30, R289: the HELLO that begins a link gives its berth the credential, and from HAILED on a challenge is asked for. R30,
R290: a right RESPONSE moors, a wrong one casts off with cause 5. R288: refused encryption casts off with cause
0x0A, while BLE access is moored (R114). The checks are uses of the berth's keys as in FobFrames (R452, R481, R491, R499). R292: a READY with the session's identifier and MAC lets rounds begin. R184, R293: a FIELD whose MAC holds is
taken. R289: CLOSE casts off with cause 0x0A; a frame of an unknown form is counted FOREIGN. -/
def Obligations.BleFrames : Prop :=
  (∀ (s : State) (k n : Nat) (l : Link) (token cred : BitVec 64) (gen caps : BitVec 8) (tk : BitVec 16),
    s.berthsRun = true → s.moored 5 = true → s.nb.links[k]? = some l → l.frames = 0 → l.berth = some n → (s.berth n).id.st = .sighted →
    let u := (((s.modLink k fun x => { x with frames := x.frames + 1, hello := true }).modSe n fun b =>
      { b with caps := caps &&& 0x1F#8, tk := max 150 (min 600 tk.toNat) }).identify n cred (some gen))
    Sys2Proof.Machine.exec (.hello k token cred gen caps tk) s = .next (if u.berthIs n .hailed then u.askNonce n else u)) ∧
  (∀ (s : State) (n : BitVec 8) (k : Nat) (mac : BitVec 128), s.berthsRun = true → s.moored 5 = true → s.linkOf n.toNat = some k →
    (s.berth n.toNat).id.st = .hailed → (s.berth n.toNat).id.kind = 0#3 → (s.berth n.toNat).se.challengeSent = true →
    s.keysServe = true →
    let b := s.berth n.toNat
    let msg := b.se.nonce ++ le 8 b.se.token.toNat ++ le 8 b.id.cred.toNat ++ [b.id.gen]
    let v := s.modLink k fun l => { l with frames := l.frames + 1 }
    let u := v.keyJob (.auth n.toNat) 3#2 4#4 5#5 msg.length
    (s.useAdmits (.auth n.toNat) 4#4 true 1 = true → cmac b.se.authKey msg = be 16 mac.toNat →
      Sys2Proof.Machine.exec (.bleResponse n mac) s = .next (u.moor n.toNat)) ∧
    (s.useAdmits (.auth n.toNat) 4#4 true 1 = true → cmac b.se.authKey msg ≠ be 16 mac.toNat →
      Sys2Proof.Machine.exec (.bleResponse n mac) s = .next (u.castOff n.toNat 5#8)) ∧
    (s.useAdmits (.auth n.toNat) 4#4 true 1 = false →
      Sys2Proof.Machine.exec (.bleResponse n mac) s = .next (v.violation 4#4))) ∧
  (∀ (s : State) (n : BitVec 8), s.berthsRun = true → s.moored 5 = true → (s.berth n.toNat).id.kind = 0#3 →
    (s.berth n.toNat).id.st.moored? = true → (s.berth n.toNat).se.encrypted = true →
    Sys2Proof.Machine.exec (.encryptionRefused n) s =
      .next ((s.modSe n.toNat fun b => { b with encrypted := false }).castOff n.toNat 0x0A#8)) ∧
  (∀ (s : State) (n : BitVec 8) (k j : Nat) (mac : BitVec 64), s.berthsRun = true → s.moored 5 = true →
    s.linkOf n.toNat = some k → (s.berth n.toNat).se.sessionSent = true →
    (s.berth n.toNat).id.st = .moored ∨ ((s.berth n.toNat).id.st = .ranged ∧ (s.berth n.toNat).se.readyOk = false) →
    (s.berth n.toNat).se.sid = some j → s.keysServe = true → s.useAdmits (.mac j) 4#4 true 1 = true →
    macOf (s.cellKey (.mac j)) 8 (le 4 (s.sidOf j).toNat) = be 8 mac.toNat →
    Sys2Proof.Machine.exec (.ready n (s.sidOf j) mac) s = .next (((s.modLink k fun l =>
      { l with frames := l.frames + 1 }).keyJob (.mac j) 3#2 4#4 5#5 4).modSe n.toNat fun b => { b with readyOk := true })) ∧
  (∀ (s : State) (n : BitVec 8) (k j : Nat) (seq a : BitVec 8) (field : Bytes) (mac : BitVec 32), s.berthsRun = true →
    s.moored 5 = true → s.linkOf n.toNat = some k → (s.berth n.toNat).id.st.moored? = true → (s.berth n.toNat).lf.polled = true →
    field.length = 3 * a.toNat → (s.berth n.toNat).se.sid = some j → seq.toNat < 4 →
    (s.berth n.toNat).lf.pollCount.setWidth 2 = seq.setWidth 2 →
    s.keysServe = true → s.useAdmits (.mac j) 4#4 true 1 = true →
    let msg := le 4 (s.sidOf j).toNat ++ (le 2 (s.berth n.toNat).se.hailTag.toNat ++ [seq, a] ++ field)
    macOf (s.cellKey (.mac j)) 4 msg = be 4 mac.toNat →
    Sys2Proof.Machine.exec (.fieldFrame n (s.berth n.toNat).se.hailTag seq a field mac) s =
      .next (((s.modLink k fun l => { l with frames := l.frames + 1 }).keyJob (.mac j) 3#2 4#4 1#5 msg.length
        ).takeReport n.toNat (s.berth n.toNat).lf.pollCount field)) ∧
  (∀ (s : State) (n reason : BitVec 8) (k : Nat), s.berthsRun = true → s.moored 5 = true → s.linkOf n.toNat = some k →
    (s.berth n.toNat).id.st.live = true →
    Sys2Proof.Machine.exec (.close n reason) s =
      .next ((s.modLink k fun l => { l with frames := l.frames + 1 }).castOff n.toNat 0x0A#8)) ∧
  (∀ (s : State) (k : Nat) (typ len : BitVec 8), s.berthsRun = true → s.moored 5 = true → k < s.nb.links.length →
    typ = 0#8 ∨ 8 ≤ typ.toNat ∨ ((s.nb.links.getD k Link.reset).berth = none ∧ typ ≠ 1#8) →
    Sys2Proof.Machine.exec (.accessFrameForeign k typ len) s = .next ((s.modLink k fun l =>
      { l with frames := l.frames + 1 }).upNb fun b => { b with foreign := satInc b.foreign }))

/-- R274 to R277, R308: CAL asks for calibrations; one starts where it is due; a good result locks the synthesiser and stores the
temperature, a bad one is tried up to three times and then is FAIL; the synthesiser's source latches. R276: it waits for a gap of 400 us. The model's reading (log entry 56): the
synthesisers that are locking lock together; one that loses its lock is locking again, its source latches, and with the BLE
synthesiser the soundings that run on its chain wait for the next tide. R278: a transmission held beyond its tolerance is late. R299 to R303, R310: a sounding procedure starts for a berth that waits; its results
stand in the berth's set, with no range from fewer than two good chains, and CS_SEL copies the set it names. R139, R279, R310:
a test runs its frames, and makes a notice of KIND 3 while sounding, a link or a held transmission has the chain, in RETURN and with
diagnostics unmoored. -/
def Obligations.SynthAndSounding : Prop :=
  (∀ s : State, s.hostReady = true →
    Sys2Proof.Machine.exec .nbradioCal s = .next ((s.reached 0x50000).upNb fun b => { b with calReq := true })) ∧
  (∀ (s : State) (w : BitVec 2), s.mainUp = true → s.tide.power ≠ .deep → s.nb.calDue.getLsbD w.toNat = true →
    s.nb.pll w.toNat ≠ .calibrating → (if w.toNat = 0 then s.bleAirNear (us 400) else s.uhfAir (us 400)) = false →
    Sys2Proof.Machine.exec (.synthCalibration w) s = .next (s.upNb fun b => { (b.setPll w.toNat .calibrating) with
      calDue := setBit b.calDue w.toNat false, calTries := b.calTries.set w.toNat 0 })) ∧
  (∀ (s : State) (w : BitVec 2) (temp : BitVec 16) (irr : List (BitVec 8)), s.mainUp = true → w.toNat < 3 →
    s.nb.pll w.toNat = .calibrating → w.toNat ≠ 0 ∨ s.nb.held = [] →
    ∃ t, Sys2Proof.Machine.exec (.synthCalDone w true temp irr) s = .next t ∧ t.nb.pll w.toNat = .locked ∧
      t.nb.calTemp w.toNat = temp ∧ (∀ v, v < 3 → v ≠ w.toNat → t.nb.pll v = s.nb.pll v ∧ t.nb.calTemp v = s.nb.calTemp v) ∧
      t.intc = s.intc.event (if w = 0#2 then 28 else 29) ∧ t.nb.links = s.nb.links ∧ t = { s with nb := t.nb, intc := t.intc }) ∧
  (∀ (s : State) (w : BitVec 2) (temp : BitVec 16) (irr : List (BitVec 8)), s.mainUp = true → w.toNat < 3 →
    s.nb.pll w.toNat = .calibrating → w.toNat ≠ 0 ∨ s.nb.held = [] →
    ∃ t, Sys2Proof.Machine.exec (.synthCalDone w false temp irr) s = .next t ∧
      t.nb.pll w.toNat = (if s.nb.calTries.getD w.toNat 0 < 2 then .calibrating else .fail) ∧
      t.nb.calTemp w.toNat = s.nb.calTemp w.toNat ∧ t.intc = s.intc.event (if w = 0#2 then 28 else 29) ∧
      t = { s with nb := t.nb, intc := t.intc }) ∧
  (∀ s : State, s.mainUp = true → s.nb.blePll = .locking → s.nb.held = [] →
    ∃ t, Sys2Proof.Machine.exec .synthLock s = .next t ∧ t.nb.blePll = .locked ∧
      t.nb.uhf0Pll = (if s.nb.uhf0Pll = .locking then .locked else s.nb.uhf0Pll) ∧
      t.nb.uhf1Pll = (if s.nb.uhf1Pll = .locking then .locked else s.nb.uhf1Pll) ∧
      t = { s with nb := { s.nb with blePll := t.nb.blePll, uhf0Pll := t.nb.uhf0Pll, uhf1Pll := t.nb.uhf1Pll } }) ∧
  (∀ (s : State) (h : HeldTx), s.mainUp = true → s.nb.blePll = .locking → s.nb.held = [h] →
    h.planned + h.tol ≤ s.now + us 2 → ∃ t, Sys2Proof.Machine.exec .synthLock s = .next t ∧ t.nb.held = [] ∧
      t.nb.txState = 0#2 ∧ t.nb.txLast = 2#2 ∧ t.nb.late = satInc s.nb.late ∧ t.intc = s.intc.event 28 ∧
      t = { s with nb := t.nb, intc := t.intc }) ∧
  (∀ (s : State) (w : BitVec 2), s.mainUp = true → w.toNat < 3 → s.nb.pll w.toNat = .locked →
    ∃ t, Sys2Proof.Machine.exec (.synthLossOfLock w) s = .next t ∧ t.nb.pll w.toNat = .locking ∧
      (∀ v, v < 3 → v ≠ w.toNat → t.nb.pll v = s.nb.pll v) ∧
      (w = 0#2 → t.nb.testUntil = 0 ∧
        (∀ c ∈ t.nb.csRunning, c ∈ s.nb.csRunning ∧ s.isTender = false ∧ s.linkAnchor c.1 ≠ s.cfg.anchor) ∧
        ∀ c ∈ s.nb.csRunning, c ∈ t.nb.csRunning ∨ c.1 ∈ t.nb.csNext) ∧
      t.intc = s.intc.event (if w = 0#2 then 28 else 29) ∧ t = { s with nb := t.nb, intc := t.intc }) ∧
  (∀ (s : State) (n : BitVec 8), s.canSound n.toNat = true → s.soundFits = true → n.toNat ∈ s.nb.csWait → s.inAir = false →
    s.cfg.role ≠ .tender → s.linkAnchor n.toNat = s.cfg.anchor → s.chainSounds s.cfg.anchor = false → s.nb.testUntil ≤ s.now →
    (s.nb.held.any fun h => h.kind == 3#2) = false → s.nb.tuner ≠ 2#2 → s.nb.blePll = .locked →
    ∃ t, Sys2Proof.Machine.exec (.csProcedure n) s = .next t ∧ n.toNat ∉ t.nb.csWait ∧
      t.nb.csRunning = (n.toNat, s.tide.number) :: s.nb.csRunning ∧ t.nb.applied = s.powerCode s.nb.connPower.force ∧
      t.nb.txLast = 1#2 ∧ t.nb.txFrom = s.now ∧ t.nb.txUntil = s.now + ms 10 ∧
      t.nb.scanUntil = min s.nb.scanUntil s.now ∧ t.nb.measured = s.nb.measured + 3 ∧
      t = { s with nb := t.nb, pins := t.pins, intc := t.intc }) ∧
  (∀ (s : State) (n : BitVec 8) (chains : List (List CsTone)) (k : BitVec 32), s.mainUp = true →
    s.cfg.role ≠ .tender → tableGet s.nb.csRunning n.toNat = some k → (s.berth n.toNat).id.st.moored? = true →
    s.linkAnchor n.toNat = s.cfg.anchor →
    let v := (validChains (s.nb.links.getD ((s.linkOf n.toNat).getD 0) Link.reset).chanMap chains).filter fun x => s.sounds x.1
    let r := csSet k v
    let u := s.upNb fun b => { b with
      csRunning := b.csRunning.filter fun c => c.1 != n.toNat, csResults := bindTo b.csResults n.toNat r }
    (∀ x : Nat × Nat, phaseRange v = some x → r.dist = BitVec.ofNat 16 x.1 ∧ r.spread = BitVec.ofNat 16 x.2) ∧
    (v.length < 2 → r.dist = 0xFFFF#16) ∧
    (r.dist ≠ 0xFFFF#16 → Sys2Proof.Machine.exec (.csResults n chains) s = .next (u.measure n.toNat { Meas.reset with
      kind := .phaseRange, anchor := s.cfg.anchor, tide := k, val := r.dist.toNat, val2 := r.spread.toNat
      val3 := popCount r.chains, valid := true })) ∧
    (r.dist = 0xFFFF#16 → Sys2Proof.Machine.exec (.csResults n chains) s = .next u)) ∧
  (∀ (s : State) (v : BitVec 32), s.hostReady = true →
    Sys2Proof.Machine.exec (.csSelWrite v) s = .next ((s.reached 0x50030).upNb fun b => { b with
      csSel := v.setWidth 8, csView := (tableGet b.csResults (fieldN v 7 0)).getD CsRes.reset })) ∧
  (∀ (s : State) (v : BitVec 32), s.hostReady = true → fieldN v 13 8 ≤ 39 → 1 ≤ fieldN v 31 24 →
    (s.nb.csRunning = [] → s.nb.held = [] → s.nb.linkUntil ≤ s.now → s.tide.life ≠ .returned → s.moored 25 = true →
      s.nb.tuner ≠ 2#2 → s.nb.blePll = .locked →
      ∃ t, Sys2Proof.Machine.exec (.nbradioTestGo v) s = .next t ∧ t.nb.testFrames.toNat = fieldN v 31 24 ∧
        t.nb.testChan.toNat = fieldN v 13 8 ∧ t.nb.testUntil = s.now + us (625 * fieldN v 31 24) ∧ t.nb.txLast = 1#2 ∧
        t.nb.txUntil = t.nb.testUntil ∧ t.nb.measured = s.nb.measured + fieldN v 31 24 ∧
        t = { s.reached 0x50040 with nb := t.nb, pins := t.pins, intc := t.intc }) ∧
    (s.nb.csRunning ≠ [] ∨ s.nb.held ≠ [] ∨ s.now < s.nb.linkUntil ∨ s.tide.life = .returned ∨ s.moored 25 = false →
      ∃ t, Sys2Proof.Machine.exec (.nbradioTestGo v) s = .next t ∧ t.port.clampKind = 3#4 ∧ t.nb.testUntil = s.nb.testUntil ∧
        t.intc = s.intc.event 60))

/-! Ultra-wideband. -/

/-- R221, R223, R269: CAL asks for a calibration of PLL U; a good one locks it and stores its temperature, a bad one is tried
up to three times and then is FAIL, which abandons a held CTRL with its round; source 27 latches. R222: an air phase that waited
for a calibration begins as it ends, and a round that no longer fits leaves the tide with its index free again (the model's
reading, log entry 47). R224 to R226: once it locks, a held CTRL goes out 2 us later in its tolerance, else it is late and its
round lost; a loss of lock while this device's frame is on the air ends the frame, loses the round and makes a calibration due,
another only locks again. R227, R228: a frame of an unsupported kind is counted, another is not. R265, R271: RES_SEL and CIR_SEL copy what they name. R144, R217,
R226, R271: a test runs its frames on an anchor that is not ranging, the first 2 us from now (the model's reading, log entry 79),
or is late where its tolerance allows no 2 us; it makes a notice of KIND 3 while the anchor is ranging, while an earlier test runs
or a transmission is held, in RETURN and with diagnostics unmoored. -/
def Obligations.UwbControl : Prop :=
  (∀ s : State, s.hostReady = true →
    Sys2Proof.Machine.exec .uwbCal s = .next ((s.reached 0x48000).upUwb fun u => { u with calReq := true })) ∧
  (∀ (s : State) (temp : BitVec 16), s.uwb.pll = .calibrating → s.mainUp = true → s.uwb.held = none →
    Sys2Proof.Machine.exec (.pllUCalDone true temp) s = .next ((s.upUwb fun u => { u with
      tempCal := temp, calTries := 0, pll := .locked }).waitRounds.latch 27)) ∧
  (∀ (s : State) (r : Round), s.uwb.schedule = [r] → r.phase = .prepared → r.start ≤ s.now → us 550 ≤ s.tideEnd →
    (s.now + (r.airEnd - r.start) + us 550 ≤ s.tideEnd → s.waitRounds = s.upUwb fun u => { u with
      schedule := [{ r with start := s.now, ctrlAt := s.now, airEnd := s.now + (r.airEnd - r.start) }] }) ∧
    (s.tideEnd < s.now + (r.airEnd - r.start) + us 550 → s.waitRounds.uwb.schedule = [] ∧
      s.waitRounds.uwb.rounds = s.uwb.rounds - 1#8 ∧ s.waitRounds.nextIndex r.sid = r.index)) ∧
  (∀ (s : State) (temp : BitVec 16), s.uwb.pll = .calibrating → s.mainUp = true →
    (s.uwb.calTries < 2 → Sys2Proof.Machine.exec (.pllUCalDone false temp) s = .next ((s.upUwb fun u => { u with
      calTries := u.calTries + 1, cals := satInc u.cals }).latch 27)) ∧
    (2 ≤ s.uwb.calTries → s.uwb.held = none → Sys2Proof.Machine.exec (.pllUCalDone false temp) s =
      .next ((s.upUwb fun u => { u with pll := .fail, calTries := 0 }).latch 27)) ∧
    (∀ h : HeldTx, 2 ≤ s.uwb.calTries → s.uwb.held = some h → h.kind = 0#2 →
      Sys2Proof.Machine.exec (.pllUCalDone false temp) s = .next (((s.upUwb fun u => { u with
        pll := .fail, calTries := 0, held := none }).uwbLate.modFirst (fun r => r.phase == .prepared) fun r =>
          { r with phase := .air, lost := true }).latch 27))) ∧
  (∀ s : State, s.uwb.pll = .locking → s.mainUp = true → s.uwb.held = none →
    Sys2Proof.Machine.exec .pllULock s = .next (s.upUwb fun u => { u with pll := .locked })) ∧
  (∀ (s : State) (h : HeldTx), s.uwb.pll = .locking → s.mainUp = true → s.uwb.held = some h → h.kind = 0#2 →
    (s.now + us 2 < h.planned + h.tol → Sys2Proof.Machine.exec .pllULock s =
      .next ((s.upUwb fun u => { u with pll := .locked, held := none, txState := 0#2 }).sendCtrl (s.now + us 2))) ∧
    (h.planned + h.tol ≤ s.now + us 2 → Sys2Proof.Machine.exec .pllULock s =
      .next ((s.upUwb fun u => { u with pll := .locked, held := none }).uwbLate.modFirst (fun r => r.phase == .prepared) fun r =>
        { r with phase := .air, lost := true }))) ∧
  (∀ s : State, s.uwb.pll = .locked → s.mainUp = true →
    (s.inAir = true → s.now < s.uwb.txUntil → ∃ t, Sys2Proof.Machine.exec .pllULossOfLock s = .next t ∧
      t.uwb.pll = .locking ∧ t.uwb.calDue = true ∧
      t.uwb.schedule = s.uwb.schedule.map (fun r => if r.airborne then { r with lost := true } else r) ∧
      t.uwb.testUntil = 0 ∧ t.uwb.txUntil = 0 ∧ t.uwb.airTx = [] ∧ t.pins.windows = [] ∧ t.intc = s.intc.event 27 ∧
      t = { s with uwb := t.uwb, intc := t.intc, pins := t.pins }) ∧
    (s.uwb.txUntil ≤ s.now → s.uwb.testUntil ≤ s.now → s.uwb.calDue = false →
      Sys2Proof.Machine.exec .pllULossOfLock s =
        .next ((s.upUwb fun u => { u with pll := .locking, testUntil := 0, txUntil := 0, airTx := [] }).latch 27))) ∧
  (∀ (s : State) (f : UwbFormat), s.mainUp = true → s.tide.power = .service ∨ s.tide.power = .drive →
    (uwbSupports f = false →
      Sys2Proof.Machine.exec (.foreignUwbFrame f) s = .next (s.upUwb fun u => { u with foreign := satInc u.foreign })) ∧
    (uwbSupports f = true → Sys2Proof.Machine.exec (.foreignUwbFrame f) s = .next s)) ∧
  (∀ (s : State) (v : BitVec 32), s.hostReady = true → fieldN v 13 8 ≤ 32 →
    Sys2Proof.Machine.exec (.resSelWrite v) s = .next ((s.reached 0x48020).upUwb fun u => { u with
      selBerth := BitVec.ofNat 8 (fieldN v 7 0), selAnchor := BitVec.ofNat 6 (fieldN v 13 8)
      viewSid := ((s.berth (fieldN v 7 0)).se.sid.map s.sidOf).getD 0#32
      view := (u.results.find? fun x => x.berth == fieldN v 7 0 && x.anchor == fieldN v 13 8).getD UwbRes.reset })) ∧
  (∀ (s : State) (v : BitVec 32) (b : Bytes) (old : Bool), s.hostReady = true →
    s.uwb.cirRing[fieldN v 15 0]? = some (b, old) →
    Sys2Proof.Machine.exec (.cirSelWrite v) s = .next ((s.reached 0x48048).upUwb fun u => { u with
      cirSel := BitVec.ofNat 16 (fieldN v 15 0), cirWin := b
      cirRing := u.cirRing.modify (fieldN v 15 0) fun r => (r.1, true) })) ∧
  (∀ (s : State) (v : BitVec 32), s.hostReady = true → fieldN v 17 8 ≤ 1000 → 1 ≤ fieldN v 31 24 →
    (s.chainRanges = false → s.uwb.held = none → s.uwb.testUntil ≤ s.now → s.tide.life ≠ .returned → s.moored 25 = true →
      s.uwb.pll = .locked → 2 < fieldN v 17 8 →
      ∃ t, Sys2Proof.Machine.exec (.uwbTestGo v) s = .next t ∧ t.uwb.testFrames.toNat = fieldN v 31 24 ∧
        t.uwb.testTol.toNat = fieldN v 17 8 ∧ t.uwb.txChain.toNat = fieldN v 4 4 ∧ t.uwb.txLast = 1#2 ∧
        t.uwb.testUntil = s.now + us 2 + (pitch false * fieldN v 31 24 + 38) / 39 ∧ t.uwb.txState = 0#2 ∧
        t.uwb.schedule = s.uwb.schedule ∧
        t = { s.reached 0x48050 with uwb := t.uwb, cry := t.cry, keys := t.keys, pins := t.pins }) ∧
    (s.chainRanges = false → s.uwb.held = none → s.uwb.testUntil ≤ s.now → s.tide.life ≠ .returned → s.moored 25 = true →
      s.uwb.pll = .locked → fieldN v 17 8 ≤ 2 →
      ∃ t, Sys2Proof.Machine.exec (.uwbTestGo v) s = .next t ∧ t.uwb.txLast = 2#2 ∧ t.uwb.late = satInc s.uwb.late ∧
        t.uwb.testUntil = s.uwb.testUntil ∧ t.intc = s.intc.event 26) ∧
    (s.chainRanges = true ∨ s.uwb.held ≠ none ∨ s.now < s.uwb.testUntil ∨ s.tide.life = .returned ∨ s.moored 25 = false →
      ∃ t, Sys2Proof.Machine.exec (.uwbTestGo v) s = .next t ∧ t.port.clampKind = 3#4 ∧ t.intc = s.intc.event 60 ∧
        t.uwb.testUntil = s.uwb.testUntil))

/-- R218, R221, R237, R238, R244: 600 us before its air phase a round is prepared, its STS sequences are made for the indices
16 r + j, and its job enters the AES engine (R488, R491). R225, R226, R231, R233, R238, R242: CTRL goes out inside its window with PLL U
locked, with its MAC made by the AES engine, and is late after it; a round whose STS is not ready, or whose session MAC key is
refused (R452), is lost. R214, R231, R233, R240, R242: this device's POLL stamp is
kept where it lies inside the window, its RESPONSE follows (i + 1) × P later, and its FINAL stamp is kept. R225: a RESPONSE that finds
the synthesiser not locked is late. R251 to R256: with a right MAC and index a FINAL_DATA from 8 us up to 58 us after the
last frame gives an anchor its distance, single-sided or double-sided; a wrong MAC is counted and gives none. R244, R249, R253,
R269, R271: the end of the air phase counts the round, and delivery fills RES of each anchor that received POLL; that of the
tide's last round latches source 24. -/
def Obligations.UwbRound : Prop :=
  (∀ (s : State) (temp : BitVec 16) (r : Round), s.uwb.schedule.find? (fun x => x.phase == .planned) = some r →
    s.mainUp = true → r.start ≤ s.now + us 600 → s.uwb.testUntil ≤ s.now → s.uwb.held = none → s.cry.jobs = [] →
    s.useAdmits (.sts r.sid) 4#4 true 1 = true → s.inAir = true ∨ (s.uwb.calDue || tempMoved s.uwb.tempCal temp) = false →
    ∃ t, Sys2Proof.Machine.exec (.roundPreparation temp) s = .next t ∧ t.uwb.temp = temp ∧
      t.uwb.gain = Config.txGain temp ∧ t.uwb.calDue = (s.uwb.calDue || tempMoved s.uwb.tempCal temp) ∧
      t.uwb.schedule = changeFirst (fun x => x.phase == .planned)
        (fun x => { x with phase := .prepared, stsReady := true, sts := s.stsOf r }) s.uwb.schedule ∧
      (∀ x, s.slot r.sid = some x → (s.stsOf r).length = r.n + (if r.ds then 4 else 3) ∧
        (∀ j, j < r.n + 3 → (s.stsOf r)[j]? = some (16 * r.index.toNat + j, x.stsSequence (16 * r.index.toNat + j)))) ∧
      (∃ j, t.cry.jobs = [j] ∧ j.level = 3#2 ∧ j.cell = some (.sts r.sid) ∧ j.started = true ∧
        j.left = 28 * (32 * (r.n + (if r.ds then 4 else 3))) ∧ j.setup = s.keyChange j) ∧
      t = { s with uwb := t.uwb, cry := t.cry, keys := t.keys, pins := t.pins }) ∧
  (∀ (s : State) (r : Round), s.uwb.schedule.find? (fun x => x.phase == .prepared) = some r → s.mainUp = true →
    r.start ≤ s.now → s.uwb.held = none →
    (s.stsDone r = true → r.anchorOf 0 = some s.cfg.anchor → s.uwb.pll = .locked → s.now < r.start + us 20 →
      s.keysServe = true → s.useAdmits (.mac r.sid) 4#4 true 1 = true →
      ∃ t, Sys2Proof.Machine.exec .uwbCtrlTransmit s = .next t ∧
        t.uwb.ctrl = s.ctrlPayload r (s.cellKey (.mac r.sid)) ∧ t.uwb.txLast = 1#2 ∧
        t.uwb.txChain = BitVec.ofNat 1 (s.anchorCfg s.cfg.anchor).txChain ∧
        t.uwb.schedule = changeFirst (fun x => x.phase == .prepared) (fun x => { x with
          phase := .ctrl, ctrlAt := s.now
          ctrlStamp := BitVec.ofNat 40 (unitsOf (39 * s.baseAt s.now + shrTime r.hprf)) +
            BitVec.ofNat 40 (s.anchorCfg s.cfg.anchor).txDelay }) s.uwb.schedule ∧
        t = { s with uwb := t.uwb, keys := t.keys, cry := t.cry, pins := t.pins }) ∧
    (s.stsDone r = true → r.anchorOf 0 = some s.cfg.anchor → s.uwb.pll = .locked → s.now < r.start + us 20 →
      s.useAdmits (.mac r.sid) 4#4 true 1 = false → Sys2Proof.Machine.exec .uwbCtrlTransmit s =
        .next ((s.violation 4#4).modFirst (fun x => x.phase == .prepared) fun x => { x with phase := .air, lost := true })) ∧
    (s.stsDone r = true → r.anchorOf 0 = some s.cfg.anchor → s.uwb.pll = .locked → r.start + us 20 ≤ s.now →
      Sys2Proof.Machine.exec .uwbCtrlTransmit s = .next (s.uwbLate.modFirst (fun x => x.phase == .prepared) fun x =>
        { x with phase := .air, lost := true })) ∧
    (s.stsDone r = false → s.uwb.pll ≠ .calibrating → Sys2Proof.Machine.exec .uwbCtrlTransmit s =
      .next (s.modFirst (fun x => x.phase == .prepared) fun x => { x with phase := .air, lost := true }))) ∧
  (∀ (s : State) (r : Round), s.uwb.schedule.find? (fun x => x.phase == .ctrl) = some r → s.mainUp = true →
    Sys2Proof.Machine.exec (.uwbPoll none) s = .next (s.modFirst (fun x => x.phase == .ctrl) fun x =>
      { x with phase := .poll, tide := s.tide.number })) ∧
  (∀ (s : State) (r : Round) (x : UwbStamp) (m : UwbMeas), s.uwb.schedule = [r] → r.phase = .ctrl → s.mainUp = true →
    s.cfg.role ≠ .tender → s.uwb.cirEnable = false → s.hears r s.cfg.anchor = true → s.measureUwb x = some m →
    inSpan m.stamp (r.ctrlStamp + BitVec.ofNat 40 (unitsOf (39 * us (250 + r.tk)))) (-(39 * us 20 : Nat)) (39 * us 20 : Nat) =
      true →
    ∃ t r', Sys2Proof.Machine.exec (.uwbPoll (some x)) s = .next t ∧ t.uwb.schedule = [r'] ∧ r'.phase = .poll ∧
      r'.tide = s.tideOf (s.tickOfCount m.stamp) ∧ (r'.rxOf m.anchor.toNat).poll = some m.stamp ∧
      (r'.rxOf m.anchor.toNat).cfo = m.cfo ∧ (r'.rxOf m.anchor.toNat).fp = m.fp ∧
      (r'.rxOf m.anchor.toNat).az = m.az ∧ (r'.rxOf m.anchor.toNat).el = m.el ∧
      (∀ a, a ≠ m.anchor.toNat → r'.rxOf a = r.rxOf a) ∧ r' = { r with phase := .poll, tide := r'.tide, rx := r'.rx } ∧
      t = { s with uwb := { s.uwb with schedule := t.uwb.schedule, lastStamp := m.stamp } }) ∧
  (∀ (s : State) (r : Round) (x : UwbStamp) (m : UwbMeas), s.uwb.schedule = [r] → r.phase = .ctrl → s.mainUp = true →
    s.uwb.cirEnable = false → s.measureUwb x = some m →
    inSpan m.stamp (r.ctrlStamp + BitVec.ofNat 40 (unitsOf (39 * us (250 + r.tk)))) (-(39 * us 20 : Nat)) (39 * us 20 : Nat) =
      false →
    Sys2Proof.Machine.exec (.uwbPoll (some x)) s = .next (s.upUwb fun u => { u with
      schedule := [{ r with phase := .poll, tide := s.tide.number }] })) ∧
  (∀ (s : State) (r : Round) (i : BitVec 4) (p : BitVec 40), s.uwb.schedule = [r] → r.phase = .poll → r.lost = false →
    r.anchorOf i.toNat = some s.cfg.anchor → (r.rxOf s.cfg.anchor).poll = some p → (r.rxOf s.cfg.anchor).resp = none →
    s.mainUp = true →
    (s.uwb.pll = .locked → s.cfg.role ≠ .tender →
      ∃ t r', Sys2Proof.Machine.exec (.uwbResponseTransmit i) s = .next t ∧ t.uwb.schedule = [r'] ∧
        (r'.rxOf s.cfg.anchor).resp = some (p + BitVec.ofNat 40 (unitsOf ((i.toNat + 1) * pitch r.hprf))) ∧
        (∀ b, b ≠ s.cfg.anchor → r'.rxOf b = r.rxOf b) ∧ r' = { r with rx := r'.rx } ∧ t.uwb.txLast = 1#2 ∧
        t.uwb.txState = 0#2 ∧ t = { s with uwb := t.uwb, pins := t.pins }) ∧
    (s.uwb.pll ≠ .locked → Sys2Proof.Machine.exec (.uwbResponseTransmit i) s = .next s.uwbLate)) ∧
  (∀ (s : State) (r : Round) (x : UwbStamp) (m : UwbMeas), s.uwb.schedule = [r] → r.phase = .poll → r.ds = true →
    s.mainUp = true → s.cfg.role ≠ .tender → s.uwb.cirEnable = false → s.hears r s.cfg.anchor = true →
    s.measureUwb x = some m →
    inSpan m.stamp (s.lastPlan r) (-(39 * us 20 : Nat)) (39 * us 20 : Nat) = true →
    ∃ t r', Sys2Proof.Machine.exec (.uwbFinal (some x)) s = .next t ∧ t.uwb.schedule = [r'] ∧ r'.phase = .final ∧
      (r'.rxOf m.anchor.toNat).final = some m.stamp ∧ (∀ a, a ≠ m.anchor.toNat → r'.rxOf a = r.rxOf a) ∧
      r' = { r with phase := .final, rx := r'.rx } ∧
      t = { s with uwb := { s.uwb with schedule := t.uwb.schedule, lastStamp := m.stamp } }) ∧
  (∀ (s : State) (r : Round) (m : UwbRx) (u : BitVec 40) (d : Bytes) (p x : BitVec 40), s.uwb.schedule = [r] →
    r.phase = .poll ∨ r.phase = .final → r.lost = false → s.mainUp = true → s.uwb.pll = .locked → d.length = 20 + 4 * r.n →
    inSpan (s.correctRx s.cfg.anchor u) (s.lastEnd r) (39 * us 8 : Nat) (39 * us 58 : Nat) = true →
    s.keysServe = true → s.useAdmits (.mac r.sid) 4#4 true 1 = true →
    macOf (s.cellKey (.mac r.sid)) 8 (le 4 (s.sidOf r.sid).toNat ++ d.take (0x0C + 4 * r.n)) = d.drop (0x0C + 4 * r.n) →
    leAt d 0 4 = r.index.toNat → r.rx = [m] → r.anchorOf 0 = some m.anchor → m.poll = some p → m.resp = some x →
    (d.getD 8 0#8).getLsbD 0 = true → leAt d 0x0C 4 ≠ 0xFFFFFFFF →
    ∃ t r', Sys2Proof.Machine.exec (.uwbFinalData u d) s = .next t ∧ t.uwb.schedule = [r'] ∧ r'.phase = .air ∧ r'.dataOk = true ∧
      (r.ds = false → (r'.rxOf m.anchor).dist = some (min 65534 (roundQ (((leAt d 0x0C 4 : Rat) * (1 - (m.cfo : Rat) / 10000000) -
        ((x - p).toNat : Rat)) / 2 * 5 / 319488 * 299792458 / 1000)).toNat)) ∧
      (∀ f : BitVec 40, r.ds = true → m.final = some f → (r'.rxOf m.anchor).dist = some (min 65534 (roundQ (
        ((leAt d 0x0C 4 : Rat) * ((f - x).toNat : Rat) - ((leAt d 4 4 : Rat) - leAt d 0x0C 4) * ((x - p).toNat : Rat)) /
        ((leAt d 0x0C 4 : Rat) + ((f - x).toNat : Rat) + ((leAt d 4 4 : Rat) - leAt d 0x0C 4) + ((x - p).toNat : Rat)) *
        5 / 319488 * 299792458 / 1000)).toNat)) ∧
      t = { s with uwb := { s.uwb with schedule := t.uwb.schedule, lastStamp := t.uwb.lastStamp }, keys := t.keys, cry := t.cry }) ∧
  (∀ (s : State) (r : Round) (u : BitVec 40) (d : Bytes), s.uwb.schedule = [r] → r.phase = .poll ∨ r.phase = .final →
    s.mainUp = true → s.uwb.pll = .locked → d.length = 20 + 4 * r.n →
    inSpan (s.correctRx s.cfg.anchor u) (s.lastEnd r) (39 * us 8 : Nat) (39 * us 58 : Nat) = true →
    s.keysServe = true → s.useAdmits (.mac r.sid) 4#4 true 1 = true →
    macOf (s.cellKey (.mac r.sid)) 8 (le 4 (s.sidOf r.sid).toNat ++ d.take (0x0C + 4 * r.n)) ≠ d.drop (0x0C + 4 * r.n) →
    Sys2Proof.Machine.exec (.uwbFinalData u d) s =
      .next ((s.keyJob (.mac r.sid) 3#2 4#4 2#5 (16 + 4 * r.n)).upUwb fun v => { v with
        schedule := [{ r with phase := .air }], macFail := satInc v.macFail
        lastStamp := s.correctRx s.cfg.anchor u + BitVec.ofNat 40 (unitsOf (shrTime r.hprf)) })) ∧
  (∀ (s : State) (r : Round), s.uwb.schedule.find? Round.airborne = some r → s.mainUp = true → r.airEnd ≤ s.now →
    s.cfg.role ≠ .tender → s.canSound r.berth = false → s.uwb.calDue = false →
    Sys2Proof.Machine.exec .uwbRoundEnd s = .next ((s.modFirst Round.airborne fun x =>
      { x with phase := .ended, lost := r.isLost }).upUwb fun u => { u with
        lost := if r.isLost = true then satInc u.lost else u.lost
        done := if r.isLost = false ∧ (r.rx.any fun m => m.dist.isSome) = true then satInc u.done else u.done })) ∧
  (∀ (s : State) (r : Round), s.uwb.schedule = [r] → r.phase = .ended → s.mainUp = true → s.cfg.role ≠ .tender →
    ∃ t, Sys2Proof.Machine.exec .roundResults s = .next t ∧ t.uwb.schedule = [{ r with phase := .delivered }] ∧
      t.intc = s.intc.event 24 ∧ (r.isLost = true → t.uwb.results = s.uwb.results ∧ t.bt = s.bt) ∧
      (∀ m : UwbRx, r.rx = [m] → r.isLost = false → (s.berth r.berth).id.st.moored? = true → s.anchorUp m.anchor = true →
        t.uwb.results = s.resultOf r m :: s.uwb.results.filter fun x => !(x.berth == r.berth && x.anchor == m.anchor)) ∧
      t = { s with uwb := t.uwb, bt := t.bt, intc := t.intc })

/-! NFC. -/

/-- R533, R534: the reader polls, and a card that answers REQA gets the lowest free CID; in STANDBY it is a wake event; one
that finds no CID free is counted. R527, R528: a card without ISO-DEP is counted and not activated. R24, R30, R529, R535: a card of the access application without a berth sights itself, one
that refuses is counted. R530, R535: a right answer to AUTH_BEGIN is kept, a wrong one casts off with cause 5; AUTH_END
with 90 00 moors a berth that was hailed or ends a reactivation, and another status casts off. The check of MAC_C is a use of the
berth's key by the NFC master at level 1 (R452, R481, R491, R499). R50, R536: a card that leaves casts its berth off with
cause 0x0A. R142, R537: when the field returns, a card that is not there any more goes likewise, and one that is there is
challenged again. R533, R555: RESCAN asks for a poll, and CARD_SEL copies the card it names. -/
def Obligations.NfcReader : Prop :=
  (∀ s : State, s.readerRuns = true → s.nfc.fieldBack = none → s.nfc.cards.length < 4 →
    s.nfc.rescanDue = true ∨ s.nfc.lastReqa + ms s.reqaPeriod ≤ s.now →
    Sys2Proof.Machine.exec .reqaPoll s = .next (s.upNfc fun c => { c with
      lastReqa := s.now, rescanDue := false, reader := if c.cards = [] then 1#2 else 2#2 })) ∧
  (∀ (s : State) (uids : List (Bytes × Bool)) (u : Bytes) (k : Nat), s.readerRuns = true → s.nfc.fieldBack = none →
    selectCard ((s.answering uids).map Prod.fst) = (some u, k) →
    (s.tide.power = .standby → Sys2Proof.Machine.exec (.cardActivation uids) s = .next (s.wakeHere 3)) ∧
    (s.tide.power ≠ .standby → (u, true) ∉ s.answering uids →
      Sys2Proof.Machine.exec (.cardActivation uids) s = .next ((s.wakeHere 3).upNfc fun c => { c with
        collisions := satAdd c.collisions k, foreign := satInc c.foreign })) ∧
    (∀ cid, s.tide.power ≠ .standby → (u, true) ∈ s.answering uids → freeCid s.nfc.cards = some cid →
      Sys2Proof.Machine.exec (.cardActivation uids) s = .next (((s.wakeHere 3).upNfc fun c => { c with
        collisions := satAdd c.collisions k
        cards := c.cards ++ [{ Card.reset with uid := u, cid := cid }], reader := 2#2 }).latch 30)) ∧
    (s.tide.power ≠ .standby → (u, true) ∈ s.answering uids → freeCid s.nfc.cards = none →
      Sys2Proof.Machine.exec (.cardActivation uids) s = .next (((s.wakeHere 3).upNfc fun c => { c with
        collisions := satAdd c.collisions k, overflow := satInc c.overflow }).latch 30))) ∧
  (∀ (s : State) (cid : BitVec 4) (sw : BitVec 16) (role : BitVec 8) (cred : BitVec 64) (c : Card),
    s.card cid = some c → s.readerRuns = true → c.berth = none → c.access = false →
    (sw ≠ 0x9000#16 → Sys2Proof.Machine.exec (.cardSelect cid sw role cred) s =
      .next (s.upNfc fun x => { x with foreign := satInc x.foreign })) ∧
    (role ≠ 0#8 → Sys2Proof.Machine.exec (.cardSelect cid 0x9000#16 role cred) s = .next s) ∧
    (∀ n, s.berthsRun = true → s.freeBerth = some n →
      let u := (((((s.modCard cid fun c => { c with access := true }).sight 3 (BitVec.ofNat 6 s.cfg.anchor) s.now).1.modCard cid
        fun c => { c with berth := some n }).modSe n fun b => { b with cid := some cid }).identify n cred none)
      Sys2Proof.Machine.exec (.cardSelect cid 0x9000#16 0#8 cred) s =
        .next (if u.berthIs n .hailed then u.askRa n else u))) ∧
  (∀ (s : State) (cid : BitVec 4) (rb mac : Bytes) (n : Nat) (g : Bool), s.cardBerth cid = some (n, g) →
    s.readerRuns = true → (s.berth n).se.ra ≠ [] → (s.berth n).se.rb = [] → s.keysServe = true →
    let u := s.keyJob (.auth n) 1#2 2#4 8#5 49
    (s.useAdmits (.auth n) 2#4 true 1 = true →
      accessMac 0x43#8 (s.berth n).se.authKey (s.berth n).se.ra rb (s.berth n).id.cred s.ident.device = mac →
      Sys2Proof.Machine.exec (.cardAuthBeginResponse cid rb mac 0x9000#16) s = .next (u.modSe n fun x =>
        { x with rb := padTo 16 rb, challengeSent := true })) ∧
    (∀ sw, s.useAdmits (.auth n) 2#4 true 1 = true → sw ≠ 0x9000#16 ∨
      accessMac 0x43#8 (s.berth n).se.authKey (s.berth n).se.ra rb (s.berth n).id.cred s.ident.device ≠ mac →
      Sys2Proof.Machine.exec (.cardAuthBeginResponse cid rb mac sw) s = .next (u.castOff n 5#8)) ∧
    (∀ sw, s.useAdmits (.auth n) 2#4 true 1 = false →
      Sys2Proof.Machine.exec (.cardAuthBeginResponse cid rb mac sw) s = .next (s.violation 2#4))) ∧
  (∀ (s : State) (cid : BitVec 4) (n : Nat) (g : Bool), s.cardBerth cid = some (n, g) → s.readerRuns = true →
    (s.berth n).se.challengeSent = true → (s.berth n).se.rb ≠ [] →
    (g = false → Sys2Proof.Machine.exec (.cardAuthEndResponse cid 0x9000#16) s = .next (s.moor n)) ∧
    (g = true → Sys2Proof.Machine.exec (.cardAuthEndResponse cid 0x9000#16) s =
      .next ((s.modCard cid fun c => { c with fresh := false }).upNfc fun c => { c with
        reactivate := satInc c.reactivate })) ∧
    (∀ sw, sw ≠ 0x9000#16 → Sys2Proof.Machine.exec (.cardAuthEndResponse cid sw) s = .next (s.castOff n 5#8))) ∧
  (∀ (s : State) (cid : BitVec 4) (c : Card) (n : Nat), s.card cid = some c → s.readerRuns = true → s.nfc.fieldBack = none →
    c.berth = some n →
    Sys2Proof.Machine.exec (.cardLeftField cid) s = .next (((s.upNfc fun x => { x with
      cards := x.cards.filter fun y => y.cid != cid
      reader := if (x.cards.filter fun y => y.cid != cid) = [] then 1#2 else x.reader }).latch 30).castOff n 0x0A#8)) ∧
  (∀ (s : State) (t n : Nat) (c : Card), s.nfc.fieldBack = some t → t ≤ s.now → s.readerRuns = true → s.nfc.cards = [c] →
    c.berth = some n →
    Sys2Proof.Machine.exec (.readerFieldReturn []) s = .next (((s.upNfc fun x => { x with
      fieldBack := none, cards := [], reader := 1#2 }).latch 30).castOff n 0x0A#8) ∧
    ((s.berth n).id.st = .hailed → Sys2Proof.Machine.exec (.readerFieldReturn [c.cid]) s =
      .next ((s.upNfc fun x => { x with fieldBack := none, reader := 2#2 }).askRa n)) ∧
    ((s.berth n).id.st = .moored → Sys2Proof.Machine.exec (.readerFieldReturn [c.cid]) s =
      .next ((s.upNfc fun x => { x with
        fieldBack := none, reader := 2#2, cards := [{ c with fresh := true }] }).askRa n))) ∧
  (∀ s : State, s.hostReady = true →
    Sys2Proof.Machine.exec .nfcRescan s = .next ((s.reached 0x58000).upNfc fun c => { c with rescan := true })) ∧
  (∀ (s : State) (v : BitVec 32), s.hostReady = true →
    (∀ c, s.nfc.cards[fieldN v 1 0]? = some c →
      Sys2Proof.Machine.exec (.cardSelWrite v) s = .next ((s.reached 0x58008).upNfc fun x => { x with
        cardSel := BitVec.ofNat 2 (fieldN v 1 0)
        cardView := { uidLen := BitVec.ofNat 4 c.uid.length, cid := c.cid.setWidth 3, access := c.access
                      berth := (c.berth.map (BitVec.ofNat 9)).getD 0x1FF#9, uid := c.uid } })) ∧
    (s.nfc.cards[fieldN v 1 0]? = none →
      Sys2Proof.Machine.exec (.cardSelWrite v) s = .next ((s.reached 0x58008).upNfc fun x => { x with
        cardSel := BitVec.ofNat 2 (fieldN v 1 0), cardView := CardView.reset })))

/-- R124, R540: a field activates the tag port, and wakes a powered one. R24, R529, R539: SELECT answers with the device and its
UID, and opens a berth in powered mode. R540, R550: another device's AUTH_BEGIN is refused with 6A 80; KIND 1 with a listed credential is challenged, after
250 ms for each failure. R541: S(WTX) repeats the response that waits. R530, R540, R549, R551: a right AUTH_END after KIND 1
asserts HARV, which its timeout ends. R542 to R544, R548: a READ of the open area and of the original's bytes, and a WRITE of
the secured area in its state; elsewhere 69 85. R50, R547: deactivation ends the session. R543, R546, R547: a host write of
two bytes of the open area reaches the image at tag idle and changes no other byte; a host read gives two bytes. -/
def Obligations.NfcTag : Prop :=
  (∀ s : State, s.nfc.tagField = false →
    (s.tagPowered? = true →
      Sys2Proof.Machine.exec .tagFieldOn s = .next ((s.upNfc fun c => { c with
        tagField := true, tagState := .field, tagPowered := true, tagBerth := none, delayUntil := none }).wakeHere 2)) ∧
    (s.tagPowered? = false →
      Sys2Proof.Machine.exec .tagFieldOn s = .next (s.upNfc fun c => { c with
        tagField := true, tagState := .field, tagPowered := false, tagBerth := none, delayUntil := none }))) ∧
  (∀ s : State, s.nfc.tagField = true → s.nfc.delayUntil = none → s.nfc.tagState = .field →
    (s.nfc.tagPowered = false → Sys2Proof.Machine.exec .tagSelect s = .next (s.tagReply
      ([1#8] ++ le 8 s.ident.device.toNat ++ le 7 s.nfc.uid.toNat ++ [1#8] ++ [0x90#8, 0x00#8]))) ∧
    (∀ n, s.nfc.tagPowered = true → s.berthsRun = true → s.nfc.tagBerth = none → s.freeBerth = some n →
      Sys2Proof.Machine.exec .tagSelect s = .next (((s.tagReply
        ([1#8] ++ le 8 s.ident.device.toNat ++ le 7 s.nfc.uid.toNat ++ [0#8] ++ [0x90#8, 0x00#8])).sight 4
          (BitVec.ofNat 6 s.cfg.anchor) s.now).1.upNfc fun c => { c with tagBerth := some n }))) ∧
  (∀ (s : State) (kind : BitVec 8) (cred device : BitVec 64) (ra noise : Bytes), s.nfc.tagField = true →
    s.nfc.delayUntil = none →
    (device ≠ s.ident.device → Sys2Proof.Machine.exec (.tagAuthBegin kind cred device ra noise) s =
      .next ((s.upNfc fun c => { c with tagState := .field }).tagReply [0x6A#8, 0x80#8])) ∧
    (∀ k, s.nfc.tagState = .field → s.nfc.mirror.getLsbD 2 = true → s.moored 10 = true → s.nfc.tableKey cred = some k →
      Sys2Proof.Machine.exec (.tagAuthBegin 1#8 cred s.ident.device ra noise) s =
        .next (if s.nfc.failures = 0 then s.tagChallenge 1 k cred ra noise
          else s.upNfc fun c => { c with
            tagKey := k, tagRa := padTo 16 ra, tagCred := cred, tagSession := true
            delayUntil := some (s.now + ms (250 * min 16 s.nfc.failures)) }))) ∧
  (∀ (s : State) (t : Nat), s.nfc.tagField = true → s.nfc.delayUntil = some t →
    Sys2Proof.Machine.exec .tagWtx s = .next (s.tagReply s.nfc.response)) ∧
  (∀ (s : State) (t : Nat) (noise : Bytes), s.nfc.tagField = true → s.nfc.delayUntil = some t → t ≤ s.now →
    Sys2Proof.Machine.exec (.harvestDelayEnd noise) s =
      .next (s.tagChallenge 1 s.nfc.tagKey s.nfc.tagCred s.nfc.tagRa noise)) ∧
  (∀ (s : State) (mac : Bytes), s.nfc.tagField = true → s.nfc.delayUntil = none → s.nfc.tagState = .pending1 →
    accessMac 0x52#8 s.nfc.tagKey s.nfc.tagRb s.nfc.tagRa s.nfc.tagCred s.ident.device = mac →
    ∃ t, Sys2Proof.Machine.exec (.tagAuthEnd mac) s = .next t ∧ t.nfc.harvOn = some s.now ∧ t.nfc.tagState = .secured1 ∧
      t.nfc.response = [0x90#8, 0x00#8] ∧ t.nfc.failures = 0 ∧ t.intc = s.intc.event 31 ∧
      t = { s with nfc := t.nfc, intc := t.intc, keys := t.keys }) ∧
  (∀ (s : State) (off : BitVec 16) (len : BitVec 8), s.nfc.tagField = true → s.nfc.delayUntil = none → s.nfc.tagState = .field →
    (1 ≤ len.toNat → len.toNat ≤ 240 → off.toNat + len.toNat ≤ 0x400 →
      Sys2Proof.Machine.exec (.tagRead off len) s =
        .next (s.tagReply (Mem.load s.nfc.image off.toNat len.toNat ++ [0x90#8, 0x00#8]))) ∧
    (0x400 < off.toNat + len.toNat →
      Sys2Proof.Machine.exec (.tagRead off len) s = .next (s.tagReply [0x69#8, 0x85#8]))) ∧
  (∀ (s : State) (off : BitVec 16) (d : Bytes), s.nfc.tagField = true → s.nfc.delayUntil = none →
    (s.nfc.tagState = .secured0 → 1 ≤ d.length → d.length ≤ 240 → 0x400 ≤ off.toNat → off.toNat + d.length ≤ 0x1000 →
      ∃ t, Sys2Proof.Machine.exec (.tagWrite off d) s = .next t ∧ t.nfc.undo = some s.nfc.image ∧
        t.nfc.response = [0x90#8, 0x00#8] ∧ (∀ i, i < d.length → Mem.read t.nfc.image (off.toNat + i) = d.getD i 0#8) ∧
        (∀ a, a < off.toNat ∨ off.toNat + d.length ≤ a → Mem.read t.nfc.image a = Mem.read s.nfc.image a) ∧
        t = { s with nfc := t.nfc }) ∧
    (s.nfc.tagState = .field →
      Sys2Proof.Machine.exec (.tagWrite off d) s = .next (s.tagReply [0x69#8, 0x85#8]))) ∧
  (∀ (s : State) (off : BitVec 16) (len : BitVec 8), s.nfc.tagField = true → s.nfc.delayUntil = none →
    1 ≤ len.toNat → len.toNat ≤ 240 → off.toNat + len.toNat ≤ 2836 →
    Sys2Proof.Machine.exec (.tagReadOrig off len) s =
      .next (s.tagReply (slice s.nfc.orig off.toNat len.toNat ++ [0x90#8, 0x00#8]))) ∧
  (∀ (s : State) (cut : Bool), s.nfc.tagField = true →
    ∃ t, Sys2Proof.Machine.exec (.tagDeactivation cut) s = .next t ∧ t.nfc.tagField = false ∧ t.nfc.tagState = .noField ∧
      t.nfc.tagKey = [] ∧ t.nfc.tagBerth = none ∧ t.nfc.hostWrites = [] ∧ t.intc = s.intc ∧
      (s.nfc.harvOn = none ∨ s.nfc.harvRec ≠ none → t.nfc.harvOn = none) ∧ t.nfc.cards = s.nfc.cards) ∧
  (∀ (s : State) (t i : Nat), s.nfc.harvOn = some t → s.nfc.harvRec = some i → t + sec s.nfc.harvSeconds ≤ s.now →
    ∃ u, Sys2Proof.Machine.exec .harvTimeout s = .next u ∧ u.nfc.harvOn = none ∧ u.nfc.harvRec = none ∧
      u = { s with nfc := { s.nfc with image := u.nfc.image, harvOn := none, harvRec := none }, keys := u.keys }) ∧
  (∀ (s : State) (ha : BitVec 20) (x : BitVec 16), s.hostReady = true → 0x5C008 ≤ 2 * ha.toNat → 2 * ha.toNat < 0x5D000 →
    s.nfc.tagSession = false → s.nfc.hostWrites = [] → s.tend.harvHave = false → s.nfc.tagFrameEnd ≤ s.now →
    ∃ t, Sys2Proof.Machine.exec (.tagMemHostAccess ha (some x)) s = .next t ∧
      t = (s.beginFar none).upNfc (fun c => { c with image := t.nfc.image }) ∧
      Mem.read t.nfc.image (2 * ha.toNat - 0x5C000) = x.setWidth 8 ∧
      Mem.read t.nfc.image (2 * ha.toNat - 0x5C000 + 1) = (x >>> 8).setWidth 8 ∧
      (∀ a, a ≠ 2 * ha.toNat - 0x5C000 → a ≠ 2 * ha.toNat - 0x5C000 + 1 →
        Mem.read t.nfc.image a = Mem.read s.nfc.image a)) ∧
  (∀ (s : State) (ha : BitVec 20), s.hostReady = true → 0x5C000 ≤ 2 * ha.toNat → 2 * ha.toNat < 0x5E000 →
    s.nfc.tagFrameEnd ≤ s.now →
    Sys2Proof.Machine.exec (.tagMemHostAccess ha none) s = .next (s.beginFar (some (BitVec.ofNat 16 (ofLe
      [s.nfc.hostByte (2 * ha.toNat - 0x5C000), s.nfc.hostByte (2 * ha.toNat - 0x5C000 + 1)])))))

/-! The membership register. -/

/-- R386, R387, R753: OPEN in IDLE starts an import, and elsewhere ends with RESULT 16 and a notice of KIND 3. A write into
the import window stores its half word. A block whose CRC matches is staged and good, and no other byte of staging and no other
block changes. VERIFY of a complete delta starts the checks, with its signature's job at the Keccak engine (R497); a missing block gives RESULT 14 with its number. R385: the
checks end in VERIFIED with a staged delta or in REFUSED with the failed check; source 32 latches. -/
def Obligations.RegisterImport : Prop :=
  (∀ s : State, s.hostReady = true → s.cfg.role ≠ .tender →
    (s.reg.state = .idle → Sys2Proof.Machine.exec .registerOpen s = .next ((s.reached 0x80000).upReg fun r =>
      { r with state := .loading, good := [], len := r.loadLen.toNat, late := false })) ∧
    (s.reg.state ≠ .idle → Sys2Proof.Machine.exec .registerOpen s = .next (((s.reached 0x80000).upReg fun r =>
      { r with result := 16#5, detail := 0#16 }).notice 3 0x80000))) ∧
  (∀ (s : State) (ha : BitVec 20) (d : BitVec 16), s.hostReady = true → s.cfg.role ≠ .tender → s.reg.state = .loading →
    0x81000 ≤ 2 * ha.toNat → 2 * ha.toNat < 0x82000 →
    Sys2Proof.Machine.exec (.importWindowWrite ha d) s = .next ((s.beginFar none).upReg fun r =>
      { r with window := Mem.setHalf r.window (2 * ha.toNat - 0x81000) d })) ∧
  (∀ (s : State) (crc : BitVec 32), s.hostReady = true → s.cfg.role ≠ .tender → s.reg.state = .loading →
    let b := s.reg.block.toNat
    let data := Mem.load s.reg.window 0 (min 4096 (s.reg.len - 4096 * b))
    (crc32c data = crc →
      ∃ t, Sys2Proof.Machine.exec (.registerBlockCrc crc) s = .next t ∧ t.reg.blockResult = 1#2 ∧ b ∈ t.reg.good ∧
        (∀ i, i < data.length → Mem.read t.reg.stage (4096 * b + i) = data.getD i 0#8) ∧
        (∀ a, a < 4096 * b ∨ 4096 * b + data.length ≤ a → Mem.read t.reg.stage a = Mem.read s.reg.stage a) ∧
        (∀ c, c ≠ b → (c ∈ t.reg.good ↔ c ∈ s.reg.good)) ∧
        t = { s.reached 0x8000C with
          reg := { s.reg with blockResult := t.reg.blockResult, stage := t.reg.stage, good := t.reg.good } }) ∧
    (crc32c data ≠ crc → Sys2Proof.Machine.exec (.registerBlockCrc crc) s =
      .next ((s.reached 0x8000C).upReg fun r => { r with blockResult := 2#2 }))) ∧
  (∀ s : State, s.hostReady = true → s.cfg.role ≠ .tender → s.reg.state = .loading →
    (firstBad (blocks4k s.reg.len) s.reg.good = none → Sys2Proof.Machine.exec .registerVerify s =
      .next (((s.reached 0x80000).upReg fun r => { r with state := .verifying, startedAt := s.now }).verification .delta s.reg.len)) ∧
    (∀ b, firstBad (blocks4k s.reg.len) s.reg.good = some b → Sys2Proof.Machine.exec .registerVerify s =
      .next (((s.reached 0x80000).upReg fun r => { r with result := 14#5, detail := BitVec.ofNat 16 b }).latch 32))) ∧
  (∀ s : State, s.canVerify = true → s.reg.state = .verifying →
    let u := s.deltaReads.foldl State.touchPage (s.kecDone .delta)
    match s.checkDelta with
    | .ok g => Sys2Proof.Machine.exec .registerVerifyDone s = .next (((u.upReg fun r => { r with
        state := .verified, result := 1#5, detail := 0#16, stagedSeq := g.seq, staged := some g }).upCry fun c =>
          { c with verPass := satInc c.verPass }).latch 32)
    | .error (e, d) =>
      ∃ t, Sys2Proof.Machine.exec .registerVerifyDone s = .next t ∧ t.reg = { u.reg with
        state := .refused, result := BitVec.ofNat 5 e, detail := clampNat 16 d, staged := none } ∧ t.intc = u.intc.event 32 ∧
        t = { u with reg := t.reg, intc := t.intc, cry := { u.cry with verPass := t.cry.verPass, verFail := t.cry.verFail } })

/-- R389, R390: COMMIT stages a verified delta; its end arms the commit for its tide, a page that cannot be read back refuses it
with RESULT 15. R386: ABORT discards. R393: the journal is applied and a new record written without it. R395,
R396: a mailbox command starts the mailbox and one meanwhile gives RESULT 4; a lookup ends with the slot found and whether the
member is allowed. R364, R365: a CLOCK not below the floor is taken and raises the floor; one below takes the floor, with a
notice; at a full hour the floor follows the clock. R98, R390: a commit tide of 0 asks for the earliest, two tides ahead; a
requested tide at or after it, counted modulo 2^32, is taken; one before it is replaced by the earliest and marked LATE. -/
def Obligations.RegisterCommit : Prop :=
  (∀ (s : State) (g : Staged), s.hostReady = true → s.cfg.role ≠ .tender → s.reg.state = .verified → s.reg.staged = some g →
    Sys2Proof.Machine.exec .registerCommit s = .next ((s.reached 0x80000).upReg fun r =>
      { (r.stageDelta g).1 with state := .staging, staged := some (r.stageDelta g).2, startedAt := s.now })) ∧
  (∀ s : State, s.reg.state = .staging →
    Sys2Proof.Machine.exec (.stagingDone true) s = .next (s.leaveSlack.upReg fun r => { r with
      state := .armed, armed := (commitTideOf s.reg.commitTide s.tide.number).1
      late := r.late || (commitTideOf s.reg.commitTide s.tide.number).2 }) ∧
    Sys2Proof.Machine.exec (.stagingDone false) s = .next ((s.upReg fun r => { r with
      state := .refused, staged := none, result := 15#5, detail := 0#16 }).latch 34)) ∧
  (∀ s : State, s.hostReady = true → s.cfg.role ≠ .tender → s.reg.state ≠ .idle → s.reg.state ≠ .verifying →
    Sys2Proof.Machine.exec .registerAbort s = .next ((s.reached 0x80000).upReg fun r => { r with state := .idle, staged := none })) ∧
  (∀ s : State, s.mainUp = true → s.reg.health ≠ 2#2 → s.reg.cur.journal ≠ 0#2 →
    ∃ t, Sys2Proof.Machine.exec .journalApply s = .next t ∧ t.reg.cur.journal = 0#2 ∧ t.reg.journal = [] ∧
      t.reg.cur.rseq = s.reg.cur.rseq + 1#32 ∧ t.reg.cur.seq = s.reg.cur.seq ∧ t.reg.cur.root = s.reg.cur.root ∧
      t.reg.map = applyMap (s.reg.cur.journal = 2#2) s.reg.map s.reg.journal ∧
      t.reg.leaves = applyLeaves (s.reg.cur.journal = 2#2) s.reg.leaves s.reg.journal ∧ t.reg.phys = s.reg.phys ∧
      t = { s with reg := t.reg }) ∧
  (∀ s : State, s.hostReady = true → s.cfg.role ≠ .tender →
    (s.reg.mbBusy = false →
      Sys2Proof.Machine.exec .mbLookup s = .next ((s.reached 0x80080).upReg fun r => { r with mbBusy := true, mbScrub := false }) ∧
      Sys2Proof.Machine.exec .mbScrub s = .next ((s.reached 0x80080).upReg fun r => { r with mbBusy := true, mbScrub := true })) ∧
    (s.reg.mbBusy = true →
      Sys2Proof.Machine.exec .mbLookup s = .next (((s.reached 0x80080).upReg fun r => { r with mbResult := 4#3 }).notice 3 0x80080))) ∧
  (∀ (s : State) (n : Nat), s.reg.mbBusy = true → s.reg.mbScrub = false → s.reg.health = 1#2 →
    (s.lookup s.reg.mbCred).1 = some n →
    ∃ t, Sys2Proof.Machine.exec .mailboxDone s = .next t ∧ t.reg.mbBusy = false ∧ t.reg.mbResult = 1#3 ∧
      t.reg.mbSlot = BitVec.ofNat 23 n ∧ t.reg.mbAllowed = s.rightsAllow (s.reg.member n).rights ∧
      t = { s with reg := t.reg, intc := t.intc, log := t.log }) ∧
  (∀ (s : State) (v : BitVec 32), s.hostReady = true → s.cfg.role ≠ .tender →
    (s.reg.floorNow.toNat ≤ v.toNat → Sys2Proof.Machine.exec (.clockWrite v) s = .next ((s.reached 0x80034).upReg fun r =>
      { r with floor := v, floorCopy := v, clockBase := v, clockAt := s.now, estimated := false })) ∧
    (v.toNat < s.reg.floorNow.toNat → Sys2Proof.Machine.exec (.clockWrite v) s = .next (((s.reached 0x80034).upReg fun r =>
      { r with floor := s.reg.floorNow, floorCopy := s.reg.floorNow, clockBase := s.reg.floorNow, clockAt := s.now
               estimated := false }).notice 1 0x80034))) ∧
  (∀ s : State, s.isTender = false → s.reg.floorHour < s.now / sec 3600 →
    ∃ t, Sys2Proof.Machine.exec .clockFloorHour s = .next t ∧ t.reg.floorHour = s.now / sec 3600 ∧
      t.reg.floor.toNat = max s.reg.floorNow.toNat (s.reg.clock s.now).toNat ∧ t.reg.floorCopy = t.reg.floor ∧
      t = { s with reg := { s.reg with floor := t.reg.floor, floorCopy := t.reg.floorCopy, floorHour := t.reg.floorHour } }) ∧
  (∀ req now : BitVec 32,
    (req = 0#32 → commitTideOf req now = (now + 2#32, false)) ∧
    (req ≠ 0#32 → (req - (now + 2#32)).toNat < 2 ^ 31 → commitTideOf req now = (req, false)) ∧
    (req ≠ 0#32 → 2 ^ 31 ≤ (req - (now + 2#32)).toNat → commitTideOf req now = (now + 2#32, true)))

/-! The key store. -/

/-- R457 to R462, R468, R485: a KEYS command, when none runs and the generator has delivered, zeroes OUT and runs. INSTALL_ROOT
stages the root of a record that passes, and gives the result of the failed check of another, with the derivations' job at the
Keccak engine (R446, R497); INSTALL_PUB and SET_FLEET_ID store in PROVISION; ABORT discards
staged roots; a command while one runs ends with RESULT 7 and a notice of KIND 3. Retagging the banks and the commit records after a switch of the vehicle root ends
its hold. R465, R466: PAIR in FLEET gives the lock key record its next epoch and keeps the previous one; in a pairing the
first PAIR frame carries the counter, which counts REQUESTs only (R419), and after 1 s the command, unless a main-domain reset has ended it (R404), ends with
RESULT 14. -/
def Obligations.KeysRoots : Prop :=
  (∀ (s : State) (w : Bytes), s.keysReadyFor = true → s.cfg.role = .standalone → s.tide.life ≠ .returned →
    s.wrapKey (byteAt (Mem.load s.keys.buf 0 0x50) 0) = some w → s.canDerive = true →
    let b := Mem.load s.keys.buf 0 0x50
    let r := s.installCheck w b (s.anchorThere (byteAt b 1))
    let u := (s.keysBegun.derivations 2 2#2 31#5).useCells
    Sys2Proof.Machine.exec .installRoot s = .next (if r = 1 then (u.stageRoot w b).keysEnd 1
      else u.keysEnd r (if r = 16 then byteAt b 1 else 0))) ∧
  (∀ s : State, s.keysReadyFor = true → s.cfg.role = .standalone → s.tide.life = .provision →
    (let b := Mem.load s.keys.buf 0 72;
      Sys2Proof.Machine.exec .installPub s = .next (
        if byteAt b 0 = 0 then (s.keysBegun.upKeys fun k => { k with pubManifest := slice b 4 68 }).keysEnd 1
        else if byteAt b 0 = 1 then (s.keysBegun.upKeys fun k => { k with pubRegister := slice b 4 68 }).keysEnd 1
        else if byteAt b 0 = 2 then (s.keysBegun.upKeys fun k => { k with pubOverride := slice b 4 68 }).keysEnd 1
        else s.keysBegun.keysEnd 2)) ∧
    Sys2Proof.Machine.exec .setFleetId s =
      .next ((s.keysBegun.upKeys fun k => { k with fleetId := BitVec.ofNat 64 (leAt (Mem.load s.keys.buf 0 8) 0 8) }).keysEnd 1)) ∧
  (∀ s : State, s.keysReadyFor = true →
    Sys2Proof.Machine.exec .keysAbort s =
      .next ((s.keysBegun.upKeys fun k => { k with staged := [], switchTide := 0#32 }).keysEnd 1)) ∧
  (∀ s : State, s.hostReady = true → s.keys.busy = true →
    Sys2Proof.Machine.exec .keysAbort s = .next ((((s.reached 0x68000).upKeys fun k => { k with result := 7#5 }).latch 44
      ).notice 3 0x68000)) ∧
  (∀ (s : State) (old : Bytes), s.keys.vrPrev = some old → s.keys.retag = true →
    Sys2Proof.Machine.exec .rootRetagDone s = .next (((s.upMf fun m => { m with
      bankA := m.bankA.retag old s.keys.vr.key, bankB := m.bankB.retag old s.keys.vr.key }).upReg fun r =>
        r.retag old s.keys.vr.key).upKeys fun k =>
        { k with vrPrev := none, retag := false })) ∧
  (∀ s : State, s.keysReadyFor = true → s.tide.life = .fleet → s.cfg.role = .standalone →
    (s.cfg.can.getD 7 CanCfg.reset).owner = 2#8 → s.keys.vr.valid = true → s.canDerive = true →
    ∃ t, Sys2Proof.Machine.exec .pair s = .next t ∧ t.lk.mram.epoch = nextEpoch s.lk.mram.epoch ∧
      t.lk.mram.key = derive s.keys.vr.key "PAIR" [nextEpoch s.lk.mram.epoch] 16 ∧ t.lk.mram.prevKey = s.lk.mram.key ∧
      t.lk.mram.prevEpoch = s.lk.mram.epoch ∧ t.keys.result = 1#5 ∧ t.lk.state = s.lk.state ∧
      t = { s.reached 0x68000 with keys := t.keys, lk := t.lk, intc := t.intc, cry := t.cry }) ∧
  (∀ s : State, s.lk.alive = true → s.lk.pairing = true → s.lk.recPending = false → s.lk.pairLeft = 10 →
    ∃ t, Sys2Proof.Machine.exec .pairingFrame s = .next t ∧ t.lk.pairLeft = 9 ∧
      t.lk.pairFrom = s.lk.shadow ∧ t.lk.reqCtr = s.lk.reqCtr ∧ t.lk.reqNext = s.lk.reqNext ∧
      t.lk.waiting = s.lk.waiting ++ [le 4 s.lk.record.lock.idRequest.toNat ++ padTo 8 ([2#8, s.lk.reqNext, s.lk.record.epoch] ++
        (cmac s.lk.record.key (ascii "PAIRCHK" ++ [s.lk.reqNext, s.lk.record.epoch] ++ le 8 s.ident.device.toNat)).take 5)] ∧ t.lk.state = s.lk.state ∧
      t.lk.toggling = s.lk.toggling ∧ t = { s with lk := t.lk }) ∧
  (∀ s : State, s.lk.pairing = true → s.lk.pairLeft < 10 → s.lk.pairFrom + sec 1 ≤ s.lk.shadow →
    (s.keys.pairing = true → Sys2Proof.Machine.exec .pairingTimeout s = .next (((s.upLk fun k =>
      { k with pairing := false, pairLeft := 0 }).upKeys fun k =>
        { k with busy := false, pairing := false, result := 14#5 }).latch 44)) ∧
    (s.keys.pairing = false → Sys2Proof.Machine.exec .pairingTimeout s = .next (s.upLk fun k =>
      { k with pairing := false, pairLeft := 0 })))

/-- R137, R138, R469, R471: ADVANCE in PROVISION arms FLEET where the device is ready, else it ends with RESULT 12; RETURN in FLEET
arms RETURN with a ticket that passes and ends with the result of the failed check with another, and outside FLEET with
RESULT 6. R470, R504: GEN_XMSS in PROVISION waits for its seeds, and its end brings the tree's public key, with sources 44 and
45. R482, R483: RESPOND and EXPORT_HARVEST give their derived bytes. R485, R523:
NEW_NONCE draws 8 bytes. R469, R473: DESTROY marks the root for the boundary in PROVISION, and ends with RESULT 6 in FLEET.
R30, R148, R476, R477: a tamper event at a standalone device zeroes the session keys, casts every live berth off with cause
0x0D, lowers the held outputs, is counted and logged, and makes source 46 pending; roots, register, manifest and settings
stay. -/
def Obligations.KeysCommands : Prop :=
  (∀ s : State, s.keysReadyFor = true → s.cfg.role = .standalone → s.tide.life = .provision →
    (s.keysReady = 0x7F#7 → Sys2Proof.Machine.exec .advance s =
      .next ((s.keysBegun.upTide fun t => { t with lifeNext := some .fleet }).keysEnd 1)) ∧
    (s.keysReady ≠ 0x7F#7 → Sys2Proof.Machine.exec .advance s = .next (s.keysBegun.keysEnd 12 s.keysReady.toNat))) ∧
  (∀ s : State, s.keysReadyFor = true → s.cfg.role = .standalone →
    (s.tide.life = .fleet → s.canVerify = true →
      let r := s.returnCheck (Mem.load s.keys.buf 0 4096)
      let u := if r = 1 ∨ r = 8 then s.keysBegun.verification .other 64 else s.keysBegun
      Sys2Proof.Machine.exec .keysReturn s = .next (if r = 1 then
          ((u.upCry fun c => { c with verPass := satInc c.verPass }).upTide fun t =>
            { t with lifeNext := some .returned }).keysEnd 1
        else (u.upCry fun c => { c with verFail := if r = 8 then satInc c.verFail else c.verFail }).keysEnd r)) ∧
    (s.tide.life ≠ .fleet → Sys2Proof.Machine.exec .keysReturn s = .next (s.keysBegun.keysEnd 6))) ∧
  (∀ s : State, s.keysReadyFor = true → s.tide.life = .provision → s.keys.xmss = 0#2 →
    Sys2Proof.Machine.exec .genXmss s = .next (((s.keysBegun.upTrng Trng.dueReseed).upKeys fun k =>
      { k with xmss := 1#2, xmssFrom := s.now, xmssProgress := 0#7 }).request .genXmss)) ∧
  (∀ s : State, s.keys.xmss = 1#2 → s.canVerify = true → s.trng.held = [] →
    ∃ t, Sys2Proof.Machine.exec .genXmssDone s = .next t ∧ t.keys = { s.keys with xmss := 2#2, xmssProgress := 100#7, result := 1#5 } ∧
      t.cry = { (s.kecDone .tree).cry with pub := treePublic s.cry.seeds } ∧ t.intc = (s.intc.event 44).event 45 ∧
      t = { s with keys := t.keys, cry := t.cry, intc := t.intc }) ∧
  (∀ s : State, s.keysReadyFor = true → s.tide.life = .fleet → s.keys.fr.valid = true → s.canDerive = true →
    ∃ t, Sys2Proof.Machine.exec .respond s = .next t ∧ t.keys.result = 1#5 ∧
      t.keys.out = (let dev := le 8 s.ident.device.toNat
        let ctx := dev ++ le 4 s.tide.number.toNat ++ le 4 s.reg.cur.seq.toNat ++ le 4 s.cfg.serial.toNat ++ [2#8]
        derive (derive s.keys.fr.key "BKND" dev 32) "RESP" (Mem.load s.keys.buf 0 32 ++ ctx) 32 ++ ctx) ∧
      t = { s.reached 0x68000 with keys := t.keys, intc := t.intc, cry := t.cry }) ∧
  (∀ (s : State) (n : Nat), s.keysReadyFor = true → s.tide.life = .fleet → s.keys.fr.valid = true → s.canDerive = true →
    (s.lookup s.keys.cred).1 = some n → (s.reg.member n).status = 1#8 →
    ∃ t, Sys2Proof.Machine.exec .exportHarvest s = .next t ∧ t.keys.result = 1#5 ∧
      t.keys.out = s.harvestKey s.keys.cred (s.reg.member n).gen s.ident.device ∧
      t = { s.reached 0x68000 with keys := t.keys, intc := t.intc, cry := t.cry, reg := t.reg, log := t.log }) ∧
  (∀ s : State, s.keysReadyFor = true → s.trng.serves = true → s.trng.held = [] →
    Sys2Proof.Machine.exec .keysNewNonce s = .next (((s.keysBegun.draw 8).2.upKeys fun k => { k with
      nonce := BitVec.ofNat 64 (leAt (s.draw 8).1 0 8), nonceAt := s.now, result := 1#5, busy := false }).latch 44)) ∧
  (∀ (s : State) (v : Bool), s.keysReadyFor = true →
    (s.tide.life = .provision → Sys2Proof.Machine.exec (.destroy v) s = .next ((s.keysBegun.upKeys fun k =>
      { k with destroyNext := setBit k.destroyNext (if v = true then 0 else 1) true }).keysEnd 1)) ∧
    (s.tide.life = .fleet → Sys2Proof.Machine.exec (.destroy v) s = .next (s.keysBegun.keysEnd 6))) ∧
  (∀ s : State, s.cfg.role = .standalone →
    ∃ t, Sys2Proof.Machine.exec (.tamperLineRise 0#2) s = .next t ∧ t.keys.slots = [] ∧ t.keys.out = [] ∧ t.keys.staged = [] ∧
      t.keys.tamper.getLsbD 0 = true ∧ t.keys.tamperLatch.getLsbD 0 = true ∧
      t.keys.tamperCount = satInc s.keys.tamperCount ∧ t.keys.tamperHold = true ∧ t.keys.vr = s.keys.vr ∧ t.keys.fr = s.keys.fr ∧
      (∀ n, n < 256 → (s.berth n).id.st.live = true → n < s.bt.berths.length →
        (t.berth n).id.st = .castOff ∧ (t.berth n).id.cause = 0x0D#8 ∧ (t.berth n).se.memberKey = [] ∧
        (t.berth n).se.authKey = []) ∧
      (∀ n, (s.berth n).id.st = .free → (t.berth n).id.st = .free) ∧
      (∀ m, m < 24 → s.heldPins.getLsbD m = true → t.pins.outputs.getLsbD m = false) ∧
      t.log.head = s.log.head + 1#32 ∧ t.intc.pending.getLsbD 46 = true ∧ t.reg = s.reg ∧ t.mf = s.mf ∧ t.cfg = s.cfg)

/-! Cryptography. -/

/-- R491 to R495, R497, R525, R526: a host block is taken with its key, direction and size, and its result stands in AES_OUT after
its cycles, in source 40; a GO meanwhile makes a notice of KIND 3. R489, R490, R494: a change of key or direction adds 16
cycles. A job of a higher level suspends the one that runs at a block boundary, and waits for one elsewhere; the suspended one
resumes later; one whose cell does not admit it is a violation (R452) and leaves its round without an STS (R238); a Keccak job
takes 48 half cycles a permutation, and none is taken by an engine that failed its test (R499). R504 to R512: ATTEST within the tree and its budget waits for its
signature, and a request meanwhile ends with RESULT 2; a signature is released once its advanced record was read back, and
else ends with RESULT 7. R114, R715, R716, R718: checkpoints fall due by command and after 15 active minutes while they are moored; SEL copies a record that
is held; above HEAD it names HEAD, with a notice of KIND 1. -/
def Obligations.CryptoCommands : Prop :=
  (∀ (s : State) (v : BitVec 32), s.hostReady = true → v.getLsbD 0 = true → fieldN v 5 4 < 3 →
    (s.cry.aesBusy = false → s.cry.jobs = [] →
      ∃ t, Sys2Proof.Machine.exec (.aesGo v) s = .next t ∧ t.cry.aesBusy = true ∧ t.cry.aesOut = [] ∧
        t.cry.aesNext = (let key := Mem.load s.cry.aesKey 0 (16 + 8 * fieldN v 5 4)
          if v.getLsbD 1 = true then aesDec key (Mem.load s.cry.aesIn 0 16) else aesEnc key (Mem.load s.cry.aesIn 0 16)) ∧
        (∃ j, t.cry.jobs = [j] ∧ j.level = 2#2 ∧ j.host = true ∧ j.started = true ∧ j.dir = v.getLsbD 1 ∧
          j.key = Mem.load s.cry.aesKey 0 (16 + 8 * fieldN v 5 4) ∧ t.cry.keyed = some (some .aes, j.key, j.dir) ∧
          j.left = 28 ∧ j.setup = (if s.cry.keyed = some (some .aes, j.key, j.dir) then 0 else 32)) ∧
        t.cry.blocksDone = s.cry.blocksDone ∧ t = { s.reached 0x60004 with cry := t.cry, keys := t.keys }) ∧
    (s.cry.aesBusy = true → Sys2Proof.Machine.exec (.aesGo v) s = .next (((s.reached 0x60004).upCry fun c => { c with
      aesDir := v.getLsbD 1, aesKsize := BitVec.ofNat 2 (fieldN v 5 4) }).notice 3 0x60004))) ∧
  (∀ (s : State) (j : AesJob), s.cry.jobs = [j] → j.host = true → j.suspended = false → 1 ≤ j.left →
    j.setup + j.left ≤ 25 → s.cry.selftest.getLsbD 0 = false →
    Sys2Proof.Machine.exec .aesBlockDone s = .next ((s.upCry fun c => { c.blocks 1 with
      aesOut := c.aesNext, aesBusy := false, jobs := [] }).latch 40)) ∧
  (∀ (s : State) (h : AesJob) (level : BitVec 2) (m : BitVec 4) (f : Bool) (k : Nat) (x : BitVec 5) (d : Bool),
    s.cry.jobs = [h] → h.started = true → h.suspended = false → h.level.toNat < level.toNat →
    let j : AesJob := { AesJob.reset with level := level, left := 28 * k, master := m, fleet := f, feature := x
                                          since := s.now, dir := d }
    (h.left ≠ 0 → h.left % 28 = 0 → Sys2Proof.Machine.exec (.aesJobArrival level none m f k x d) s =
      .next (s.useCells.upCry fun c => { c with
        jobs := [{ j with started := true, setup := 32 }, { h with suspended := true, setup := 32 }]
        suspends := satInc c.suspends, keyed := some (none, [], d) })) ∧
    (h.left % 28 ≠ 0 → Sys2Proof.Machine.exec (.aesJobArrival level none m f k x d) s =
      .next (s.upCry fun c => { c with jobs := [h, j] }))) ∧
  (∀ (s : State) (level : BitVec 2) (c : KeyCell) (m : BitVec 4) (f : Bool) (k : Nat) (x : BitVec 5) (d : Bool),
    s.cry.jobs = [] → s.useAdmits c m f 1 = false →
    (level ≠ 3#2 → Sys2Proof.Machine.exec (.aesJobArrival level (some c) m f k x d) s = .next (s.violation m)) ∧
    (∀ i, c = .sts i →
      Sys2Proof.Machine.exec (.aesJobArrival 3#2 (some c) m f k x d) s = .next ((s.violation m).stsLost i))) ∧
  (∀ (s : State) (h : AesJob) (l : List AesJob), s.cry.jobs = h :: l → h.suspended = true →
    h.cell = none ∨ (∃ c, h.cell = some c ∧ s.useAdmits c h.master h.fleet 1 = true) →
    Sys2Proof.Machine.exec .aesJobResume s = .next (s.useCells.upCry fun c => { c with
      jobs := { h with suspended := false } :: l, keyed := some (s.setUp h) })) ∧
  (∀ (s : State) (level : BitVec 2) (v : Bool) (n : Nat) (x : BitVec 5),
    (s.cry.kjobs = [] → s.canDerive = true →
      Sys2Proof.Machine.exec (.keccakJobArrival level v n x) s = .next (s.upCry fun c => { c with
        kjobs := [{ KecJob.reset with level := level, verify := v, left := 48 * n, feature := x, since := s.now
                                      started := true }] })) ∧
    (s.canDerive = false → Sys2Proof.Machine.exec (.keccakJobArrival level v n x) s = .next s)) ∧
  (∀ s : State, s.hostReady = true →
    (s.cry.signState = 0#2 → s.tide.life = .fleet → s.keys.xmss = 2#2 → s.cry.signRec.next < 1048576 →
      s.signWindow.1 < 3840 → s.signWindow.2 < 3584 → s.canVerify = true →
      Sys2Proof.Machine.exec .attest s = .next ((s.reached 0x60080).upCry fun c => { c with
        signState := 1#2, signWhat := .attest, signResult := 0#4 })) ∧
    (s.cry.signState ≠ 0#2 →
      Sys2Proof.Machine.exec .attest s = .next (((s.reached 0x60080).upCry fun c => { c with signResult := 2#4 }).latch 41))) ∧
  (∀ s : State, s.cry.signState = 2#2 → s.cry.signWhat = .attest →
    (∃ t, Sys2Proof.Machine.exec (.signRelease true) s = .next t ∧ t.cry.signState = 0#2 ∧ t.cry.signResult = 1#4 ∧
      t.cry.attestOut = s.cry.signMsg ++ s.signature ∧
      (t.cry.recA = s.cry.signRec.next' s.aonDay true ∨ t.cry.recB = s.cry.signRec.next' s.aonDay true) ∧
      t.intc = s.intc.event 41 ∧ t = { s with cry := t.cry, intc := t.intc }) ∧
    Sys2Proof.Machine.exec (.signRelease false) s = .next (((s.kecDone .signing).upCry fun c => { c with
      signState := 0#2, signWhat := .none, signMsg := [], signResult := 7#4 }).latch 41)) ∧
  (∀ s : State, s.hostReady = true →
    (s.moored 24 = true →
      Sys2Proof.Machine.exec .checkpoint s = .next ((s.reached 0xC0000).upLog fun l => { l with due := true, demand := true })) ∧
    (s.moored 24 = false → Sys2Proof.Machine.exec .checkpoint s = .next (s.reached 0xC0000))) ∧
  (∀ s : State, sec 900 ≤ s.activeTime →
    Sys2Proof.Machine.exec .checkpointDue s = .next (s.upLog fun l =>
      { l with due := l.due || s.moored 24, activeSpent := 0, activeFrom := s.now })) ∧
  (∀ (s : State) (v : BitVec 32), s.hostReady = true →
    (∀ r, s.log.tail.toNat ≤ v.toNat → v.toNat ≤ s.log.head.toNat → s.log.ring.find? (fun r => r.seq == v) = some r →
      Sys2Proof.Machine.exec (.logbookSelWrite v) s = .next ((s.reached 0xC0018).upLog fun l =>
        { l with sel := v, record := r.bytes })) ∧
    (s.log.head.toNat < v.toNat →
      ∃ t, Sys2Proof.Machine.exec (.logbookSelWrite v) s = .next t ∧ t.log.sel = s.log.head ∧ t.log.ring = s.log.ring ∧
        t.port.clampKind = 1#4 ∧ t.intc = s.intc.event 60))

/-- R520 to R523, R526: GENERATE is answered at once by a generator that delivers and is held by one that does not; a command
while one is held ends with RESULT 3; RESEED makes a reseed due; SET_PERS stores its record. R514 to R518: the first good block
after a start is the start-up test, a later one enters the conditioning register, and reseeds a generator that waits for
it, with the blocks of its derivation at the AES engine (R491); one that fails the proportion test is counted, makes a reseed due and latches source 43. R517: 1 s after a fatal alarm the
source starts again. R520: 1 s after a reseed the next falls due. R522: a request held for 10 ms ends with RESULT 2. R490:
after 2^20 blocks the mask generator is reseeded, or its reseed waits. R523: the session identifier base is drawn with its
low 12 bits zero. -/
def Obligations.RandomGenerator : Prop :=
  (∀ s : State, s.hostReady = true →
    (s.trng.hostHeld = false → s.trng.serves = true → s.trng.held = [] →
      ∃ t, Sys2Proof.Machine.exec .trngGenerate s = .next t ∧ t.trng.out = (s.draw (4 * s.trng.genLen.toNat)).1 ∧
        t.trng.result = 1#2 ∧ t.trng.hostHeld = false ∧ t.trng.key = (s.draw (4 * s.trng.genLen.toNat)).2.trng.key ∧
        t.intc = s.intc.event 42 ∧
        t = { s.reached 0x70000 with trng := t.trng, intc := t.intc, keys := t.keys, cry := t.cry }) ∧
    (s.trng.hostHeld = false → s.trng.serves = false → s.trng.held.length < 64 →
      Sys2Proof.Machine.exec .trngGenerate s = .next ((s.reached 0x70000).upTrng fun t => { t with
        out := [], hostHeld := true, result := 0#2, held := t.held ++ [{ who := .hostGenerate, since := s.now }] })) ∧
    (s.trng.hostHeld = true → Sys2Proof.Machine.exec .trngGenerate s = .next (((s.reached 0x70000).upTrng fun t => { t with
      out := [], result := 3#2 }).latch 42)) ∧
    (s.trng.hostHeld = false → s.trng.held.length < 64 → Sys2Proof.Machine.exec .trngReseed s =
      .next ((s.reached 0x70000).upTrng fun t => { t with
        out := [], hostHeld := true, result := 0#2, hostReseed := some (Mem.load t.pers 0 48), reseedDue := true
        state := if t.state = .ready then .reseeding else t.state
        held := t.held ++ [{ who := .hostReseed, since := s.now }] })) ∧
    (s.trng.hostHeld = false → Sys2Proof.Machine.exec .setPers s = .next ((s.reached 0x70000).upTrng fun t => { t with
      out := [], persRec := Mem.load t.pers 0 40, result := 1#2 }))) ∧
  (∀ (s : State) (raw : BitVec 1024), s.trng.running = true → s.keys.heldCmd = none → s.keys.heldFwd = [] →
    (∀ n, n < 256 → (s.berth n).se.keyDue = false) →
    (rctBlock raw s.trng.runBit s.trng.runLen).2.2 = false → aptFails raw = false →
    (s.trng.startup = true →
      ∃ t, Sys2Proof.Machine.exec (.noiseBlockDone raw) s = .next t ∧ t.trng.startup = false ∧ t.trng.lfsr = s.trng.lfsr ∧
        t.trng.state = s.trng.state ∧ t.trng.lastBlockAt = s.now ∧ t = { s with trng := t.trng }) ∧
    (s.trng.startup = false → s.trng.inst = true → s.trng.fatal = false → s.trng.state = .reseeding → s.trng.held = [] →
      s.cry.maskDue = false →
      ∃ t, Sys2Proof.Machine.exec (.noiseBlockDone raw) s = .next t ∧ t.trng.lfsr = lfsrBlock s.trng.lfsr raw ∧
        t.trng.state = .ready ∧ t.trng.reseedDue = false ∧ t.trng.since = 0 ∧ t.trng.reseedAt = s.now ∧
        (t.trng.key, t.trng.v) = drbgReseed (s.trng.key, s.trng.v) (le 32 (lfsrBlock s.trng.lfsr raw).toNat)
          (s.trng.hostReseed.getD []) ∧ t = { s with trng := t.trng, cry := t.cry, keys := t.keys })) ∧
  (∀ (s : State) (raw : BitVec 1024), s.trng.running = true → s.keys.heldCmd = none → s.keys.heldFwd = [] →
    (∀ n, n < 256 → (s.berth n).se.keyDue = false) → s.trng.window = [] →
    s.trng.afterFatal = 0 → aptFails raw = true →
    ∃ t, Sys2Proof.Machine.exec (.noiseBlockDone raw) s = .next t ∧ t.trng.apt = satInc s.trng.apt ∧ t.trng.startup = true ∧
      t.trng.reseedDue = true ∧ t.trng.lfsr = s.trng.lfsr ∧ t.trng.fatal = s.trng.fatal ∧ t.intc = s.intc.event 43 ∧
      t = { s with trng := t.trng, intc := t.intc }) ∧
  (∀ s : State, s.trng.fatal = true → s.trng.running = false → s.trng.fatalAt + sec 1 ≤ s.now →
    (s.tide.power.asleep = false ∨ s.trng.inst = false) →
    Sys2Proof.Machine.exec .fatalRestart s = .next (s.upTrng fun t => { t with
      running := true, startup := true, runLen := 0, afterFatal := 64 })) ∧
  (∀ s : State, s.trng.inst = true → s.tide.power.asleep = false → s.trng.reseedDue = false → s.trng.reseedAt + sec 1 ≤ s.now →
    Sys2Proof.Machine.exec .drbgReseedTimer s = .next (s.upTrng fun t => { t with
      reseedDue := true, state := if t.state = .ready then .reseeding else t.state })) ∧
  (∀ (s : State) (since : Nat) (l : List Held), s.trng.held = { who := .hostGenerate, since := since } :: l →
    since + ms 10 ≤ s.now →
    Sys2Proof.Machine.exec .entropyRequestTimeout s = .next ((s.upTrng fun t => { t with
      held := l, drops := satInc t.drops, result := 2#2, hostHeld := false }).latch 42)) ∧
  (∀ s : State, 2 ^ 20 ≤ s.cry.blocksDone →
    (s.trng.serves = true → Sys2Proof.Machine.exec .maskGeneratorReseed s = .next ((s.draw 32).2.upCry fun c => { c with
      maskDue := false, maskSeed := (s.draw 32).1, blocksDone := 0 })) ∧
    (s.trng.serves = false → Sys2Proof.Machine.exec .maskGeneratorReseed s = .next (s.upCry fun c =>
      { c with maskDue := true }))) ∧
  (∀ s : State, s.mainUp = true → s.bt.sidBase = none → s.trng.held = [] → s.bt.sidTryAt + ms 1 ≤ s.now → s.trng.serves = true →
    ∃ t b, Sys2Proof.Machine.exec .sessionIdBaseRetry s = .next t ∧ t.bt = { s.bt with sidBase := some b } ∧
      b.toNat % 4096 = 0 ∧ b.toNat / 4096 = leAt (s.draw 4).1 0 4 / 4096 ∧
      t = { s with trng := t.trng, bt := t.bt, keys := t.keys, cry := t.cry })

/-! CAN. -/

/-- R558 to R562, R576, R585, R590, R591: REQ makes an enabled transmit object PENDING, LOAD copies TXBUF, CANCEL ends a waiting
transmission and marks one on the air, RX_ACK releases entries; a locked controller and an object that may not send make a
notice of KIND 3. R587, R588: the winner goes on the air, and is IDLE after its success; R111: one whose controller has changed owner meanwhile is
emptied as it ends. R588 to R592: a failed attempt is tried
again until its limit; lost arbitration counts as none; a transmit error adds 8 to TEC, a success takes 1 from it. R417, R556,
R557: a bus-off controller recovers with both counters 0, integration gives the state of its counters, a protocol exception
leaves the bus; a receive error adds 8 or 1 to REC. R577 to R582, R586: a frame that no filter takes is counted, one that an
object takes joins its queue. R595: a transaction that was not answered in time is dropped with its event. -/
def Obligations.CanControllers : Prop :=
  (∀ (s : State) (n : BitVec 3) (k : BitVec 7), s.hostReady = true →
    ((s.ctl n.toNat).owner = 1#8 → ((s.ctl n.toNat).obj k.toNat).sends = true → s.moored (11 + n.toNat) = true →
      ((s.ctl n.toNat).obj k.toNat).st = .idle ∨ ((s.ctl n.toNat).obj k.toNat).st = .aground →
      Sys2Proof.Machine.exec (.canTxRequest n k) s = .next ((s.reached (mobjCtrl n.toNat k.toNat)).modObj n.toNat k.toNat fun o =>
        { o with st := .pending, tries := 0#8, cancel := false, heldReq := !s.canSends n.toNat })) ∧
    (((s.ctl n.toNat).obj k.toNat).sends = false →
      Sys2Proof.Machine.exec (.canTxRequest n k) s =
        .next ((s.reached (mobjCtrl n.toNat k.toNat)).notice 3 (mobjCtrl n.toNat k.toNat))) ∧
    ((s.ctl n.toNat).owner ≠ 2#8 → ((s.ctl n.toNat).obj k.toNat).sends = true → ((s.ctl n.toNat).obj k.toNat).st = .idle →
      Sys2Proof.Machine.exec (.canLoad n k) s = .next ((s.reached (mobjCtrl n.toNat k.toNat)).modObj n.toNat k.toNat fun o =>
        { o with data := Mem.load (s.ctl n.toNat).txbuf 0 o.len.toNat, loaded := o.len.toNat })) ∧
    ((s.ctl n.toNat).owner ≠ 2#8 → Sys2Proof.Machine.exec (.canCancel n k) s =
      .next ((s.reached (mobjCtrl n.toNat k.toNat)).modObj n.toNat k.toNat fun o =>
        if o.st = .pending ∨ o.st = .aground then { o with st := .idle, tries := 0#8, heldReq := false }
        else if o.st = .onAir then { o with cancel := true } else o)) ∧
    ((s.ctl n.toNat).owner = 2#8 → Sys2Proof.Machine.exec (.canCancel n k) s =
      .next ((s.reached (mobjCtrl n.toNat k.toNat)).notice 3 (mobjCtrl n.toNat k.toNat)))) ∧
  (∀ (s : State) (n : BitVec 3) (c : BitVec 32), s.hostReady = true → (s.ctl n.toNat).owner ≠ 2#8 →
    fieldN c 5 0 ≤ ((s.ctl n.toNat).obj (s.ctl n.toNat).rxsel.toNat).queue.length →
    Sys2Proof.Machine.exec (.canRxAck n c) s = .next ((s.reached (canAddr n.toNat 0x48)).modObj n.toNat
      (s.ctl n.toNat).rxsel.toNat fun o => { o with queue := o.queue.drop (fieldN c 5 0) })) ∧
  (∀ (s : State) (n : BitVec 3) (k : Nat), s.can.ok = true → (s.ctl n.toNat).winner = some k → s.canSends n.toNat = true →
    (s.ctl n.toNat).onBus = true → (s.ctl n.toNat).onAir = none → (s.ctl n.toNat).mode.force ≠ 1#2 → s.inAir = false →
    ((s.ctl n.toNat).obj k).bit 6 = false →
    ∃ t, Sys2Proof.Machine.exec (.canArbitrationStart n) s = .next t ∧ (t.ctl n.toNat).onAir = some k ∧
      (t.ctl n.toNat).onAirAt = s.now ∧ (k < (s.ctl n.toNat).objs.length →
        (t.ctl n.toNat).obj k = { (s.ctl n.toNat).obj k with st := .onAir }) ∧
      (∀ j, j ≠ k → (t.ctl n.toNat).obj j = (s.ctl n.toNat).obj j) ∧ (∀ m, m ≠ n.toNat → t.ctl m = s.ctl m) ∧
      t = { s with can := { s.can with ctl := t.can.ctl } }) ∧
  (∀ (s : State) (n : BitVec 3) (k : Nat), s.can.ok = true → (s.ctl n.toNat).owner ≠ 2#8 → (s.ctl n.toNat).onAir = some k →
    k < (s.ctl n.toNat).objs.length → ((s.ctl n.toNat).obj k).bit 6 = false → (s.ctl n.toNat).mode.force = 0#2 →
    let o := (s.ctl n.toNat).obj k
    ∃ t, Sys2Proof.Machine.exec (.canTxSuccess n) s = .next t ∧ (t.ctl n.toNat).onAir = none ∧
      (o.gone = false → (t.ctl n.toNat).obj k = { o with st := .idle, tries := 0#8, cancel := false }) ∧
      (o.gone = true → (t.ctl n.toNat).obj k =
        { o with st := .idle, tries := 0#8, cancel := false, gone := false, data := [], loaded := 0 }) ∧
      (t.ctl n.toNat).tecN = min ((s.ctl n.toNat).tecN - 1) 255 ∧ (t.ctl n.toNat).events.getLsbD 1 = true ∧
      (∀ j, j ≠ k → (t.ctl n.toNat).obj j = (s.ctl n.toNat).obj j) ∧ (∀ m, m ≠ n.toNat → t.ctl m = s.ctl m) ∧
      t = { s with can := { s.can with ctl := t.can.ctl }, intc := t.intc }) ∧
  (∀ (s : State) (n : BitVec 3) (k : Nat), s.can.ok = true → (s.ctl n.toNat).owner ≠ 2#8 → (s.ctl n.toNat).onAir = some k →
    k < (s.ctl n.toNat).objs.length → ((s.ctl n.toNat).obj k).cancel = false → ((s.ctl n.toNat).obj k).gone = false →
    ∃ t u, Sys2Proof.Machine.exec (.canTxAttemptFailed n 3#2) s = .next t ∧ t = { s with can := { s.can with ctl := t.can.ctl } } ∧
      (t.ctl n.toNat).onAir = none ∧ (t.ctl n.toNat).obj k = { (s.ctl n.toNat).obj k with st := .pending } ∧
      Sys2Proof.Machine.exec (.canTxAttemptFailed n 0#2) s = .next u ∧ (u.ctl n.toNat).onAir = none ∧
      ((u.ctl n.toNat).obj k).st =
        (if (s.canCfg n.toNat).retry ≤ ((s.ctl n.toNat).obj k).tries.toNat + 1 then .aground else .pending) ∧
      ((u.ctl n.toNat).obj k).tries.toNat = min (((s.ctl n.toNat).obj k).tries.toNat + 1) 255 ∧
      (u.ctl n.toNat).tecN = min ((s.ctl n.toNat).tecN + 8) 255 ∧
      u = { s with can := { s.can with ctl := u.can.ctl }, intc := u.intc }) ∧
  (∀ (s : State) (n : BitVec 3),
    ((s.ctl n.toNat).owner = 2#8 → (s.ctl n.toNat).state = 3#2 → Sys2Proof.Machine.exec (.canBusOffRecovery n) s =
      .next ((s.modCtl 7 fun c => { c with state := 1#2, tecN := 0, recN := 0 }).upLk fun k => { k with busOff := false })) ∧
    ((s.ctl n.toNat).owner ≠ 2#8 → (s.ctl n.toNat).state = 3#2 →
      Sys2Proof.Machine.exec (.canBusOffRecovery n) s = .next (s.canCounters n.toNat 0 0)) ∧
    (s.canRuns n.toNat = true → (s.ctl n.toNat).owner ≠ 2#8 → (s.ctl n.toNat).state = 0#2 →
      Sys2Proof.Machine.exec (.canBusIntegration n) s = .next (s.modCtl n.toNat fun c =>
        { c with state := errState c.tecN c.recN, protoExc := false })) ∧
    (s.canRuns n.toNat = true → (s.ctl n.toNat).owner ≠ 2#8 → (s.ctl n.toNat).onBus = true →
      Sys2Proof.Machine.exec (.canProtocolException n) s = .next (s.modCtl n.toNat fun c =>
        { c with state := 0#2, protoExc := true }) ∧
      Sys2Proof.Machine.exec (.canReceiveError n true) s =
        .next (s.canCounters n.toNat (s.ctl n.toNat).tecN ((s.ctl n.toNat).recN + 8)) ∧
      Sys2Proof.Machine.exec (.canReceiveError n false) s =
        .next (s.canCounters n.toNat (s.ctl n.toNat).tecN ((s.ctl n.toNat).recN + 1)))) ∧
  (∀ (s : State) (n : BitVec 3) (f : CanFrame) (sof : Nat), s.can.ok = true → s.canRuns n.toNat = true →
    (s.ctl n.toNat).onBus = true → (s.ctl n.toNat).owner ≠ 2#8 → s.tide.startAt ≤ sof →
    (firstMatch (s.ctl n.toNat).active (s.ctl n.toNat).activeLen.toNat f = none →
      ∃ t, Sys2Proof.Machine.exec (.canFrameReceived n f sof) s = .next t ∧
        (t.ctl n.toNat).unmatched = satInc (s.ctl n.toNat).unmatched ∧ (t.ctl n.toNat).objs = (s.ctl n.toNat).objs ∧
        t = { s with can := { s.can with ctl := t.can.ctl }, intc := t.intc }) ∧
    (∀ i, firstMatch (s.ctl n.toNat).active (s.ctl n.toNat).activeLen.toNat f = some i →
      let w := Mem.num (s.ctl n.toNat).active (16 * i + 8) 4
      let o := (s.ctl n.toNat).obj (w % 128)
      w / 2 ^ 8 % 2 = 0 → o.receives = true → o.bit 7 = false → (s.ctl n.toNat).askers (w % 128) = [] →
      o.queue.length < cfgDepth o.cfgForce → w % 128 < (s.ctl n.toNat).objs.length →
      ∃ t, Sys2Proof.Machine.exec (.canFrameReceived n f sof) s = .next t ∧
        (t.ctl n.toNat).obj (w % 128) = { o with queue := o.queue ++ [canEntryOf f i (s.baseAt sof) (s.tideOf sof)] } ∧
        (t.ctl n.toNat).events.getLsbD 0 = true ∧
        (∀ j, j ≠ w % 128 → (t.ctl n.toNat).obj j = (s.ctl n.toNat).obj j) ∧ (∀ m, m ≠ n.toNat → t.ctl m = s.ctl m) ∧
        t = { s with can := { s.can with ctl := t.can.ctl }, intc := t.intc, tide := t.tide, pier := t.pier })) ∧
  (∀ (s : State) (n : BitVec 3) (k : BitVec 7) (tag : BitVec 8),
    (∃ x ∈ ((s.ctl n.toNat).obj k.toNat).txns, x.tag = tag ∧
      cfgTimeout ((s.ctl n.toNat).obj k.toNat).cfgForce ≤ (s.tide.number - x.tide).toNat) →
    Sys2Proof.Machine.exec (.canTransactTimeout n k tag) s = .next ((s.modObj n.toNat k.toNat fun o =>
      { o with txns := o.txns.filter fun x => x.tag != tag }).canEvent n.toNat 7))

/-! Pier links. -/

/-- R603, R606, R608: a wanted port trains from DISABLED, and again from ADRIFT after 1 ms at first and then every 100 ms, and
every 100 ms from DOWN, where 2 ms without completion leave it. Training that completes makes it ACTIVE with its window at the
start; at a harbourmaster whose enumeration has begun the link joins its order, and at a tender the other ports are disabled.
R606, R613, R614: a link that goes adrift loses its binding, its admission and its tender's berths, which are cast off with
cause 0x0F, and a tender loses its session slots and its schedule; loss of signal, of alignment or code errors do so, and
RETRAIN with cause 5, or with a notice of KIND 3 at a disabled port. R610 to R612: a block in order is taken, any other is
counted and asked for again once; an ACK advances the window, an ACK or a NAK outside the window is counted; a NAK or 16 µs
without an ACK sends again, and where that would be a block's 9th sending the link goes adrift with cause 1. -/
def Obligations.PierLinks : Prop :=
  (∀ (s : State) (n : BitVec 5), s.pier.ok = true → s.mainUp = true → s.portWanted n.toNat = true →
    ((s.link n.toNat).st = .disabled → ∃ t, Sys2Proof.Machine.exec (.pierPortEnable n) s = .next t ∧
      t.link n.toNat = { s.link n.toNat with st := .training, since := s.now } ∧
      (∀ m, m ≠ n.toNat → t.link m = s.link m) ∧ t = { s with pier := { s.pier with links := t.pier.links } }) ∧
    ((s.link n.toNat).st = .adrift →
      (s.link n.toNat).since + (if (s.link n.toNat).firstRetry then ms 100 else ms 1) ≤ s.now →
      ∃ t, Sys2Proof.Machine.exec (.pierRetrainTimer n) s = .next t ∧
        t.link n.toNat = { s.link n.toNat with firstRetry := true, st := .training, since := s.now } ∧
        (∀ m, m ≠ n.toNat → t.link m = s.link m) ∧ t = { s with pier := { s.pier with links := t.pier.links } }) ∧
    ((s.link n.toNat).st = .down → (s.link n.toNat).since + ms 100 ≤ s.now →
      ∃ t, Sys2Proof.Machine.exec (.pierRetrainTimer n) s = .next t ∧
        t.link n.toNat = { s.link n.toNat with st := .training, since := s.now } ∧
        (∀ m, m ≠ n.toNat → t.link m = s.link m) ∧ t = { s with pier := { s.pier with links := t.pier.links } })) ∧
  (∀ (s : State) (n : BitVec 5), s.pier.ok = true → s.mainUp = true → (s.link n.toNat).st = .training →
    (s.link n.toNat).since + ms 2 ≤ s.now →
    ∃ t, Sys2Proof.Machine.exec (.pierTrainingTimeout n) s = .next t ∧
      t.link n.toNat = { s.link n.toNat with
        st := .down, since := s.now, trainFails := satInc (s.link n.toNat).trainFails, trainTime := 2000#16 } ∧
      (∀ m, m ≠ n.toNat → t.link m = s.link m) ∧ t = { s with pier := { s.pier with links := t.pier.links } }) ∧
  (∀ (s : State) (n : BitVec 5) (lat : BitVec 16), s.pier.ok = true → s.mainUp = true → (s.link n.toNat).st = .training →
    ∃ t, Sys2Proof.Machine.exec (.pierTrainingComplete n lat) s = .next t ∧ (t.link n.toNat).st = .active ∧
      (t.link n.toNat).latency = lat ∧ (t.link n.toNat).rxSeq = 0#4 ∧ (t.link n.toNat).bound = false ∧
      (t.link n.toNat).events.getLsbD 0 = true ∧ t = { s with pier := t.pier, intc := t.intc } ∧
      (s.cfg.role = .harbourmaster → (s.pier.started = false ∨ s.pier.next ≠ 63#6) → (t.link n.toNat).admission = .none ∧
        (t.link n.toNat).window = [] ∧ (∀ m, m ≠ n.toNat → t.link m = s.link m) ∧
        (s.pier.started = true → n.toNat ∈ t.pier.order)) ∧
      (s.cfg.role = .harbourmaster → s.pier.started = true → s.pier.next = 63#6 → s.pier.order = [] →
        (t.link n.toNat).admission = .enumerating ∧ t.pier.next = n.setWidth 6 ∧ t.pier.order = []) ∧
      (s.cfg.role ≠ .harbourmaster → t.pier.upstream = some n ∧ (∀ m, m ≠ n.toNat → m < 32 → (t.link m).st = .disabled))) ∧
  (∀ (s : State) (n : BitVec 5) (cause : BitVec 4), s.pier.ok = true → s.bt.ok = true →
    let t := s.goAdrift n.toNat cause
    (t.link n.toNat).st = .adrift ∧ (t.link n.toNat).adriftLast = cause ∧ (t.link n.toNat).bound = false ∧
    (t.link n.toNat).admission = .none ∧ (t.link n.toNat).adriftCount = satInc (s.link n.toNat).adriftCount ∧
    (t.link n.toNat).events.getLsbD 1 = true ∧ t.tide.number = s.tide.number ∧ t.reg = s.reg ∧
    (s.cfg.role = .harbourmaster → t.pier.serving.getLsbD n.toNat = false ∧
      (∀ k, k < 256 → (s.berth k).id.st.held = true → (s.berth k).id.anchor.toNat = n.toNat + 1 →
        (t.berth k).id.st = .castOff ∧ (t.berth k).id.cause = 0x0F#8)) ∧
    (s.cfg.role ≠ .harbourmaster → t.keys.slots = [] ∧ t.uwb.schedule = [] ∧ t.tend.sched = [] ∧ t.bt = s.bt)) ∧
  (∀ (s : State) (n : BitVec 5) (cause : BitVec 4), s.mainUp = true →
    (s.link n.toNat).st = .active ∨ (s.link n.toNat).st = .slack → cause = 2#4 ∨ cause = 3#4 ∨ cause = 4#4 →
    Sys2Proof.Machine.exec (.pierAdrift n cause) s = .next (s.goAdrift n.toNat cause)) ∧
  (∀ (s : State) (n : BitVec 5), s.hostReady = true →
    ((s.link n.toNat).st ≠ .disabled → Sys2Proof.Machine.exec (.pierRetrain n) s =
      .next ((s.reached (0x30000 + 256 * n.toNat + 4)).goAdrift n.toNat 5#4)) ∧
    ((s.link n.toNat).st = .disabled → Sys2Proof.Machine.exec (.pierRetrain n) s =
      .next ((s.reached (0x30000 + 256 * n.toNat + 4)).notice 3 (0x30000 + 256 * n.toNat + 4)))) ∧
  (∀ (s : State) (n : BitVec 5) (q : BitVec 4) (crcOk codeOk : Bool), s.pier.ok = true → s.mainUp = true →
    (s.link n.toNat).st = .active →
    ∃ t, Sys2Proof.Machine.exec (.pierBlockReceived n q crcOk codeOk) s = .next t ∧
      (∀ m, m ≠ n.toNat → t.link m = s.link m) ∧ t = { s with pier := { s.pier with links := t.pier.links } } ∧
      (crcOk = true → codeOk = true → q = (s.link n.toNat).rxSeq →
        t.link n.toNat = { s.link n.toNat with rxSeq := q + 1#4, nakSent := false }) ∧
      (crcOk = false ∨ codeOk = false ∨ q ≠ (s.link n.toNat).rxSeq → t.link n.toNat = { s.link n.toNat with
        crc := if crcOk then (s.link n.toNat).crc else satInc (s.link n.toNat).crc
        code := if codeOk then (s.link n.toNat).code else satInc (s.link n.toNat).code
        nak := if (s.link n.toNat).nakSent then (s.link n.toNat).nak else satInc (s.link n.toNat).nak
        nakSent := true })) ∧
  (∀ (s : State) (n : BitVec 5) (q : BitVec 4), s.pier.ok = true → s.mainUp = true → (s.link n.toNat).st = .active →
    ∃ t, Sys2Proof.Machine.exec (.pierAck n q) s = .next t ∧ (∀ m, m ≠ n.toNat → t.link m = s.link m) ∧
      t = { s with pier := { s.pier with links := t.pier.links } } ∧
      (∀ i, (s.link n.toNat).place q = some i →
        t.link n.toNat = ({ s.link n.toNat with
          window := (s.link n.toNat).window.drop (i + 1), ackFrom := s.now }).pump s.now 8 ∧
        ((s.link n.toNat).msgs = [] → t.link n.toNat = { s.link n.toNat with
          window := (s.link n.toNat).window.drop (i + 1), ackFrom := s.now })) ∧
      ((s.link n.toNat).place q = none →
        t.link n.toNat = { s.link n.toNat with code := satInc (s.link n.toNat).code })) ∧
  (∀ (s : State) (n : BitVec 5) (q : BitVec 4), s.mainUp = true → (s.link n.toNat).st = .active →
    ((s.link n.toNat).place q = none → Sys2Proof.Machine.exec (.pierNak n q) s =
      .next (s.modPier n.toNat fun l => { l with code := satInc l.code })) ∧
    (∀ i, (s.link n.toNat).place q = some i →
      ((∀ w ∈ (s.link n.toNat).window.drop i, w.1 < 7) → Sys2Proof.Machine.exec (.pierNak n q) s =
        .next (s.modPier n.toNat fun l => { l with
          window := l.window.take i ++ (l.window.drop i).map fun w => (w.1 + 1, w.2)
          resent := satAdd l.resent (l.window.length - i), ackFrom := s.now })) ∧
      ((∃ w ∈ (s.link n.toNat).window.drop i, 7 ≤ w.1) →
        Sys2Proof.Machine.exec (.pierNak n q) s = .next (s.goAdrift n.toNat 1#4)))) ∧
  (∀ (s : State) (n : BitVec 5), s.mainUp = true → (s.link n.toNat).st = .active → (s.link n.toNat).window ≠ [] →
    (s.link n.toNat).ackFrom + us 16 ≤ s.now →
    ((∀ w ∈ (s.link n.toNat).window, w.1 < 7) →
      Sys2Proof.Machine.exec (.pierResendTimeout n) s = .next (s.modPier n.toNat fun l => { l with
        window := l.window.map fun w => (w.1 + 1, w.2)
        resent := satAdd l.resent l.window.length, ackFrom := s.now })) ∧
    ((∃ w ∈ (s.link n.toNat).window, 7 ≤ w.1) →
      Sys2Proof.Machine.exec (.pierResendTimeout n) s = .next (s.goAdrift n.toNat 1#4)))

/-- R634, R697: enumeration starts with the ACTIVE links in ascending order. R618 to R620: a response that no request awaits is
counted; REMOTE is answered in RDATA; a request not answered by the 4th boundary ends with RRESULT 3. R606, R631, R633: a link
that was asked enters SLACK in STANDBY or DEEP when the exchange is over and nothing is armed, and a beacon wakes the
harbourmaster. R249, R629: a tender's POLL counts
in the round of its berth; R85, R86: no measurement counts whose chains' anchor does not export it. R303, R309: a tender's set of
channel sounding is taken for the berth whose link it keeps. R171: its drivers' states are what the harbourmaster knows of them. R616, R639: a tender's touch and wake cause act as the harbourmaster's own. R640: RCMD asks an
admitted tender; while one runs it gives RRESULT 5 with a notice of KIND 3, and at a tender not admitted RRESULT 4. -/
def Obligations.PierHost : Prop :=
  (∀ s : State, s.mainUp = true → s.cfg.role = .harbourmaster → s.sys.verdictsFrom = true → s.pier.started = false →
    Sys2Proof.Machine.exec .enumerationStart s = .next ((s.upPier fun p => { p with
      started := true
      order := (List.range 32).filter fun n => (s.link n).st == .active && (s.link n).admission == .none }).enumNext)) ∧
  (∀ (s : State) (n : BitVec 5) (typ tag : BitVec 8) (ep : BitVec 4) (arg : BitVec 32) (body : Bytes), s.mainUp = true →
    s.cfg.role = .harbourmaster → (s.link n.toNat).st = .active ∨ (s.link n.toNat).st = .slack →
    ((∀ r ∈ (s.link n.toNat).reqs, r.tag ≠ tag ∨ r.epoch ≠ ep ∨ r.typ + 0x80#8 ≠ typ) →
      Sys2Proof.Machine.exec (.pierResponse n typ tag ep arg body) s = .next ((s.modPier n.toNat fun l =>
        { l with stale := satInc l.stale }).pierEvent n.toNat 4)) ∧
    (∀ r, (s.link n.toNat).reqs = [r] → (s.link n.toNat).waiting = [] → r.typ = 0x30#8 →
      (s.tide.number - r.tide).toNat < 4 →
      Sys2Proof.Machine.exec (.pierResponse n 0xB0#8 r.tag r.epoch arg body) s = .next (((s.modPier n.toNat fun l =>
        { l with reqs := l.reqs.filter fun x => x.tag != r.tag }).modPier n.toNat fun l =>
          { l with rbusy := false, rdata := arg, rresult := if byteAt body 0 = 2 then 2#3 else 1#3 }).pierEvent n.toNat 6))) ∧
  (∀ (s : State) (n : BitVec 5) (r : PierReq), s.mainUp = true → (s.link n.toNat).reqs = [r] →
    (s.link n.toNat).waiting = [] → r.typ = 0x30#8 → 4 ≤ (s.tide.number - r.tide).toNat →
    Sys2Proof.Machine.exec (.pierRequestTimeout n r.tag) s = .next (((((s.modPier n.toNat fun l =>
      { l with reqs := l.reqs.filter fun x => x.tag != r.tag }).modPier n.toNat fun l =>
        { l with timeout := satInc l.timeout }).pierEvent n.toNat 5).modPier n.toNat fun l =>
          { l with rbusy := false, rresult := 3#3 }).pierEvent n.toNat 6)) ∧
  (∀ (s : State) (n : BitVec 5) (rq : ReqId), s.mainUp = true → (s.link n.toNat).st = .active →
    (s.cfg.role = .harbourmaster → s.tide.power.asleep = true → s.anyArmed = false → (s.link n.toNat).slackAsked = true → (∀ r ∈ (s.link n.toNat).reqs, r.typ ≠ 0x09#8) →
      Sys2Proof.Machine.exec (.slack n rq) s = .next (s.modPier n.toNat fun l =>
        { l with st := .slack, since := s.now, slackAsked := false })) ∧
    (s.cfg.role = .tender → s.pier.upstream = some n →
      Sys2Proof.Machine.exec (.slack n rq) s = .next ((s.pierAnswer n.toNat 0x09 rq 0#32 []).modPier n.toNat fun l =>
        { l with st := .slack, since := s.now, slackAsked := false }))) ∧
  (∀ (s : State) (n : BitVec 5), s.mainUp = true → (s.link n.toNat).st = .slack →
    (s.cfg.role = .harbourmaster → Sys2Proof.Machine.exec (.wakeBeacon n) s =
      .next ((((s.pierEvent n.toNat 7).wake 15).upTide fun t => { t with beacon := true }).modPier n.toNat fun l =>
        { l with st := .active, since := s.now })) ∧
    (s.cfg.role ≠ .harbourmaster → Sys2Proof.Machine.exec (.wakeBeacon n) s =
      .next (s.modPier n.toNat fun l => ({ l with st := .active, since := s.now }).pump s.now 8))) ∧
  (∀ (s : State) (n : BitVec 5) (x : Round) (r : TenderResult), s.mainUp = true → s.cfg.role = .harbourmaster →
    s.pier.serving.getLsbD n.toNat = true → r.rx.anchor.toNat = n.toNat + 1 → s.tide.startAt ≤ s.tickOf (BitVec.ofNat 48 r.tick) →
    s.uwb.schedule.find? (fun x => x.berth == r.berth.toNat && x.airborne) = some x →
    s.hears x r.rx.anchor.toNat = true → s.exported (n.toNat + 1) [0, 1, 2, 3] = true →
    (r.kind = 0#3 → Sys2Proof.Machine.exec (.resultMessage n [r]) s = .next (s.takePoll x r.rx)) ∧
    (r.kind = 1#3 → r.rx.anchor.toNat ∈ x.slots → Sys2Proof.Machine.exec (.resultMessage n [r]) s =
      .next (s.setResponse x r.rx.anchor.toNat r.rx.stamp)) ∧
    (r.kind = 2#3 → Sys2Proof.Machine.exec (.resultMessage n [r]) s = .next (s.takeFinal x r.rx))) ∧
  (∀ (s : State) (n : BitVec 5) (r : TenderResult), s.mainUp = true → s.cfg.role = .harbourmaster →
    s.pier.serving.getLsbD n.toNat = true →
    (r.kind.toNat < 3 → s.exported (n.toNat + 1) [0, 1, 2, 3] = false →
      Sys2Proof.Machine.exec (.resultMessage n [r]) s = .next s) ∧
    (r.kind = 3#3 → s.exported (n.toNat + 1) [4, 5, 6, 7] = false → Sys2Proof.Machine.exec (.resultMessage n [r]) s = .next s) ∧
    (r.kind = 3#3 → s.exported (n.toNat + 1) [4, 5, 6, 7] = true → (s.berth r.berth.toNat).id.st.moored? = true →
      s.linkAnchor r.berth.toNat = n.toNat + 1 → Sys2Proof.Machine.exec (.resultMessage n [r]) s =
        .next (s.soundSet r.berth.toNat (n.toNat + 1) (BitVec.ofNat 32 r.tick)
          { dist := r.cs.1, spread := r.cs.2.1, valid := true, chains := r.cs.2.2.1, tones := r.cs.2.2.2, tide := BitVec.ofNat 16 r.tick })) ∧
    (r.kind = 4#3 ∨ r.kind = 6#3 → ∃ t, Sys2Proof.Machine.exec (.resultMessage n [r]) s = .next t ∧
      (∀ a, a < 16 → (∀ d ∈ r.drivers, d.1.toNat ≠ a) → t.lf.farOff.getLsbD a = s.lf.farOff.getLsbD a) ∧
      (∀ a, a < 16 → (∃ d ∈ r.drivers, d.1.toNat = a ∧ d.2.2 = true) → t.lf.farOff.getLsbD a = true) ∧
      (∀ a, a < 16 → (∃ d ∈ r.drivers, d.1.toNat = a) → (∀ d ∈ r.drivers, d.1.toNat = a → d.2.2 = false) →
        t.lf.farOff.getLsbD a = false) ∧
      (r.kind = 6#3 → t = { s with lf := t.lf }) ∧ t = { s with lf := t.lf, bt := t.bt })) ∧
  (∀ (s : State) (n : BitVec 5) (arg : BitVec 32) (stamp : BitVec 48) (body : Bytes), s.mainUp = true →
    s.cfg.role = .harbourmaster → (s.link n.toNat).admission = .admitted →
    Sys2Proof.Machine.exec (.eventMessage n 0#8 arg stamp body) s = .next (s.touched arg.toNat) ∧
    (s.tide.beacon = false → arg.toNat < 9 →
      Sys2Proof.Machine.exec (.eventMessage n 3#8 arg stamp body) s = .next (s.wake arg.toNat)) ∧
    (s.tide.beacon = true → arg.toNat < 9 →
      ∃ t, Sys2Proof.Machine.exec (.eventMessage n 3#8 arg stamp body) s = .next t ∧
        t = { s with tide := t.tide } ∧ t.tide.beacon = false ∧ t.tide.wakeCause.getLsbD arg.toNat = true)) ∧
  (∀ (s : State) (n : BitVec 5), s.hostReady = true → s.cfg.role = .harbourmaster →
    let u := s.reached (0x30000 + 256 * n.toNat + 0x48)
    ((s.link n.toNat).rbusy = false → (s.link n.toNat).admission = .admitted →
      Sys2Proof.Machine.exec (.remoteRead n) s = .next ((u.leaveSlack.modPier n.toNat fun l =>
        { l with rbusy := true, rresult := 0#3 }).pierRequest n.toNat 0x30 ((s.link n.toNat).raddr.setWidth 32) [1#8]) ∧
      Sys2Proof.Machine.exec (.remoteWrite n) s = .next ((u.leaveSlack.modPier n.toNat fun l =>
        { l with rbusy := true, rresult := 0#3 }).pierRequest n.toNat 0x30 ((s.link n.toNat).raddr.setWidth 32)
          (2#8 :: le 4 (s.link n.toNat).rdata.toNat))) ∧
    ((s.link n.toNat).rbusy = true → Sys2Proof.Machine.exec (.remoteRead n) s = .next ((u.modPier n.toNat fun l =>
      { l with rresult := 5#3 }).notice 3 (0x30000 + 256 * n.toNat + 0x48))) ∧
    ((s.link n.toNat).rbusy = false → (s.link n.toNat).admission ≠ .admitted →
      Sys2Proof.Machine.exec (.remoteWrite n) s = .next ((u.modPier n.toNat fun l =>
        { l with rresult := 4#3 }).pierEvent n.toNat 6)))

/-- R81, R616, R622 to R624: at a tender ENUM takes the anchor and answers; BIND keeps NH and draws NT; BIND_FINISH binds with a
right MAC_H, and answers 3 otherwise. R621, R635, R636: PUSH_BEGIN begins an image, its data is taken in order, a gap spoils it,
an incomplete one is refused with code 2, and a whole one is checked: a failed check answers its code, a good image pushed under
enumeration is kept for its adoption and one of a commit has its bank written, and a good firmware image takes the inactive
bank (R701, R707); a bank that was written and read back is valid, else the push is answered 14, and the
bank of an image adopted under enumeration is named in the record at a boundary only once it has been read back. R99:
COMMIT_AT keeps its tide. R468: a forwarded fleet identifier is stored in PROVISION. R456, R553, R623: a SESSION_SET that
verifies is stored, one on an unbound link is counted; a harvest table that verifies is taken. R630: a scheduled instant is
kept, one that comes too late is counted. R477, R639: TAMPER zeroes the session slots, holds and ends the outputs' pulses, and
leaves the vehicle root, with no root staged. R459, R481: the forwarded command runs while the key store is free and the generator has
delivered. R196: a scheduled cut ends the pattern on the air at the part of its instant. -/
def Obligations.PierTender : Prop :=
  (∀ (s : State) (rq : ReqId) (host : BitVec 64) (a : BitVec 6), s.upActive = true →
    Sys2Proof.Machine.exec (.enum rq host a) s = .next (((s.upTend fun t => { t with
      hostDev := host, enumAnchor := a.toNat }).modPier s.up fun l =>
        { l with bound := false, anchor := a }).answerUp 0x01 rq 0#32 s.enumReply)) ∧
  (∀ (s : State) (rq : ReqId) (nh : Bytes), s.upActive = true → s.keys.vr.valid = true →
    Sys2Proof.Machine.exec (.bind rq nh) s = .next (((s.modPier s.up fun l =>
      { l with nh := padTo 16 nh, bindDue := true }).upTend fun t => { t with bindReq := rq }).request .pierNt)) ∧
  (∀ (s : State) (rq : ReqId) (mac : Bytes), s.upActive = true → (s.link s.up).nt ≠ [] →
    (s.canDerive = true → mac = (s.bindKeys s.hostLink (s.link s.up).nh (s.link s.up).nt s.ident.device s.tend.hostDev).2.2 →
      Sys2Proof.Machine.exec (.bindFinish rq mac) s = .next ((s.modPier s.up fun l =>
        { l with bound := true, txCtr := 0#64, rxCtr := none }).answerUp 0x03 rq 1#32 [])) ∧
    (s.canDerive = false ∨ mac ≠ (s.bindKeys s.hostLink (s.link s.up).nh (s.link s.up).nt s.ident.device s.tend.hostDev).2.2 →
      Sys2Proof.Machine.exec (.bindFinish rq mac) s = .next ((s.modPier s.up fun l =>
        { l with bound := false }).answerUp 0x03 rq 3#32 []))) ∧
  (∀ (s : State) (rq : ReqId) (fw adopt : Bool) (serial len : BitVec 32), s.upServed = true →
    Sys2Proof.Machine.exec (.pushBegin rq fw adopt serial len) s = .next ((s.upTend fun t => { t with
      push := some { Push.reset with fw := fw, adopt := adopt, serial := serial, len := len.toNat } }).answerUp 0x10 rq 1#32 [])) ∧
  (∀ (s : State) (p : Push) (off : BitVec 32) (d : Bytes), s.upServed = true → s.tend.push = some p → p.bad = false →
    (off.toNat = p.got → Sys2Proof.Machine.exec (.pushData off d false) s = .next (s.upTend fun t => { t with
      push := some { p with got := p.got + d.length, data := Mem.store p.data off.toNat d } })) ∧
    (off.toNat ≠ p.got → Sys2Proof.Machine.exec (.pushData off d false) s = .next ((s.upTend fun t => { t with
      push := some { p with bad := true } }).modPier s.up fun l => { l with timeout := satInc l.timeout }))) ∧
  (∀ (s : State) (p : Push) (rq : ReqId), s.upServed = true → s.tend.push = some p → p.bad = true ∨ p.got ≠ p.len →
    Sys2Proof.Machine.exec (.pushEnd rq) s = .next ((s.upTend fun t => { t with push := none }).answerUp 0x12 rq 2#32 [])) ∧
  (∀ (s : State) (p : Push) (rq : ReqId), s.upServed = true → s.tend.push = some p → p.bad = false → p.got = p.len →
    (p.fw = false → Sys2Proof.Machine.exec (.pushEnd rq) s = .next (
      let c := s.imageCheck p.len (Mem.load p.data 0 p.len)
      let u := s.countVerify c.2
      match c.1 with
      | .error e => (u.upTend fun t => { t with push := none }).answerUp 0x12 rq (BitVec.ofNat 32 e.1) []
      | .ok _ =>
        if p.adopt = true then (u.upTend fun t => { t with push := none, adopt := some p }).answerUp 0x12 rq 1#32 []
        else if s.tend.own = none ∧ s.tend.recordDue = none then
          { (u.upMf fun m => m.modBank m.target Bank.invalid) with
            tend := { s.tend with push := some { p with done := true }, writing := true, pushRq := some rq } }
        else { u with tend := { s.tend with push := some { p with done := true }, pushRq := some rq } })) ∧
    (p.fw = true → Sys2Proof.Machine.exec (.pushEnd rq) s = .next (
      let b := Mem.load p.data 0 p.len
      let c := s.fwCheck b
      let u := (s.countVerify c.2).upTend fun t => { t with push := none }
      if c.1 = 1 then
        (u.upFw fun f => { (f.modBank f.other fun _ => { Bank.reset with valid := true, image := p.data, len := p.len }) with
          stagedVer := BitVec.ofNat 16 (leAt b 0xC 2), stagedFloor := BitVec.ofNat 16 (leAt b 0xE 2) }).answerUp 0x12 rq 1#32 []
      else u.answerUp 0x12 rq (BitVec.ofNat 32 c.1) []))) ∧
  (∀ (s : State) (p : Push) (rq : ReqId), s.mainUp = true → s.tend.writing = true → s.tend.own = none →
    s.tend.pushRq = some rq → s.tend.push = some p →
    (∃ t, Sys2Proof.Machine.exec (.tenderBankWriteDone true) s = .next t ∧ (t.mf.bank s.mf.target).valid = true ∧
      (t.mf.bank s.mf.target).image = p.data ∧ (t.mf.bank s.mf.target).len = p.len ∧ t.tend.writing = false ∧
      t = { s with mf := t.mf, tend := t.tend, pier := t.pier }) ∧
    Sys2Proof.Machine.exec (.tenderBankWriteDone false) s = .next ((s.upTend fun t => { t with
      writing := false, pushRq := none }).answerUp 0x12 rq 14#32 [])) ∧
  (∀ (s : State) (p : Push), s.mainUp = true → s.tend.writing = true → s.tend.own = some p →
    (∃ t, Sys2Proof.Machine.exec (.tenderBankWriteDone true) s = .next t ∧ (t.mf.bank s.mf.target).valid = true ∧
      (t.mf.bank s.mf.target).image = p.data ∧ t.tend = { s.tend with writing := false, own := none, recordDue := some p.serial } ∧
      t = { s with mf := t.mf, tend := t.tend }) ∧
    Sys2Proof.Machine.exec (.tenderBankWriteDone false) s = .next (s.upTend fun t => { t with
      writing := false, own := none, recordDue := none })) ∧
  (∀ (s : State) (rq : ReqId) (tide : BitVec 32), s.upServed = true → tide ≠ 0#32 →
    Sys2Proof.Machine.exec (.commitAt rq false tide) s = .next ((s.upTend fun t => { t with commitTide := some tide }).answerUp
      0x13 rq 0#32 []) ∧
    Sys2Proof.Machine.exec (.commitAt rq true tide) s = .next ((s.upTend fun t => { t with fwTide := some tide }).answerUp
      0x13 rq 0#32 [])) ∧
  (∀ (s : State) (rq : ReqId) (body : Bytes), s.upServed = true → s.trng.inst = true → s.keys.busy = false →
    s.tide.life = .provision →
    Sys2Proof.Machine.exec (.keyFwd rq 3#8 body) s = .next (((s.upKeys fun k => { k with
      fleetId := BitVec.ofNat 64 (leAt body 0 8) }).keysEnd 1).answerUp 0x18 rq 1#32 [])) ∧
  (∀ (s : State) (header body : Bytes), s.upServed = true →
    (∀ b u, s.pierOpen s.up header body = (some b, u) →
      Sys2Proof.Machine.exec (.sessionSet header body) s = .next (u.sessionIn b) ∧
      (u.sessionIn b).slot (leAt b 0 4 % 4096) = some { k := leAt b 0 4 % 4096, sts := slice b 4 16, mac := slice b 20 16
                                                        link := slice b 36 16, ctr := slice b 52 12
                                                        attr := BitVec.ofNat 32 (leAt b 64 4) } ∧
      Sys2Proof.Machine.exec (.harvestTable header body) s = .next (u.harvestIn header b)) ∧
    ((s.link s.up).bound = false → Sys2Proof.Machine.exec (.sessionSet header body) s = .next (s.modPier s.up fun l =>
      { l with stale := satInc l.stale }))) ∧
  (∀ (s : State) (tide : BitVec 32) (at_ : Nat) (d : Bytes), s.upServed = true →
    (s.now + us 100 ≤ at_ → byteAt d 0 = 1 → byteAt d 1 ≠ 6 → Sys2Proof.Machine.exec (.schedule tide [(at_, d)]) s = .next (s.upTend fun t =>
      { t with sched := t.sched ++ [(at_, d)] })) ∧
    (s.now + us 100 ≤ at_ → byteAt d 0 = 2 → Sys2Proof.Machine.exec (.schedule tide [(at_, d)]) s = .next (s.upUwb fun u =>
      { u with schedule := u.schedule ++ [scheduledRound tide (at_, d)], rounds := u.rounds + 1#8 })) ∧
    (∀ w, s.now + us 100 ≤ at_ → byteAt d 0 = 1 → byteAt d 1 = 6 → s.lf.onAir = some w → w.kind = .pollPattern →
      let start := w.notBefore - slotTicks s.lf.frame
      let f := s.lf.frame.take (partsTo (at_ - start) s.lf.frame)
      Sys2Proof.Machine.exec (.schedule tide [(at_, d)]) s = .next (s.upLf fun l =>
        { l with touchCut := true, frame := f, onAir := some { w with notBefore := start + slotTicks f } })) ∧
    (at_ < s.now + us 100 → Sys2Proof.Machine.exec (.schedule tide [(at_, d)]) s = .next (s.modPier s.up fun l =>
      { l with lateSched := satInc l.lateSched }))) ∧
  (∀ s : State, s.upActive = true →
    ∃ t, Sys2Proof.Machine.exec .tamperMessage s = .next t ∧ t = s.tamperEffects.unstageRoots ∧ t.keys.slots = [] ∧
      t.keys.staged = [] ∧
      t.keys.tamperHold = true ∧ t.keys.vr = s.keys.vr ∧ t.pins.pulses = [] ∧ t.cfg = s.cfg ∧ t.tide.number = s.tide.number)
end

