-- ==== Sys2Proof/Laws/Intc.lean ====
section
/-! SUPPORT. The interrupt controller keeps its invariant (R669 to R681). -/

namespace Sys2Proof.Machine

theorem getLsbD_mask (w n m : Nat) : (1#w <<< n).getLsbD m = decide (m = n ∧ m < w) := by
  by_cases hw : m < w
  · rw [BitVec.getLsbD_shiftLeft, BitVec.getLsbD_one]
    by_cases h : m = n
    · subst h; simp [hw]; omega
    · by_cases h2 : m < n <;> simp [h, hw, h2]; omega
  · rw [BitVec.getLsbD_of_ge _ _ (by omega)]; simp [hw]

theorem getLsbD_setBit {w : Nat} (v : BitVec w) (n m : Nat) (b : Bool) :
    (setBit v n b).getLsbD m = if m = n ∧ m < w then b else v.getLsbD m := by
  unfold setBit
  by_cases hw : m < w
  · cases b <;> by_cases h : m = n <;>
      simp only [Bool.false_eq_true, if_true, if_false, BitVec.getLsbD_or, BitVec.getLsbD_and, BitVec.getLsbD_not,
        getLsbD_mask, h, hw, true_and, and_true, decide_true, decide_false, Bool.or_false, Bool.and_true, Bool.not_false]
    · subst h; simp [hw]
    · subst h; simp [hw]
  · have z : ∀ x : BitVec w, x.getLsbD m = false := fun x => BitVec.getLsbD_of_ge _ _ (by omega)
    simp [hw, z]

theorem setBit_here {w : Nat} (v : BitVec w) (n : Nat) (b : Bool) (h : n < w) : (setBit v n b).getLsbD n = b := by
  rw [getLsbD_setBit, if_pos ⟨rfl, h⟩]

theorem setBit_other {w : Nat} (v : BitVec w) {n m : Nat} (b : Bool) (h : m ≠ n) :
    (setBit v n b).getLsbD m = v.getLsbD m := by
  rw [getLsbD_setBit, if_neg fun e => h e.1]

theorem Intc.ok_iff (i : Intc) : i.ok = true ↔ ∀ n < 64, i.okAt n = true := by
  simp [Intc.ok]

theorem Intc.ok_at {i : Intc} (h : i.ok = true) (n : Nat) : i.okAt n = true := by
  by_cases hn : n < 64
  · exact (Intc.ok_iff i).1 h n hn
  · have z : ∀ x : BitVec 64, x.getLsbD n = false := fun x => BitVec.getLsbD_of_ge _ _ (by omega)
    simp [Intc.okAt, z, deliveryOk]

/-- A change that only moves source `n` and keeps that source right keeps the invariant. -/
theorem Intc.ok_of {i j : Intc} (h : i.ok = true) (n : Nat)
    (same : ∀ m, m ≠ n → j.okAt m = i.okAt m) (here : n < 64 → i.okAt n = true → j.okAt n = true) : j.ok = true := by
  refine (Intc.ok_iff j).2 fun m hm => ?_
  by_cases e : m = n
  · subst e; exact here hm (Intc.ok_at h m)
  · rw [same m e]; exact Intc.ok_at h m

/-- A change of no bit of delivery keeps the invariant. -/
theorem Intc.ok_same {i j : Intc} (h : i.ok = true) (h1 : j.asgH = i.asgH) (h2 : j.asgA = i.asgA) (h3 : j.asgB = i.asgB)
    (h4 : j.actH = i.actH) (h5 : j.actA = i.actA) (h6 : j.actB = i.actB) (h7 : j.pending = i.pending)
    (h8 : j.enH = i.enH) (h9 : j.enA = i.enA) (h10 : j.enB = i.enB) : j.ok = true :=
  (Intc.ok_iff j).2 fun m _ => by
    have := Intc.ok_at h m
    simpa only [Intc.okAt, h1, h2, h3, h4, h5, h6, h7, h8, h9, h10] using this

theorem deliveryOk_assign {aH aA aB cH cA cB p eH eA eB : Bool}
    (hf : (!(aH || aA || aB || cH || cA || cB)) = true) (hp : p = true)
    (h : deliveryOk aH aA aB cH cA cB p eH eA eB = true) :
    deliveryOk true aA aB cH cA cB p eH eA eB = true ∧ deliveryOk aH true aB cH cA cB p eH eA eB = true ∧
      deliveryOk aH aA true cH cA cB p eH eA eB = true := by
  revert hf hp h; revert aH aA aB cH cA cB p eH eA eB; decide

theorem deliveryOk_pending {aH aA aB cH cA cB p eH eA eB : Bool} (h : deliveryOk aH aA aB cH cA cB p eH eA eB = true) :
    deliveryOk aH aA aB cH cA cB true eH eA eB = true := by
  revert h; revert aH aA aB cH cA cB p eH eA eB; decide

theorem deliveryOk_claim {aH aA aB cH cA cB p eH eA eB : Bool} (h : deliveryOk aH aA aB cH cA cB p eH eA eB = true) :
    (aH = true → deliveryOk false aA aB true cA cB false eH eA eB = true) ∧
      (aA = true → deliveryOk aH false aB cH true cB false eH eA eB = true) ∧
      (aB = true → deliveryOk aH aA false cH cA true false eH eA eB = true) := by
  revert h; revert aH aA aB cH cA cB p eH eA eB; decide

theorem deliveryOk_complete {aH aA aB cH cA cB p eH eA eB : Bool} (h : deliveryOk aH aA aB cH cA cB p eH eA eB = true) :
    deliveryOk aH aA aB false cA cB p eH eA eB = true ∧ deliveryOk aH aA aB cH false cB p eH eA eB = true ∧
      deliveryOk aH aA aB cH cA false p eH eA eB = true := by
  revert h; revert aH aA aB cH cA cB p eH eA eB; decide

theorem deliveryOk_unassign {aH aA aB cH cA cB p eH eA eB : Bool} (h : deliveryOk aH aA aB cH cA cB p eH eA eB = true) :
    deliveryOk false aA aB cH cA cB p eH eA eB = true ∧ deliveryOk aH false aB cH cA cB p eH eA eB = true ∧
      deliveryOk aH aA false cH cA cB p eH eA eB = true := by
  revert h; revert aH aA aB cH cA cB p eH eA eB; decide

theorem deliveryOk_clear {aH aA aB cH cA cB p eH eA eB : Bool} (ha : (aA || aB) = false)
    (h : deliveryOk aH aA aB cH cA cB p eH eA eB = true) :
    deliveryOk false aA aB cH cA cB false eH eA eB = true := by
  revert ha h; revert aH aA aB cH cA cB p eH eA eB; decide

theorem deliveryOk_enables {aH aA aB cH cA cB p eH eA eB : Bool} (h : deliveryOk aH aA aB cH cA cB p eH eA eB = true) :
    deliveryOk aH aA aB cH cA cB p false eA eB = true ∧ deliveryOk aH aA aB cH cA cB p eH false eB = true ∧
      deliveryOk aH aA aB cH cA cB p eH eA false = true ∧ deliveryOk aH aA aB cH cA cB p eH false false = true ∧
      ((eA || eB) = false → deliveryOk aH aA aB cH cA cB p true eA eB = true) ∧
      (eH = false → deliveryOk aH aA aB cH cA cB p eH true eB = true) ∧
      (eH = false → deliveryOk aH aA aB cH cA cB p eH eA true = true) := by
  revert h; revert aH aA aB cH cA cB p eH eA eB; decide

/-- A source that is pending and free may be assigned. -/
theorem Intc.assignTo_ok {i : Intc} (h : i.ok = true) (n t : Nat) (hp : i.pending.getLsbD n = true)
    (hf : i.free n = true) : (i.assignTo n t).ok = true := by
  refine Intc.ok_of h n (fun m e => ?_) (fun hn hi => ?_)
  · unfold Intc.assignTo Intc.okAt
    split <;> simp only [setBit_other _ _ e]
  · have := deliveryOk_assign hf hp hi
    unfold Intc.assignTo Intc.okAt
    split <;> simp only [setBit_here _ _ _ hn, this]

theorem Intc.settle_ok {i : Intc} (h : i.ok = true) (n : Nat) : (i.settle n).ok = true := by
  unfold Intc.settle
  split
  · next c =>
    simp only [Bool.and_eq_true] at c
    split
    · exact Intc.assignTo_ok h n _ c.1 c.2
    · exact h
  · exact h

theorem Intc.event_ok {i : Intc} (h : i.ok = true) (n : Nat) : (i.event n).ok = true := by
  refine Intc.settle_ok (Intc.ok_of h n (fun m e => ?_) (fun hn hi => ?_)) n
  · simp only [Intc.okAt, setBit_other _ _ e]
  · simp only [Intc.okAt, setBit_here _ _ _ hn]
    exact deliveryOk_pending hi

theorem Intc.claim_ok {i : Intc} (h : i.ok = true) (t : Nat) : (i.claim t).2.ok = true := by
  unfold Intc.claim Intc.top
  split
  · exact h
  · next n hn =>
    have hm := List.mem_of_getLast? hn
    simp only [bitsOf, List.mem_filter, List.mem_range, BitVec.getLsbD_and, Bool.and_eq_true] at hm
    obtain ⟨hn64, ha, hp⟩ := hm
    refine Intc.ok_of h n (fun m e => ?_) (fun _ hi => ?_)
    · rcases t with _ | _ | t <;>
        simp only [Intc.setAssigned, Intc.setActive, Intc.assigned, Intc.active, Intc.okAt, setBit_other _ _ e]
    · have := deliveryOk_claim hi
      revert ha
      rcases t with _ | _ | t <;>
        simp only [Intc.setAssigned, Intc.setActive, Intc.assigned, Intc.active, Intc.okAt, setBit_here _ _ _ hn64] <;>
        intro ha
      · exact this.1 ha
      · exact this.2.1 ha
      · exact this.2.2 ha

theorem Intc.complete_ok {i : Intc} (h : i.ok = true) (t n : Nat) : (i.complete t n).ok = true := by
  unfold Intc.complete
  split
  · refine Intc.settle_ok (Intc.ok_of h n (fun m e => ?_) (fun hn hi => ?_)) n
    · rcases t with _ | _ | t <;> simp only [Intc.setActive, Intc.active, Intc.okAt, setBit_other _ _ e]
    · have := deliveryOk_complete hi
      rcases t with _ | _ | t <;> simp only [Intc.setActive, Intc.active, Intc.okAt, setBit_here _ _ _ hn, this]
  · exact h

/-- One enable of a target changes so that the host and a pair never share a source. -/
theorem Intc.setEnables_ok {i : Intc} (h : i.ok = true) (t : Nat) (on : Bool) (n : Nat)
    (hh : on = true → if t = 0 then (i.enA.getLsbD n || i.enB.getLsbD n) = false else i.enH.getLsbD n = false) :
    (i.setEnables (setBit (i.enables t) n on) t).ok = true := by
  refine Intc.ok_of h n (fun m e => ?_) (fun hn hi => ?_)
  · rcases t with _ | _ | t <;> simp only [Intc.setEnables, Intc.enables, Intc.okAt, setBit_other _ _ e]
  · have := deliveryOk_enables hi
    revert hh
    cases on <;> rcases t with _ | _ | t <;>
      simp only [Intc.setEnables, Intc.enables, Intc.okAt, setBit_here _ _ _ hn] <;> intro hh
    · exact this.1
    · exact this.2.1
    · exact this.2.2.1
    · exact this.2.2.2.2.1 (by simpa using hh)
    · exact this.2.2.2.2.2.1 (by simpa using hh)
    · exact this.2.2.2.2.2.2 (by simpa using hh)

theorem Intc.release_ok {i : Intc} (h : i.ok = true) (t n : Nat) : (i.release t n).ok = true := by
  have h1 := Intc.setEnables_ok h t false n (by simp)
  unfold Intc.release
  dsimp only
  split
  · generalize i.setEnables (setBit (i.enables t) n false) t = j at h1 ⊢
    refine Intc.settle_ok (Intc.ok_of h1 n (fun m e => ?_) (fun hn hi => ?_)) n
    · rcases t with _ | _ | t <;> simp only [Intc.setAssigned, Intc.assigned, Intc.okAt, setBit_other _ _ e]
    · have := deliveryOk_unassign hi
      rcases t with _ | _ | t <;> simp only [Intc.setAssigned, Intc.assigned, Intc.okAt, setBit_here _ _ _ hn, this]
  · exact h1

theorem Intc.enable_ok {i : Intc} (h : i.ok = true) (t : Nat) (on : Bool) (n : Nat)
    (hh : on = true → if t = 0 then (i.enA.getLsbD n || i.enB.getLsbD n) = false else i.enH.getLsbD n = false) :
    (i.enable t on n).ok = true := by
  unfold Intc.enable
  split
  · next e => exact Intc.settle_ok (Intc.setEnables_ok h t true n fun _ => hh e) n
  · split
    · exact Intc.release_ok h t n
    · exact h

theorem Intc.enableHost_ok {i : Intc} (h : i.ok = true) (on : Bool) (n : Nat) : (i.enableHost on n).ok = true := by
  unfold Intc.enableHost
  cases on
  · exact Intc.enable_ok h 0 false n (by simp)
  · refine Intc.enable_ok (Intc.ok_of h n (fun m e => ?_) (fun hn hi => ?_)) 0 true n ?_
    · simp only [if_true, Intc.okAt, setBit_other _ _ e]
    · simp only [if_true, Intc.okAt, setBit_here _ _ _ hn]
      exact (deliveryOk_enables hi).2.2.2.1
    · by_cases hn : n < 64
      · simp [setBit_here _ _ _ hn]
      · have z : ∀ x : BitVec 64, x.getLsbD n = false := fun x => BitVec.getLsbD_of_ge _ _ (by omega)
        simp [z]

/-- A fold whose steps keep the invariant keeps it. -/
theorem Intc.foldl_ok {α : Type} (f : Intc → α → Intc) (hf : ∀ i a, i.ok = true → (f i a).ok = true) (l : List α)
    {i : Intc} (h : i.ok = true) : (l.foldl f i).ok = true := by
  induction l generalizing i with
  | nil => exact h
  | cons a l ih => exact ih (hf i a h)

theorem Intc.stopTarget_ok {i : Intc} (h : i.ok = true) (t : Nat) : (i.stopTarget t).ok = true :=
  Intc.foldl_ok _ (fun _ n hj => Intc.release_ok hj t n) _ h

theorem Intc.enablePair_ok {i : Intc} (h : i.ok = true) (t : Nat) (ht : t ≠ 0) (mask : BitVec 64) :
    (i.enablePair t mask).ok = true := by
  unfold Intc.enablePair
  refine Intc.foldl_ok _ (fun j n hj => Intc.enable_ok hj t _ n ?_) _ h
  intro hon
  simp only [Bool.and_eq_true, Bool.not_eq_true'] at hon
  simp [ht, hon.2]

theorem Intc.clearBit_ok {i : Intc} (h : i.ok = true) (n : Nat) : (i.clearBit n).ok = true := by
  unfold Intc.clearBit
  split
  · exact h
  · next c =>
    refine Intc.ok_of h n (fun m e => ?_) (fun hn hi => ?_)
    · simp only [Intc.okAt, setBit_other _ _ e]
    · simp only [Intc.okAt, setBit_here _ _ _ hn]
      exact deliveryOk_clear (by simpa using c) hi

end Sys2Proof.Machine
end

