-- ==== Sys2Proof/Laws/Keeps.lean ====
section
/-! SUPPORT. The tools with which every function of the machine is shown to leave the queue, the
device's identity and the invariant alone. -/

namespace Sys2Proof.Machine

theorem keeps_refl (s : State) : Keeps s s := ⟨rfl, rfl, rfl, rfl, id, id⟩

theorem Keeps.trans {a b c : State} (h : Keeps a b) (k : Keeps b c) : Keeps a c :=
  ⟨k.pending.trans h.pending, k.ident.trans h.ident, k.now.trans h.now, k.clock.trans h.clock,
    fun x => k.sound (h.sound x), fun x => h.starts (k.starts x)⟩

/-- A change of none of the parts of which the invariant speaks. -/
theorem keeps_of {b s t : State} (h : Keeps b s) (hp : t.pending = s.pending) (hi : t.ident = s.ident)
    (hn : t.now = s.now) (hc : t.tide.clock = s.tide.clock)
    (h1 : t.intc = s.intc) (h2 : t.lk = s.lk) (h3 : t.bt = s.bt) (h4 : t.lf = s.lf) (h5 : t.can = s.can)
    (h6 : t.pier = s.pier) : Keeps b t :=
  ⟨hp.trans h.pending, hi.trans h.ident, hn.trans h.now, hc.trans h.clock, fun x => by
    have := h.sound x
    simpa only [State.sound, h1, h2, h3, h4, h5, h6] using this, fun x => h.starts (h2 ▸ x)⟩

theorem sound_iff (s : State) : s.sound = true ↔
    s.intc.ok = true ∧ s.lk.ok = true ∧ s.bt.ok = true ∧ s.lf.ok = true ∧ s.can.ok = true ∧ s.pier.ok = true := by
  simp [State.sound, and_assoc]

theorem keeps_upIntc {b s : State} {f : Intc → Intc} (h : Keeps b s) (hf : ∀ i, i.ok = true → (f i).ok = true) :
    Keeps b (s.upIntc f) :=
  ⟨h.pending, h.ident, h.now, h.clock, fun x => by
    have := (sound_iff s).1 (h.sound x)
    exact (sound_iff _).2 ⟨hf _ this.1, this.2.1, this.2.2.1, this.2.2.2.1, this.2.2.2.2.1, this.2.2.2.2.2⟩, h.starts⟩

theorem keeps_upLk {b s : State} {f : LockKeeper → LockKeeper} (h : Keeps b s) (hf : ∀ i, i.ok = true → (f i).ok = true)
    (hs : ∀ i, (f i).state.released? = true → i.state.released? = true) :
    Keeps b (s.upLk f) :=
  ⟨h.pending, h.ident, h.now, h.clock, fun x => by
    have := (sound_iff s).1 (h.sound x)
    exact (sound_iff _).2 ⟨this.1, hf _ this.2.1, this.2.2.1, this.2.2.2.1, this.2.2.2.2.1, this.2.2.2.2.2⟩, fun x => h.starts (hs _ x)⟩

theorem keeps_upBt {b s : State} {f : BerthTable → BerthTable} (h : Keeps b s) (hf : ∀ i, i.ok = true → (f i).ok = true) :
    Keeps b (s.upBt f) :=
  ⟨h.pending, h.ident, h.now, h.clock, fun x => by
    have := (sound_iff s).1 (h.sound x)
    exact (sound_iff _).2 ⟨this.1, this.2.1, hf _ this.2.2.1, this.2.2.2.1, this.2.2.2.2.1, this.2.2.2.2.2⟩, h.starts⟩

theorem keeps_upLf {b s : State} {f : Lf → Lf} (h : Keeps b s) (hf : ∀ i, i.ok = true → (f i).ok = true) :
    Keeps b (s.upLf f) :=
  ⟨h.pending, h.ident, h.now, h.clock, fun x => by
    have := (sound_iff s).1 (h.sound x)
    exact (sound_iff _).2 ⟨this.1, this.2.1, this.2.2.1, hf _ this.2.2.2.1, this.2.2.2.2.1, this.2.2.2.2.2⟩, h.starts⟩

theorem keeps_upCan {b s : State} {f : CanBlk → CanBlk} (h : Keeps b s) (hf : ∀ i, i.ok = true → (f i).ok = true) :
    Keeps b (s.upCan f) :=
  ⟨h.pending, h.ident, h.now, h.clock, fun x => by
    have := (sound_iff s).1 (h.sound x)
    exact (sound_iff _).2 ⟨this.1, this.2.1, this.2.2.1, this.2.2.2.1, hf _ this.2.2.2.2.1, this.2.2.2.2.2⟩, h.starts⟩

theorem keeps_upPier {b s : State} {f : PierBlk → PierBlk} (h : Keeps b s) (hf : ∀ i, i.ok = true → (f i).ok = true) :
    Keeps b (s.upPier f) :=
  ⟨h.pending, h.ident, h.now, h.clock, fun x => by
    have := (sound_iff s).1 (h.sound x)
    exact (sound_iff _).2 ⟨this.1, this.2.1, this.2.2.1, this.2.2.2.1, this.2.2.2.2.1, hf _ this.2.2.2.2.2⟩, h.starts⟩

theorem keeps_upPort {b s : State} {f} (h : Keeps b s) : Keeps b (s.upPort f) := keeps_of h rfl rfl rfl rfl rfl rfl rfl rfl rfl rfl

theorem keeps_upTide {b s : State} {f : Tide → Tide} (h : Keeps b s) (hf : ∀ t, (f t).clock = t.clock) : Keeps b (s.upTide f) :=
  keeps_of h rfl rfl rfl (hf _) rfl rfl rfl rfl rfl rfl

theorem keeps_upVer {b s : State} {f} (h : Keeps b s) : Keeps b (s.upVer f) := keeps_of h rfl rfl rfl rfl rfl rfl rfl rfl rfl rfl

theorem keeps_upCfg {b s : State} {f} (h : Keeps b s) : Keeps b (s.upCfg f) := keeps_of h rfl rfl rfl rfl rfl rfl rfl rfl rfl rfl

theorem keeps_upMf {b s : State} {f} (h : Keeps b s) : Keeps b (s.upMf f) := keeps_of h rfl rfl rfl rfl rfl rfl rfl rfl rfl rfl

theorem keeps_upUwb {b s : State} {f} (h : Keeps b s) : Keeps b (s.upUwb f) := keeps_of h rfl rfl rfl rfl rfl rfl rfl rfl rfl rfl

theorem keeps_upNb {b s : State} {f} (h : Keeps b s) : Keeps b (s.upNb f) := keeps_of h rfl rfl rfl rfl rfl rfl rfl rfl rfl rfl

theorem keeps_upReg {b s : State} {f} (h : Keeps b s) : Keeps b (s.upReg f) := keeps_of h rfl rfl rfl rfl rfl rfl rfl rfl rfl rfl

theorem keeps_upKeys {b s : State} {f} (h : Keeps b s) : Keeps b (s.upKeys f) := keeps_of h rfl rfl rfl rfl rfl rfl rfl rfl rfl rfl

theorem keeps_upCry {b s : State} {f} (h : Keeps b s) : Keeps b (s.upCry f) := keeps_of h rfl rfl rfl rfl rfl rfl rfl rfl rfl rfl

theorem keeps_upTrng {b s : State} {f} (h : Keeps b s) : Keeps b (s.upTrng f) := keeps_of h rfl rfl rfl rfl rfl rfl rfl rfl rfl rfl

theorem keeps_upNfc {b s : State} {f} (h : Keeps b s) : Keeps b (s.upNfc f) := keeps_of h rfl rfl rfl rfl rfl rfl rfl rfl rfl rfl

theorem keeps_upTend {b s : State} {f} (h : Keeps b s) : Keeps b (s.upTend f) := keeps_of h rfl rfl rfl rfl rfl rfl rfl rfl rfl rfl

theorem keeps_upSys {b s : State} {f} (h : Keeps b s) : Keeps b (s.upSys f) := keeps_of h rfl rfl rfl rfl rfl rfl rfl rfl rfl rfl

theorem keeps_upFw {b s : State} {f} (h : Keeps b s) : Keeps b (s.upFw f) := keeps_of h rfl rfl rfl rfl rfl rfl rfl rfl rfl rfl

theorem keeps_upLog {b s : State} {f} (h : Keeps b s) : Keeps b (s.upLog f) := keeps_of h rfl rfl rfl rfl rfl rfl rfl rfl rfl rfl

theorem keeps_upPins {b s : State} {f} (h : Keeps b s) : Keeps b (s.upPins f) := keeps_of h rfl rfl rfl rfl rfl rfl rfl rfl rfl rfl

theorem keeps_foldl {α : Type} {b : State} {f : State → α → State} {l : List α} {s : State}
    (hf : ∀ x a, Keeps b x → Keeps b (f x a)) (h : Keeps b s) : Keeps b (l.foldl f s) := by
  induction l generalizing s with
  | nil => exact h
  | cons a l ih => exact ih (hf s a h)

theorem keeps_snd {α : Type} {b : State} {p : α × State} {a : α} {t : State} (e : p = (a, t)) (h : Keeps b p.2) :
    Keeps b t := by
  subst e; exact h

theorem keeps_fst {α : Type} {b : State} {p : State × α} {a : α} {t : State} (e : p = (t, a)) (h : Keeps b p.1) :
    Keeps b t := by
  subst e; exact h

/-- An outcome that is a next state, which keeps what `Keeps` says. -/
def Ends (b : State) (o : Host.Outcome State Fault Refusal) : Prop := ∃ t, o = .next t ∧ Keeps b t

theorem ends_next {b t : State} (h : Keeps b t) : Ends b (.next t) := ⟨t, rfl, h⟩

theorem ends_whenDo {b s t : State} {c : Bool} (h : Keeps b s) (k : Keeps b t) : Ends b (s.whenDo c t) := by
  unfold State.whenDo
  split
  · exact ends_next k
  · exact ends_next h

theorem pairTarget_ne (b : Bool) : pairTarget b ≠ 0 := by cases b <;> decide

theorem keeps_ite {b x y : State} {c : Prop} [Decidable c] (hx : Keeps b x) (hy : Keeps b y) : Keeps b (if c then x else y) := by
  split
  · exact hx
  · exact hy

theorem ends_ite {b : State} {c : Prop} [Decidable c] {x y : Host.Outcome State Fault Refusal} (hx : Ends b x)
    (hy : Ends b y) : Ends b (if c then x else y) := by
  split
  · exact hx
  · exact hy

/-! The same for what a boundary changes. -/

theorem kept_refl (s : State) : Kept s s := ⟨rfl, rfl, id, id⟩

/-- A change that keeps the time and the tide keeps the rest. -/
theorem Kept.of {b s t : State} (h : Kept b s) (k : Keeps s t) : Kept b t :=
  ⟨k.pending.trans h.pending, k.ident.trans h.ident, fun x => k.sound (h.sound x), fun x => h.starts (k.starts x)⟩

theorem Kept.trans {a b c : State} (h : Kept a b) (k : Kept b c) : Kept a c :=
  ⟨k.pending.trans h.pending, k.ident.trans h.ident, fun x => k.sound (h.sound x), fun x => h.starts (k.starts x)⟩

theorem Keeps.clocked {b s : State} (h : Keeps b s) : Clocked b s := ⟨h.pending, h.ident, h.now, h.clock, h.sound⟩

theorem Clocked.of {b s t : State} (h : Clocked b s) (k : Keeps s t) : Clocked b t :=
  ⟨k.pending.trans h.pending, k.ident.trans h.ident, k.now.trans h.now, k.clock.trans h.clock,
    fun x => k.sound (h.sound x)⟩

/-- The lock keeper changes in a way that keeps its part of the invariant. -/
theorem clocked_upLk {b s : State} {f : LockKeeper → LockKeeper} (h : Clocked b s) (hf : s.lk.ok = true → (f s.lk).ok = true) :
    Clocked b (s.upLk f) :=
  ⟨h.pending, h.ident, h.now, h.clock, fun x => by
    have := (sound_iff s).1 (h.sound x)
    exact (sound_iff _).2 ⟨this.1, hf this.2.1, this.2.2⟩⟩

theorem Keeps.kept {b s : State} (h : Keeps b s) : Kept b s := ⟨h.pending, h.ident, h.sound, h.starts⟩

theorem kept_upTide {b s : State} {f : Tide → Tide} (h : Kept b s) : Kept b (s.upTide f) := ⟨h.pending, h.ident, h.sound, h.starts⟩

theorem kept_atTick {b s : State} {t : Nat} (h : Kept b s) : Kept b (s.atTick t) := ⟨h.pending, h.ident, h.sound, h.starts⟩

/-- An outcome that is a next state, which keeps what `Kept` says. -/
def EndsKept (b : State) (o : Host.Outcome State Fault Refusal) : Prop := ∃ t, o = .next t ∧ Kept b t

/-- An outcome that is a next state, which keeps what `Clocked` says. -/
def EndsClocked (b : State) (o : Host.Outcome State Fault Refusal) : Prop := ∃ t, o = .next t ∧ Clocked b t

theorem endsClocked_whenDo {b s t : State} {c : Bool} (h : Clocked b s) (k : Clocked b t) : EndsClocked b (s.whenDo c t) := by
  unfold State.whenDo
  split
  · exact ⟨_, rfl, k⟩
  · exact ⟨_, rfl, h⟩

theorem endsKept_whenDo {b s t : State} {c : Bool} (h : Kept b s) (k : Kept b t) : EndsKept b (s.whenDo c t) := by
  unfold State.whenDo
  split
  · exact ⟨_, rfl, k⟩
  · exact ⟨_, rfl, h⟩

end Sys2Proof.Machine
end

