-- ==== Sys2Proof/Laws/KeepsOps.lean ====
section
/-! SUPPORT. What the functions of Machine/Ops.lean leave alone. -/

namespace Sys2Proof.Machine

set_option linter.all false

theorem keeps_latch {b s : State} (n : Nat) (h : Keeps b s) : Keeps b (s.latch n) :=
  keeps_upIntc h fun _ hi => Intc.event_ok hi n

theorem keeps_latchIf {b₀ s : State} (b : Bool) (n : Nat)  (hk₀ : Keeps b₀ s) : Keeps b₀ (State.latchIf s b n) := by
  unfold State.latchIf
  try dsimp only
  repeat' (first | (with_reducible first | assumption | apply keeps_ite | apply keeps_latch) | dsimp only)

theorem keeps_notice {b₀ s : State} (kind : Nat) (a : Nat)  (hk₀ : Keeps b₀ s) : Keeps b₀ (State.notice s kind a) := by
  unfold State.notice
  try dsimp only
  repeat' (first | (with_reducible first | assumption | apply keeps_upPort | apply keeps_latch) | dsimp only)

theorem keeps_noticeIf {b₀ s : State} (b : Bool) (kind : Nat) (a : Nat)  (hk₀ : Keeps b₀ s) : Keeps b₀ (State.noticeIf s b kind a) := by
  unfold State.noticeIf
  try dsimp only
  repeat' (first | (with_reducible first | assumption | apply keeps_ite | apply keeps_notice) | dsimp only)

theorem keeps_oneNotice {b s t : State} (h : Keeps b t) : Keeps b (s.oneNotice t) := keeps_upPort h

theorem keeps_logRecord {b₀ s : State} (kind : Nat) (data : Bytes)  (hk₀ : Keeps b₀ s) : Keeps b₀ (State.logRecord s kind data) := by
  unfold State.logRecord
  try dsimp only
  repeat' (first | (with_reducible first | assumption | apply keeps_upLog | apply keeps_latchIf) | dsimp only)

theorem keeps_useCells {b₀ s : State}   (hk₀ : Keeps b₀ s) : Keeps b₀ (State.useCells s) := by
  unfold State.useCells
  try dsimp only
  repeat' (first | (with_reducible first | assumption | apply keeps_upKeys) | dsimp only)

theorem Tide.noteWake_clock (t : Tide) (now : Nat) (bit : BitVec 4) : (t.noteWake now bit).clock = t.clock := by
  unfold Tide.noteWake
  split
  · rfl
  · split <;> rfl

theorem keeps_wake {b₀ s : State} (bit : Nat) (hk₀ : Keeps b₀ s) : Keeps b₀ (State.wake s bit) := by
  unfold State.wake
  dsimp only
  repeat' (first | (with_reducible first | assumption | apply keeps_ite | apply keeps_upPier | apply keeps_upTide) | exact id | (intro _; exact Tide.noteWake_clock _ _ _) | (intro _; assumption) | (simp_all [PierBlk.ok]; done) | intro _)

end Sys2Proof.Machine
end

