-- ==== Sys2Proof/Laws/KeepsTable.lean ====
section
/-! SUPPORT. What the functions of Machine/Table.lean leave alone. -/

namespace Sys2Proof.Machine

set_option linter.all false

theorem keeps_modBerth {b₀ s : State} (n : Nat) (f : Berth → Berth)  (hk₀ : Keeps b₀ s) : Keeps b₀ (State.modBerth s n f) := by
  unfold State.modBerth
  try dsimp only
  repeat' (first | (with_reducible first | assumption | apply keeps_upBt) | exact id | intro _ | assumption | split | (simp_all [BerthTable.ok, Lf.ok, CanBlk.ok, PierBlk.ok]; done) | dsimp only)

theorem keeps_modId {b₀ s : State} (n : Nat) (f : BerthId → BerthId)  (hk₀ : Keeps b₀ s) : Keeps b₀ (State.modId s n f) := by
  unfold State.modId
  try dsimp only
  repeat' (first | (with_reducible first | assumption | apply keeps_modBerth) | dsimp only)

theorem keeps_modSe {b₀ s : State} (n : Nat) (f : BerthSess → BerthSess)  (hk₀ : Keeps b₀ s) : Keeps b₀ (State.modSe s n f) := by
  unfold State.modSe
  try dsimp only
  repeat' (first | (with_reducible first | assumption | apply keeps_modBerth) | dsimp only)

theorem keeps_modBlf {b₀ s : State} (n : Nat) (f : BerthLf → BerthLf)  (hk₀ : Keeps b₀ s) : Keeps b₀ (State.modBlf s n f) := by
  unfold State.modBlf
  try dsimp only
  repeat' (first | (with_reducible first | assumption | apply keeps_modBerth) | dsimp only)

theorem keeps_modFu {b₀ s : State} (n : Nat) (f : BerthFuse → BerthFuse)  (hk₀ : Keeps b₀ s) : Keeps b₀ (State.modFu s n f) := by
  unfold State.modFu
  try dsimp only
  repeat' (first | (with_reducible first | assumption | apply keeps_modBerth) | dsimp only)

theorem keeps_modLink {b₀ s : State} (k : Nat) (f : Link → Link)  (hk₀ : Keeps b₀ s) : Keeps b₀ (State.modLink s k f) := by
  unfold State.modLink
  try dsimp only
  repeat' (first | (with_reducible first | assumption | apply keeps_upNb) | dsimp only)

theorem keeps_queueFrame {b₀ s : State} (n : Nat) (typ : Nat) (body : Bytes)  (hk₀ : Keeps b₀ s) : Keeps b₀ (State.queueFrame s n typ body) := by
  unfold State.queueFrame
  try dsimp only
  repeat' (first | (with_reducible first | assumption | apply keeps_modLink) | split | dsimp only)

theorem keeps_castOff {b₀ s : State} (n : Nat) (cause : BitVec 8)  (hk₀ : Keeps b₀ s) : Keeps b₀ (State.castOff s n cause) := by
  unfold State.castOff
  try dsimp only
  repeat' (first | (with_reducible first | assumption | apply keeps_ite | apply keeps_modId | apply keeps_queueFrame | apply keeps_upTide) | (intro _; rfl) | rfl | (intro _; repeat' split; all_goals rfl) | dsimp only)

theorem keeps_castAll {b₀ s : State} (l : List Nat) (cause : BitVec 8)  (hk₀ : Keeps b₀ s) : Keeps b₀ (State.castAll s l cause) := by
  unfold State.castAll
  try dsimp only
  repeat' (first | (with_reducible first | assumption | intro _ | apply keeps_castOff | apply keeps_foldl) | dsimp only)

theorem keeps_dwellBroken {b₀ s : State}   (hk₀ : Keeps b₀ s) : Keeps b₀ (State.dwellBroken s) := by
  unfold State.dwellBroken
  try dsimp only
  repeat' (first | (with_reducible first | assumption | apply keeps_upTide) | (intro _; rfl) | rfl | (intro _; repeat' split; all_goals rfl) | dsimp only)

theorem keeps_sightDwell {b₀ s : State}   (hk₀ : Keeps b₀ s) : Keeps b₀ (State.sightDwell s) := by
  unfold State.sightDwell
  try dsimp only
  repeat' (first | (with_reducible first | assumption | apply keeps_ite | apply keeps_dwellBroken) | dsimp only)

theorem keeps_sight {b s : State} (kind : Nat) (anchor : BitVec 6) (stamp : Nat) (h : Keeps b s) :
    Keeps b (s.sight kind anchor stamp).1 := by
  unfold State.sight
  split
  · exact keeps_latch _ (keeps_upBt h fun _ h => h)
  · exact keeps_latch _ (keeps_sightDwell (keeps_modBerth _ _ h))

theorem keeps_unquiet {b₀ s : State} (n : Nat)  (hk₀ : Keeps b₀ s) : Keeps b₀ (State.unquiet s n) := by
  unfold State.unquiet
  try dsimp only
  repeat' (first | (with_reducible first | assumption | apply keeps_modId) | dsimp only)

end Sys2Proof.Machine
end

