-- ==== Sys2Proof/Laws/KeepsAccess.lean ====
section
/-! SUPPORT. What the functions of Machine/Access.lean leave alone. -/

namespace Sys2Proof.Machine

set_option linter.all false

theorem keeps_drainBulk {b₀ s : State}   (hk₀ : Keeps b₀ s) : Keeps b₀ (State.drainBulk s) := by
  unfold State.drainBulk
  try dsimp only
  repeat' (first | (with_reducible first | assumption | intro _ | apply keeps_upPort | apply keeps_foldl) | refine keeps_snd (by assumption) ?_ | refine keeps_fst (by assumption) ?_ | dsimp only)

theorem keeps_beginFar {b₀ s : State} (d : Option (BitVec 16))  (hk₀ : Keeps b₀ s) : Keeps b₀ (State.beginFar s d) := by
  unfold State.beginFar
  try dsimp only
  repeat' (first | (with_reducible first | assumption | apply keeps_drainBulk | apply keeps_upNfc | apply keeps_upPort) | split | dsimp only)

theorem keeps_farWrite {b₀ s : State} (a : Nat) (eff : State → State) (h_eff : ∀ x, Keeps b₀ x → Keeps b₀ (eff x)) (hk₀ : Keeps b₀ s) : Keeps b₀ (State.farWrite s a eff) := by
  unfold State.farWrite
  try dsimp only
  repeat' (first | (with_reducible first | assumption | intro _ | apply keeps_ite | apply keeps_beginFar | apply keeps_upPort | apply h_eff) | dsimp only)

theorem keeps_nearWrite {b₀ s : State} (a : Nat) (eff : State → State) (h_eff : ∀ x, Keeps b₀ x → Keeps b₀ (eff x)) (hk₀ : Keeps b₀ s) : Keeps b₀ (State.nearWrite s a eff) := by
  unfold State.nearWrite
  try dsimp only
  repeat' (first | (with_reducible first | assumption | intro _ | apply keeps_ite | apply keeps_upPort | apply h_eff) | dsimp only)

theorem keeps_windowAccess {b₀ s : State} (a : Nat) (eff : State → State) (h_eff : ∀ x, Keeps b₀ x → Keeps b₀ (eff x)) (hk₀ : Keeps b₀ s) : Keeps b₀ (State.windowAccess s a eff) := by
  unfold State.windowAccess
  try dsimp only
  repeat' (first | (with_reducible first | assumption | intro _ | apply keeps_ite | apply keeps_beginFar | apply keeps_upPort | apply h_eff) | dsimp only)

end Sys2Proof.Machine
end

