-- ==== Sys2Proof/Laws/KeepsEngine.lean ====
section
/-! SUPPORT. What the functions of Machine/Engine.lean leave alone. -/

namespace Sys2Proof.Machine

set_option linter.all false

theorem keeps_violation {b₀ s : State} (master : BitVec 4)  (hk₀ : Keeps b₀ s) : Keeps b₀ (State.violation s master) := by
  unfold State.violation
  try dsimp only
  repeat' (first | (with_reducible first | assumption | apply keeps_upKeys | apply keeps_latch) | dsimp only)

theorem keeps_stsLost {b₀ s : State} (k : Nat)  (hk₀ : Keeps b₀ s) : Keeps b₀ (State.stsLost s k) := by
  unfold State.stsLost
  try dsimp only
  repeat' (first | (with_reducible first | assumption | apply keeps_ite | apply keeps_upUwb) | dsimp only)

theorem keeps_jobAborted {b₀ s : State} (j : AesJob)  (hk₀ : Keeps b₀ s) : Keeps b₀ (State.jobAborted s j) := by
  unfold State.jobAborted
  try dsimp only
  repeat' (first | (with_reducible first | assumption | apply keeps_ite | apply keeps_stsLost) | split | dsimp only)

theorem keeps_startJobs {b₀ s : State} (n : Nat) (h : Keeps b₀ s) : Keeps b₀ (State.startJobs n s) := by
  induction n generalizing s with
  | zero => exact h
  | succ n ih =>
    unfold State.startJobs; try dsimp only
    repeat' (first | (with_reducible first | assumption | apply keeps_upCry | apply ih | apply keeps_jobAborted | apply keeps_violation | apply keeps_useCells) | split)

theorem keeps_startHead {b₀ s : State}   (hk₀ : Keeps b₀ s) : Keeps b₀ (State.startHead s) := by
  unfold State.startHead
  try dsimp only
  repeat' (first | (with_reducible first | assumption | apply keeps_startJobs) | dsimp only)

theorem keeps_yieldHead {b₀ s : State}   (hk₀ : Keeps b₀ s) : Keeps b₀ (State.yieldHead s) := by
  unfold State.yieldHead
  try dsimp only
  repeat' (first | (with_reducible first | assumption | apply keeps_ite | apply keeps_upCry | apply keeps_startHead) | split | dsimp only)

theorem keeps_addJob {b₀ s : State} (j : AesJob)  (hk₀ : Keeps b₀ s) : Keeps b₀ (State.addJob s j) := by
  unfold State.addJob
  try dsimp only
  repeat' (first | (with_reducible first | assumption | apply keeps_upCry | apply keeps_startHead | apply keeps_yieldHead) | dsimp only)

theorem ends_AesJobArrival {b₀ s : State} (level : BitVec 2) (cell : Option KeyCell) (master : BitVec 4) (fleet : Bool) (blocks : Nat) (feature : BitVec 5) (dir : Bool)  (hk₀ : Keeps b₀ s) : Ends b₀ (execAesJobArrival level cell master fleet blocks feature dir s) := by
  unfold execAesJobArrival
  try dsimp only
  repeat' (first | (with_reducible first | assumption | apply ends_whenDo | apply ends_next | apply keeps_addJob) | dsimp only)

theorem keeps_resumeJob {b₀ s : State}   (hk₀ : Keeps b₀ s) : Keeps b₀ (State.resumeJob s) := by
  unfold State.resumeJob
  try dsimp only
  repeat' (first | (with_reducible first | assumption | apply keeps_ite | apply keeps_useCells | apply keeps_upCry | apply keeps_violation | apply keeps_jobAborted | apply keeps_startHead) | split | dsimp only)

theorem ends_AesJobResume {b₀ s : State}   (hk₀ : Keeps b₀ s) : Ends b₀ (execAesJobResume s) := by
  unfold execAesJobResume
  try dsimp only
  repeat' (first | (with_reducible first | assumption | apply ends_whenDo | apply ends_next | apply keeps_resumeJob) | dsimp only)

theorem keeps_advanceHead {b₀ s : State} (h : Nat)  (hk₀ : Keeps b₀ s) : Keeps b₀ (State.advanceHead s h) := by
  unfold State.advanceHead
  try dsimp only
  repeat' (first | (with_reducible first | assumption | apply keeps_upCry) | split | dsimp only)

theorem keeps_aesRun {b₀ : State} (n : Nat) : ∀ (k : Nat) (s : State), Keeps b₀ s → Keeps b₀ (State.aesRun n k s) := by
  induction n with
  | zero => exact fun _ _ h => h
  | succ n ih =>
    intro k s h
    unfold State.aesRun
    dsimp only
    split
    · exact h
    · split
      · exact h
      · refine keeps_ite (keeps_advanceHead _ h) (ih _ _ ?_)
        exact keeps_ite (keeps_startHead (keeps_upCry (keeps_advanceHead _ h))) (keeps_yieldHead (keeps_advanceHead _ h))

theorem keeps_aesTick {b₀ s : State}   (hk₀ : Keeps b₀ s) : Keeps b₀ (State.aesTick s) := by
  unfold State.aesTick
  try dsimp only
  repeat' (first | (with_reducible first | assumption | apply keeps_ite | apply keeps_aesRun) | dsimp only)

theorem keeps_keyJob {b₀ s : State} (c : KeyCell) (level : BitVec 2) (master : BitVec 4) (feature : BitVec 5) (len : Nat)  (hk₀ : Keeps b₀ s) : Keeps b₀ (State.keyJob s c level master feature len) := by
  unfold State.keyJob
  try dsimp only
  repeat' (first | (with_reducible first | assumption | apply keeps_addJob) | dsimp only)

theorem keeps_withKey {b₀ s : State} {c : KeyCell} {level : BitVec 2} {master : BitVec 4} {feature : BitVec 5} {len : Nat}
    {eff : Bytes → State → State} (he : ∀ k x, Keeps b₀ x → Keeps b₀ (eff k x)) (h : Keeps b₀ s) :
    Keeps b₀ (s.withKey c level master feature len eff) := by
  unfold State.withKey
  split
  · exact h
  · split
    · exact he _ _ (keeps_keyJob _ _ _ _ _ h)
    · exact keeps_violation _ h

theorem keeps_kecTick {b₀ s : State}   (hk₀ : Keeps b₀ s) : Keeps b₀ (State.kecTick s) := by
  unfold State.kecTick
  try dsimp only
  repeat' (first | (with_reducible first | assumption | apply keeps_ite | apply keeps_upCry) | dsimp only)

theorem keeps_kecAsk {b₀ s : State} (j : KecJob)  (hk₀ : Keeps b₀ s) : Keeps b₀ (State.kecAsk s j) := by
  unfold State.kecAsk
  try dsimp only
  repeat' (first | (with_reducible first | assumption | apply keeps_ite | apply keeps_upCry) | dsimp only)

theorem ends_KeccakJobArrival {b₀ s : State} (level : BitVec 2) (verify : Bool) (permutations : Nat) (feature : BitVec 5)  (hk₀ : Keeps b₀ s) : Ends b₀ (execKeccakJobArrival level verify permutations feature s) := by
  unfold execKeccakJobArrival
  try dsimp only
  repeat' (first | (with_reducible first | assumption | apply ends_whenDo | apply ends_next | apply keeps_kecAsk) | dsimp only)

theorem keeps_derivations {b₀ s : State} (n : Nat) (level : BitVec 2) (feature : BitVec 5)  (hk₀ : Keeps b₀ s) : Keeps b₀ (State.derivations s n level feature) := by
  unfold State.derivations
  try dsimp only
  repeat' (first | (with_reducible first | assumption | apply keeps_kecAsk) | dsimp only)

theorem keeps_verification {b₀ s : State} (work : KecWork) (len : Nat)  (hk₀ : Keeps b₀ s) : Keeps b₀ (State.verification s work len) := by
  unfold State.verification
  try dsimp only
  repeat' (first | (with_reducible first | assumption | apply keeps_kecAsk) | dsimp only)

theorem keeps_signingJob {b₀ s : State} (work : KecWork) (feature : BitVec 5)  (hk₀ : Keeps b₀ s) : Keeps b₀ (State.signingJob s work feature) := by
  unfold State.signingJob
  try dsimp only
  repeat' (first | (with_reducible first | assumption | apply keeps_kecAsk) | dsimp only)

theorem keeps_kecDone {b₀ s : State} (work : KecWork)  (hk₀ : Keeps b₀ s) : Keeps b₀ (State.kecDone s work) := by
  unfold State.kecDone
  try dsimp only
  repeat' (first | (with_reducible first | assumption | apply keeps_upCry) | dsimp only)

end Sys2Proof.Machine
end

