-- ==== Sys2Proof/Laws/KeepsLinks.lean ====
section
/-! SUPPORT. What the functions of Machine/Links.lean leave alone. -/

namespace Sys2Proof.Machine

set_option linter.all false

theorem keeps_modPier {b₀ s : State} (n : Nat) (f : Pier → Pier)  (hk₀ : Keeps b₀ s) : Keeps b₀ (State.modPier s n f) := by
  unfold State.modPier
  try dsimp only
  repeat' (first | (with_reducible first | assumption | apply keeps_upPier) | exact id | intro _ | assumption | split | (simp_all [BerthTable.ok, Lf.ok, CanBlk.ok, PierBlk.ok]; done) | dsimp only)

theorem keeps_pierEvent {b₀ s : State} (n : Nat) (b : Nat)  (hk₀ : Keeps b₀ s) : Keeps b₀ (State.pierEvent s n b) := by
  unfold State.pierEvent
  try dsimp only
  repeat' (first | (with_reducible first | assumption | apply keeps_modPier | apply keeps_latchIf) | dsimp only)

theorem keeps_leaveSlack {b₀ s : State}   (hk₀ : Keeps b₀ s) : Keeps b₀ (State.leaveSlack s) := by
  unfold State.leaveSlack
  try dsimp only
  repeat' (first | (with_reducible first | assumption | apply keeps_ite | apply keeps_upPier) | exact id | intro _ | assumption | split | (simp_all [BerthTable.ok, Lf.ok, CanBlk.ok, PierBlk.ok]; done) | dsimp only)

theorem keeps_pierSend {b₀ s : State} (n : Nat) (m : PierMsg)  (hk₀ : Keeps b₀ s) : Keeps b₀ (State.pierSend s n m) := by
  unfold State.pierSend
  try dsimp only
  repeat' (first | (with_reducible first | assumption | apply keeps_ite | apply keeps_modPier) | dsimp only)

theorem keeps_pierPost {b₀ s : State} (n : Nat) (typ : Nat) (arg : BitVec 32) (body : Bytes) (last : Bool)  (hk₀ : Keeps b₀ s) : Keeps b₀ (State.pierPost s n typ arg body last) := by
  unfold State.pierPost
  try dsimp only
  repeat' (first | (with_reducible first | assumption | apply keeps_ite | apply keeps_pierSend) | dsimp only)

theorem keeps_pierProtected {b₀ s : State} (n : Nat) (typ : Nat) (arg : BitVec 32) (body : Bytes) (last : Bool)  (hk₀ : Keeps b₀ s) : Keeps b₀ (State.pierProtected s n typ arg body last) := by
  unfold State.pierProtected
  try dsimp only
  repeat' (first | (with_reducible first | assumption | apply keeps_ite | apply keeps_useCells | apply keeps_pierSend | apply keeps_modPier) | dsimp only)

theorem keeps_pierOpen {b s : State} (n : Nat) (header body : Bytes) (h : Keeps b s) :
    Keeps b (s.pierOpen n header body).2 := by
  unfold State.pierOpen
  dsimp only
  repeat' (first | assumption | apply keeps_modPier | apply keeps_pierEvent | apply keeps_useCells | split)

theorem keeps_pierRequest {b₀ s : State} (n : Nat) (typ : Nat) (arg : BitVec 32) (body : Bytes)  (hk₀ : Keeps b₀ s) : Keeps b₀ (State.pierRequest s n typ arg body) := by
  unfold State.pierRequest
  try dsimp only
  repeat' (first | (with_reducible first | assumption | apply keeps_ite | apply keeps_modPier | apply keeps_pierSend) | dsimp only)

theorem keeps_retire {b₀ s : State} (n : Nat) (tag : BitVec 8)  (hk₀ : Keeps b₀ s) : Keeps b₀ (State.retire s n tag) := by
  unfold State.retire
  try dsimp only
  repeat' (first | (with_reducible first | assumption | apply keeps_modPier | apply keeps_pierRequest) | split | dsimp only)

theorem keeps_pierAnswer {b₀ s : State} (n : Nat) (typ : Nat) (rq : ReqId) (arg : BitVec 32) (body : Bytes)  (hk₀ : Keeps b₀ s) : Keeps b₀ (State.pierAnswer s n typ rq arg body) := by
  unfold State.pierAnswer
  try dsimp only
  repeat' (first | (with_reducible first | assumption | apply keeps_pierSend) | refine keeps_snd (by assumption) ?_ | refine keeps_fst (by assumption) ?_ | dsimp only)

theorem keeps_sendBind {b₀ s : State} (n : Nat) (nh : Bytes)  (hk₀ : Keeps b₀ s) : Keeps b₀ (State.sendBind s n nh) := by
  unfold State.sendBind
  try dsimp only
  repeat' (first | (with_reducible first | assumption | apply keeps_modPier | apply keeps_pierRequest) | dsimp only)

theorem keeps_bindReply {b₀ s : State} (nt : Bytes)  (hk₀ : Keeps b₀ s) : Keeps b₀ (State.bindReply s nt) := by
  unfold State.bindReply
  try dsimp only
  repeat' (first | (with_reducible first | assumption | apply keeps_ite | apply keeps_derivations | apply keeps_modPier | apply keeps_pierAnswer) | refine keeps_snd (by assumption) ?_ | refine keeps_fst (by assumption) ?_ | split | dsimp only)

theorem keeps_postSchedule {b₀ s : State} (n : Nat) (work : List (Nat × Bytes))  (hk₀ : Keeps b₀ s) : Keeps b₀ (State.postSchedule s n work) := by
  unfold State.postSchedule
  try dsimp only
  repeat' (first | (with_reducible first | assumption | apply keeps_ite | apply keeps_pierPost) | dsimp only)

theorem keeps_lfQueue {b₀ s : State} (w : LfWork)  (hk₀ : Keeps b₀ s) : Keeps b₀ (State.lfQueue s w) := by
  unfold State.lfQueue
  try dsimp only
  repeat' (first | (with_reducible first | assumption | intro _ | apply keeps_ite | apply keeps_postSchedule | apply keeps_upLf | apply keeps_foldl) | exact id | intro _ | assumption | split | (simp_all [BerthTable.ok, Lf.ok, CanBlk.ok, PierBlk.ok]; done) | dsimp only)

theorem keeps_cutTenders {b₀ s : State} (m : BitVec 16)  (hk₀ : Keeps b₀ s) : Keeps b₀ (State.cutTenders s m) := by
  unfold State.cutTenders
  try dsimp only
  repeat' (first | (with_reducible first | assumption | intro _ | apply keeps_ite | apply keeps_postSchedule | apply keeps_foldl) | dsimp only)

end Sys2Proof.Machine
end

