-- ==== Sys2Proof/Laws/KeepsTrng.lean ====
section
/-! SUPPORT. What the functions of Machine/Trng.lean leave alone. -/

namespace Sys2Proof.Machine

set_option linter.all false

theorem keeps_drbgJob {b₀ s : State} (n : Nat)  (hk₀ : Keeps b₀ s) : Keeps b₀ (State.drbgJob s n) := by
  unfold State.drbgJob
  try dsimp only
  repeat' (first | (with_reducible first | assumption | apply keeps_addJob) | dsimp only)

theorem keeps_draw {b₀ s : State} (n : Nat) (h : Keeps b₀ s) : Keeps b₀ (s.draw n).2 := by
  unfold State.draw
  split
  dsimp only
  exact keeps_upTrng (keeps_drbgJob _ h)

theorem keeps_giveNonce {b₀ s : State} (n : Nat) (nonce : Bytes)  (hk₀ : Keeps b₀ s) : Keeps b₀ (State.giveNonce s n nonce) := by
  unfold State.giveNonce
  try dsimp only
  repeat' (first | (with_reducible first | assumption | apply keeps_ite | apply keeps_modSe | apply keeps_modBlf | apply keeps_queueFrame | apply keeps_lfQueue) | dsimp only)

theorem keeps_giveSeed {b₀ s : State} (seed : Nat)  (hk₀ : Keeps b₀ s) : Keeps b₀ (State.giveSeed s seed) := by
  unfold State.giveSeed
  try dsimp only
  repeat' (first | (with_reducible first | assumption | apply keeps_ite | apply keeps_upLf | apply keeps_lfQueue) | split | exact id | intro _ | assumption | split | (simp_all [BerthTable.ok, Lf.ok, CanBlk.ok, PierBlk.ok]; done) | dsimp only)

theorem keeps_drawNonce {b₀ s : State} (n fuel : Nat) (h : Keeps b₀ s) : Keeps b₀ (State.drawNonce n fuel s) := by
  induction fuel generalizing s with
  | zero => exact keeps_modSe _ _ h
  | succ fuel ih =>
    unfold State.drawNonce
    dsimp only
    split
    · exact keeps_giveNonce _ _ (keeps_draw _ h)
    · exact ih (keeps_draw _ h)

theorem keeps_deliver {b₀ s : State} (who : Requester)  (hk₀ : Keeps b₀ s) : Keeps b₀ (State.deliver s who) := by
  unfold State.deliver
  try dsimp only
  repeat' (first | (with_reducible first | assumption | apply keeps_ite | apply keeps_drawNonce | apply keeps_upTrng | apply keeps_latch | apply keeps_draw | apply keeps_upBt | apply keeps_upVer | apply keeps_upKeys | apply keeps_upCry | apply keeps_signingJob | apply keeps_modSe | apply keeps_sendBind | apply keeps_bindReply | apply keeps_giveSeed) | refine keeps_snd (by assumption) ?_ | refine keeps_fst (by assumption) ?_ | split | exact id | intro _ | assumption | split | (simp_all [BerthTable.ok, Lf.ok, CanBlk.ok, PierBlk.ok]; done) | dsimp only)

theorem keeps_noEntropy {b₀ s : State} (who : Requester)  (hk₀ : Keeps b₀ s) : Keeps b₀ (State.noEntropy s who) := by
  unfold State.noEntropy
  try dsimp only
  repeat' (first | (with_reducible first | assumption | apply keeps_upTrng | apply keeps_upBt | apply keeps_upKeys | apply keeps_latch) | split | exact id | intro _ | assumption | split | (simp_all [BerthTable.ok, Lf.ok, CanBlk.ok, PierBlk.ok]; done) | dsimp only)

theorem keeps_request {b₀ s : State} (who : Requester)  (hk₀ : Keeps b₀ s) : Keeps b₀ (State.request s who) := by
  unfold State.request
  try dsimp only
  repeat' (first | (with_reducible first | assumption | apply keeps_ite | apply keeps_deliver | apply keeps_upTrng | apply keeps_noEntropy) | dsimp only)

theorem keeps_serveHeld {b₀ s : State} (l : List Held) (h : Keeps b₀ s) : Keeps b₀ (State.serveHeld l s) := by
  induction l generalizing s with
  | nil => exact keeps_upTrng h
  | cons x l ih =>
    unfold State.serveHeld
    split
    · exact ih (keeps_deliver _ h)
    · exact keeps_upTrng h

theorem keeps_reseedMask {b₀ s : State}   (hk₀ : Keeps b₀ s) : Keeps b₀ (State.reseedMask s) := by
  unfold State.reseedMask
  try dsimp only
  repeat' (first | (with_reducible first | assumption | apply keeps_ite | apply keeps_draw | apply keeps_upCry) | refine keeps_snd (by assumption) ?_ | refine keeps_fst (by assumption) ?_ | split | dsimp only)

theorem keeps_blockFails {b₀ s : State} (rct : Bool) (apt : Bool)  (hk₀ : Keeps b₀ s) : Keeps b₀ (State.blockFails s rct apt) := by
  unfold State.blockFails
  try dsimp only
  repeat' (first | (with_reducible first | assumption | apply keeps_ite | apply keeps_upTrng | apply keeps_latch | apply keeps_logRecord) | dsimp only)

theorem keeps_conditioned {b₀ s : State} (block : Bytes)  (hk₀ : Keeps b₀ s) : Keeps b₀ (State.conditioned s block) := by
  unfold State.conditioned
  try dsimp only
  repeat' (first | (with_reducible first | assumption | apply keeps_ite | apply keeps_upTrng | apply keeps_latch | apply keeps_drbgJob | apply keeps_serveHeld | apply keeps_reseedMask) | refine keeps_snd (by assumption) ?_ | refine keeps_fst (by assumption) ?_ | dsimp only)

theorem keeps_noiseBlock {b₀ s : State} (raw : BitVec 1024)  (hk₀ : Keeps b₀ s) : Keeps b₀ (State.noiseBlock s raw) := by
  unfold State.noiseBlock
  try dsimp only
  repeat' (first | (with_reducible first | assumption | apply keeps_ite | apply keeps_upTrng | apply keeps_blockFails | apply keeps_conditioned) | refine keeps_snd (by assumption) ?_ | refine keeps_fst (by assumption) ?_ | split | dsimp only)

theorem keeps_wakeNoise {b₀ s : State}   (hk₀ : Keeps b₀ s) : Keeps b₀ (State.wakeNoise s) := by
  unfold State.wakeNoise
  try dsimp only
  repeat' (first | (with_reducible first | assumption | apply keeps_ite | apply keeps_upTrng) | dsimp only)

theorem ends_FatalRestart {b₀ s : State}   (hk₀ : Keeps b₀ s) : Ends b₀ (execFatalRestart s) := by
  unfold execFatalRestart
  try dsimp only
  repeat' (first | (with_reducible first | assumption | apply ends_whenDo | apply ends_next | apply keeps_upTrng) | dsimp only)

theorem ends_DrbgReseedTimer {b₀ s : State}   (hk₀ : Keeps b₀ s) : Ends b₀ (execDrbgReseedTimer s) := by
  unfold execDrbgReseedTimer
  try dsimp only
  repeat' (first | (with_reducible first | assumption | apply ends_whenDo | apply ends_next | apply keeps_upTrng) | dsimp only)

theorem ends_EntropyRequestTimeout {b₀ s : State}   (hk₀ : Keeps b₀ s) : Ends b₀ (execEntropyRequestTimeout s) := by
  unfold execEntropyRequestTimeout
  try dsimp only
  repeat' (first | (with_reducible first | assumption | apply ends_whenDo | apply ends_next | apply keeps_upTrng | apply keeps_noEntropy) | split | dsimp only)

theorem ends_MaskGeneratorReseed {b₀ s : State}   (hk₀ : Keeps b₀ s) : Ends b₀ (execMaskGeneratorReseed s) := by
  unfold execMaskGeneratorReseed
  try dsimp only
  repeat' (first | (with_reducible first | assumption | apply ends_whenDo | apply ends_next | apply keeps_upCry | apply keeps_reseedMask) | dsimp only)

theorem keeps_hostGenerate {b₀ s : State}   (hk₀ : Keeps b₀ s) : Keeps b₀ (State.hostGenerate s) := by
  unfold State.hostGenerate
  try dsimp only
  repeat' (first | (with_reducible first | assumption | apply keeps_ite | apply keeps_upTrng | apply keeps_latch | apply keeps_request) | dsimp only)

theorem ends_TrngGenerate {b₀ s : State}   (hk₀ : Keeps b₀ s) : Ends b₀ (execTrngGenerate s) := by
  unfold execTrngGenerate
  try dsimp only
  repeat' (first | (with_reducible first | assumption | intro _ | apply ends_whenDo | apply ends_next | apply keeps_farWrite | apply keeps_hostGenerate) | dsimp only)

theorem keeps_hostReseedCmd {b₀ s : State}   (hk₀ : Keeps b₀ s) : Keeps b₀ (State.hostReseedCmd s) := by
  unfold State.hostReseedCmd
  try dsimp only
  repeat' (first | (with_reducible first | assumption | apply keeps_ite | apply keeps_upTrng | apply keeps_latch | apply keeps_request) | dsimp only)

theorem ends_TrngReseed {b₀ s : State}   (hk₀ : Keeps b₀ s) : Ends b₀ (execTrngReseed s) := by
  unfold execTrngReseed
  try dsimp only
  repeat' (first | (with_reducible first | assumption | intro _ | apply ends_whenDo | apply ends_next | apply keeps_farWrite | apply keeps_hostReseedCmd) | dsimp only)

theorem keeps_setPersCmd {b₀ s : State}   (hk₀ : Keeps b₀ s) : Keeps b₀ (State.setPersCmd s) := by
  unfold State.setPersCmd
  try dsimp only
  repeat' (first | (with_reducible first | assumption | apply keeps_ite | apply keeps_upTrng) | dsimp only)

theorem ends_SetPers {b₀ s : State}   (hk₀ : Keeps b₀ s) : Ends b₀ (execSetPers s) := by
  unfold execSetPers
  try dsimp only
  repeat' (first | (with_reducible first | assumption | intro _ | apply ends_whenDo | apply ends_next | apply keeps_farWrite | apply keeps_setPersCmd) | dsimp only)

theorem ends_SessionIdBaseRetry {b₀ s : State}   (hk₀ : Keeps b₀ s) : Ends b₀ (execSessionIdBaseRetry s) := by
  unfold execSessionIdBaseRetry
  try dsimp only
  repeat' (first | (with_reducible first | assumption | apply ends_whenDo | apply ends_next | apply keeps_request) | dsimp only)

end Sys2Proof.Machine
end

