-- ==== Sys2Proof/Laws/KeepsCrypto.lean ====
section
/-! SUPPORT. What the functions of Machine/Crypto.lean leave alone. -/

namespace Sys2Proof.Machine

set_option linter.all false

theorem keeps_aesCtrl {b₀ s : State} (v : BitVec 32)  (hk₀ : Keeps b₀ s) : Keeps b₀ (State.aesCtrl s v) := by
  unfold State.aesCtrl
  try dsimp only
  repeat' (first | (with_reducible first | assumption | apply keeps_ite | apply keeps_upCry | apply keeps_notice | apply keeps_addJob | apply keeps_noticeIf) | dsimp only)

theorem ends_AesGo {b₀ s : State} (v : BitVec 32)  (hk₀ : Keeps b₀ s) : Ends b₀ (execAesGo v s) := by
  unfold execAesGo
  try dsimp only
  repeat' (first | (with_reducible first | assumption | intro _ | apply ends_whenDo | apply ends_next | apply keeps_farWrite | apply keeps_aesCtrl) | dsimp only)

theorem ends_AesBlockDone {b₀ s : State}   (hk₀ : Keeps b₀ s) : Ends b₀ (execAesBlockDone s) := by
  unfold execAesBlockDone
  try dsimp only
  repeat' (first | (with_reducible first | assumption | apply ends_whenDo | apply ends_next | apply keeps_advanceHead | apply keeps_upCry | apply keeps_startHead | apply keeps_latch) | dsimp only)

theorem keeps_attestCmd {b₀ s : State}   (hk₀ : Keeps b₀ s) : Keeps b₀ (State.attestCmd s) := by
  unfold State.attestCmd
  try dsimp only
  repeat' (first | (with_reducible first | assumption | apply keeps_ite | apply keeps_upCry | apply keeps_latch) | refine keeps_snd (by assumption) ?_ | refine keeps_fst (by assumption) ?_ | dsimp only)

theorem ends_Attest {b₀ s : State}   (hk₀ : Keeps b₀ s) : Ends b₀ (execAttest s) := by
  unfold execAttest
  try dsimp only
  repeat' (first | (with_reducible first | assumption | intro _ | apply ends_whenDo | apply ends_next | apply keeps_farWrite | apply keeps_attestCmd) | dsimp only)

theorem keeps_signIdle {b₀ s : State}   (hk₀ : Keeps b₀ s) : Keeps b₀ (State.signIdle s) := by
  unfold State.signIdle
  try dsimp only
  repeat' (first | (with_reducible first | assumption | apply keeps_kecDone | apply keeps_upCry) | dsimp only)

theorem keeps_startSigning {b₀ s : State}   (hk₀ : Keeps b₀ s) : Keeps b₀ (State.startSigning s) := by
  unfold State.startSigning
  try dsimp only
  repeat' (first | (with_reducible first | assumption | apply keeps_upCry | apply keeps_signingJob | apply keeps_logRecord | apply keeps_upLog) | refine keeps_snd (by assumption) ?_ | refine keeps_fst (by assumption) ?_ | split | dsimp only)

theorem keeps_signBoundary {b₀ s : State}   (hk₀ : Keeps b₀ s) : Keeps b₀ (State.signBoundary s) := by
  unfold State.signBoundary
  try dsimp only
  repeat' (first | (with_reducible first | assumption | apply keeps_ite | apply keeps_signIdle | apply keeps_upLog | apply keeps_latchIf | apply keeps_upCry | apply keeps_startSigning) | refine keeps_snd (by assumption) ?_ | refine keeps_fst (by assumption) ?_ | dsimp only)

theorem keeps_logSignature {b₀ s : State} (sig : Bytes)  (hk₀ : Keeps b₀ s) : Keeps b₀ (State.logSignature s sig) := by
  unfold State.logSignature
  try dsimp only
  repeat' (first | (with_reducible first | assumption | intro _ | apply keeps_logRecord | apply keeps_foldl) | dsimp only)

theorem keeps_advanceSign {b₀ s : State}   (hk₀ : Keeps b₀ s) : Keeps b₀ (State.advanceSign s) := by
  unfold State.advanceSign
  try dsimp only
  repeat' (first | (with_reducible first | assumption | apply keeps_ite | apply keeps_upCry) | dsimp only)

theorem keeps_signCut {b₀ s : State}   (hk₀ : Keeps b₀ s) : Keeps b₀ (State.signCut s) := by
  unfold State.signCut
  try dsimp only
  repeat' (first | (with_reducible first | assumption | apply keeps_ite | apply keeps_advanceSign) | dsimp only)

theorem keeps_releaseSign {b₀ s : State} (ok : Bool)  (hk₀ : Keeps b₀ s) : Keeps b₀ (State.releaseSign s ok) := by
  unfold State.releaseSign
  try dsimp only
  repeat' (first | (with_reducible first | assumption | apply keeps_ite | apply keeps_advanceSign | apply keeps_signIdle | apply keeps_upCry | apply keeps_latch | apply keeps_logSignature | apply keeps_upLog) | split | dsimp only)

theorem ends_SignRelease {b₀ s : State} (ok : Bool)  (hk₀ : Keeps b₀ s) : Ends b₀ (execSignRelease ok s) := by
  unfold execSignRelease
  try dsimp only
  repeat' (first | (with_reducible first | assumption | apply ends_whenDo | apply ends_next | apply keeps_ite | apply ends_ite | apply keeps_signIdle | apply keeps_releaseSign) | dsimp only)

theorem keeps_checkpointDemand {b₀ s : State}   (hk₀ : Keeps b₀ s) : Keeps b₀ (State.checkpointDemand s) := by
  unfold State.checkpointDemand
  try dsimp only
  repeat' (first | (with_reducible first | assumption | apply keeps_ite | apply keeps_upLog) | dsimp only)

theorem ends_Checkpoint {b₀ s : State}   (hk₀ : Keeps b₀ s) : Ends b₀ (execCheckpoint s) := by
  unfold execCheckpoint
  try dsimp only
  repeat' (first | (with_reducible first | assumption | intro _ | apply ends_whenDo | apply ends_next | apply keeps_farWrite | apply keeps_checkpointDemand) | dsimp only)

theorem ends_CheckpointDue {b₀ s : State}   (hk₀ : Keeps b₀ s) : Ends b₀ (execCheckpointDue s) := by
  unfold execCheckpointDue
  try dsimp only
  repeat' (first | (with_reducible first | assumption | apply ends_whenDo | apply ends_next | apply keeps_upLog) | dsimp only)

theorem keeps_logSel {b₀ s : State} (v : BitVec 32)  (hk₀ : Keeps b₀ s) : Keeps b₀ (State.logSel s v) := by
  unfold State.logSel
  try dsimp only
  repeat' (first | (with_reducible first | assumption | apply keeps_ite | apply keeps_upLog | apply keeps_noticeIf) | dsimp only)

theorem ends_LogbookSelWrite {b₀ s : State} (v : BitVec 32)  (hk₀ : Keeps b₀ s) : Ends b₀ (execLogbookSelWrite v s) := by
  unfold execLogbookSelWrite
  try dsimp only
  repeat' (first | (with_reducible first | assumption | intro _ | apply ends_whenDo | apply ends_next | apply keeps_farWrite | apply keeps_logSel) | dsimp only)

end Sys2Proof.Machine
end

