-- ==== Sys2Proof/Laws/KeepsLock.lean ====
section
/-! SUPPORT. What the functions of Machine/Lock.lean leave alone. -/

namespace Sys2Proof.Machine

set_option linter.all false

theorem keeps_modCtl {b₀ s : State} (n : Nat) (f : CanCtl → CanCtl)  (hk₀ : Keeps b₀ s) : Keeps b₀ (State.modCtl s n f) := by
  unfold State.modCtl
  try dsimp only
  repeat' (first | (with_reducible first | assumption | apply keeps_upCan) | exact id | intro _ | assumption | split | (simp_all [BerthTable.ok, Lf.ok, CanBlk.ok, PierBlk.ok]; done) | dsimp only)

theorem keeps_lkLatch {b₀ s : State} (n : Nat)  (hk₀ : Keeps b₀ s) : Keeps b₀ (State.lkLatch s n) := by
  unfold State.lkLatch
  try dsimp only
  repeat' (first | (with_reducible first | assumption | apply keeps_latchIf) | dsimp only)

theorem keeps_lkLog {b₀ s : State} (kind : Nat) (data : Bytes)  (hk₀ : Keeps b₀ s) : Keeps b₀ (State.lkLog s kind data) := by
  unfold State.lkLog
  try dsimp only
  repeat' (first | (with_reducible first | assumption | apply keeps_ite | apply keeps_logRecord) | dsimp only)

theorem keeps_lkSend {b₀ s : State} (ident : BitVec 32) (b : Bytes)  (hk₀ : Keeps b₀ s) : Keeps b₀ (State.lkSend s ident b) := by
  unfold State.lkSend
  try dsimp only
  repeat' (first | (with_reducible first | assumption | intro _ | apply keeps_upLk) | exact id | assumption | dsimp only)

theorem ok_not_released {k : LockKeeper} (h : k.ok = true) (hr : k.state.released? = false) : k.toggling = false := by
  simpa [LockKeeper.ok, hr] using h

theorem asking_not_released {k : LkState} (h : k.asking = true) : k.released? = false := by
  cases k <;> simp_all [LkState.asking, LkState.released?]

theorem keeps_upLk_at {b₀ s : State} {f : LockKeeper → LockKeeper} (h : Keeps b₀ s)
    (hf : s.lk.ok = true → (f s.lk).ok = true)
    (hs : (f s.lk).state.released? = true → s.lk.state.released? = true) : Keeps b₀ (s.upLk f) :=
  ⟨h.pending, h.ident, h.now, h.clock, fun x => by
    have := (sound_iff s).1 (h.sound x)
    exact (sound_iff _).2 ⟨this.1, hf this.2.1, this.2.2⟩, fun x => h.starts (hs x)⟩

theorem keeps_sendRequest {b₀ s : State} (t : Ticket) (hr : s.lk.state.released? = false) (h : Keeps b₀ s) :
    Keeps b₀ (s.sendRequest t) := by
  unfold State.sendRequest
  refine keeps_upLk_at (keeps_lkSend _ _ h) (fun ok => ?_) (fun h => by cases h)
  have : s.lk.toggling = false := ok_not_released (k := s.lk) ok hr
  show (s.lk.toggling == LkState.released? .requested) = true
  rw [this]; rfl

theorem keeps_ticketIn {b₀ s : State} (t : Ticket) (h : Keeps b₀ s) : Keeps b₀ (s.ticketIn t) := by
  unfold State.ticketIn
  dsimp only
  split
  · next c =>
    refine keeps_lkLatch _ (keeps_sendRequest _ ?_ (keeps_upLk (keeps_upLk h (fun _ h => h) (fun _ h => h)) (fun _ h => h) (fun _ h => h)))
    show s.lk.state.released? = false
    have : s.lk.state = .locked := c.1
    rw [this]; rfl
  · exact keeps_latchIf _ _ (keeps_lkLog _ _ (keeps_lkLatch _ (keeps_upLk (keeps_upBt (keeps_upLk h (fun _ h => h) (fun _ h => h)) fun _ h => by split <;> exact h) (fun _ h => h) (fun _ h => h))))

theorem ends_TicketDelivery {b₀ s : State}   (hk₀ : Keeps b₀ s) : Ends b₀ (execTicketDelivery s) := by
  unfold execTicketDelivery
  try dsimp only
  repeat' (first | (with_reducible first | assumption | apply ends_whenDo | apply ends_next | apply keeps_ticketIn) | split | dsimp only)

theorem keeps_dropTicket {b₀ s : State} (ha : s.lk.state.asking = true) (h : Keeps b₀ s) : Keeps b₀ s.dropTicket := by
  refine keeps_upLk_at h (fun ok => ?_) (fun h => by cases h)
  have : s.lk.toggling = false := ok_not_released (k := s.lk) ok (asking_not_released ha)
  show (s.lk.toggling == LkState.released? .locked) = true
  rw [this]; rfl

theorem ends_whenDo_of {b s t : State} {c : Bool} (h : Keeps b s) (k : c = true → Keeps b t) : Ends b (s.whenDo c t) := by
  unfold State.whenDo
  split
  · next hc => exact ends_next (k hc)
  · exact ends_next h

theorem ends_TicketWindowEnd {b₀ s : State} (h : Keeps b₀ s) : Ends b₀ (execTicketWindowEnd s) := by
  unfold execTicketWindowEnd
  split
  · exact ends_next h
  · refine ends_whenDo_of h fun c => keeps_lkLatch _ (keeps_upLk (keeps_dropTicket ?_ h) (fun _ h => h) (fun _ h => h))
    simp only [Bool.and_eq_true] at c
    exact c.1

theorem ends_RequestTimerExpiry {b₀ s : State} (h : Keeps b₀ s) : Ends b₀ (execRequestTimerExpiry s) := by
  unfold execRequestTimerExpiry
  split
  · exact ends_next h
  · refine ends_whenDo_of h fun c => keeps_sendRequest _ ?_ (keeps_upLk h (fun _ h => h) (fun _ h => h))
    simp only [Bool.and_eq_true] at c
    exact asking_not_released c.1.1

theorem keeps_sendAnswer {b₀ s : State} (r : Nat) (ctr : BitVec 8) (mac : Bytes)  (hk₀ : Keeps b₀ s) : Keeps b₀ (State.sendAnswer s r ctr mac) := by
  unfold State.sendAnswer
  try dsimp only
  repeat' (first | (with_reducible first | assumption | apply keeps_lkSend) | dsimp only)

theorem keeps_answer {b₀ s : State} (ctr : BitVec 8) (epoch : BitVec 8) (nonce : BitVec 48)  (hk₀ : Keeps b₀ s) : Keeps b₀ (State.answer s ctr epoch nonce) := by
  unfold State.answer
  try dsimp only
  repeat' (first | (with_reducible first | assumption | intro _ | apply keeps_sendAnswer | apply keeps_upLk | apply keeps_lkLatch) | split | exact id | assumption | dsimp only)

theorem keeps_challenge {b₀ s : State} (ctr epoch : BitVec 8) (nonce : BitVec 48) (us : BitVec 16) (h : Keeps b₀ s) :
    Keeps b₀ (s.challenge ctr epoch nonce us) := by
  have k : Keeps b₀ (s.upLk fun k => { k with nonce := nonce }) := keeps_upLk h (fun _ h => h) (fun _ h => h)
  have timed : ∀ x, Keeps b₀ x → Keeps b₀ (x.upLk fun k => { k with answerUs := us }) :=
    fun x hx => keeps_upLk hx (fun _ h => h) (fun _ h => h)
  unfold State.challenge
  dsimp only
  split
  · split
    · exact timed _ (keeps_sendAnswer _ _ _ k)
    · exact k
  · exact timed _ (keeps_sendAnswer _ _ _ k)
  · next hs =>
    split
    · refine keeps_upLk_at (timed _ (keeps_answer _ _ _ k)) (fun ok => ?_) (fun h => by cases h)
      have e : ((s.upLk fun k => { k with nonce := nonce }).answer ctr epoch nonce).lk.state = .requested ∧
          ((s.upLk fun k => { k with nonce := nonce }).answer ctr epoch nonce).lk.toggling = s.lk.toggling := by
        unfold State.answer State.sendAnswer State.lkSend State.lkLatch State.latchIf State.latch
        repeat' split
        all_goals exact ⟨hs, rfl⟩
      have := ok_not_released (k := ((s.upLk fun k => { k with nonce := nonce }).answer ctr epoch nonce).lk) ok (by rw [e.1]; rfl)
      show (((s.upLk fun k => { k with nonce := nonce }).answer ctr epoch nonce).lk.toggling == LkState.released? .answered) = true
      rw [this]; rfl
    · exact k
  · exact k
  · exact timed _ (keeps_answer _ _ _ k)
  · exact timed _ (keeps_answer _ _ _ k)

theorem ends_LkChallenge {b₀ s : State} (reqCtr : BitVec 8) (epoch : BitVec 8) (nonce : BitVec 48) (answerUs : BitVec 16)  (hk₀ : Keeps b₀ s) : Ends b₀ (execLkChallenge reqCtr epoch nonce answerUs s) := by
  unfold execLkChallenge
  try dsimp only
  repeat' (first | (with_reducible first | assumption | apply ends_whenDo | apply ends_next | apply keeps_challenge) | dsimp only)

theorem keeps_reportRunning {b₀ s : State}   (hk₀ : Keeps b₀ s) : Keeps b₀ (State.reportRunning s) := by
  unfold State.reportRunning
  try dsimp only
  repeat' (first | (with_reducible first | assumption | apply keeps_upTide | apply keeps_lkLatch) | (intro _; rfl) | rfl | (intro _; repeat' split; all_goals rfl) | dsimp only)

theorem keeps_logRelease {b₀ s : State}   (hk₀ : Keeps b₀ s) : Keeps b₀ (State.logRelease s) := by
  unfold State.logRelease
  try dsimp only
  repeat' (first | (with_reducible first | assumption | apply keeps_lkLog) | dsimp only)

theorem keeps_endRelease {b₀ s : State} (h : Keeps b₀ s) : Keeps b₀ s.endRelease :=
  keeps_logRelease (keeps_lkLatch _ (keeps_upLk h (fun _ _ => rfl) (fun _ h => by cases h)))

theorem keeps_pairDone {b₀ s : State} (result : BitVec 5)  (hk₀ : Keeps b₀ s) : Keeps b₀ (State.pairDone s result) := by
  unfold State.pairDone
  try dsimp only
  repeat' (first | (with_reducible first | assumption | intro _ | apply keeps_ite | apply keeps_upLk | apply keeps_upKeys | apply keeps_latch) | exact id | assumption | dsimp only)

theorem clocked_release {b₀ s : State} (engine : BitVec 2) (epoch : BitVec 8) (h : Clocked b₀ s) : Clocked b₀ (s.release engine epoch) := by
  unfold State.release
  dsimp only
  split
  · exact (clocked_upLk h (fun _ => rfl)).of (keeps_reportRunning (keeps_logRelease (keeps_lkLatch _ (keeps_lkLatch _ (keeps_refl _)))))
  · exact (clocked_upLk h (fun _ => rfl)).of (keeps_logRelease (keeps_lkLatch _ (keeps_lkLatch _ (keeps_refl _))))

theorem clocked_statusAct {b₀ s : State} (engine verdict : BitVec 2) (epoch : BitVec 8) (h : Clocked b₀ s) :
    Clocked b₀ (s.statusAct engine verdict epoch) := by
  unfold State.statusAct
  have h1 : Clocked b₀ (if verdict = 2#2 then (s.upLk fun k => { k with rejects := k.rejects + 1#16 }).lkLatch 59 else s) := by
    split
    · exact h.of (keeps_lkLatch _ (keeps_upLk (keeps_refl s) (fun _ h => h) fun _ h => h))
    · exact h
  dsimp only
  generalize (if verdict = 2#2 then (s.upLk fun k => { k with rejects := k.rejects + 1#16 }).lkLatch 59 else s) = s at h1 ⊢
  have r := keeps_refl s
  split
  · next hs =>
    split
    · exact clocked_release _ _ h1
    · split
      · refine h1.of (keeps_lkLatch _ (keeps_dropTicket ?_ r))
        rw [hs]; rfl
      · exact h1
  · next hs =>
    split
    · refine (clocked_upLk h1 fun ok => ?_).of (keeps_reportRunning (keeps_refl _))
      have e : s.lk.toggling = true := by simpa [LockKeeper.ok, hs, LkState.released?] using ok
      show (s.lk.toggling == LkState.released? .running) = true
      rw [e]; rfl
    · split
      · exact h1.of (keeps_endRelease r)
      · exact h1
  · split
    · exact h1.of (keeps_lkLatch _ (keeps_upTide (keeps_endRelease r) fun _ => rfl))
    · exact h1
  · split
    · exact h1.of (keeps_pairDone _ (keeps_upLk r (fun _ h => h) fun _ h => h))
    · exact h1
  · exact h1

theorem clocked_status {b₀ s : State} (engine verdict : BitVec 2) (epoch seq : BitVec 8) (mac : BitVec 32) (h : Clocked b₀ s) :
    Clocked b₀ (s.status engine verdict epoch seq mac) := by
  unfold State.status
  split
  · exact clocked_statusAct _ _ _ (h.of (keeps_upLk (keeps_refl s) (fun _ h => h) fun _ h => h))
  · exact h.of (keeps_upLk (keeps_refl s) (fun _ h => h) fun _ h => h)

theorem ends_LkStatus {b₀ s : State} (engine verdict : BitVec 2) (epoch seq : BitVec 8) (mac : BitVec 32) (h : Clocked b₀ s) :
    EndsClocked b₀ (execLkStatus engine verdict epoch seq mac s) :=
  endsClocked_whenDo h (clocked_status _ _ _ _ _ h)

theorem ends_CrankWindowEnd {b₀ s : State}   (hk₀ : Keeps b₀ s) : Ends b₀ (execCrankWindowEnd s) := by
  unfold execCrankWindowEnd
  try dsimp only
  repeat' (first | (with_reducible first | assumption | apply ends_whenDo | apply ends_next | apply keeps_endRelease) | dsimp only)

theorem ends_EcuSilent {b₀ s : State}   (hk₀ : Keeps b₀ s) : Ends b₀ (execEcuSilent s) := by
  unfold execEcuSilent
  try dsimp only
  repeat' (first | (with_reducible first | assumption | intro _ | apply ends_whenDo | apply ends_next | apply keeps_upLk | apply keeps_lkLatch) | exact id | assumption | dsimp only)

theorem keeps_readback {b₀ s : State} (agrees : Bool)  (hk₀ : Keeps b₀ s) : Keeps b₀ (State.readback s agrees) := by
  unfold State.readback
  try dsimp only
  repeat' (first | (with_reducible first | assumption | intro _ | apply keeps_ite | apply keeps_upLk | apply keeps_lkLatch) | exact id | assumption | dsimp only)

theorem ends_StenReadback {b₀ s : State} (agrees : Bool)  (hk₀ : Keeps b₀ s) : Ends b₀ (execStenReadback agrees s) := by
  unfold execStenReadback
  try dsimp only
  repeat' (first | (with_reducible first | assumption | apply ends_whenDo | apply ends_next | apply keeps_readback) | dsimp only)

theorem keeps_lkErrors {b₀ s : State} (tec : Nat) (rec : Nat)  (hk₀ : Keeps b₀ s) : Keeps b₀ (State.lkErrors s tec rec) := by
  unfold State.lkErrors
  try dsimp only
  repeat' (first | (with_reducible first | assumption | intro _ | apply keeps_ite | apply keeps_modCtl | apply keeps_upLk | apply keeps_lkLatch) | exact id | assumption | dsimp only)

theorem ends_LkBusOff {b₀ s : State}   (hk₀ : Keeps b₀ s) : Ends b₀ (execLkBusOff s) := by
  unfold execLkBusOff
  try dsimp only
  repeat' (first | (with_reducible first | assumption | apply ends_whenDo | apply ends_next | apply keeps_lkErrors) | dsimp only)

theorem ends_lkArbitrates {b₀ s : State}   (hk₀ : Keeps b₀ s) : Ends b₀ (State.lkArbitrates s) := by
  unfold State.lkArbitrates
  try dsimp only
  repeat' (first | (with_reducible first | assumption | intro _ | apply ends_whenDo | apply ends_next | apply keeps_upLk) | exact id | assumption | dsimp only)

theorem keeps_sent {b₀ s : State} (h : Keeps b₀ s) : Keeps b₀ (s.upLk LockKeeper.sent) :=
  keeps_upLk h (fun _ h => h) fun _ h => h

theorem ends_lkSent {b₀ s : State} (h : Keeps b₀ s) : Ends b₀ (State.lkSent s) :=
  ends_whenDo h (keeps_lkErrors _ _ (keeps_sent h))

theorem ends_lkFailed {b₀ s : State} (kind : BitVec 2) (h : Keeps b₀ s) : Ends b₀ (State.lkFailed s kind) := by
  have k : ∀ n, Keeps b₀ (s.upLk fun k =>
      if kind ≠ 3#2 ∧ k.record.can.retry ≤ n then k.sent else { k with onAir := false, tries := n }) :=
    fun n => keeps_upLk h (fun _ h => by split <;> exact h) fun _ h => by split at h <;> exact h
  exact ends_whenDo h (keeps_ite (keeps_lkErrors _ _ (k _)) (k _))

theorem keeps_islandTrip {b₀ s : State} (h : Keeps b₀ s) : Keeps b₀ s.islandTrip :=
  keeps_upTide (keeps_upLk (keeps_pairDone _ h) (fun _ _ => rfl) (fun _ h => by cases h)) fun _ => rfl

theorem keeps_deepHoldup {b₀ s : State}   (hk₀ : Keeps b₀ s) : Keeps b₀ (State.deepHoldup s) := by
  unfold State.deepHoldup
  try dsimp only
  repeat' (first | (with_reducible first | assumption | apply keeps_upSys) | dsimp only)

theorem ends_IslandSupplyTrip {b₀ s : State}   (hk₀ : Keeps b₀ s) : Ends b₀ (execIslandSupplyTrip s) := by
  unfold execIslandSupplyTrip
  try dsimp only
  repeat' (first | (with_reducible first | assumption | apply ends_whenDo | apply ends_next | apply keeps_islandTrip | apply keeps_deepHoldup) | dsimp only)

theorem keeps_islandCan {b₀ s : State}   (hk₀ : Keeps b₀ s) : Keeps b₀ (State.islandCan s) := by
  unfold State.islandCan
  try dsimp only
  repeat' (first | (with_reducible first | assumption | apply keeps_ite | apply keeps_modCtl) | dsimp only)

theorem stateOf_not_released (r : LkRecord) : r.stateOf.1.released? = false := by
  unfold LkRecord.stateOf
  repeat' split
  all_goals rfl

theorem LockKeeper.adopt_not_released (k : LockKeeper) : k.adopt.state.released? = false := stateOf_not_released k.mram

theorem LockKeeper.adopt_ok {k : LockKeeper} (t : k.toggling = false) : k.adopt.ok = true := by
  show (k.toggling == k.mram.stateOf.1.released?) = true
  rw [stateOf_not_released, t]; rfl

theorem keeps_islandSequence {b₀ s : State} (testsOk : Bool) (t : s.lk.ok = true → s.lk.toggling = false) (h : Keeps b₀ s) :
    Keeps b₀ (s.islandSequence testsOk) := by
  unfold State.islandSequence
  split
  · exact keeps_islandCan (keeps_upLk_at h (fun ok => LockKeeper.adopt_ok (t ok))
      fun e => absurd e (by rw [LockKeeper.adopt_not_released]; decide))
  · refine keeps_upLk_at h (fun ok => ?_) fun e => by cases e
    show (s.lk.toggling == LkState.released? .inactive) = true
    rw [t ok]; rfl

theorem keeps_islandUp {b₀ s : State} (testsOk : Bool) (h : Keeps b₀ s) : Keeps b₀ (s.islandUp testsOk) :=
  keeps_islandSequence _ (fun _ => rfl) (keeps_upLk h (fun _ _ => rfl) fun _ e => by cases e)

theorem ends_IslandPowerUp {b₀ s : State} (testsOk : Bool)  (hk₀ : Keeps b₀ s) : Ends b₀ (execIslandPowerUp testsOk s) := by
  unfold execIslandPowerUp
  try dsimp only
  repeat' (first | (with_reducible first | assumption | apply ends_whenDo | apply ends_next | apply keeps_islandUp) | dsimp only)

theorem ends_IslandSelftestRetry {b₀ s : State} (testsOk : Bool) (h : Keeps b₀ s) :
    Ends b₀ (execIslandSelftestRetry testsOk s) :=
  ends_whenDo_of h fun c => keeps_islandSequence _ (fun ok => ok_not_released ok (by
    simp only [Bool.and_eq_true, beq_iff_eq] at c
    rw [c.1.1.2]; rfl)) h

theorem keeps_lkBoundary {b₀ s : State} (h : Keeps b₀ s) : Keeps b₀ s.lkBoundary := by
  unfold State.lkBoundary
  split
  · refine keeps_upLk h (fun k ok => ?_) (fun k hr => ?_)
    · dsimp only
      split
      · next c => exact LockKeeper.adopt_ok (ok_not_released ok (by simpa using c.2.1))
      · exact ok
    · dsimp only at hr
      split at hr
      · rw [LockKeeper.adopt_not_released] at hr; cases hr
      · exact hr
  · exact h

theorem keeps_writeRecord {b₀ s : State} (f : LkRecord → LkRecord)  (hk₀ : Keeps b₀ s) : Keeps b₀ (State.writeRecord s f) := by
  unfold State.writeRecord
  try dsimp only
  repeat' (first | (with_reducible first | assumption | intro _ | apply keeps_upLk) | exact id | assumption | dsimp only)

theorem keeps_lkTamper {b₀ s : State} (h : Keeps b₀ s) : Keeps b₀ s.lkTamper := by
  unfold State.lkTamper
  have k : Keeps b₀ (s.upLk fun k => { k with queue := none }) := keeps_upLk h (fun _ h => h) (fun _ h => h)
  have k : Keeps b₀ (if s.lk.queue.isSome then (s.upLk fun k => { k with queue := none }).lkLatch 56
      else s.upLk fun k => { k with queue := none }) := keeps_ite (keeps_lkLatch _ k) k
  dsimp only
  generalize (if s.lk.queue.isSome then (s.upLk fun k => { k with queue := none }).lkLatch 56
      else s.upLk fun k => { k with queue := none }) = t at k ⊢
  split
  · next c => exact keeps_lkLatch _ (keeps_dropTicket c k)
  · split
    · exact keeps_upLk k (fun _ h => h) (fun _ h => h)
    · exact k

theorem keeps_pairFrame {b₀ s : State}   (hk₀ : Keeps b₀ s) : Keeps b₀ (State.pairFrame s) := by
  unfold State.pairFrame
  try dsimp only
  repeat' (first | (with_reducible first | assumption | intro _ | apply keeps_ite | apply keeps_lkSend | apply keeps_upLk) | exact id | assumption | dsimp only)

theorem ends_PairingFrame {b₀ s : State}   (hk₀ : Keeps b₀ s) : Ends b₀ (execPairingFrame s) := by
  unfold execPairingFrame
  try dsimp only
  repeat' (first | (with_reducible first | assumption | apply ends_whenDo | apply ends_next | apply keeps_pairFrame) | dsimp only)

theorem ends_PairingTimeout {b₀ s : State}   (hk₀ : Keeps b₀ s) : Ends b₀ (execPairingTimeout s) := by
  unfold execPairingTimeout
  try dsimp only
  repeat' (first | (with_reducible first | assumption | apply ends_whenDo | apply ends_next | apply keeps_pairDone) | dsimp only)

theorem keeps_issueTicket {b₀ s : State} (override : Bool) (berth : BitVec 8) (cred : BitVec 64)  (hk₀ : Keeps b₀ s) : Keeps b₀ (State.issueTicket s override berth cred) := by
  unfold State.issueTicket
  try dsimp only
  repeat' (first | (with_reducible first | assumption | intro _ | apply keeps_ite | apply keeps_upLk | apply keeps_latch | apply keeps_logRecord) | exact id | assumption | dsimp only)

end Sys2Proof.Machine
end

