-- ==== Sys2Proof/Laws/KeepsReg.lean ====
section
/-! SUPPORT. What the functions of Machine/Reg.lean leave alone. -/

namespace Sys2Proof.Machine

set_option linter.all false

theorem keeps_touchPage {b₀ s : State} (k : Nat)  (hk₀ : Keeps b₀ s) : Keeps b₀ (State.touchPage s k) := by
  unfold State.touchPage
  try dsimp only
  repeat' (first | (with_reducible first | assumption | apply keeps_ite | apply keeps_kecAsk | apply keeps_upReg | apply keeps_latch | apply keeps_logRecord) | dsimp only)

theorem keeps_lookupIn {b₀ s : State} (cred : BitVec 64) (l : List Nat) (h : Keeps b₀ s) :
    Keeps b₀ (State.lookupIn cred l s).2 := by
  induction l generalizing s with
  | nil => exact h
  | cons n l ih =>
    unfold State.lookupIn
    have k : Keeps b₀ ((slotPages n).foldl State.touchPage s) := keeps_foldl (fun x a hx => keeps_touchPage _ hx) h
    generalize (slotPages n).foldl State.touchPage s = t at k ⊢
    dsimp only
    split
    · exact ih h
    · split
      · exact ih k
      · split
        · exact k
        · exact ih k

theorem keeps_lookup {b₀ s : State} (cred : BitVec 64) (h : Keeps b₀ s) : Keeps b₀ (s.lookup cred).2 := by
  unfold State.lookup
  split
  · exact h
  · exact keeps_lookupIn _ _ h

theorem keeps_commitDelta {b₀ s : State} (g : Staged)  (hk₀ : Keeps b₀ s) : Keeps b₀ (State.commitDelta s g) := by
  unfold State.commitDelta
  try dsimp only
  repeat' (first | (with_reducible first | assumption | apply keeps_ite | apply keeps_upReg | apply keeps_castAll | apply keeps_latch) | refine keeps_snd (by assumption) ?_ | refine keeps_fst (by assumption) ?_ | dsimp only)

theorem keeps_regBoundary {b₀ s : State} (toReturn : Bool)  (hk₀ : Keeps b₀ s) : Keeps b₀ (State.regBoundary s toReturn) := by
  unfold State.regBoundary
  try dsimp only
  repeat' (first | (with_reducible first | assumption | apply keeps_ite | apply keeps_upReg | apply keeps_latch | apply keeps_commitDelta) | split | dsimp only)

theorem keeps_regBackground {b₀ s : State}   (hk₀ : Keeps b₀ s) : Keeps b₀ (State.regBackground s) := by
  unfold State.regBackground
  try dsimp only
  repeat' (first | (with_reducible first | assumption | intro _ | apply keeps_ite | apply keeps_touchPage | apply keeps_upReg | apply keeps_foldl) | dsimp only)

theorem keeps_regWrite {b₀ s : State} (a : Nat) (eff : State → State) (h_eff : ∀ x, Keeps b₀ x → Keeps b₀ (eff x)) (hk₀ : Keeps b₀ s) : Keeps b₀ (State.regWrite s a eff) := by
  unfold State.regWrite
  try dsimp only
  repeat' (first | (with_reducible first | assumption | intro _ | apply keeps_ite | apply keeps_farWrite | apply h_eff) | dsimp only)

theorem keeps_regOpen {b₀ s : State}   (hk₀ : Keeps b₀ s) : Keeps b₀ (State.regOpen s) := by
  unfold State.regOpen
  try dsimp only
  repeat' (first | (with_reducible first | assumption | apply keeps_ite | apply keeps_upReg | apply keeps_notice) | dsimp only)

theorem ends_RegisterOpen {b₀ s : State}   (hk₀ : Keeps b₀ s) : Ends b₀ (execRegisterOpen s) := by
  unfold execRegisterOpen
  try dsimp only
  repeat' (first | (with_reducible first | assumption | intro _ | apply ends_whenDo | apply ends_next | apply keeps_regWrite | apply keeps_regOpen) | dsimp only)

theorem keeps_regBlockCrc {b₀ s : State} (crc : BitVec 32)  (hk₀ : Keeps b₀ s) : Keeps b₀ (State.regBlockCrc s crc) := by
  unfold State.regBlockCrc
  try dsimp only
  repeat' (first | (with_reducible first | assumption | apply keeps_ite | apply keeps_upReg | apply keeps_notice) | dsimp only)

theorem ends_RegisterBlockCrc {b₀ s : State} (crc : BitVec 32)  (hk₀ : Keeps b₀ s) : Ends b₀ (execRegisterBlockCrc crc s) := by
  unfold execRegisterBlockCrc
  try dsimp only
  repeat' (first | (with_reducible first | assumption | intro _ | apply ends_whenDo | apply ends_next | apply keeps_regWrite | apply keeps_regBlockCrc) | dsimp only)

theorem keeps_importWrite {b₀ s : State} (a : Nat) (d : BitVec 16)  (hk₀ : Keeps b₀ s) : Keeps b₀ (State.importWrite s a d) := by
  unfold State.importWrite
  try dsimp only
  repeat' (first | (with_reducible first | assumption | apply keeps_ite | apply keeps_upReg | apply keeps_notice) | dsimp only)

theorem ends_ImportWindowWrite {b₀ s : State} (ha : BitVec 20) (d : BitVec 16)  (hk₀ : Keeps b₀ s) : Ends b₀ (execImportWindowWrite ha d s) := by
  unfold execImportWindowWrite
  try dsimp only
  repeat' (first | (with_reducible first | assumption | intro _ | apply ends_whenDo | apply ends_next | apply keeps_ite | apply ends_ite | apply keeps_windowAccess | apply keeps_importWrite) | dsimp only)

theorem keeps_regVerify {b₀ s : State}   (hk₀ : Keeps b₀ s) : Keeps b₀ (State.regVerify s) := by
  unfold State.regVerify
  try dsimp only
  repeat' (first | (with_reducible first | assumption | apply keeps_ite | apply keeps_upReg | apply keeps_verification | apply keeps_latch | apply keeps_notice) | split | dsimp only)

theorem ends_RegisterVerify {b₀ s : State}   (hk₀ : Keeps b₀ s) : Ends b₀ (execRegisterVerify s) := by
  unfold execRegisterVerify
  try dsimp only
  repeat' (first | (with_reducible first | assumption | intro _ | apply ends_whenDo | apply ends_next | apply keeps_regWrite | apply keeps_regVerify) | dsimp only)

theorem keeps_regVerdict {b₀ s : State}   (hk₀ : Keeps b₀ s) : Keeps b₀ (State.regVerdict s) := by
  unfold State.regVerdict
  try dsimp only
  repeat' (first | (with_reducible first | assumption | intro _ | apply keeps_ite | apply keeps_touchPage | apply keeps_kecDone | apply keeps_upReg | apply keeps_upCry | apply keeps_latch | apply keeps_foldl) | split | dsimp only)

theorem ends_RegisterVerifyDone {b₀ s : State}   (hk₀ : Keeps b₀ s) : Ends b₀ (execRegisterVerifyDone s) := by
  unfold execRegisterVerifyDone
  try dsimp only
  repeat' (first | (with_reducible first | assumption | apply ends_whenDo | apply ends_next | apply keeps_regVerdict) | dsimp only)

theorem keeps_regCommit {b₀ s : State}   (hk₀ : Keeps b₀ s) : Keeps b₀ (State.regCommit s) := by
  unfold State.regCommit
  try dsimp only
  repeat' (first | (with_reducible first | assumption | apply keeps_upReg | apply keeps_notice) | refine keeps_snd (by assumption) ?_ | refine keeps_fst (by assumption) ?_ | split | dsimp only)

theorem ends_RegisterCommit {b₀ s : State}   (hk₀ : Keeps b₀ s) : Ends b₀ (execRegisterCommit s) := by
  unfold execRegisterCommit
  try dsimp only
  repeat' (first | (with_reducible first | assumption | intro _ | apply ends_whenDo | apply ends_next | apply keeps_regWrite | apply keeps_regCommit) | dsimp only)

theorem keeps_regStaged {b₀ s : State} (ok : Bool)  (hk₀ : Keeps b₀ s) : Keeps b₀ (State.regStaged s ok) := by
  unfold State.regStaged
  try dsimp only
  repeat' (first | (with_reducible first | assumption | apply keeps_ite | apply keeps_leaveSlack | apply keeps_upReg | apply keeps_latch) | refine keeps_snd (by assumption) ?_ | refine keeps_fst (by assumption) ?_ | split | dsimp only)

theorem ends_StagingDone {b₀ s : State} (ok : Bool)  (hk₀ : Keeps b₀ s) : Ends b₀ (execStagingDone ok s) := by
  unfold execStagingDone
  try dsimp only
  repeat' (first | (with_reducible first | assumption | apply ends_whenDo | apply ends_next | apply keeps_regStaged) | dsimp only)

theorem keeps_regAbort {b₀ s : State}   (hk₀ : Keeps b₀ s) : Keeps b₀ (State.regAbort s) := by
  unfold State.regAbort
  try dsimp only
  repeat' (first | (with_reducible first | assumption | apply keeps_ite | apply keeps_notice | apply keeps_upReg) | dsimp only)

theorem ends_RegisterAbort {b₀ s : State}   (hk₀ : Keeps b₀ s) : Ends b₀ (execRegisterAbort s) := by
  unfold execRegisterAbort
  try dsimp only
  repeat' (first | (with_reducible first | assumption | intro _ | apply ends_whenDo | apply ends_next | apply keeps_regWrite | apply keeps_regAbort) | dsimp only)

theorem ends_JournalApply {b₀ s : State}   (hk₀ : Keeps b₀ s) : Ends b₀ (execJournalApply s) := by
  unfold execJournalApply
  try dsimp only
  repeat' (first | (with_reducible first | assumption | apply ends_whenDo | apply ends_next | apply keeps_upReg) | dsimp only)

theorem keeps_mbStart {b₀ s : State} (scrub : Bool)  (hk₀ : Keeps b₀ s) : Keeps b₀ (State.mbStart s scrub) := by
  unfold State.mbStart
  try dsimp only
  repeat' (first | (with_reducible first | assumption | apply keeps_ite | apply keeps_upReg | apply keeps_notice) | dsimp only)

theorem ends_MbLookup {b₀ s : State}   (hk₀ : Keeps b₀ s) : Ends b₀ (execMbLookup s) := by
  unfold execMbLookup
  try dsimp only
  repeat' (first | (with_reducible first | assumption | intro _ | apply ends_whenDo | apply ends_next | apply keeps_regWrite | apply keeps_mbStart) | dsimp only)

theorem ends_MbScrub {b₀ s : State}   (hk₀ : Keeps b₀ s) : Ends b₀ (execMbScrub s) := by
  unfold execMbScrub
  try dsimp only
  repeat' (first | (with_reducible first | assumption | intro _ | apply ends_whenDo | apply ends_next | apply keeps_regWrite | apply keeps_mbStart) | dsimp only)

theorem keeps_mbLookupEnd {b₀ s : State}   (hk₀ : Keeps b₀ s) : Keeps b₀ (State.mbLookupEnd s) := by
  unfold State.mbLookupEnd
  try dsimp only
  repeat' (first | (with_reducible first | assumption | apply keeps_ite | apply keeps_lookup | apply keeps_upReg) | refine keeps_snd (by assumption) ?_ | refine keeps_fst (by assumption) ?_ | split | dsimp only)

theorem keeps_mbEnd {b₀ s : State}   (hk₀ : Keeps b₀ s) : Keeps b₀ (State.mbEnd s) := by
  unfold State.mbEnd
  try dsimp only
  repeat' (first | (with_reducible first | assumption | intro _ | apply keeps_ite | apply keeps_touchPage | apply keeps_upReg | apply keeps_mbLookupEnd | apply keeps_latch | apply keeps_foldl) | dsimp only)

theorem ends_MailboxDone {b₀ s : State}   (hk₀ : Keeps b₀ s) : Ends b₀ (execMailboxDone s) := by
  unfold execMailboxDone
  try dsimp only
  repeat' (first | (with_reducible first | assumption | apply ends_whenDo | apply ends_next | apply keeps_mbEnd) | dsimp only)

theorem keeps_clockSet {b₀ s : State} (v : BitVec 32)  (hk₀ : Keeps b₀ s) : Keeps b₀ (State.clockSet s v) := by
  unfold State.clockSet
  try dsimp only
  repeat' (first | (with_reducible first | assumption | apply keeps_ite | apply keeps_upReg | apply keeps_noticeIf) | dsimp only)

theorem ends_ClockWrite {b₀ s : State} (v : BitVec 32)  (hk₀ : Keeps b₀ s) : Ends b₀ (execClockWrite v s) := by
  unfold execClockWrite
  try dsimp only
  repeat' (first | (with_reducible first | assumption | intro _ | apply ends_whenDo | apply ends_next | apply keeps_regWrite | apply keeps_clockSet) | dsimp only)

theorem ends_ClockFloorHour {b₀ s : State}   (hk₀ : Keeps b₀ s) : Ends b₀ (execClockFloorHour s) := by
  unfold execClockFloorHour
  try dsimp only
  repeat' (first | (with_reducible first | assumption | apply ends_whenDo | apply ends_next | apply keeps_upReg) | dsimp only)

end Sys2Proof.Machine
end

