-- ==== Sys2Proof/Laws/KeepsKeys.lean ====
section
/-! SUPPORT. What the functions of Machine/Keys.lean leave alone. -/

namespace Sys2Proof.Machine

set_option linter.all false

theorem keeps_deriveMember {b₀ s : State} (n : Nat)  (hk₀ : Keeps b₀ s) : Keeps b₀ (State.deriveMember s n) := by
  unfold State.deriveMember
  try dsimp only
  repeat' (first | (with_reducible first | assumption | apply keeps_ite | apply keeps_modSe | apply keeps_useCells | apply keeps_derivations | apply keeps_violation) | dsimp only)

theorem keeps_putSlot {b₀ s : State} (x : SessSlot)  (hk₀ : Keeps b₀ s) : Keeps b₀ (State.putSlot s x) := by
  unfold State.putSlot
  try dsimp only
  repeat' (first | (with_reducible first | assumption | apply keeps_upKeys) | dsimp only)

theorem keeps_dropSlot {b₀ s : State} (n : Nat)  (hk₀ : Keeps b₀ s) : Keeps b₀ (State.dropSlot s n) := by
  unfold State.dropSlot
  try dsimp only
  repeat' (first | (with_reducible first | assumption | apply keeps_upKeys) | dsimp only)

theorem keeps_keysEnd {b₀ s : State} (r : Nat) (detail : Nat)  (hk₀ : Keeps b₀ s) : Keeps b₀ (State.keysEnd s r detail) := by
  unfold State.keysEnd
  try dsimp only
  repeat' (first | (with_reducible first | assumption | apply keeps_upKeys | apply keeps_latch) | dsimp only)

theorem keeps_withKeccak {b₀ s : State}  (eff : State → State) (h_eff : ∀ x, Keeps b₀ x → Keeps b₀ (eff x)) (hk₀ : Keeps b₀ s) : Keeps b₀ (State.withKeccak s eff) := by
  unfold State.withKeccak
  try dsimp only
  repeat' (first | (with_reducible first | assumption | intro _ | apply keeps_ite | apply keeps_derivations | apply keeps_upKeys | apply h_eff) | dsimp only)

theorem keeps_keysRefused {b₀ s : State}   (hk₀ : Keeps b₀ s) : Keeps b₀ (State.keysRefused s) := by
  unfold State.keysRefused
  try dsimp only
  repeat' (first | (with_reducible first | assumption | apply keeps_violation | apply keeps_keysEnd) | dsimp only)

theorem keeps_stageRoot {b₀ s : State} (w : Bytes) (b : Bytes)  (hk₀ : Keeps b₀ s) : Keeps b₀ (State.stageRoot s w b) := by
  unfold State.stageRoot
  try dsimp only
  repeat' (first | (with_reducible first | assumption | apply keeps_leaveSlack | apply keeps_upKeys) | refine keeps_snd (by assumption) ?_ | refine keeps_fst (by assumption) ?_ | dsimp only)

theorem keeps_retimeRoot {b₀ s : State} (k : BitVec 1) (t : BitVec 32)  (hk₀ : Keeps b₀ s) : Keeps b₀ (State.retimeRoot s k t) := by
  unfold State.retimeRoot
  try dsimp only
  repeat' (first | (with_reducible first | assumption | apply keeps_ite | apply keeps_upKeys) | refine keeps_snd (by assumption) ?_ | refine keeps_fst (by assumption) ?_ | dsimp only)

theorem keeps_installHere {b₀ s : State} (b : Bytes) (anchorOk : Bool)  (hk₀ : Keeps b₀ s) : Keeps b₀ (State.installHere s b anchorOk) := by
  unfold State.installHere
  try dsimp only
  repeat' (first | (with_reducible first | assumption | intro _ | apply keeps_ite | apply keeps_keysEnd | apply keeps_keysRefused | apply keeps_withKeccak | apply keeps_useCells | apply keeps_stageRoot) | split | dsimp only)

theorem keeps_forwardRoot {b₀ s : State} (a : Nat) (b : Bytes)  (hk₀ : Keeps b₀ s) : Keeps b₀ (State.forwardRoot s a b) := by
  unfold State.forwardRoot
  try dsimp only
  repeat' (first | (with_reducible first | assumption | apply keeps_ite | apply keeps_leaveSlack | apply keeps_upKeys | apply keeps_pierRequest | apply keeps_keysEnd) | dsimp only)

theorem keeps_forwardAll {b₀ s : State} (links : List Nat) (code : Nat) (body : Bytes)  (hk₀ : Keeps b₀ s) : Keeps b₀ (State.forwardAll s links code body) := by
  unfold State.forwardAll
  try dsimp only
  repeat' (first | (with_reducible first | assumption | intro _ | apply keeps_ite | apply keeps_pierRequest | apply keeps_leaveSlack | apply keeps_foldl) | dsimp only)

theorem keeps_alignRoot {b₀ s : State} (k : BitVec 1)  (hk₀ : Keeps b₀ s) : Keeps b₀ (State.alignRoot s k) := by
  unfold State.alignRoot
  try dsimp only
  repeat' (first | (with_reducible first | assumption | apply keeps_retimeRoot | apply keeps_forwardAll) | dsimp only)

theorem keeps_installRoot {b₀ s : State}   (hk₀ : Keeps b₀ s) : Keeps b₀ (State.installRoot s) := by
  unfold State.installRoot
  try dsimp only
  repeat' (first | (with_reducible first | assumption | apply keeps_ite | apply keeps_forwardRoot | apply keeps_installHere | apply keeps_alignRoot) | dsimp only)

theorem keeps_lockKey {b₀ s : State} (key : Bytes) (epoch : BitVec 8)  (hk₀ : Keeps b₀ s) : Keeps b₀ (State.lockKey s key epoch) := by
  unfold State.lockKey
  try dsimp only
  repeat' (first | (with_reducible first | assumption | apply keeps_writeRecord) | dsimp only)

theorem keeps_dropTagKey {b₀ s : State}   (hk₀ : Keeps b₀ s) : Keeps b₀ (State.dropTagKey s) := by
  unfold State.dropTagKey
  try dsimp only
  repeat' (first | (with_reducible first | assumption | apply keeps_ite | apply keeps_upNfc) | dsimp only)

theorem keeps_invalidateRoot {b₀ s : State} (k : Nat)  (hk₀ : Keeps b₀ s) : Keeps b₀ (State.invalidateRoot s k) := by
  unfold State.invalidateRoot
  try dsimp only
  repeat' (first | (with_reducible first | assumption | apply keeps_ite | apply keeps_upKeys | apply keeps_writeRecord | apply keeps_upBt | apply keeps_dropTagKey | apply keeps_latch) | exact id | intro _ | assumption | split | (simp_all [BerthTable.ok, Lf.ok, CanBlk.ok, PierBlk.ok]; done) | dsimp only)

theorem keeps_switchRoot {b₀ s : State} (k : Nat) (key : Bytes)  (hk₀ : Keeps b₀ s) : Keeps b₀ (State.switchRoot s k key) := by
  unfold State.switchRoot
  try dsimp only
  repeat' (first | (with_reducible first | assumption | apply keeps_ite | apply keeps_upKeys | apply keeps_latch) | dsimp only)

theorem keeps_keysBoundary {b₀ s : State}   (hk₀ : Keeps b₀ s) : Keeps b₀ (State.keysBoundary s) := by
  unfold State.keysBoundary
  try dsimp only
  repeat' (first | (with_reducible first | assumption | intro _ | apply keeps_ite | apply keeps_upKeys | apply keeps_invalidateRoot | apply keeps_switchRoot | apply keeps_foldl) | refine keeps_snd (by assumption) ?_ | refine keeps_fst (by assumption) ?_ | split | dsimp only)

theorem ends_RootRetagDone {b₀ s : State}   (hk₀ : Keeps b₀ s) : Ends b₀ (execRootRetagDone s) := by
  unfold execRootRetagDone
  try dsimp only
  repeat' (first | (with_reducible first | assumption | apply ends_whenDo | apply ends_next | apply keeps_upMf | apply keeps_upReg | apply keeps_upKeys) | split | dsimp only)

theorem keeps_pubHere {b₀ s : State} (b : Bytes)  (hk₀ : Keeps b₀ s) : Keeps b₀ (State.pubHere s b) := by
  unfold State.pubHere
  try dsimp only
  repeat' (first | (with_reducible first | assumption | apply keeps_ite | apply keeps_keysEnd | apply keeps_upKeys) | split | dsimp only)

theorem keeps_installPub {b₀ s : State}   (hk₀ : Keeps b₀ s) : Keeps b₀ (State.installPub s) := by
  unfold State.installPub
  try dsimp only
  repeat' (first | (with_reducible first | assumption | apply keeps_ite | apply keeps_pubHere | apply keeps_forwardAll) | dsimp only)

theorem keeps_fleetHere {b₀ s : State} (b : Bytes)  (hk₀ : Keeps b₀ s) : Keeps b₀ (State.fleetHere s b) := by
  unfold State.fleetHere
  try dsimp only
  repeat' (first | (with_reducible first | assumption | apply keeps_ite | apply keeps_keysEnd | apply keeps_upKeys) | dsimp only)

theorem keeps_setFleet {b₀ s : State}   (hk₀ : Keeps b₀ s) : Keeps b₀ (State.setFleet s) := by
  unfold State.setFleet
  try dsimp only
  repeat' (first | (with_reducible first | assumption | apply keeps_ite | apply keeps_fleetHere | apply keeps_forwardAll) | dsimp only)

theorem keeps_pairCmd {b₀ s : State}   (hk₀ : Keeps b₀ s) : Keeps b₀ (State.pairCmd s) := by
  unfold State.pairCmd
  try dsimp only
  repeat' (first | (with_reducible first | assumption | intro _ | apply keeps_ite | apply keeps_keysEnd | apply keeps_keysRefused | apply keeps_withKeccak | apply keeps_useCells | apply keeps_lockKey | apply keeps_upKeys) | dsimp only)

theorem keeps_genXmss {b₀ s : State}   (hk₀ : Keeps b₀ s) : Keeps b₀ (State.genXmss s) := by
  unfold State.genXmss
  try dsimp only
  repeat' (first | (with_reducible first | assumption | apply keeps_ite | apply keeps_keysEnd | apply keeps_upTrng | apply keeps_upKeys | apply keeps_request) | dsimp only)

theorem ends_GenXmssDone {b₀ s : State}   (hk₀ : Keeps b₀ s) : Ends b₀ (execGenXmssDone s) := by
  unfold execGenXmssDone
  try dsimp only
  repeat' (first | (with_reducible first | assumption | apply ends_whenDo | apply ends_next | apply keeps_genXmss | apply keeps_kecDone | apply keeps_upCry | apply keeps_upKeys | apply keeps_latch) | dsimp only)

theorem keeps_armLife {b₀ s : State} (l : LifeCycle) (code : Nat)  (hk₀ : Keeps b₀ s) : Keeps b₀ (State.armLife s l code) := by
  unfold State.armLife
  try dsimp only
  repeat' (first | (with_reducible first | assumption | apply keeps_upTide | apply keeps_forwardAll | apply keeps_keysEnd) | (intro _; rfl) | rfl | (intro _; repeat' split; all_goals rfl) | dsimp only)

theorem keeps_advance {b₀ s : State}   (hk₀ : Keeps b₀ s) : Keeps b₀ (State.advance s) := by
  unfold State.advance
  try dsimp only
  repeat' (first | (with_reducible first | assumption | apply keeps_ite | apply keeps_keysEnd | apply keeps_armLife) | split | dsimp only)

theorem keeps_returnCmd {b₀ s : State}   (hk₀ : Keeps b₀ s) : Keeps b₀ (State.returnCmd s) := by
  unfold State.returnCmd
  try dsimp only
  repeat' (first | (with_reducible first | assumption | apply keeps_ite | apply keeps_keysEnd | apply keeps_upKeys | apply keeps_verification | apply keeps_upCry | apply keeps_armLife) | dsimp only)

theorem keeps_respond {b₀ s : State}   (hk₀ : Keeps b₀ s) : Keeps b₀ (State.respond s) := by
  unfold State.respond
  try dsimp only
  repeat' (first | (with_reducible first | assumption | intro _ | apply keeps_ite | apply keeps_keysEnd | apply keeps_keysRefused | apply keeps_withKeccak | apply keeps_useCells | apply keeps_upKeys) | dsimp only)

theorem keeps_exportHarvest {b₀ s : State}   (hk₀ : Keeps b₀ s) : Keeps b₀ (State.exportHarvest s) := by
  unfold State.exportHarvest
  try dsimp only
  repeat' (first | (with_reducible first | assumption | intro _ | apply keeps_ite | apply keeps_keysEnd | apply keeps_lookup | apply keeps_keysRefused | apply keeps_withKeccak | apply keeps_useCells | apply keeps_upKeys) | refine keeps_snd (by assumption) ?_ | refine keeps_fst (by assumption) ?_ | split | dsimp only)

theorem keeps_newNonce {b₀ s : State}   (hk₀ : Keeps b₀ s) : Keeps b₀ (State.newNonce s) := by
  unfold State.newNonce
  try dsimp only
  repeat' (first | (with_reducible first | assumption | apply keeps_upKeys | apply keeps_request) | dsimp only)

theorem keeps_destroyCmd {b₀ s : State} (fleet : Bool)  (hk₀ : Keeps b₀ s) : Keeps b₀ (State.destroyCmd s fleet) := by
  unfold State.destroyCmd
  try dsimp only
  repeat' (first | (with_reducible first | assumption | apply keeps_ite | apply keeps_upKeys | apply keeps_keysEnd) | split | dsimp only)

theorem keeps_unstageRoots {b₀ s : State}   (hk₀ : Keeps b₀ s) : Keeps b₀ (State.unstageRoots s) := by
  unfold State.unstageRoots
  try dsimp only
  repeat' (first | (with_reducible first | assumption | apply keeps_upKeys) | dsimp only)

theorem keeps_keysRun {b₀ s : State} (v : BitVec 32)  (hk₀ : Keeps b₀ s) : Keeps b₀ (State.keysRun s v) := by
  unfold State.keysRun
  try dsimp only
  repeat' (first | (with_reducible first | assumption | apply keeps_upKeys | apply keeps_installRoot | apply keeps_installPub | apply keeps_setFleet | apply keeps_pairCmd | apply keeps_genXmss | apply keeps_advance | apply keeps_returnCmd | apply keeps_respond | apply keeps_exportHarvest | apply keeps_newNonce | apply keeps_destroyCmd | apply keeps_unstageRoots | apply keeps_keysEnd) | split | dsimp only)

theorem keeps_keysCmd {b₀ s : State} (v : BitVec 32)  (hk₀ : Keeps b₀ s) : Keeps b₀ (State.keysCmd s v) := by
  unfold State.keysCmd
  try dsimp only
  repeat' (first | (with_reducible first | assumption | apply keeps_ite | apply keeps_upKeys | apply keeps_latch | apply keeps_notice | apply keeps_keysRun) | dsimp only)

theorem keeps_runHeldKeys {b₀ s : State}   (hk₀ : Keeps b₀ s) : Keeps b₀ (State.runHeldKeys s) := by
  unfold State.runHeldKeys
  try dsimp only
  repeat' (first | (with_reducible first | assumption | intro _ | apply keeps_deriveMember | apply keeps_keysRun | apply keeps_foldl) | split | dsimp only)

theorem keeps_keysWrite {b₀ s : State} (code : BitVec 32)  (hk₀ : Keeps b₀ s) : Keeps b₀ (State.keysWrite s code) := by
  unfold State.keysWrite
  try dsimp only
  repeat' (first | (with_reducible first | assumption | intro _ | apply keeps_farWrite | apply keeps_keysCmd) | dsimp only)

theorem ends_InstallRoot {b₀ s : State}   (hk₀ : Keeps b₀ s) : Ends b₀ (execInstallRoot s) := by
  unfold execInstallRoot
  try dsimp only
  repeat' (first | (with_reducible first | assumption | intro _ | apply ends_whenDo | apply ends_next | apply keeps_keysWrite) | dsimp only)

theorem ends_InstallPub {b₀ s : State}   (hk₀ : Keeps b₀ s) : Ends b₀ (execInstallPub s) := by
  unfold execInstallPub
  try dsimp only
  repeat' (first | (with_reducible first | assumption | intro _ | apply ends_whenDo | apply ends_next | apply keeps_keysWrite) | dsimp only)

theorem ends_SetFleetId {b₀ s : State}   (hk₀ : Keeps b₀ s) : Ends b₀ (execSetFleetId s) := by
  unfold execSetFleetId
  try dsimp only
  repeat' (first | (with_reducible first | assumption | intro _ | apply ends_whenDo | apply ends_next | apply keeps_keysWrite) | dsimp only)

theorem ends_Pair {b₀ s : State}   (hk₀ : Keeps b₀ s) : Ends b₀ (execPair s) := by
  unfold execPair
  try dsimp only
  repeat' (first | (with_reducible first | assumption | intro _ | apply ends_whenDo | apply ends_next | apply keeps_keysWrite) | dsimp only)

theorem ends_GenXmss {b₀ s : State}   (hk₀ : Keeps b₀ s) : Ends b₀ (execGenXmss s) := by
  unfold execGenXmss
  try dsimp only
  repeat' (first | (with_reducible first | assumption | intro _ | apply ends_whenDo | apply ends_next | apply keeps_keysWrite) | dsimp only)

theorem ends_Advance {b₀ s : State}   (hk₀ : Keeps b₀ s) : Ends b₀ (execAdvance s) := by
  unfold execAdvance
  try dsimp only
  repeat' (first | (with_reducible first | assumption | intro _ | apply ends_whenDo | apply ends_next | apply keeps_keysWrite) | dsimp only)

theorem ends_KeysReturn {b₀ s : State}   (hk₀ : Keeps b₀ s) : Ends b₀ (execKeysReturn s) := by
  unfold execKeysReturn
  try dsimp only
  repeat' (first | (with_reducible first | assumption | intro _ | apply ends_whenDo | apply ends_next | apply keeps_keysWrite) | dsimp only)

theorem ends_Respond {b₀ s : State}   (hk₀ : Keeps b₀ s) : Ends b₀ (execRespond s) := by
  unfold execRespond
  try dsimp only
  repeat' (first | (with_reducible first | assumption | intro _ | apply ends_whenDo | apply ends_next | apply keeps_keysWrite) | dsimp only)

theorem ends_ExportHarvest {b₀ s : State}   (hk₀ : Keeps b₀ s) : Ends b₀ (execExportHarvest s) := by
  unfold execExportHarvest
  try dsimp only
  repeat' (first | (with_reducible first | assumption | intro _ | apply ends_whenDo | apply ends_next | apply keeps_keysWrite) | dsimp only)

theorem ends_KeysNewNonce {b₀ s : State}   (hk₀ : Keeps b₀ s) : Ends b₀ (execKeysNewNonce s) := by
  unfold execKeysNewNonce
  try dsimp only
  repeat' (first | (with_reducible first | assumption | intro _ | apply ends_whenDo | apply ends_next | apply keeps_keysWrite) | dsimp only)

theorem ends_Destroy {b₀ s : State} (vehicle : Bool)  (hk₀ : Keeps b₀ s) : Ends b₀ (execDestroy vehicle s) := by
  unfold execDestroy
  try dsimp only
  repeat' (first | (with_reducible first | assumption | intro _ | apply ends_whenDo | apply ends_next | apply keeps_ite | apply ends_ite | apply keeps_keysWrite) | dsimp only)

theorem ends_KeysAbort {b₀ s : State}   (hk₀ : Keeps b₀ s) : Ends b₀ (execKeysAbort s) := by
  unfold execKeysAbort
  try dsimp only
  repeat' (first | (with_reducible first | assumption | intro _ | apply ends_whenDo | apply ends_next | apply keeps_keysWrite) | dsimp only)

theorem keeps_zeroSession {b₀ s : State}   (hk₀ : Keeps b₀ s) : Keeps b₀ (State.zeroSession s) := by
  unfold State.zeroSession
  try dsimp only
  repeat' (first | (with_reducible first | assumption | intro _ | apply keeps_upKeys | apply keeps_upBt | apply keeps_dropTagKey | apply keeps_jobAborted | apply keeps_upCry | apply keeps_startHead | apply keeps_foldl) | exact id | intro _ | assumption | split | (simp_all [BerthTable.ok, Lf.ok, CanBlk.ok, PierBlk.ok]; done) | dsimp only)

theorem keeps_castTamper {b₀ s : State} (n : Nat)  (hk₀ : Keeps b₀ s) : Keeps b₀ (State.castTamper s n) := by
  unfold State.castTamper
  try dsimp only
  repeat' (first | (with_reducible first | assumption | apply keeps_castOff | apply keeps_modId) | dsimp only)

theorem keeps_tamperEffects {b₀ s : State}   (hk₀ : Keeps b₀ s) : Keeps b₀ (State.tamperEffects s) := by
  unfold State.tamperEffects
  try dsimp only
  repeat' (first | (with_reducible first | assumption | intro _ | apply keeps_ite | apply keeps_zeroSession | apply keeps_castTamper | apply keeps_upVer | apply keeps_lkTamper | apply keeps_upPins | apply keeps_upKeys | apply keeps_foldl) | dsimp only)

theorem keeps_tamperLinks {b₀ s : State}   (hk₀ : Keeps b₀ s) : Keeps b₀ (State.tamperLinks s) := by
  unfold State.tamperLinks
  try dsimp only
  repeat' (first | (with_reducible first | assumption | intro _ | apply keeps_ite | apply keeps_pierPost | apply keeps_leaveSlack | apply keeps_foldl) | dsimp only)

theorem keeps_reportAt {b₀ s : State} (t : Nat) (kind : Nat) (arg : BitVec 32) (body : Bytes)  (hk₀ : Keeps b₀ s) : Keeps b₀ (State.reportAt s t kind arg body) := by
  unfold State.reportAt
  try dsimp only
  repeat' (first | (with_reducible first | assumption | apply keeps_ite | apply keeps_pierPost) | split | dsimp only)

theorem keeps_report {b₀ s : State} (kind : Nat) (arg : BitVec 32) (body : Bytes)  (hk₀ : Keeps b₀ s) : Keeps b₀ (State.report s kind arg body) := by
  unfold State.report
  try dsimp only
  repeat' (first | (with_reducible first | assumption | apply keeps_reportAt) | dsimp only)

theorem keeps_tamperZeroes {b₀ s : State}   (hk₀ : Keeps b₀ s) : Keeps b₀ (State.tamperZeroes s) := by
  unfold State.tamperZeroes
  try dsimp only
  repeat' (first | (with_reducible first | assumption | apply keeps_upCry | apply keeps_upTrng) | dsimp only)

theorem keeps_tamperRise {b₀ s : State} (src : Nat)  (hk₀ : Keeps b₀ s) : Keeps b₀ (State.tamperRise s src) := by
  unfold State.tamperRise
  try dsimp only
  repeat' (first | (with_reducible first | assumption | apply keeps_ite | apply keeps_tamperEffects | apply keeps_unstageRoots | apply keeps_upKeys | apply keeps_tamperZeroes | apply keeps_latch | apply keeps_logRecord | apply keeps_report | apply keeps_tamperLinks) | dsimp only)

theorem ends_TamperLineRise {b₀ s : State} (source : BitVec 2)  (hk₀ : Keeps b₀ s) : Ends b₀ (execTamperLineRise source s) := by
  unfold execTamperLineRise
  try dsimp only
  repeat' (first | (with_reducible first | assumption | apply ends_whenDo | apply ends_next | apply keeps_tamperRise) | dsimp only)

theorem keeps_tamperBoundary {b₀ s : State} (active : BitVec 4)  (hk₀ : Keeps b₀ s) : Keeps b₀ (State.tamperBoundary s active) := by
  unfold State.tamperBoundary
  try dsimp only
  repeat' (first | (with_reducible first | assumption | apply keeps_ite | apply keeps_upKeys) | split | dsimp only)

end Sys2Proof.Machine
end

