-- ==== Sys2Proof/Laws/KeepsIntc.lean ====
section
/-! SUPPORT. What the functions of Machine/Intc.lean leave alone. -/

namespace Sys2Proof.Machine

set_option linter.all false

theorem keeps_farRead {b₀ s : State} (a : Nat) (get : State → BitVec 32 × State)
    (hg : ∀ x, Keeps b₀ x → Keeps b₀ (get x).2) (h : Keeps b₀ s) : Keeps b₀ (s.farRead a get) := by
  unfold State.farRead
  dsimp only
  split
  · split
    · exact keeps_upPort (hg _ (keeps_beginFar _ h))
    · exact keeps_upPort (keeps_beginFar _ h)
  · exact h

theorem keeps_claimHost {b₀ s : State} (h : Keeps b₀ s) : Keeps b₀ s.claimHost.2 := by
  refine ⟨h.pending, h.ident, h.now, h.clock, fun x => ?_, h.starts⟩
  have := (sound_iff s).1 (h.sound x)
  exact (sound_iff _).2 ⟨Intc.claim_ok this.1 0, this.2⟩

theorem ends_Claim {b₀ s : State}   (hk₀ : Keeps b₀ s) : Ends b₀ (execClaim s) := by
  unfold execClaim
  try dsimp only
  repeat' (first | (with_reducible first | assumption | intro _ | apply ends_whenDo | apply ends_next | apply keeps_farRead | apply keeps_claimHost) | dsimp only)

theorem ends_Complete {b₀ s : State} (v : BitVec 32)  (hk₀ : Keeps b₀ s) : Ends b₀ (execComplete v s) := by
  unfold execComplete
  try dsimp only
  repeat' (first | (with_reducible first | assumption | intro _ | apply ends_whenDo | apply ends_next | apply keeps_farWrite | apply keeps_upIntc) | (with_reducible first | intro _ | exact Intc.complete_ok (by assumption) _ _ | exact Intc.claim_ok (by assumption) _ | exact Intc.enablePair_ok (by assumption) _ (pairTarget_ne _) _ | exact Intc.foldl_ok _ (fun i n h => Intc.clearBit_ok h n) _ (by assumption) | exact Intc.foldl_ok _ (fun i n h => Intc.enableHost_ok h _ _) _ (by assumption)) | exact Intc.ok_same (by assumption) rfl rfl rfl rfl rfl rfl rfl rfl rfl rfl | dsimp only)

theorem keeps_pendingWrite {b₀ s : State} (hi : Bool) (v : BitVec 32)  (hk₀ : Keeps b₀ s) : Keeps b₀ (State.pendingWrite s hi v) := by
  unfold State.pendingWrite
  try dsimp only
  repeat' (first | (with_reducible first | assumption | intro _ | apply keeps_ite | apply keeps_upIntc | apply keeps_noticeIf | apply keeps_foldl) | (with_reducible first | intro _ | exact Intc.complete_ok (by assumption) _ _ | exact Intc.claim_ok (by assumption) _ | exact Intc.enablePair_ok (by assumption) _ (pairTarget_ne _) _ | exact Intc.foldl_ok _ (fun i n h => Intc.clearBit_ok h n) _ (by assumption) | exact Intc.foldl_ok _ (fun i n h => Intc.enableHost_ok h _ _) _ (by assumption)) | exact Intc.ok_same (by assumption) rfl rfl rfl rfl rfl rfl rfl rfl rfl rfl | dsimp only)

theorem ends_PendingClear {b₀ s : State} (hiReg : Bool) (v : BitVec 32)  (hk₀ : Keeps b₀ s) : Ends b₀ (execPendingClear hiReg v s) := by
  unfold execPendingClear
  try dsimp only
  repeat' (first | (with_reducible first | assumption | intro _ | apply ends_whenDo | apply ends_next | apply keeps_ite | apply ends_ite | apply keeps_farWrite | apply keeps_pendingWrite) | dsimp only)

theorem keeps_enableHost {b₀ s : State} (hi : Bool) (v : BitVec 32) (h : Keeps b₀ s) : Keeps b₀ (s.enableHost hi v) :=
  keeps_upIntc h fun _ hi' => Intc.foldl_ok _ (fun i n h => Intc.enableHost_ok h _ _) _ hi'

theorem ends_EnableHWrite {b₀ s : State} (hiReg : Bool) (v : BitVec 32)  (hk₀ : Keeps b₀ s) : Ends b₀ (execEnableHWrite hiReg v s) := by
  unfold execEnableHWrite
  try dsimp only
  repeat' (first | (with_reducible first | assumption | intro _ | apply ends_whenDo | apply ends_next | apply keeps_ite | apply ends_ite | apply keeps_farWrite | apply keeps_enableHost) | dsimp only)

theorem ends_PairEnableWrite {b₀ s : State} (pairB : Bool) (mask : BitVec 64)  (hk₀ : Keeps b₀ s) : Ends b₀ (execPairEnableWrite pairB mask s) := by
  unfold execPairEnableWrite
  try dsimp only
  repeat' (first | (with_reducible first | assumption | apply ends_whenDo | apply ends_next | apply keeps_upIntc) | (with_reducible first | intro _ | exact Intc.complete_ok (by assumption) _ _ | exact Intc.claim_ok (by assumption) _ | exact Intc.enablePair_ok (by assumption) _ (pairTarget_ne _) _ | exact Intc.foldl_ok _ (fun i n h => Intc.clearBit_ok h n) _ (by assumption) | exact Intc.foldl_ok _ (fun i n h => Intc.enableHost_ok h _ _) _ (by assumption)) | exact Intc.ok_same (by assumption) rfl rfl rfl rfl rfl rfl rfl rfl rfl rfl | dsimp only)

theorem ends_PairClaim {b₀ s : State} (pairB : Bool)  (hk₀ : Keeps b₀ s) : Ends b₀ (execPairClaim pairB s) := by
  unfold execPairClaim
  try dsimp only
  repeat' (first | (with_reducible first | assumption | apply ends_whenDo | apply ends_next | apply keeps_upIntc) | (with_reducible first | intro _ | exact Intc.complete_ok (by assumption) _ _ | exact Intc.claim_ok (by assumption) _ | exact Intc.enablePair_ok (by assumption) _ (pairTarget_ne _) _ | exact Intc.foldl_ok _ (fun i n h => Intc.clearBit_ok h n) _ (by assumption) | exact Intc.foldl_ok _ (fun i n h => Intc.enableHost_ok h _ _) _ (by assumption)) | exact Intc.ok_same (by assumption) rfl rfl rfl rfl rfl rfl rfl rfl rfl rfl | refine keeps_snd (by assumption) ?_ | refine keeps_fst (by assumption) ?_ | dsimp only)

theorem ends_PairComplete {b₀ s : State} (pairB : Bool) (source : BitVec 6)  (hk₀ : Keeps b₀ s) : Ends b₀ (execPairComplete pairB source s) := by
  unfold execPairComplete
  try dsimp only
  repeat' (first | (with_reducible first | assumption | apply ends_whenDo | apply ends_next | apply keeps_upIntc) | (with_reducible first | intro _ | exact Intc.complete_ok (by assumption) _ _ | exact Intc.claim_ok (by assumption) _ | exact Intc.enablePair_ok (by assumption) _ (pairTarget_ne _) _ | exact Intc.foldl_ok _ (fun i n h => Intc.clearBit_ok h n) _ (by assumption) | exact Intc.foldl_ok _ (fun i n h => Intc.enableHost_ok h _ _) _ (by assumption)) | exact Intc.ok_same (by assumption) rfl rfl rfl rfl rfl rfl rfl rfl rfl rfl | dsimp only)

theorem keeps_triggerWrite {b₀ s : State} (v : BitVec 32)  (hk₀ : Keeps b₀ s) : Keeps b₀ (State.triggerWrite s v) := by
  unfold State.triggerWrite
  try dsimp only
  repeat' (first | (with_reducible first | assumption | apply keeps_ite | apply keeps_latch | apply keeps_notice) | dsimp only)

theorem ends_Trigger {b₀ s : State} (v : BitVec 32)  (hk₀ : Keeps b₀ s) : Ends b₀ (execTrigger v s) := by
  unfold execTrigger
  try dsimp only
  repeat' (first | (with_reducible first | assumption | intro _ | apply ends_whenDo | apply ends_next | apply keeps_farWrite | apply keeps_triggerWrite) | dsimp only)

theorem ends_FarAccessComplete {b₀ s : State}   (hk₀ : Keeps b₀ s) : Ends b₀ (execFarAccessComplete s) := by
  unfold execFarAccessComplete
  try dsimp only
  repeat' (first | (with_reducible first | assumption | apply ends_whenDo | apply ends_next | apply keeps_upPort | apply keeps_upNfc) | split | dsimp only)

theorem ends_BusProtocolError {b₀ s : State}   (hk₀ : Keeps b₀ s) : Ends b₀ (execBusProtocolError s) := by
  unfold execBusProtocolError
  try dsimp only
  repeat' (first | (with_reducible first | assumption | apply ends_whenDo | apply ends_next | apply keeps_upPort) | dsimp only)

theorem keeps_bulkWrite {b₀ s : State} (o : Nat) (d : BitVec 16)  (hk₀ : Keeps b₀ s) : Keeps b₀ (State.bulkWrite s o d) := by
  unfold State.bulkWrite
  try dsimp only
  repeat' (first | (with_reducible first | assumption | apply keeps_ite | apply keeps_drainBulk | apply keeps_upPort | apply keeps_notice) | split | dsimp only)

theorem ends_BulkWindowWrite {b₀ s : State} (ha : BitVec 20) (d : BitVec 16)  (hk₀ : Keeps b₀ s) : Ends b₀ (execBulkWindowWrite ha d s) := by
  unfold execBulkWindowWrite
  try dsimp only
  repeat' (first | (with_reducible first | assumption | intro _ | apply ends_whenDo | apply ends_next | apply keeps_bulkWrite) | dsimp only)

theorem ends_PortStartAfterPor {b₀ s : State}   (hk₀ : Keeps b₀ s) : Ends b₀ (execPortStartAfterPor s) := by
  unfold execPortStartAfterPor
  try dsimp only
  repeat' (first | (with_reducible first | assumption | apply ends_whenDo | apply ends_next | apply keeps_upPort) | dsimp only)

end Sys2Proof.Machine
end

