-- ==== Sys2Proof/Laws/KeepsBerths.lean ====
section
/-! SUPPORT. What the functions of Machine/Berths.lean leave alone. -/

namespace Sys2Proof.Machine

set_option linter.all false

theorem keeps_wakeHere {b₀ s : State} (bit : Nat)  (hk₀ : Keeps b₀ s) : Keeps b₀ (State.wakeHere s bit) := by
  unfold State.wakeHere
  try dsimp only
  repeat' (first | (with_reducible first | assumption | apply keeps_ite | apply keeps_upTide | apply keeps_report | apply keeps_wake) | (intro _; rfl) | rfl | (intro _; repeat' split; all_goals rfl) | dsimp only)

theorem keeps_takeHead {b₀ s : State}   (hk₀ : Keeps b₀ s) : Keeps b₀ (State.takeHead s) := by
  unfold State.takeHead
  try dsimp only
  repeat' (first | (with_reducible first | assumption | apply keeps_ite | apply keeps_upBt) | exact id | intro _ | assumption | split | (simp_all [BerthTable.ok, Lf.ok, CanBlk.ok, PierBlk.ok]; done) | dsimp only)

theorem keeps_releaseSid {b₀ s : State} (k : Nat)  (hk₀ : Keeps b₀ s) : Keeps b₀ (State.releaseSid s k) := by
  unfold State.releaseSid
  try dsimp only
  repeat' (first | (with_reducible first | assumption | apply keeps_upBt) | exact id | intro _ | assumption | split | (simp_all [BerthTable.ok, Lf.ok, CanBlk.ok, PierBlk.ok]; done) | dsimp only)

theorem keeps_shareSlot {b₀ s : State} (x : SessSlot) (sid : BitVec 32) (links : List Nat)  (hk₀ : Keeps b₀ s) : Keeps b₀ (State.shareSlot s x sid links) := by
  unfold State.shareSlot
  try dsimp only
  repeat' (first | (with_reducible first | assumption | intro _ | apply keeps_pierProtected | apply keeps_foldl) | dsimp only)

theorem keeps_sessionOpened {b₀ s : State} (n : Nat) (k : Nat)  (hk₀ : Keeps b₀ s) : Keeps b₀ (State.sessionOpened s n k) := by
  unfold State.sessionOpened
  try dsimp only
  repeat' (first | (with_reducible first | assumption | intro _ | apply keeps_ite | apply keeps_useCells | apply keeps_derivations | apply keeps_takeHead | apply keeps_putSlot | apply keeps_shareSlot | apply keeps_modSe | apply keeps_withKey | apply keeps_queueFrame) | dsimp only)

theorem keeps_openSession {b₀ s : State} (n : Nat)  (hk₀ : Keeps b₀ s) : Keeps b₀ (State.openSession s n) := by
  unfold State.openSession
  try dsimp only
  repeat' (first | (with_reducible first | assumption | apply keeps_ite | apply keeps_sessionOpened | apply keeps_violation) | split | dsimp only)

theorem keeps_moor {b₀ s : State} (n : Nat)  (hk₀ : Keeps b₀ s) : Keeps b₀ (State.moor s n) := by
  unfold State.moor
  try dsimp only
  repeat' (first | (with_reducible first | assumption | apply keeps_ite | apply keeps_modId | apply keeps_upBt | apply keeps_dwellBroken | apply keeps_latch | apply keeps_openSession | apply keeps_modSe | apply keeps_logRecord | apply keeps_wake) | exact id | intro _ | assumption | split | (simp_all [BerthTable.ok, Lf.ok, CanBlk.ok, PierBlk.ok]; done) | dsimp only)

theorem keeps_identify {b₀ s : State} (n : Nat) (cred : BitVec 64) (gen : Option (BitVec 8))  (hk₀ : Keeps b₀ s) : Keeps b₀ (State.identify s n cred gen) := by
  unfold State.identify
  try dsimp only
  repeat' (first | (with_reducible first | assumption | apply keeps_ite | apply keeps_modId | apply keeps_castOff | apply keeps_lookup | apply keeps_deriveMember) | refine keeps_snd (by assumption) ?_ | refine keeps_fst (by assumption) ?_ | split | dsimp only)

theorem keeps_askNonce {b₀ s : State} (n : Nat)  (hk₀ : Keeps b₀ s) : Keeps b₀ (State.askNonce s n) := by
  unfold State.askNonce
  try dsimp only
  repeat' (first | (with_reducible first | assumption | apply keeps_modSe | apply keeps_request) | dsimp only)

theorem keeps_freeBerthAt {b₀ s : State} (n : Nat)  (hk₀ : Keeps b₀ s) : Keeps b₀ (State.freeBerthAt s n) := by
  unfold State.freeBerthAt
  try dsimp only
  repeat' (first | (with_reducible first | assumption | apply keeps_ite | apply keeps_dropSlot | apply keeps_releaseSid | apply keeps_upNb | apply keeps_upUwb | apply keeps_dropTagKey | apply keeps_upNfc | apply keeps_upTrng | apply keeps_upLf | apply keeps_challenge | apply keeps_modBerth | apply keeps_latch) | split | exact id | intro _ | assumption | split | (simp_all [BerthTable.ok, Lf.ok, CanBlk.ok, PierBlk.ok]; done) | dsimp only)

theorem keeps_freeCastOff {b₀ s : State} (l : List Nat)  (hk₀ : Keeps b₀ s) : Keeps b₀ (State.freeCastOff s l) := by
  unfold State.freeCastOff
  try dsimp only
  repeat' (first | (with_reducible first | assumption | intro _ | apply keeps_freeBerthAt | apply keeps_foldl) | dsimp only)

theorem ends_HailTimeout {b₀ s : State} (n : BitVec 8)  (hk₀ : Keeps b₀ s) : Ends b₀ (execHailTimeout n s) := by
  unfold execHailTimeout
  try dsimp only
  repeat' (first | (with_reducible first | assumption | apply ends_whenDo | apply ends_next | apply keeps_castOff) | refine keeps_snd (by assumption) ?_ | refine keeps_fst (by assumption) ?_ | dsimp only)

theorem ends_QuietTimeout {b₀ s : State} (n : BitVec 8)  (hk₀ : Keeps b₀ s) : Ends b₀ (execQuietTimeout n s) := by
  unfold execQuietTimeout
  try dsimp only
  repeat' (first | (with_reducible first | assumption | apply ends_whenDo | apply ends_next | apply keeps_castOff) | dsimp only)

theorem ends_FarTimeout {b₀ s : State} (n : BitVec 8)  (hk₀ : Keeps b₀ s) : Ends b₀ (execFarTimeout n s) := by
  unfold execFarTimeout
  try dsimp only
  repeat' (first | (with_reducible first | assumption | apply ends_whenDo | apply ends_next | apply keeps_castOff) | split | dsimp only)

theorem keeps_berthWrite {b₀ s : State} (a : Nat) (eff : State → State) (h_eff : ∀ x, Keeps b₀ x → Keeps b₀ (eff x)) (hk₀ : Keeps b₀ s) : Keeps b₀ (State.berthWrite s a eff) := by
  unfold State.berthWrite
  try dsimp only
  repeat' (first | (with_reducible first | assumption | intro _ | apply keeps_ite | apply keeps_farWrite | apply h_eff) | dsimp only)

theorem keeps_castWrite {b₀ s : State} (n : Nat) (v : BitVec 32)  (hk₀ : Keeps b₀ s) : Keeps b₀ (State.castWrite s n v) := by
  unfold State.castWrite
  try dsimp only
  repeat' (first | (with_reducible first | assumption | apply keeps_ite | apply keeps_castOff | apply keeps_notice) | dsimp only)

theorem ends_BerthCast {b₀ s : State} (n : BitVec 8) (v : BitVec 32)  (hk₀ : Keeps b₀ s) : Ends b₀ (execBerthCast n v s) := by
  unfold execBerthCast
  try dsimp only
  repeat' (first | (with_reducible first | assumption | intro _ | apply ends_whenDo | apply ends_next | apply keeps_berthWrite | apply keeps_castWrite) | dsimp only)

theorem keeps_bookLo {b₀ s : State} (v : BitVec 32)  (hk₀ : Keeps b₀ s) : Keeps b₀ (State.bookLo s v) := by
  unfold State.bookLo
  try dsimp only
  repeat' (first | (with_reducible first | assumption | apply keeps_upBt) | exact id | intro _ | assumption | split | (simp_all [BerthTable.ok, Lf.ok, CanBlk.ok, PierBlk.ok]; done) | dsimp only)

theorem ends_BookingLoWrite {b₀ s : State} (v : BitVec 32)  (hk₀ : Keeps b₀ s) : Ends b₀ (execBookingLoWrite v s) := by
  unfold execBookingLoWrite
  try dsimp only
  repeat' (first | (with_reducible first | assumption | intro _ | apply ends_whenDo | apply ends_next | apply keeps_berthWrite | apply keeps_bookLo) | dsimp only)

theorem keeps_bookHi {b₀ s : State} (v : BitVec 32)  (hk₀ : Keeps b₀ s) : Keeps b₀ (State.bookHi s v) := by
  unfold State.bookHi
  try dsimp only
  repeat' (first | (with_reducible first | assumption | apply keeps_ite | apply keeps_upBt | apply keeps_bookLo) | exact id | intro _ | assumption | split | (simp_all [BerthTable.ok, Lf.ok, CanBlk.ok, PierBlk.ok]; done) | dsimp only)

theorem ends_BookingHiWrite {b₀ s : State} (v : BitVec 32)  (hk₀ : Keeps b₀ s) : Ends b₀ (execBookingHiWrite v s) := by
  unfold execBookingHiWrite
  try dsimp only
  repeat' (first | (with_reducible first | assumption | intro _ | apply ends_whenDo | apply ends_next | apply keeps_berthWrite | apply keeps_bookHi) | dsimp only)

theorem keeps_evalStart {b₀ s : State} (left : Nat)  (hk₀ : Keeps b₀ s) : Keeps b₀ (State.evalStart s left) := by
  unfold State.evalStart
  try dsimp only
  repeat' (first | (with_reducible first | assumption | apply keeps_ite | apply keeps_upBt | apply keeps_issueTicket | apply keeps_latch | apply keeps_logRecord) | split | exact id | intro _ | assumption | split | (simp_all [BerthTable.ok, Lf.ok, CanBlk.ok, PierBlk.ok]; done) | dsimp only)

theorem keeps_startRequest {b₀ s : State} (at' : Nat)  (hk₀ : Keeps b₀ s) : Keeps b₀ (State.startRequest s at') := by
  unfold State.startRequest
  try dsimp only
  repeat' (first | (with_reducible first | assumption | apply keeps_ite | apply keeps_upBt | apply keeps_upLf | apply keeps_evalStart) | exact id | intro _ | assumption | split | (simp_all [BerthTable.ok, Lf.ok, CanBlk.ok, PierBlk.ok]; done) | dsimp only)

theorem keeps_startPublished {b₀ s : State}   (hk₀ : Keeps b₀ s) : Keeps b₀ (State.startPublished s) := by
  unfold State.startPublished
  try dsimp only
  repeat' (first | (with_reducible first | assumption | apply keeps_ite | apply keeps_evalStart) | dsimp only)

theorem keeps_startBoundary {b₀ s : State}   (hk₀ : Keeps b₀ s) : Keeps b₀ (State.startBoundary s) := by
  unfold State.startBoundary
  try dsimp only
  repeat' (first | (with_reducible first | assumption | apply keeps_ite | apply keeps_upBt | apply keeps_evalStart) | split | exact id | intro _ | assumption | split | (simp_all [BerthTable.ok, Lf.ok, CanBlk.ok, PierBlk.ok]; done) | dsimp only)

theorem ends_StartButtonPress {b₀ s : State} (mfp : BitVec 5)  (hk₀ : Keeps b₀ s) : Ends b₀ (execStartButtonPress mfp s) := by
  unfold execStartButtonPress
  try dsimp only
  repeat' (first | (with_reducible first | assumption | apply ends_whenDo | apply ends_next | apply keeps_wakeHere | apply keeps_upBt) | refine keeps_snd (by assumption) ?_ | refine keeps_fst (by assumption) ?_ | exact id | intro _ | assumption | split | (simp_all [BerthTable.ok, Lf.ok, CanBlk.ok, PierBlk.ok]; done) | dsimp only)

theorem keeps_startInput {b₀ s : State} (at' : Nat)  (hk₀ : Keeps b₀ s) : Keeps b₀ (State.startInput s at') := by
  unfold State.startInput
  try dsimp only
  repeat' (first | (with_reducible first | assumption | apply keeps_ite | apply keeps_report | apply keeps_startRequest) | dsimp only)

theorem ends_StartDebounceEnd {b₀ s : State} (mfp : BitVec 5)  (hk₀ : Keeps b₀ s) : Ends b₀ (execStartDebounceEnd mfp s) := by
  unfold execStartDebounceEnd
  try dsimp only
  repeat' (first | (with_reducible first | assumption | apply ends_whenDo | apply ends_next | apply keeps_upBt | apply keeps_startInput) | refine keeps_snd (by assumption) ?_ | refine keeps_fst (by assumption) ?_ | split | exact id | intro _ | assumption | split | (simp_all [BerthTable.ok, Lf.ok, CanBlk.ok, PierBlk.ok]; done) | dsimp only)

end Sys2Proof.Machine
end

