-- ==== Sys2Proof/Laws/KeepsFusion.lean ====
section
/-! SUPPORT. What the functions of Machine/Fusion.lean leave alone. -/

namespace Sys2Proof.Machine

set_option linter.all false

theorem keeps_measure {b₀ s : State} (n : Nat) (m : Meas)  (hk₀ : Keeps b₀ s) : Keeps b₀ (State.measure s n m) := by
  unfold State.measure
  try dsimp only
  repeat' (first | (with_reducible first | assumption | apply keeps_ite | apply keeps_modFu | apply keeps_unquiet) | dsimp only)

end Sys2Proof.Machine
end

