-- ==== Sys2Proof/Laws/KeepsCan.lean ====
section
/-! SUPPORT. What the functions of Machine/Can.lean leave alone. -/

namespace Sys2Proof.Machine

set_option linter.all false

theorem keeps_modObj {b₀ s : State} (n : Nat) (k : Nat) (f : MObj → MObj)  (hk₀ : Keeps b₀ s) : Keeps b₀ (State.modObj s n k f) := by
  unfold State.modObj
  try dsimp only
  repeat' (first | (with_reducible first | assumption | apply keeps_modCtl) | dsimp only)

theorem keeps_canEvent {b₀ s : State} (n : Nat) (b : Nat)  (hk₀ : Keeps b₀ s) : Keeps b₀ (State.canEvent s n b) := by
  unfold State.canEvent
  try dsimp only
  repeat' (first | (with_reducible first | assumption | apply keeps_modCtl | apply keeps_latchIf) | dsimp only)

theorem allocateCtls_length (l : List CanCtl) (n : Nat) : (allocateCtls l n).1.length = l.length := by
  induction l generalizing n with
  | nil => rfl
  | cons c l ih => simp [allocateCtls, ih]

theorem keeps_canConfigBoundary {b₀ s : State} (h : Keeps b₀ s) : Keeps b₀ s.canConfigBoundary :=
  keeps_upCan h fun c hc => by simpa [CanBlk.ok, allocateCtls_length] using hc

theorem keeps_endLoopback {b₀ s : State} (hk₀ : Keeps b₀ s) : Keeps b₀ s.endLoopback :=
  keeps_upCan hk₀ fun c hc => by simpa [CanBlk.ok] using hc

theorem keeps_canFilterBoundary {b₀ s : State}   (hk₀ : Keeps b₀ s) : Keeps b₀ (State.canFilterBoundary s) := by
  unfold State.canFilterBoundary
  try dsimp only
  repeat' (first | (with_reducible first | assumption | apply keeps_ite | apply keeps_upCan) | exact id | intro _ | assumption | split | (simp_all [BerthTable.ok, Lf.ok, CanBlk.ok, PierBlk.ok]; done) | dsimp only)

theorem keeps_canHeldBoundary {b₀ s : State}   (hk₀ : Keeps b₀ s) : Keeps b₀ (State.canHeldBoundary s) := by
  unfold State.canHeldBoundary
  try dsimp only
  repeat' (first | (with_reducible first | assumption | apply keeps_ite | apply keeps_upCan) | exact id | intro _ | assumption | split | (simp_all [BerthTable.ok, Lf.ok, CanBlk.ok, PierBlk.ok]; done) | dsimp only)

theorem keeps_canRunBoundary {b₀ s : State}   (hk₀ : Keeps b₀ s) : Keeps b₀ (State.canRunBoundary s) := by
  unfold State.canRunBoundary
  try dsimp only
  repeat' (first | (with_reducible first | assumption | apply keeps_ite | apply keeps_upCan) | exact id | intro _ | assumption | split | (simp_all [BerthTable.ok, Lf.ok, CanBlk.ok, PierBlk.ok]; done) | dsimp only)

theorem keeps_canOwners {b₀ s : State} (who : Nat → Bool)  (hk₀ : Keeps b₀ s) : Keeps b₀ (State.canOwners s who) := by
  unfold State.canOwners
  try dsimp only
  repeat' (first | (with_reducible first | assumption | apply keeps_ite | apply keeps_upCan) | exact id | intro _ | assumption | split | (simp_all [BerthTable.ok, Lf.ok, CanBlk.ok, PierBlk.ok]; done) | dsimp only)

theorem keeps_canWrite {b₀ s : State} (n : Nat) (a : Nat) (eff : State → State) (h_eff : ∀ x, Keeps b₀ x → Keeps b₀ (eff x)) (hk₀ : Keeps b₀ s) : Keeps b₀ (State.canWrite s n a eff) := by
  unfold State.canWrite
  try dsimp only
  repeat' (first | (with_reducible first | assumption | apply keeps_ite | apply keeps_notice | apply h_eff) | dsimp only)

theorem keeps_canRequest {b₀ s : State} (n : Nat) (k : Nat)  (hk₀ : Keeps b₀ s) : Keeps b₀ (State.canRequest s n k) := by
  unfold State.canRequest
  try dsimp only
  repeat' (first | (with_reducible first | assumption | apply keeps_ite | apply keeps_modObj) | dsimp only)

theorem keeps_canReq {b₀ s : State} (n : Nat) (k : Nat)  (hk₀ : Keeps b₀ s) : Keeps b₀ (State.canReq s n k) := by
  unfold State.canReq
  try dsimp only
  repeat' (first | (with_reducible first | assumption | apply keeps_ite | apply keeps_canRequest | apply keeps_notice) | dsimp only)

theorem ends_CanTxRequest {b₀ s : State} (n : BitVec 3) (k : BitVec 7)  (hk₀ : Keeps b₀ s) : Ends b₀ (execCanTxRequest n k s) := by
  unfold execCanTxRequest
  try dsimp only
  repeat' (first | (with_reducible first | assumption | intro _ | apply ends_whenDo | apply ends_next | apply keeps_farWrite | apply keeps_canReq) | dsimp only)

theorem keeps_canLoadObj {b₀ s : State} (n : Nat) (k : Nat)  (hk₀ : Keeps b₀ s) : Keeps b₀ (State.canLoadObj s n k) := by
  unfold State.canLoadObj
  try dsimp only
  repeat' (first | (with_reducible first | assumption | apply keeps_ite | apply keeps_modObj | apply keeps_notice) | dsimp only)

theorem ends_CanLoad {b₀ s : State} (n : BitVec 3) (k : BitVec 7)  (hk₀ : Keeps b₀ s) : Ends b₀ (execCanLoad n k s) := by
  unfold execCanLoad
  try dsimp only
  repeat' (first | (with_reducible first | assumption | intro _ | apply ends_whenDo | apply ends_next | apply keeps_farWrite | apply keeps_canLoadObj) | dsimp only)

theorem keeps_canCancelObj {b₀ s : State} (n : Nat) (k : Nat)  (hk₀ : Keeps b₀ s) : Keeps b₀ (State.canCancelObj s n k) := by
  unfold State.canCancelObj
  try dsimp only
  repeat' (first | (with_reducible first | assumption | intro _ | apply keeps_ite | apply keeps_canWrite | apply keeps_modObj) | dsimp only)

theorem ends_CanCancel {b₀ s : State} (n : BitVec 3) (k : BitVec 7)  (hk₀ : Keeps b₀ s) : Ends b₀ (execCanCancel n k s) := by
  unfold execCanCancel
  try dsimp only
  repeat' (first | (with_reducible first | assumption | intro _ | apply ends_whenDo | apply ends_next | apply keeps_farWrite | apply keeps_canCancelObj) | dsimp only)

theorem keeps_canAck {b₀ s : State} (n : Nat) (c : Nat)  (hk₀ : Keeps b₀ s) : Keeps b₀ (State.canAck s n c) := by
  unfold State.canAck
  try dsimp only
  repeat' (first | (with_reducible first | assumption | intro _ | apply keeps_canWrite | apply keeps_modObj | apply keeps_noticeIf) | dsimp only)

theorem ends_CanRxAck {b₀ s : State} (n : BitVec 3) (c : BitVec 32)  (hk₀ : Keeps b₀ s) : Ends b₀ (execCanRxAck n c s) := by
  unfold execCanRxAck
  try dsimp only
  repeat' (first | (with_reducible first | assumption | intro _ | apply ends_whenDo | apply ends_next | apply keeps_farWrite | apply keeps_canAck) | dsimp only)

theorem keeps_canCounters {b₀ s : State} (n : Nat) (tec : Nat) (rec : Nat)  (hk₀ : Keeps b₀ s) : Keeps b₀ (State.canCounters s n tec rec) := by
  unfold State.canCounters
  try dsimp only
  repeat' (first | (with_reducible first | assumption | apply keeps_ite | apply keeps_modCtl | apply keeps_canEvent) | dsimp only)

theorem ends_CanArbitrationStart {b₀ s : State} (n : BitVec 3)  (hk₀ : Keeps b₀ s) : Ends b₀ (execCanArbitrationStart n s) := by
  unfold execCanArbitrationStart
  try dsimp only
  repeat' (first | (with_reducible first | assumption | apply ends_whenDo | apply ends_next | apply keeps_ite | apply ends_ite | apply ends_lkArbitrates | apply keeps_modCtl | apply keeps_modObj) | split | dsimp only)

theorem keeps_canAccept {b₀ s : State} (n : Nat) (k : Nat) (e : CanEntry) (sof : Nat)  (hk₀ : Keeps b₀ s) : Keeps b₀ (State.canAccept s n k e sof) := by
  unfold State.canAccept
  try dsimp only
  repeat' (first | (with_reducible first | assumption | apply keeps_ite | apply keeps_modCtl | apply keeps_canEvent | apply keeps_modObj | apply keeps_startRequest) | split | dsimp only)

theorem keeps_canFilter {b₀ s : State} (n : Nat) (f : CanFrame) (sof : Nat)  (hk₀ : Keeps b₀ s) : Keeps b₀ (State.canFilter s n f sof) := by
  unfold State.canFilter
  try dsimp only
  repeat' (first | (with_reducible first | assumption | apply keeps_ite | apply keeps_modCtl | apply keeps_wakeHere | apply keeps_canAccept) | split | dsimp only)

theorem ends_CanFrameReceived {b₀ s : State} (n : BitVec 3) (frame : CanFrame) (sof : Nat)  (hk₀ : Keeps b₀ s) : Ends b₀ (execCanFrameReceived n frame sof s) := by
  unfold execCanFrameReceived
  try dsimp only
  repeat' (first | (with_reducible first | assumption | apply ends_whenDo | apply ends_next | apply keeps_ite | apply ends_ite | apply keeps_lkErrors | apply keeps_canCounters | apply keeps_canFilter) | dsimp only)

theorem ends_CanTxSuccess {b₀ s : State} (n : BitVec 3)  (hk₀ : Keeps b₀ s) : Ends b₀ (execCanTxSuccess n s) := by
  unfold execCanTxSuccess
  try dsimp only
  repeat' (first | (with_reducible first | assumption | apply ends_whenDo | apply ends_next | apply keeps_ite | apply ends_ite | apply ends_lkSent | apply keeps_modCtl | apply keeps_modObj | apply keeps_canEvent | apply keeps_canCounters | apply keeps_canFilter) | split | dsimp only)

theorem ends_CanTxAttemptFailed {b₀ s : State} (n : BitVec 3) (kind : BitVec 2)  (hk₀ : Keeps b₀ s) : Ends b₀ (execCanTxAttemptFailed n kind s) := by
  unfold execCanTxAttemptFailed
  try dsimp only
  repeat' (first | (with_reducible first | assumption | apply ends_whenDo | apply ends_next | apply keeps_ite | apply ends_ite | apply ends_lkFailed | apply keeps_modCtl | apply keeps_modObj | apply keeps_canEvent | apply keeps_canCounters) | split | dsimp only)

theorem ends_CanReceiveError {b₀ s : State} (n : BitVec 3) (inc : Bool)  (hk₀ : Keeps b₀ s) : Ends b₀ (execCanReceiveError n inc s) := by
  unfold execCanReceiveError
  try dsimp only
  repeat' (first | (with_reducible first | assumption | apply ends_whenDo | apply ends_next | apply keeps_ite | apply ends_ite | apply keeps_lkErrors | apply keeps_canCounters) | dsimp only)

theorem ends_CanBusOffRecovery {b₀ s : State} (n : BitVec 3)  (hk₀ : Keeps b₀ s) : Ends b₀ (execCanBusOffRecovery n s) := by
  unfold execCanBusOffRecovery
  try dsimp only
  repeat' (first | (with_reducible first | assumption | intro _ | apply ends_whenDo | apply ends_next | apply keeps_ite | apply ends_ite | apply keeps_modCtl | apply keeps_upLk | apply keeps_canCounters) | exact id | assumption | dsimp only)

theorem ends_CanBusIntegration {b₀ s : State} (n : BitVec 3)  (hk₀ : Keeps b₀ s) : Ends b₀ (execCanBusIntegration n s) := by
  unfold execCanBusIntegration
  try dsimp only
  repeat' (first | (with_reducible first | assumption | apply ends_whenDo | apply ends_next | apply keeps_modCtl) | dsimp only)

theorem ends_CanProtocolException {b₀ s : State} (n : BitVec 3)  (hk₀ : Keeps b₀ s) : Ends b₀ (execCanProtocolException n s) := by
  unfold execCanProtocolException
  try dsimp only
  repeat' (first | (with_reducible first | assumption | apply ends_whenDo | apply ends_next | apply keeps_modCtl) | dsimp only)

theorem ends_CanTransactTimeout {b₀ s : State} (n : BitVec 3) (k : BitVec 7) (tag : BitVec 8)  (hk₀ : Keeps b₀ s) : Ends b₀ (execCanTransactTimeout n k tag s) := by
  unfold execCanTransactTimeout
  try dsimp only
  repeat' (first | (with_reducible first | assumption | apply ends_whenDo | apply ends_next | apply keeps_modObj | apply keeps_canEvent) | dsimp only)

theorem keeps_canCfgWrite {b₀ s : State} (n : Nat) (k : Nat) (v : BitVec 32)  (hk₀ : Keeps b₀ s) : Keeps b₀ (State.canCfgWrite s n k v) := by
  unfold State.canCfgWrite
  try dsimp only
  repeat' (first | (with_reducible first | assumption | intro _ | apply keeps_canWrite | apply keeps_modObj | apply keeps_noticeIf) | dsimp only)

theorem keeps_canIdWrite {b₀ s : State} (n : Nat) (k : Nat) (v : BitVec 32)  (hk₀ : Keeps b₀ s) : Keeps b₀ (State.canIdWrite s n k v) := by
  unfold State.canIdWrite
  try dsimp only
  repeat' (first | (with_reducible first | assumption | intro _ | apply keeps_ite | apply keeps_canWrite | apply keeps_modObj | apply keeps_noticeIf) | dsimp only)

theorem keeps_canCtrlWrite {b₀ s : State} (n : Nat) (k : Nat) (v : BitVec 32)  (hk₀ : Keeps b₀ s) : Keeps b₀ (State.canCtrlWrite s n k v) := by
  unfold State.canCtrlWrite
  try dsimp only
  repeat' (first | (with_reducible first | assumption | intro _ | apply keeps_ite | apply keeps_canWrite | apply keeps_modObj | apply keeps_canLoadObj | apply keeps_canCancelObj | apply keeps_canReq | apply keeps_oneNotice | apply keeps_noticeIf) | dsimp only)

theorem keeps_canFiltCtrl {b₀ s : State} (n : Nat) (v : BitVec 32)  (hk₀ : Keeps b₀ s) : Keeps b₀ (State.canFiltCtrl s n v) := by
  unfold State.canFiltCtrl
  try dsimp only
  repeat' (first | (with_reducible first | assumption | intro _ | apply keeps_ite | apply keeps_canWrite | apply keeps_modCtl | apply keeps_noticeIf) | dsimp only)

theorem keeps_canModeWrite {b₀ s : State} (n : Nat) (v : BitVec 32)  (hk₀ : Keeps b₀ s) : Keeps b₀ (State.canModeWrite s n v) := by
  unfold State.canModeWrite
  try dsimp only
  repeat' (first | (with_reducible first | assumption | intro _ | apply keeps_ite | apply keeps_canWrite | apply keeps_modCtl | apply keeps_noticeIf) | dsimp only)

end Sys2Proof.Machine
end

