-- ==== Sys2Proof/Laws/KeepsVerdict.lean ====
section
/-! SUPPORT. What the functions of Machine/Verdict.lean leave alone. -/

namespace Sys2Proof.Machine

set_option linter.all false

theorem keeps_countAges {b₀ s : State} (p : Berth → Bool)  (hk₀ : Keeps b₀ s) : Keeps b₀ (State.countAges s p) := by
  unfold State.countAges
  try dsimp only
  repeat' (first | (with_reducible first | assumption | apply keeps_ite | apply keeps_upBt) | exact id | intro _ | assumption | split | (simp_all [BerthTable.ok, Lf.ok, CanBlk.ok, PierBlk.ok]; done) | dsimp only)

theorem keeps_verdictBoundary {b₀ s : State}   (hk₀ : Keeps b₀ s) : Keeps b₀ (State.verdictBoundary s) := by
  unfold State.verdictBoundary
  try dsimp only
  repeat' (first | (with_reducible first | assumption | apply keeps_ite | apply keeps_upBt | apply keeps_countAges | apply keeps_upVer) | exact id | intro _ | assumption | split | (simp_all [BerthTable.ok, Lf.ok, CanBlk.ok, PierBlk.ok]; done) | dsimp only)

theorem keeps_storeVerdict {b₀ s : State} (o : VerdictOut)  (hk₀ : Keeps b₀ s) : Keeps b₀ (State.storeVerdict s o) := by
  unfold State.storeVerdict
  try dsimp only
  repeat' (first | (with_reducible first | assumption | apply keeps_ite | apply keeps_upVer | apply keeps_modBerth) | dsimp only)

theorem keeps_latchPulse {b₀ s : State} (pin : Nat)  (hk₀ : Keeps b₀ s) : Keeps b₀ (State.latchPulse s pin) := by
  unfold State.latchPulse
  try dsimp only
  repeat' (first | (with_reducible first | assumption | apply keeps_ite | apply keeps_upPins) | refine keeps_snd (by assumption) ?_ | refine keeps_fst (by assumption) ?_ | dsimp only)

theorem keeps_act {b₀ s : State} (r : Rule)  (hk₀ : Keeps b₀ s) : Keeps b₀ (State.act s r) := by
  unfold State.act
  try dsimp only
  repeat' (first | (with_reducible first | assumption | apply keeps_ite | apply keeps_latchPulse | apply keeps_canRequest) | dsimp only)

theorem keeps_ruleAction {b₀ s : State} (r : Rule) (n : Nat)  (hk₀ : Keeps b₀ s) : Keeps b₀ (State.ruleAction s r n) := by
  unfold State.ruleAction
  try dsimp only
  repeat' (first | (with_reducible first | assumption | apply keeps_upPins | apply keeps_act | apply keeps_latch | apply keeps_logRecord) | dsimp only)

theorem ends_LatchPulseEnd {b₀ s : State} (mfp : BitVec 5)  (hk₀ : Keeps b₀ s) : Ends b₀ (execLatchPulseEnd mfp s) := by
  unfold execLatchPulseEnd
  try dsimp only
  repeat' (first | (with_reducible first | assumption | apply ends_whenDo | apply ends_next | apply keeps_upPins) | refine keeps_snd (by assumption) ?_ | refine keeps_fst (by assumption) ?_ | dsimp only)

theorem keeps_markRule {b₀ s : State} (r : Rule) (pub : List Nat) (hits : List Nat)  (hk₀ : Keeps b₀ s) : Keeps b₀ (State.markRule s r pub hits) := by
  unfold State.markRule
  try dsimp only
  repeat' (first | (with_reducible first | assumption | intro _ | apply keeps_ite | apply keeps_modFu | apply keeps_modSe | apply keeps_foldl) | dsimp only)

theorem keeps_evalRule {b₀ s : State} (pub : List Nat) (r : Rule)  (hk₀ : Keeps b₀ s) : Keeps b₀ (State.evalRule pub s r) := by
  unfold State.evalRule
  try dsimp only
  repeat' (first | (with_reducible first | assumption | apply keeps_markRule | apply keeps_ruleAction) | split | dsimp only)

theorem keeps_agedCommand {b₀ s : State} (n : Nat) (c : FobCmd)  (hk₀ : Keeps b₀ s) : Keeps b₀ (State.agedCommand s n c) := by
  unfold State.agedCommand
  try dsimp only
  repeat' (first | (with_reducible first | assumption | apply keeps_ite | apply keeps_logRecord | apply keeps_modSe) | dsimp only)

theorem keeps_ageCommands {b₀ s : State} (n : Nat)  (hk₀ : Keeps b₀ s) : Keeps b₀ (State.ageCommands s n) := by
  unfold State.ageCommands
  try dsimp only
  repeat' (first | (with_reducible first | assumption | intro _ | apply keeps_agedCommand | apply keeps_modSe | apply keeps_foldl) | dsimp only)

theorem keeps_fobCommand {b₀ s : State} (n : Nat) (cmd : BitVec 4)  (hk₀ : Keeps b₀ s) : Keeps b₀ (State.fobCommand s n cmd) := by
  unfold State.fobCommand
  try dsimp only
  repeat' (first | (with_reducible first | assumption | apply keeps_modSe) | dsimp only)

theorem keeps_publish {b₀ s : State}   (hk₀ : Keeps b₀ s) : Keeps b₀ (State.publish s) := by
  unfold State.publish
  try dsimp only
  repeat' (first | (with_reducible first | assumption | intro _ | apply keeps_storeVerdict | apply keeps_countAges | apply keeps_upVer | apply keeps_latchIf | apply keeps_upPins | apply keeps_evalRule | apply keeps_modFu | apply keeps_ageCommands | apply keeps_upBt | apply keeps_startPublished | apply keeps_regBackground | apply keeps_foldl) | split | exact id | intro _ | assumption | split | (simp_all [BerthTable.ok, Lf.ok, CanBlk.ok, PierBlk.ok]; done) | dsimp only)

theorem ends_VerdictPublication {b₀ s : State}   (hk₀ : Keeps b₀ s) : Ends b₀ (execVerdictPublication s) := by
  unfold execVerdictPublication
  try dsimp only
  repeat' (first | (with_reducible first | assumption | apply ends_whenDo | apply ends_next | apply keeps_publish) | dsimp only)

theorem keeps_ovrResult {b₀ s : State} (r : Nat)  (hk₀ : Keeps b₀ s) : Keeps b₀ (State.ovrResult s r) := by
  unfold State.ovrResult
  try dsimp only
  repeat' (first | (with_reducible first | assumption | apply keeps_upVer) | dsimp only)

theorem keeps_ovrVerify {b₀ s : State}   (hk₀ : Keeps b₀ s) : Keeps b₀ (State.ovrVerify s) := by
  unfold State.ovrVerify
  try dsimp only
  repeat' (first | (with_reducible first | assumption | apply keeps_ite | apply keeps_notice | apply keeps_upVer | apply keeps_verification) | dsimp only)

theorem ends_OvrVerify {b₀ s : State}   (hk₀ : Keeps b₀ s) : Ends b₀ (execOvrVerify s) := by
  unfold execOvrVerify
  try dsimp only
  repeat' (first | (with_reducible first | assumption | intro _ | apply ends_whenDo | apply ends_next | apply keeps_berthWrite | apply keeps_ovrVerify) | dsimp only)

theorem keeps_ovrDone {b₀ s : State}   (hk₀ : Keeps b₀ s) : Keeps b₀ (State.ovrDone s) := by
  unfold State.ovrDone
  try dsimp only
  repeat' (first | (with_reducible first | assumption | apply keeps_ite | apply keeps_kecDone | apply keeps_upCry | apply keeps_upVer | apply keeps_ovrResult | apply keeps_logRecord) | dsimp only)

theorem ends_OvrVerifyDone {b₀ s : State}   (hk₀ : Keeps b₀ s) : Ends b₀ (execOvrVerifyDone s) := by
  unfold execOvrVerifyDone
  try dsimp only
  repeat' (first | (with_reducible first | assumption | apply ends_whenDo | apply ends_next | apply keeps_ovrDone) | dsimp only)

theorem keeps_ovrUse {b₀ s : State} (cmd : Nat) (rule : BitVec 8)  (hk₀ : Keeps b₀ s) : Keeps b₀ (State.ovrUse s cmd rule) := by
  unfold State.ovrUse
  try dsimp only
  repeat' (first | (with_reducible first | assumption | apply keeps_ite | apply keeps_logRecord | apply keeps_upVer) | dsimp only)

theorem keeps_ovrFire {b₀ s : State}  (eff : State → State) (h_eff : ∀ x, Keeps b₀ x → Keeps b₀ (eff x)) (hk₀ : Keeps b₀ s) : Keeps b₀ (State.ovrFire s eff) := by
  unfold State.ovrFire
  try dsimp only
  repeat' (first | (with_reducible first | assumption | apply keeps_ovrResult | apply keeps_notice | apply h_eff) | split | dsimp only)

theorem keeps_fireRule {b₀ s : State} (rule : BitVec 8)  (hk₀ : Keeps b₀ s) : Keeps b₀ (State.fireRule s rule) := by
  unfold State.fireRule
  try dsimp only
  repeat' (first | (with_reducible first | assumption | intro _ | apply keeps_ovrFire | apply keeps_ovrResult | apply keeps_act | apply keeps_latch | apply keeps_ovrUse) | split | dsimp only)

theorem ends_FireRule {b₀ s : State} (rule : BitVec 8)  (hk₀ : Keeps b₀ s) : Ends b₀ (execFireRule rule s) := by
  unfold execFireRule
  try dsimp only
  repeat' (first | (with_reducible first | assumption | intro _ | apply ends_whenDo | apply ends_next | apply keeps_berthWrite | apply keeps_fireRule) | dsimp only)

theorem keeps_fireStart {b₀ s : State}   (hk₀ : Keeps b₀ s) : Keeps b₀ (State.fireStart s) := by
  unfold State.fireStart
  try dsimp only
  repeat' (first | (with_reducible first | assumption | intro _ | apply keeps_ite | apply keeps_ovrFire | apply keeps_notice | apply keeps_ovrResult | apply keeps_issueTicket | apply keeps_ovrUse) | dsimp only)

theorem ends_FireStart {b₀ s : State}   (hk₀ : Keeps b₀ s) : Ends b₀ (execFireStart s) := by
  unfold execFireStart
  try dsimp only
  repeat' (first | (with_reducible first | assumption | intro _ | apply ends_whenDo | apply ends_next | apply keeps_berthWrite | apply keeps_fireStart) | dsimp only)

theorem keeps_ovrDiscard {b₀ s : State}   (hk₀ : Keeps b₀ s) : Keeps b₀ (State.ovrDiscard s) := by
  unfold State.ovrDiscard
  try dsimp only
  repeat' (first | (with_reducible first | assumption | apply keeps_ite | apply keeps_upVer) | dsimp only)

theorem keeps_ovrCancel {b₀ s : State}   (hk₀ : Keeps b₀ s) : Keeps b₀ (State.ovrCancel s) := by
  unfold State.ovrCancel
  try dsimp only
  repeat' (first | (with_reducible first | assumption | apply keeps_ite | apply keeps_ovrDiscard | apply keeps_notice) | dsimp only)

theorem ends_OvrCancel {b₀ s : State}   (hk₀ : Keeps b₀ s) : Ends b₀ (execOvrCancel s) := by
  unfold execOvrCancel
  try dsimp only
  repeat' (first | (with_reducible first | assumption | intro _ | apply ends_whenDo | apply ends_next | apply keeps_berthWrite | apply keeps_ovrCancel) | dsimp only)

theorem ends_OvrNewNonce {b₀ s : State}   (hk₀ : Keeps b₀ s) : Ends b₀ (execOvrNewNonce s) := by
  unfold execOvrNewNonce
  try dsimp only
  repeat' (first | (with_reducible first | assumption | intro _ | apply ends_whenDo | apply ends_next | apply keeps_berthWrite | apply keeps_request) | dsimp only)

theorem ends_OvrWindowEnd {b₀ s : State}   (hk₀ : Keeps b₀ s) : Ends b₀ (execOvrWindowEnd s) := by
  unfold execOvrWindowEnd
  try dsimp only
  repeat' (first | (with_reducible first | assumption | apply ends_whenDo | apply ends_next | apply keeps_ovrDiscard | apply keeps_ovrResult) | dsimp only)

theorem keeps_ovrCommand {b₀ s : State} (v : BitVec 32)  (hk₀ : Keeps b₀ s) : Keeps b₀ (State.ovrCommand s v) := by
  unfold State.ovrCommand
  try dsimp only
  repeat' (first | (with_reducible first | assumption | apply keeps_ovrVerify | apply keeps_fireRule | apply keeps_fireStart | apply keeps_ovrCancel | apply keeps_request | apply keeps_notice) | split | dsimp only)

theorem keeps_vselWrite {b₀ s : State} (v : BitVec 32)  (hk₀ : Keeps b₀ s) : Keeps b₀ (State.vselWrite s v) := by
  unfold State.vselWrite
  try dsimp only
  repeat' (first | (with_reducible first | assumption | apply keeps_upVer) | dsimp only)

theorem ends_VselWrite {b₀ s : State} (v : BitVec 32)  (hk₀ : Keeps b₀ s) : Ends b₀ (execVselWrite v s) := by
  unfold execVselWrite
  try dsimp only
  repeat' (first | (with_reducible first | assumption | intro _ | apply ends_whenDo | apply ends_next | apply keeps_berthWrite | apply keeps_vselWrite) | dsimp only)

end Sys2Proof.Machine
end

