-- ==== Sys2Proof/Laws/KeepsLf.lean ====
section
/-! SUPPORT. What the functions of Machine/Lf.lean leave alone. -/

namespace Sys2Proof.Machine

set_option linter.all false

theorem keeps_modDrivers {b₀ s : State} (f : Nat → LfDriver → LfDriver) (h : Keeps b₀ s) : Keeps b₀ (s.modDrivers f) := by
  unfold State.modDrivers
  dsimp only
  refine keeps_latchIf _ _ ⟨h.pending, h.ident, h.now, h.clock, fun x => ?_, h.starts⟩
  obtain ⟨h1, h2, h3, h4, h5, h6⟩ := (sound_iff s).1 (h.sound x)
  exact (sound_iff _).2 ⟨h1, h2, h3, by simpa [Lf.ok] using h4, h5, h6⟩

theorem keeps_bankSwitch {b₀ s : State}   (hk₀ : Keeps b₀ s) : Keeps b₀ (State.bankSwitch s) := by
  unfold State.bankSwitch
  try dsimp only
  repeat' (first | (with_reducible first | assumption | apply keeps_ite | apply keeps_upLf) | exact id | intro _ | assumption | split | (simp_all [BerthTable.ok, Lf.ok, CanBlk.ok, PierBlk.ok]; done) | dsimp only)

theorem keeps_lfTake {b₀ s : State} (w : LfWork)  (hk₀ : Keeps b₀ s) : Keeps b₀ (State.lfTake s w) := by
  unfold State.lfTake
  try dsimp only
  repeat' (first | (with_reducible first | assumption | apply keeps_upLf | apply keeps_upTend) | exact id | intro _ | assumption | split | (simp_all [BerthTable.ok, Lf.ok, CanBlk.ok, PierBlk.ok]; done) | dsimp only)

theorem keeps_pollSent {b₀ s : State} (n : Nat)  (hk₀ : Keeps b₀ s) : Keeps b₀ (State.pollSent s n) := by
  unfold State.pollSent
  try dsimp only
  repeat' (first | (with_reducible first | assumption | apply keeps_ite | apply keeps_modBlf | apply keeps_report) | dsimp only)

theorem keeps_openWindow {b₀ s : State} (m : BitVec 16) (t : Nat)  (hk₀ : Keeps b₀ s) : Keeps b₀ (State.openWindow s m t) := by
  unfold State.openWindow
  try dsimp only
  repeat' (first | (with_reducible first | assumption | apply keeps_upLf) | exact id | intro _ | assumption | split | (simp_all [BerthTable.ok, Lf.ok, CanBlk.ok, PierBlk.ok]; done) | dsimp only)

theorem keeps_lfSend {b₀ s : State} (w : LfWork)  (hk₀ : Keeps b₀ s) : Keeps b₀ (State.lfSend s w) := by
  unfold State.lfSend
  try dsimp only
  repeat' (first | (with_reducible first | assumption | apply keeps_ite | apply keeps_pollSent | apply keeps_openWindow | apply keeps_upLf) | exact id | intro _ | assumption | split | (simp_all [BerthTable.ok, Lf.ok, CanBlk.ok, PierBlk.ok]; done) | dsimp only)

theorem keeps_lfStart {b₀ s : State} (w : LfWork)  (hk₀ : Keeps b₀ s) : Keeps b₀ (State.lfStart s w) := by
  unfold State.lfStart
  try dsimp only
  repeat' (first | (with_reducible first | assumption | apply keeps_ite | apply keeps_lfTake | apply keeps_upLf | apply keeps_lfSend) | exact id | intro _ | assumption | split | (simp_all [BerthTable.ok, Lf.ok, CanBlk.ok, PierBlk.ok]; done) | dsimp only)

theorem ends_LfFrameStart {b₀ s : State}   (hk₀ : Keeps b₀ s) : Ends b₀ (execLfFrameStart s) := by
  unfold execLfFrameStart
  try dsimp only
  repeat' (first | (with_reducible first | assumption | apply ends_whenDo | apply ends_next | apply keeps_lfStart) | split | dsimp only)

theorem keeps_lfCalStart {b₀ s : State}   (hk₀ : Keeps b₀ s) : Keeps b₀ (State.lfCalStart s) := by
  unfold State.lfCalStart
  try dsimp only
  repeat' (first | (with_reducible first | assumption | apply keeps_ite | apply keeps_upLf) | exact id | intro _ | assumption | split | (simp_all [BerthTable.ok, Lf.ok, CanBlk.ok, PierBlk.ok]; done) | dsimp only)

theorem keeps_senseDrivers {b₀ s : State} (l : List Nat) (senses : List LfSense)  (hk₀ : Keeps b₀ s) : Keeps b₀ (State.senseDrivers s l senses) := by
  unfold State.senseDrivers
  try dsimp only
  repeat' (first | (with_reducible first | assumption | apply keeps_modDrivers) | split | dsimp only)

theorem keeps_reportDrivers {b₀ s : State} (n : Option Nat) (l : List LfSense)  (hk₀ : Keeps b₀ s) : Keeps b₀ (State.reportDrivers s n l) := by
  unfold State.reportDrivers
  try dsimp only
  repeat' (first | (with_reducible first | assumption | apply keeps_ite | apply keeps_pierPost) | refine keeps_snd (by assumption) ?_ | refine keeps_fst (by assumption) ?_ | split | dsimp only)

theorem keeps_frameAfter {b₀ s : State} (w : LfWork) (l : List LfSense)  (hk₀ : Keeps b₀ s) : Keeps b₀ (State.frameAfter s w l) := by
  unfold State.frameAfter
  try dsimp only
  repeat' (first | (with_reducible first | assumption | apply keeps_ite | apply keeps_upLf | apply keeps_challenge | apply keeps_modBlf | apply keeps_openWindow) | split | exact id | intro _ | assumption | split | (simp_all [BerthTable.ok, Lf.ok, CanBlk.ok, PierBlk.ok]; done) | dsimp only)

theorem keeps_tenderAfter {b₀ s : State} (w : LfWork) (l : List LfSense)  (hk₀ : Keeps b₀ s) : Keeps b₀ (State.tenderAfter s w l) := by
  unfold State.tenderAfter
  try dsimp only
  repeat' (first | (with_reducible first | assumption | apply keeps_ite | apply keeps_reportDrivers) | dsimp only)

theorem ends_LfPatternEnd {b₀ s : State} (senses : List LfSense)  (hk₀ : Keeps b₀ s) : Ends b₀ (execLfPatternEnd senses s) := by
  unfold execLfPatternEnd
  try dsimp only
  repeat' (first | (with_reducible first | assumption | apply ends_whenDo | apply ends_next | apply keeps_ite | apply ends_ite | apply keeps_senseDrivers | apply keeps_upLf | apply keeps_tenderAfter | apply keeps_frameAfter | apply keeps_bankSwitch | apply keeps_lfCalStart) | split | exact id | intro _ | assumption | split | (simp_all [BerthTable.ok, Lf.ok, CanBlk.ok, PierBlk.ok]; done) | dsimp only)

theorem keeps_cutAt {b₀ s : State} (t : Nat)  (hk₀ : Keeps b₀ s) : Keeps b₀ (State.cutAt s t) := by
  unfold State.cutAt
  try dsimp only
  repeat' (first | (with_reducible first | assumption | apply keeps_ite | apply keeps_upLf) | split | exact id | intro _ | assumption | split | (simp_all [BerthTable.ok, Lf.ok, CanBlk.ok, PierBlk.ok]; done) | dsimp only)

theorem keeps_cutPattern {b₀ s : State}   (hk₀ : Keeps b₀ s) : Keeps b₀ (State.cutPattern s) := by
  unfold State.cutPattern
  try dsimp only
  repeat' (first | (with_reducible first | assumption | apply keeps_ite | apply keeps_cutAt | apply keeps_cutTenders) | split | dsimp only)

theorem keeps_logTouch {b₀ s : State} (zone : Nat)  (hk₀ : Keeps b₀ s) : Keeps b₀ (State.logTouch s zone) := by
  unfold State.logTouch
  try dsimp only
  repeat' (first | (with_reducible first | assumption | apply keeps_logRecord) | refine keeps_snd (by assumption) ?_ | refine keeps_fst (by assumption) ?_ | dsimp only)

theorem keeps_handleFrame {b₀ s : State} (zone : Nat)  (hk₀ : Keeps b₀ s) : Keeps b₀ (State.handleFrame s zone) := by
  unfold State.handleFrame
  try dsimp only
  repeat' (first | (with_reducible first | assumption | apply keeps_ite | apply keeps_logTouch | apply keeps_lfQueue) | dsimp only)

theorem keeps_touched {b₀ s : State} (zone : Nat)  (hk₀ : Keeps b₀ s) : Keeps b₀ (State.touched s zone) := by
  unfold State.touched
  try dsimp only
  repeat' (first | (with_reducible first | assumption | apply keeps_wake | apply keeps_cutPattern | apply keeps_handleFrame) | dsimp only)

theorem ends_HandleTouch {b₀ s : State} (mfp : BitVec 5)  (hk₀ : Keeps b₀ s) : Ends b₀ (execHandleTouch mfp s) := by
  unfold execHandleTouch
  try dsimp only
  repeat' (first | (with_reducible first | assumption | apply ends_whenDo | apply ends_next | apply keeps_ite | apply ends_ite | apply keeps_upTide | apply keeps_report | apply keeps_touched) | (intro _; rfl) | rfl | (intro _; repeat' split; all_goals rfl) | dsimp only)

theorem ends_LfPollingPattern {b₀ s : State}   (hk₀ : Keeps b₀ s) : Ends b₀ (execLfPollingPattern s) := by
  unfold execLfPollingPattern
  try dsimp only
  repeat' (first | (with_reducible first | assumption | apply ends_whenDo | apply ends_next | apply keeps_ite | apply ends_ite | apply keeps_upTide | apply keeps_lfQueue) | split | (intro _; rfl) | rfl | (intro _; repeat' split; all_goals rfl) | dsimp only)

theorem ends_UhfSniff {b₀ s : State}   (hk₀ : Keeps b₀ s) : Ends b₀ (execUhfSniff s) := by
  unfold execUhfSniff
  try dsimp only
  repeat' (first | (with_reducible first | assumption | apply ends_whenDo | apply ends_next | apply keeps_upTide) | (intro _; rfl) | rfl | (intro _; repeat' split; all_goals rfl) | dsimp only)

theorem keeps_lfCtrl {b₀ s : State} (v : BitVec 32)  (hk₀ : Keeps b₀ s) : Keeps b₀ (State.lfCtrl s v) := by
  unfold State.lfCtrl
  try dsimp only
  repeat' (first | (with_reducible first | assumption | apply keeps_ite | apply keeps_upLf) | exact id | intro _ | assumption | split | (simp_all [BerthTable.ok, Lf.ok, CanBlk.ok, PierBlk.ok]; done) | dsimp only)

theorem ends_LfCal {b₀ s : State}   (hk₀ : Keeps b₀ s) : Ends b₀ (execLfCal s) := by
  unfold execLfCal
  try dsimp only
  repeat' (first | (with_reducible first | assumption | intro _ | apply ends_whenDo | apply ends_next | apply keeps_farWrite | apply keeps_lfCtrl) | dsimp only)

theorem ends_ClrIdle {b₀ s : State}   (hk₀ : Keeps b₀ s) : Ends b₀ (execClrIdle s) := by
  unfold execClrIdle
  try dsimp only
  repeat' (first | (with_reducible first | assumption | intro _ | apply ends_whenDo | apply ends_next | apply keeps_farWrite | apply keeps_lfCtrl) | dsimp only)

theorem ends_LfCalibrationDone {b₀ s : State} (results : List LfCal)  (hk₀ : Keeps b₀ s) : Ends b₀ (execLfCalibrationDone results s) := by
  unfold execLfCalibrationDone
  try dsimp only
  repeat' (first | (with_reducible first | assumption | apply ends_whenDo | apply ends_next | apply keeps_ite | apply ends_ite | apply keeps_modDrivers | apply keeps_upLf | apply keeps_reportDrivers | apply keeps_bankSwitch | apply keeps_lfCalStart) | split | exact id | intro _ | assumption | split | (simp_all [BerthTable.ok, Lf.ok, CanBlk.ok, PierBlk.ok]; done) | dsimp only)

theorem ends_DriverTrip {b₀ s : State} (d : BitVec 4)  (hk₀ : Keeps b₀ s) : Ends b₀ (execDriverTrip d s) := by
  unfold execDriverTrip
  try dsimp only
  repeat' (first | (with_reducible first | assumption | apply ends_whenDo | apply ends_next | apply keeps_ite | apply ends_ite | apply keeps_modDrivers | apply keeps_reportDrivers) | dsimp only)

theorem keeps_vlfSensed {b₀ s : State} (v : BitVec 12)  (hk₀ : Keeps b₀ s) : Keeps b₀ (State.vlfSensed s v) := by
  unfold State.vlfSensed
  try dsimp only
  repeat' (first | (with_reducible first | assumption | apply keeps_ite | apply keeps_upLf | apply keeps_latchIf) | exact id | intro _ | assumption | split | (simp_all [BerthTable.ok, Lf.ok, CanBlk.ok, PierBlk.ok]; done) | dsimp only)

theorem ends_VlfLow {b₀ s : State} (mv : BitVec 12)  (hk₀ : Keeps b₀ s) : Ends b₀ (execVlfLow mv s) := by
  unfold execVlfLow
  try dsimp only
  repeat' (first | (with_reducible first | assumption | apply ends_whenDo | apply ends_next | apply keeps_vlfSensed) | dsimp only)

theorem keeps_vlfBoundary {b₀ s : State} (v : BitVec 12)  (hk₀ : Keeps b₀ s) : Keeps b₀ (State.vlfBoundary s v) := by
  unfold State.vlfBoundary
  try dsimp only
  repeat' (first | (with_reducible first | assumption | apply keeps_ite | apply keeps_vlfSensed | apply keeps_upLf | apply keeps_latchIf) | split | exact id | intro _ | assumption | split | (simp_all [BerthTable.ok, Lf.ok, CanBlk.ok, PierBlk.ok]; done) | dsimp only)

theorem keeps_placePolls {b₀ s : State} (l : List Nat) (t : Nat) (h : Keeps b₀ s) : Keeps b₀ (State.placePolls l t s) := by
  induction l generalizing s t with
  | nil => exact h
  | cons n l ih =>
    unfold State.placePolls
    split
    · exact ih _ (keeps_lfQueue _ h)
    · exact ih _ h

theorem keeps_schedulePolls {b₀ s : State}   (hk₀ : Keeps b₀ s) : Keeps b₀ (State.schedulePolls s) := by
  unfold State.schedulePolls
  try dsimp only
  repeat' (first | (with_reducible first | assumption | apply keeps_ite | apply keeps_placePolls | apply keeps_upLf) | exact id | intro _ | assumption | split | (simp_all [BerthTable.ok, Lf.ok, CanBlk.ok, PierBlk.ok]; done) | dsimp only)

theorem keeps_pollsEnded {b₀ s : State}   (hk₀ : Keeps b₀ s) : Keeps b₀ (State.pollsEnded s) := by
  unfold State.pollsEnded
  try dsimp only
  repeat' (first | (with_reducible first | assumption | intro _ | apply keeps_modBlf | apply keeps_foldl) | dsimp only)

theorem keeps_lfBoundary {b₀ s : State}   (hk₀ : Keeps b₀ s) : Keeps b₀ (State.lfBoundary s) := by
  unfold State.lfBoundary
  try dsimp only
  repeat' (first | (with_reducible first | assumption | apply keeps_ite | apply keeps_upLf | apply keeps_request | apply keeps_bankSwitch | apply keeps_lfCalStart) | exact id | intro _ | assumption | split | (simp_all [BerthTable.ok, Lf.ok, CanBlk.ok, PierBlk.ok]; done) | dsimp only)

end Sys2Proof.Machine
end

