-- ==== Sys2Proof/Laws/KeepsFob.lean ====
section
/-! SUPPORT. What the functions of Machine/Fob.lean leave alone. -/

namespace Sys2Proof.Machine

set_option linter.all false

theorem keeps_cacheCounter {b₀ s : State} (fob : BitVec 64) (c : BitVec 32)  (hk₀ : Keeps b₀ s) : Keeps b₀ (State.cacheCounter s fob c) := by
  unfold State.cacheCounter
  try dsimp only
  repeat' (first | (with_reducible first | assumption | apply keeps_upLf) | exact id | intro _ | assumption | split | (simp_all [BerthTable.ok, Lf.ok, CanBlk.ok, PierBlk.ok]; done) | dsimp only)

theorem keeps_acceptedTelegram {b₀ s : State} (fob : BitVec 64) (c : BitVec 32)  (hk₀ : Keeps b₀ s) : Keeps b₀ (State.acceptedTelegram s fob c) := by
  unfold State.acceptedTelegram
  try dsimp only
  repeat' (first | (with_reducible first | assumption | apply keeps_upLf) | refine keeps_snd (by assumption) ?_ | refine keeps_fst (by assumption) ?_ | exact id | intro _ | assumption | split | (simp_all [BerthTable.ok, Lf.ok, CanBlk.ok, PierBlk.ok]; done) | dsimp only)

theorem keeps_betterSighting {b₀ s : State} (n : Nat) (anchor : BitVec 6) (stamp : Nat)  (hk₀ : Keeps b₀ s) : Keeps b₀ (State.betterSighting s n anchor stamp) := by
  unfold State.betterSighting
  try dsimp only
  repeat' (first | (with_reducible first | assumption | apply keeps_ite | apply keeps_modId) | refine keeps_snd (by assumption) ?_ | refine keeps_fst (by assumption) ?_ | dsimp only)

theorem keeps_castIdle {b₀ s : State} (n : Nat) (fob : BitVec 64)  (hk₀ : Keeps b₀ s) : Keeps b₀ (State.castIdle s n fob) := by
  unfold State.castIdle
  try dsimp only
  repeat' (first | (with_reducible first | assumption | apply keeps_modId | apply keeps_castOff | apply keeps_upLf) | exact id | intro _ | assumption | split | (simp_all [BerthTable.ok, Lf.ok, CanBlk.ok, PierBlk.ok]; done) | dsimp only)

theorem keeps_sightAnswer {b₀ s : State} (m : BitVec 16) (anchor : BitVec 6) (stamp : Nat) (fob : BitVec 64) (idleOut : Bool)  (hk₀ : Keeps b₀ s) : Keeps b₀ (State.sightAnswer s m anchor stamp fob idleOut) := by
  unfold State.sightAnswer
  try dsimp only
  repeat' (first | (with_reducible first | assumption | apply keeps_ite | apply keeps_sight | apply keeps_modBlf | apply keeps_castIdle | apply keeps_identify | apply keeps_askNonce) | refine keeps_snd (by assumption) ?_ | refine keeps_fst (by assumption) ?_ | split | dsimp only)

theorem keeps_wakeAnswered {b₀ s : State} (m : BitVec 16) (anchor : BitVec 6) (stamp : Nat) (b : Bytes)  (hk₀ : Keeps b₀ s) : Keeps b₀ (State.wakeAnswered s m anchor stamp b) := by
  unfold State.wakeAnswered
  try dsimp only
  repeat' (first | (with_reducible first | assumption | apply keeps_ite | apply keeps_upLf | apply keeps_unquiet | apply keeps_betterSighting | apply keeps_sightAnswer) | refine keeps_snd (by assumption) ?_ | refine keeps_fst (by assumption) ?_ | split | exact id | intro _ | assumption | split | (simp_all [BerthTable.ok, Lf.ok, CanBlk.ok, PierBlk.ok]; done) | dsimp only)

theorem keeps_deliverAnswers {b₀ s : State} (m : BitVec 16) (seen l : List (BitVec 6 × Nat × Bytes)) (h : Keeps b₀ s) :
    Keeps b₀ (State.deliverAnswers m seen l s) := by
  induction l generalizing s seen with
  | nil => exact h
  | cons x l ih =>
    unfold State.deliverAnswers
    apply ih
    repeat' (first | assumption | apply keeps_betterSighting | apply keeps_wakeAnswered | split)

theorem keeps_answerHeard {b₀ s : State} (again : Bool) (anchor : BitVec 6) (stamp : Nat) (b : Bytes)  (hk₀ : Keeps b₀ s) : Keeps b₀ (State.answerHeard s again anchor stamp b) := by
  unfold State.answerHeard
  try dsimp only
  repeat' (first | (with_reducible first | assumption | apply keeps_ite | apply keeps_upLf | apply keeps_deliverAnswers) | refine keeps_snd (by assumption) ?_ | refine keeps_fst (by assumption) ?_ | split | exact id | intro _ | assumption | split | (simp_all [BerthTable.ok, Lf.ok, CanBlk.ok, PierBlk.ok]; done) | dsimp only)

theorem keeps_badFrame {b₀ s : State} (stamp : Nat)  (hk₀ : Keeps b₀ s) : Keeps b₀ (State.badFrame s stamp) := by
  unfold State.badFrame
  try dsimp only
  repeat' (first | (with_reducible first | assumption | apply keeps_ite | apply keeps_upLf) | exact id | intro _ | assumption | split | (simp_all [BerthTable.ok, Lf.ok, CanBlk.ok, PierBlk.ok]; done) | dsimp only)

theorem keeps_closeWindow {b₀ s : State} (f : Fallback) (next : Option Nat)  (hk₀ : Keeps b₀ s) : Keeps b₀ (State.closeWindow s f next) := by
  unfold State.closeWindow
  try dsimp only
  repeat' (first | (with_reducible first | assumption | apply keeps_ite | apply keeps_upLf | apply keeps_deliverAnswers | apply keeps_request) | split | exact id | intro _ | assumption | split | (simp_all [BerthTable.ok, Lf.ok, CanBlk.ok, PierBlk.ok]; done) | dsimp only)

theorem ends_AnswerWindowClose {b₀ s : State} (air : AirHeard)  (hk₀ : Keeps b₀ s) : Ends b₀ (execAnswerWindowClose air s) := by
  unfold execAnswerWindowClose
  try dsimp only
  repeat' (first | (with_reducible first | assumption | apply ends_whenDo | apply ends_next | apply keeps_ite | apply ends_ite | apply keeps_upLf | apply keeps_latch | apply keeps_closeWindow) | split | exact id | intro _ | assumption | split | (simp_all [BerthTable.ok, Lf.ok, CanBlk.ok, PierBlk.ok]; done) | dsimp only)

theorem ends_SlottedRoundClose {b₀ s : State} (air : AirHeard)  (hk₀ : Keeps b₀ s) : Ends b₀ (execSlottedRoundClose air s) := by
  unfold execSlottedRoundClose
  try dsimp only
  repeat' (first | (with_reducible first | assumption | apply ends_whenDo | apply ends_next | apply keeps_ite | apply ends_ite | apply keeps_upLf | apply keeps_closeWindow | apply keeps_latch) | split | exact id | intro _ | assumption | split | (simp_all [BerthTable.ok, Lf.ok, CanBlk.ok, PierBlk.ok]; done) | dsimp only)

theorem keeps_responseValid {b₀ s : State} (n : Nat) (fob : BitVec 64) (c : BitVec 32)  (hk₀ : Keeps b₀ s) : Keeps b₀ (State.responseValid s n fob c) := by
  unfold State.responseValid
  try dsimp only
  repeat' (first | (with_reducible first | assumption | apply keeps_cacheCounter | apply keeps_modSe | apply keeps_moor | apply keeps_acceptedTelegram | apply keeps_fobCommand) | split | dsimp only)

theorem keeps_responseKept {b₀ s : State} (n : Nat) (fob : BitVec 64) (c : BitVec 32)  (hk₀ : Keeps b₀ s) : Keeps b₀ (State.responseKept s n fob c) := by
  unfold State.responseKept
  try dsimp only
  repeat' (first | (with_reducible first | assumption | apply keeps_ite | apply keeps_cacheCounter | apply keeps_modSe | apply keeps_acceptedTelegram | apply keeps_fobCommand) | split | dsimp only)

theorem keeps_responded {b₀ s : State} (b : Bytes)  (hk₀ : Keeps b₀ s) : Keeps b₀ (State.responded s b) := by
  unfold State.responded
  try dsimp only
  repeat' (first | (with_reducible first | assumption | intro _ | apply keeps_ite | apply keeps_withKey | apply keeps_responseValid | apply keeps_castOff | apply keeps_responseKept) | split | dsimp only)

theorem keeps_telegramRejected {b₀ s : State} (n : Nat) (mac : Bool)  (hk₀ : Keeps b₀ s) : Keeps b₀ (State.telegramRejected s n mac) := by
  unfold State.telegramRejected
  try dsimp only
  repeat' (first | (with_reducible first | assumption | apply keeps_ite | apply keeps_castOff | apply keeps_upLf | apply keeps_latch) | exact id | intro _ | assumption | split | (simp_all [BerthTable.ok, Lf.ok, CanBlk.ok, PierBlk.ok]; done) | dsimp only)

theorem keeps_telegramAccepted {b₀ s : State} (n : Nat) (fob : BitVec 64) (c : BitVec 32) (cmd : BitVec 4)  (hk₀ : Keeps b₀ s) : Keeps b₀ (State.telegramAccepted s n fob c cmd) := by
  unfold State.telegramAccepted
  try dsimp only
  repeat' (first | (with_reducible first | assumption | apply keeps_ite | apply keeps_cacheCounter | apply keeps_acceptedTelegram | apply keeps_modSe | apply keeps_moor | apply keeps_fobCommand) | dsimp only)

theorem keeps_judgeCounter {b₀ s : State} (n : Nat) (b : Bytes)  (hk₀ : Keeps b₀ s) : Keeps b₀ (State.judgeCounter s n b) := by
  unfold State.judgeCounter
  try dsimp only
  repeat' (first | (with_reducible first | assumption | apply keeps_ite | apply keeps_modSe | apply keeps_askNonce | apply keeps_telegramAccepted | apply keeps_telegramRejected) | split | dsimp only)

theorem keeps_judgeTelegram {b₀ s : State} (n : Nat) (b : Bytes)  (hk₀ : Keeps b₀ s) : Keeps b₀ (State.judgeTelegram s n b) := by
  unfold State.judgeTelegram
  try dsimp only
  repeat' (first | (with_reducible first | assumption | intro _ | apply keeps_ite | apply keeps_withKey | apply keeps_telegramRejected | apply keeps_judgeCounter) | dsimp only)

theorem keeps_telegramGenuine {b₀ s : State} (b : Bytes) (h : Keeps b₀ s) : Keeps b₀ (s.telegramGenuine b).2 := by
  unfold State.telegramGenuine
  dsimp only
  split
  · next e => exact keeps_snd e (keeps_lookup _ h)
  · next e =>
    have k := keeps_snd e (keeps_lookup _ h)
    split
    · exact keeps_addJob _ (keeps_derivations _ _ _ k)
    · exact k

theorem keeps_telegram {b₀ s : State} (anchor : BitVec 6) (stamp : Nat) (b : Bytes)  (hk₀ : Keeps b₀ s) : Keeps b₀ (State.telegram s anchor stamp b) := by
  unfold State.telegram
  try dsimp only
  repeat' (first | (with_reducible first | assumption | apply keeps_ite | apply keeps_wake | apply keeps_unquiet | apply keeps_betterSighting | apply keeps_judgeTelegram | apply keeps_telegramGenuine | apply keeps_sight | apply keeps_modBlf | apply keeps_identify) | refine keeps_snd (by assumption) ?_ | refine keeps_fst (by assumption) ?_ | split | dsimp only)

theorem keeps_takeReport {b₀ s : State} (n : Nat) (count : BitVec 16) (field : Bytes)  (hk₀ : Keeps b₀ s) : Keeps b₀ (State.takeReport s n count field) := by
  unfold State.takeReport
  try dsimp only
  repeat' (first | (with_reducible first | assumption | apply keeps_modBlf | apply keeps_report) | refine keeps_snd (by assumption) ?_ | refine keeps_fst (by assumption) ?_ | dsimp only)

theorem keeps_reportRefused {b₀ s : State}   (hk₀ : Keeps b₀ s) : Keeps b₀ (State.reportRefused s) := by
  unfold State.reportRefused
  try dsimp only
  repeat' (first | (with_reducible first | assumption | apply keeps_upLf) | exact id | intro _ | assumption | split | (simp_all [BerthTable.ok, Lf.ok, CanBlk.ok, PierBlk.ok]; done) | dsimp only)

theorem keeps_reported {b₀ s : State} (b : Bytes)  (hk₀ : Keeps b₀ s) : Keeps b₀ (State.reported s b) := by
  unfold State.reported
  try dsimp only
  repeat' (first | (with_reducible first | assumption | intro _ | apply keeps_ite | apply keeps_reportRefused | apply keeps_withKey | apply keeps_takeReport) | split | dsimp only)

theorem keeps_uhfFrame {b₀ s : State} (anchor : BitVec 6) (stamp : Nat) (b : Bytes)  (hk₀ : Keeps b₀ s) : Keeps b₀ (State.uhfFrame s anchor stamp b) := by
  unfold State.uhfFrame
  try dsimp only
  repeat' (first | (with_reducible first | assumption | apply keeps_answerHeard | apply keeps_responded | apply keeps_reported | apply keeps_telegram) | split | dsimp only)

theorem keeps_passFrame {b₀ s : State} (stamp : Nat) (b : Bytes)  (hk₀ : Keeps b₀ s) : Keeps b₀ (State.passFrame s stamp b) := by
  unfold State.passFrame
  try dsimp only
  repeat' (first | (with_reducible first | assumption | apply keeps_ite | apply keeps_reportAt) | dsimp only)

theorem keeps_uhfDeliver {b₀ s : State} (anchor : BitVec 6) (stamp : Nat) (b : Bytes)  (hk₀ : Keeps b₀ s) : Keeps b₀ (State.uhfDeliver s anchor stamp b) := by
  unfold State.uhfDeliver
  try dsimp only
  repeat' (first | (with_reducible first | assumption | apply keeps_ite | apply keeps_upNb | apply keeps_passFrame | apply keeps_answerHeard | apply keeps_betterSighting | apply keeps_uhfFrame | apply keeps_wake) | refine keeps_snd (by assumption) ?_ | refine keeps_fst (by assumption) ?_ | split | dsimp only)

theorem keeps_uhfCount {b₀ s : State} (rx : UhfRx) (b : Bytes)  (hk₀ : Keeps b₀ s) : Keeps b₀ (State.uhfCount s rx b) := by
  unfold State.uhfCount
  try dsimp only
  repeat' (first | (with_reducible first | assumption | apply keeps_ite | apply keeps_upNb) | refine keeps_snd (by assumption) ?_ | refine keeps_fst (by assumption) ?_ | dsimp only)

theorem keeps_uhfReceive {b₀ s : State} (rx : UhfRx) (b : Bytes)  (hk₀ : Keeps b₀ s) : Keeps b₀ (State.uhfReceive s rx b) := by
  unfold State.uhfReceive
  try dsimp only
  repeat' (first | (with_reducible first | assumption | apply keeps_ite | apply keeps_uhfCount | apply keeps_uhfDeliver | apply keeps_badFrame) | dsimp only)

theorem ends_WakeAnswer {b₀ s : State} (rx : UhfRx) (flags : BitVec 4) (fob : BitVec 64) (idle : BitVec 8)  (hk₀ : Keeps b₀ s) : Ends b₀ (execWakeAnswer rx flags fob idle s) := by
  unfold execWakeAnswer
  try dsimp only
  repeat' (first | (with_reducible first | assumption | apply ends_whenDo | apply ends_next | apply keeps_uhfReceive) | dsimp only)

theorem ends_ChallengeResponse {b₀ s : State} (rx : UhfRx) (flags : BitVec 4) (fob : BitVec 64) (counter : BitVec 32) (mac : BitVec 64)  (hk₀ : Keeps b₀ s) : Ends b₀ (execChallengeResponse rx flags fob counter mac s) := by
  unfold execChallengeResponse
  try dsimp only
  repeat' (first | (with_reducible first | assumption | apply ends_whenDo | apply ends_next | apply keeps_uhfReceive) | dsimp only)

theorem ends_ButtonTelegram {b₀ s : State} (rx : UhfRx) (command : BitVec 4) (fob : BitVec 64) (counter : BitVec 32) (idle : BitVec 8) (mac : BitVec 64)  (hk₀ : Keeps b₀ s) : Ends b₀ (execButtonTelegram rx command fob counter idle mac s) := by
  unfold execButtonTelegram
  try dsimp only
  repeat' (first | (with_reducible first | assumption | apply ends_whenDo | apply ends_next | apply keeps_uhfReceive) | dsimp only)

theorem ends_PollReport {b₀ s : State} (rx : UhfRx) (flags : BitVec 4) (hailTag : BitVec 16) (seq : BitVec 2) (resv : BitVec 6) (field : Bytes) (mac : BitVec 32)  (hk₀ : Keeps b₀ s) : Ends b₀ (execPollReport rx flags hailTag seq resv field mac s) := by
  unfold execPollReport
  try dsimp only
  repeat' (first | (with_reducible first | assumption | apply ends_whenDo | apply ends_next | apply keeps_uhfReceive) | dsimp only)

theorem keeps_fitReport {b₀ s : State} (n : Nat)  (hk₀ : Keeps b₀ s) : Keeps b₀ (State.fitReport s n) := by
  unfold State.fitReport
  try dsimp only
  repeat' (first | (with_reducible first | assumption | apply keeps_report | apply keeps_modBlf | apply keeps_upLf | apply keeps_latch | apply keeps_measure) | refine keeps_snd (by assumption) ?_ | refine keeps_fst (by assumption) ?_ | split | exact id | intro _ | assumption | split | (simp_all [BerthTable.ok, Lf.ok, CanBlk.ok, PierBlk.ok]; done) | dsimp only)

theorem ends_FieldFit {b₀ s : State} (n : BitVec 8)  (hk₀ : Keeps b₀ s) : Ends b₀ (execFieldFit n s) := by
  unfold execFieldFit
  try dsimp only
  repeat' (first | (with_reducible first | assumption | apply ends_whenDo | apply ends_next | apply keeps_report | apply keeps_fitReport) | dsimp only)

end Sys2Proof.Machine
end

