-- ==== Sys2Proof/Laws/KeepsBle.lean ====
section
/-! SUPPORT. What the functions of Machine/Ble.lean leave alone. -/

namespace Sys2Proof.Machine

set_option linter.all false

theorem keeps_enableAmp {b₀ s : State} (f : BitVec 8) (p : Nat) (a : Nat) (b : Nat)  (hk₀ : Keeps b₀ s) : Keeps b₀ (State.enableAmp s f p a b) := by
  unfold State.enableAmp
  try dsimp only
  repeat' (first | (with_reducible first | assumption | apply keeps_ite | apply keeps_upPins) | refine keeps_snd (by assumption) ?_ | refine keeps_fst (by assumption) ?_ | dsimp only)

theorem keeps_packetMeasured {b₀ s : State} (rl : BitVec 8)  (hk₀ : Keeps b₀ s) : Keeps b₀ (State.packetMeasured s rl) := by
  unfold State.packetMeasured
  try dsimp only
  repeat' (first | (with_reducible first | assumption | apply keeps_ite | apply keeps_upNb | apply keeps_latchIf) | refine keeps_snd (by assumption) ?_ | refine keeps_fst (by assumption) ?_ | split | dsimp only)

theorem keeps_freePackets {b₀ s : State} (k : Nat)  (hk₀ : Keeps b₀ s) : Keeps b₀ (State.freePackets s k) := by
  unfold State.freePackets
  try dsimp only
  repeat' (first | (with_reducible first | assumption | intro _ | apply keeps_packetMeasured | apply keeps_upNb | apply keeps_foldl) | dsimp only)

theorem keeps_bleOn {b₀ s : State} (power : BitVec 6) (a : Nat) (b : Nat)  (hk₀ : Keeps b₀ s) : Keeps b₀ (State.bleOn s power a b) := by
  unfold State.bleOn
  try dsimp only
  repeat' (first | (with_reducible first | assumption | apply keeps_enableAmp | apply keeps_upNb) | dsimp only)

theorem keeps_packetSent {b₀ s : State} (power : BitVec 6) (rl : BitVec 8) (a : Nat)  (hk₀ : Keeps b₀ s) : Keeps b₀ (State.packetSent s power rl a) := by
  unfold State.packetSent
  try dsimp only
  repeat' (first | (with_reducible first | assumption | apply keeps_bleOn | apply keeps_packetMeasured) | dsimp only)

theorem keeps_bleTakes {b₀ s : State}   (hk₀ : Keeps b₀ s) : Keeps b₀ (State.bleTakes s) := by
  unfold State.bleTakes
  try dsimp only
  repeat' (first | (with_reducible first | assumption | apply keeps_ite | apply keeps_upNb | apply keeps_upMf) | dsimp only)

theorem keeps_bleSend {b₀ s : State} (h : HeldTx) (eff : State → State) (h_eff : ∀ x, Keeps b₀ x → Keeps b₀ (eff x)) (hk₀ : Keeps b₀ s) : Keeps b₀ (State.bleSend s h eff) := by
  unfold State.bleSend
  try dsimp only
  repeat' (first | (with_reducible first | assumption | intro _ | apply keeps_ite | apply keeps_upNb | apply h_eff) | split | dsimp only)

theorem keeps_bleLate {b₀ s : State} (h : HeldTx)  (hk₀ : Keeps b₀ s) : Keeps b₀ (State.bleLate s h) := by
  unfold State.bleLate
  try dsimp only
  repeat' (first | (with_reducible first | assumption | apply keeps_ite | apply keeps_upNb | apply keeps_latch) | dsimp only)

theorem keeps_bleAir {b₀ s : State} (t : Nat)  (hk₀ : Keeps b₀ s) : Keeps b₀ (State.bleAir s t) := by
  unfold State.bleAir
  try dsimp only
  repeat' (first | (with_reducible first | assumption | apply keeps_upNb) | dsimp only)

theorem keeps_scanOpen {b₀ s : State} (a : Nat) (b : Nat)  (hk₀ : Keeps b₀ s) : Keeps b₀ (State.scanOpen s a b) := by
  unfold State.scanOpen
  try dsimp only
  repeat' (first | (with_reducible first | assumption | apply keeps_upNb) | dsimp only)

theorem keeps_scanEnds {b₀ s : State} (a : Nat)  (hk₀ : Keeps b₀ s) : Keeps b₀ (State.scanEnds s a) := by
  unfold State.scanEnds
  try dsimp only
  repeat' (first | (with_reducible first | assumption | apply keeps_upNb) | dsimp only)

theorem keeps_advSent {b₀ s : State} (rl : BitVec 8) (a : Nat)  (hk₀ : Keeps b₀ s) : Keeps b₀ (State.advSent s rl a) := by
  unfold State.advSent
  try dsimp only
  repeat' (first | (with_reducible first | assumption | apply keeps_ite | apply keeps_upNb | apply keeps_scanEnds | apply keeps_scanOpen | apply keeps_bleAir | apply keeps_packetSent) | dsimp only)

theorem keeps_bleMeasured {b₀ s : State} (temp : BitVec 16) (vrf2 : BitVec 8)  (hk₀ : Keeps b₀ s) : Keeps b₀ (State.bleMeasured s temp vrf2) := by
  unfold State.bleMeasured
  try dsimp only
  repeat' (first | (with_reducible first | assumption | apply keeps_upNb) | dsimp only)

theorem keeps_advertise {b₀ s : State} (x : BleSense)  (hk₀ : Keeps b₀ s) : Keeps b₀ (State.advertise s x) := by
  unfold State.advertise
  try dsimp only
  repeat' (first | (with_reducible first | assumption | intro _ | apply keeps_bleTakes | apply keeps_bleMeasured | apply keeps_bleSend | apply keeps_advSent) | dsimp only)

theorem ends_AdvertisingBurst {b₀ s : State} (x : BleSense)  (hk₀ : Keeps b₀ s) : Ends b₀ (execAdvertisingBurst x s) := by
  unfold execAdvertisingBurst
  try dsimp only
  repeat' (first | (with_reducible first | assumption | apply ends_whenDo | apply ends_next | apply keeps_upTide | apply keeps_upNb | apply keeps_advertise) | (intro _; rfl) | rfl | (intro _; repeat' split; all_goals rfl) | dsimp only)

theorem ends_AdvertisingEvent {b₀ s : State} (x : BleSense)  (hk₀ : Keeps b₀ s) : Ends b₀ (execAdvertisingEvent x s) := by
  unfold execAdvertisingEvent
  try dsimp only
  repeat' (first | (with_reducible first | assumption | apply ends_whenDo | apply ends_next | apply keeps_upTide | apply keeps_advertise) | (intro _; rfl) | rfl | (intro _; repeat' split; all_goals rfl) | dsimp only)

theorem ends_ScanWindow {b₀ s : State}   (hk₀ : Keeps b₀ s) : Ends b₀ (execScanWindow s) := by
  unfold execScanWindow
  try dsimp only
  repeat' (first | (with_reducible first | assumption | apply ends_whenDo | apply ends_next | apply keeps_ite | apply ends_ite | apply keeps_upNb | apply keeps_scanOpen | apply keeps_bleAir) | dsimp only)

theorem keeps_openLink {b₀ s : State} (a : Nat) (berth : Option Nat) (periph : Bool)  (hk₀ : Keeps b₀ s) : Keeps b₀ (State.openLink s a berth periph) := by
  unfold State.openLink
  try dsimp only
  repeat' (first | (with_reducible first | assumption | apply keeps_ite | apply keeps_bleOn | apply keeps_upNb) | dsimp only)

theorem keeps_sightPhone {b₀ s : State} (token : BitVec 64) (heard : Heard)  (hk₀ : Keeps b₀ s) : Keeps b₀ (State.sightPhone s token heard) := by
  unfold State.sightPhone
  try dsimp only
  repeat' (first | (with_reducible first | assumption | apply keeps_ite | apply keeps_upBt | apply keeps_upNb | apply keeps_sight | apply keeps_modSe | apply keeps_openLink) | refine keeps_snd (by assumption) ?_ | refine keeps_fst (by assumption) ?_ | split | exact id | intro _ | assumption | split | (simp_all [BerthTable.ok, Lf.ok, CanBlk.ok, PierBlk.ok]; done) | dsimp only)

theorem ends_BleAdvertisement {b₀ s : State} (company : BitVec 16) (typ : BitVec 8) (fleet : BitVec 32) (token : BitVec 64) (heard : Heard)  (hk₀ : Keeps b₀ s) : Ends b₀ (execBleAdvertisement company typ fleet token heard s) := by
  unfold execBleAdvertisement
  try dsimp only
  repeat' (first | (with_reducible first | assumption | apply ends_whenDo | apply ends_next | apply keeps_ite | apply ends_ite | apply keeps_wakeHere | apply keeps_sightPhone) | refine keeps_snd (by assumption) ?_ | refine keeps_fst (by assumption) ?_ | dsimp only)

theorem keeps_linkCipher {b₀ s : State} (k : Nat)  (hk₀ : Keeps b₀ s) : Keeps b₀ (State.linkCipher s k) := by
  unfold State.linkCipher
  try dsimp only
  repeat' (first | (with_reducible first | assumption | intro _ | apply keeps_ite | apply keeps_withKey) | split | dsimp only)

theorem keeps_serveFrames {b₀ s : State} (k : Nat)  (hk₀ : Keeps b₀ s) : Keeps b₀ (State.serveFrames s k) := by
  unfold State.serveFrames
  try dsimp only
  repeat' (first | (with_reducible first | assumption | apply keeps_linkCipher | apply keeps_modLink) | dsimp only)

theorem keeps_serveLink {b₀ s : State} (k : Nat) (rl : BitVec 8) (a : Nat)  (hk₀ : Keeps b₀ s) : Keeps b₀ (State.serveLink s k rl a) := by
  unfold State.serveLink
  try dsimp only
  repeat' (first | (with_reducible first | assumption | apply keeps_serveFrames | apply keeps_scanEnds | apply keeps_bleAir | apply keeps_upNb | apply keeps_packetSent) | dsimp only)

theorem keeps_peerPdus {b₀ s : State} (k : Nat) (peer : List PeerPdu)  (hk₀ : Keeps b₀ s) : Keeps b₀ (State.peerPdus s k peer) := by
  unfold State.peerPdus
  try dsimp only
  repeat' (first | (with_reducible first | assumption | apply keeps_ite | apply keeps_modLink | apply keeps_request) | split | dsimp only)

theorem keeps_answerLate {b₀ s : State}   (hk₀ : Keeps b₀ s) : Keeps b₀ (State.answerLate s) := by
  unfold State.answerLate
  try dsimp only
  repeat' (first | (with_reducible first | assumption | apply keeps_upNb | apply keeps_latch) | dsimp only)

theorem ends_ConnectionEvent {b₀ s : State} (link : Nat) (returnLoss : BitVec 8) (peer : List PeerPdu)  (hk₀ : Keeps b₀ s) : Ends b₀ (execConnectionEvent link returnLoss peer s) := by
  unfold execConnectionEvent
  try dsimp only
  repeat' (first | (with_reducible first | assumption | intro _ | apply ends_whenDo | apply ends_next | apply keeps_ite | apply ends_ite | apply keeps_serveFrames | apply keeps_peerPdus | apply keeps_upNb | apply keeps_bleTakes | apply keeps_answerLate | apply keeps_bleSend | apply keeps_serveLink | apply keeps_openLink) | dsimp only)

theorem keeps_closeLink {b₀ s : State} (k : Nat)  (hk₀ : Keeps b₀ s) : Keeps b₀ (State.closeLink s k) := by
  unfold State.closeLink
  try dsimp only
  repeat' (first | (with_reducible first | assumption | apply keeps_upNb) | dsimp only)

theorem keeps_foreignFrame {b₀ s : State}   (hk₀ : Keeps b₀ s) : Keeps b₀ (State.foreignFrame s) := by
  unfold State.foreignFrame
  try dsimp only
  repeat' (first | (with_reducible first | assumption | apply keeps_upNb) | dsimp only)

theorem keeps_frameIn {b₀ s : State} (k : Nat)  (hk₀ : Keeps b₀ s) : Keeps b₀ (State.frameIn s k) := by
  unfold State.frameIn
  try dsimp only
  repeat' (first | (with_reducible first | assumption | apply keeps_modLink) | dsimp only)

theorem keeps_helloBerth {b₀ s : State} (n : Nat) (cred : BitVec 64) (gen : BitVec 8) (caps : BitVec 8) (tk : BitVec 16)  (hk₀ : Keeps b₀ s) : Keeps b₀ (State.helloBerth s n cred gen caps tk) := by
  unfold State.helloBerth
  try dsimp only
  repeat' (first | (with_reducible first | assumption | apply keeps_ite | apply keeps_modSe | apply keeps_identify | apply keeps_askNonce) | dsimp only)

theorem keeps_helloOn {b₀ s : State} (k : Nat) (l : Link) (token : BitVec 64) (cred : BitVec 64) (gen : BitVec 8) (caps : BitVec 8) (tk : BitVec 16)  (hk₀ : Keeps b₀ s) : Keeps b₀ (State.helloOn s k l token cred gen caps tk) := by
  unfold State.helloOn
  try dsimp only
  repeat' (first | (with_reducible first | assumption | apply keeps_ite | apply keeps_frameIn | apply keeps_modLink | apply keeps_helloBerth | apply keeps_foreignFrame | apply keeps_sight | apply keeps_modSe) | refine keeps_snd (by assumption) ?_ | refine keeps_fst (by assumption) ?_ | split | dsimp only)

theorem ends_Hello {b₀ s : State} (link : Nat) (token : BitVec 64) (cred : BitVec 64) (gen : BitVec 8) (caps : BitVec 8) (tk : BitVec 16)  (hk₀ : Keeps b₀ s) : Ends b₀ (execHello link token cred gen caps tk s) := by
  unfold execHello
  try dsimp only
  repeat' (first | (with_reducible first | assumption | apply ends_whenDo | apply ends_next | apply keeps_helloOn) | split | dsimp only)

theorem ends_HelloTimeout {b₀ s : State} (link : Nat)  (hk₀ : Keeps b₀ s) : Ends b₀ (execHelloTimeout link s) := by
  unfold execHelloTimeout
  try dsimp only
  repeat' (first | (with_reducible first | assumption | apply ends_whenDo | apply ends_next | apply keeps_closeLink) | split | dsimp only)

theorem ends_phoneFrame {b₀ s : State} (n : Nat) (ok : Bool) (eff : State → State) (h_eff : ∀ x, Keeps b₀ x → Keeps b₀ (eff x)) (hk₀ : Keeps b₀ s) : Ends b₀ (State.phoneFrame s n ok eff) := by
  unfold State.phoneFrame
  try dsimp only
  repeat' (first | (with_reducible first | assumption | apply ends_whenDo | apply ends_next | apply keeps_ite | apply ends_ite | apply keeps_frameIn | apply keeps_foreignFrame | apply h_eff) | split | dsimp only)

theorem ends_BleResponse {b₀ s : State} (n : BitVec 8) (mac : BitVec 128)  (hk₀ : Keeps b₀ s) : Ends b₀ (execBleResponse n mac s) := by
  unfold execBleResponse
  try dsimp only
  repeat' (first | (with_reducible first | assumption | intro _ | apply ends_whenDo | apply ends_next | apply keeps_ite | apply ends_ite | apply ends_phoneFrame | apply keeps_withKey | apply keeps_moor | apply keeps_castOff) | dsimp only)

theorem ends_EncryptionRefused {b₀ s : State} (n : BitVec 8)  (hk₀ : Keeps b₀ s) : Ends b₀ (execEncryptionRefused n s) := by
  unfold execEncryptionRefused
  try dsimp only
  repeat' (first | (with_reducible first | assumption | apply ends_whenDo | apply ends_next | apply keeps_modSe | apply keeps_castOff) | dsimp only)

theorem ends_Ready {b₀ s : State} (n : BitVec 8) (sid : BitVec 32) (mac : BitVec 64)  (hk₀ : Keeps b₀ s) : Ends b₀ (execReady n sid mac s) := by
  unfold execReady
  try dsimp only
  repeat' (first | (with_reducible first | assumption | intro _ | apply ends_whenDo | apply ends_next | apply keeps_ite | apply ends_ite | apply ends_phoneFrame | apply keeps_withKey | apply keeps_modSe) | split | dsimp only)

theorem ends_FieldFrame {b₀ s : State} (n : BitVec 8) (hailTag : BitVec 16) (seq : BitVec 8) (a : BitVec 8) (field : Bytes) (mac : BitVec 32)  (hk₀ : Keeps b₀ s) : Ends b₀ (execFieldFrame n hailTag seq a field mac s) := by
  unfold execFieldFrame
  try dsimp only
  repeat' (first | (with_reducible first | assumption | intro _ | apply ends_whenDo | apply ends_next | apply keeps_ite | apply ends_ite | apply ends_phoneFrame | apply keeps_reportRefused | apply keeps_withKey | apply keeps_takeReport) | split | dsimp only)

theorem ends_Close {b₀ s : State} (n : BitVec 8) (_reason : BitVec 8)  (hk₀ : Keeps b₀ s) : Ends b₀ (execClose n _reason s) := by
  unfold execClose
  try dsimp only
  repeat' (first | (with_reducible first | assumption | intro _ | apply ends_whenDo | apply ends_next | apply ends_phoneFrame | apply keeps_castOff) | dsimp only)

theorem ends_AccessFrameForeign {b₀ s : State} (link : Nat) (typ : BitVec 8) (len : BitVec 8)  (hk₀ : Keeps b₀ s) : Ends b₀ (execAccessFrameForeign link typ len s) := by
  unfold execAccessFrameForeign
  try dsimp only
  repeat' (first | (with_reducible first | assumption | apply ends_whenDo | apply ends_next | apply keeps_frameIn | apply keeps_foreignFrame) | split | dsimp only)

theorem ends_BleDisconnection {b₀ s : State} (n : BitVec 8)  (hk₀ : Keeps b₀ s) : Ends b₀ (execBleDisconnection n s) := by
  unfold execBleDisconnection
  try dsimp only
  repeat' (first | (with_reducible first | assumption | apply ends_whenDo | apply ends_next | apply keeps_closeLink | apply keeps_castOff) | split | dsimp only)

theorem keeps_nbCtrl {b₀ s : State} (v : BitVec 32)  (hk₀ : Keeps b₀ s) : Keeps b₀ (State.nbCtrl s v) := by
  unfold State.nbCtrl
  try dsimp only
  repeat' (first | (with_reducible first | assumption | apply keeps_ite | apply keeps_upNb) | dsimp only)

theorem ends_NbradioCal {b₀ s : State}   (hk₀ : Keeps b₀ s) : Ends b₀ (execNbradioCal s) := by
  unfold execNbradioCal
  try dsimp only
  repeat' (first | (with_reducible first | assumption | intro _ | apply ends_whenDo | apply ends_next | apply keeps_farWrite | apply keeps_nbCtrl) | dsimp only)

theorem ends_SynthCalibration {b₀ s : State} (which : BitVec 2)  (hk₀ : Keeps b₀ s) : Ends b₀ (execSynthCalibration which s) := by
  unfold execSynthCalibration
  try dsimp only
  repeat' (first | (with_reducible first | assumption | apply ends_whenDo | apply ends_next | apply keeps_ite | apply ends_ite | apply keeps_upNb) | dsimp only)

theorem keeps_bleLocked {b₀ s : State}   (hk₀ : Keeps b₀ s) : Keeps b₀ (State.bleLocked s) := by
  unfold State.bleLocked
  try dsimp only
  repeat' (first | (with_reducible first | assumption | apply keeps_upNb) | dsimp only)

theorem keeps_runTest {b₀ s : State} (a : Nat)  (hk₀ : Keeps b₀ s) : Keeps b₀ (State.runTest s a) := by
  unfold State.runTest
  try dsimp only
  repeat' (first | (with_reducible first | assumption | apply keeps_bleOn | apply keeps_upNb | apply keeps_scanEnds | apply keeps_freePackets) | dsimp only)

theorem keeps_heldSends {b₀ s : State} (h : HeldTx)  (hk₀ : Keeps b₀ s) : Keeps b₀ (State.heldSends s h) := by
  unfold State.heldSends
  try dsimp only
  repeat' (first | (with_reducible first | assumption | apply keeps_ite | apply keeps_advSent | apply keeps_serveLink | apply keeps_upNb | apply keeps_runTest | apply keeps_bleLate) | dsimp only)

theorem keeps_serveHeldTx {b₀ s : State}   (hk₀ : Keeps b₀ s) : Keeps b₀ (State.serveHeldTx s) := by
  unfold State.serveHeldTx
  try dsimp only
  repeat' (first | (with_reducible first | assumption | intro _ | apply keeps_ite | apply keeps_bleLate | apply keeps_bleLocked | apply keeps_heldSends | apply keeps_foldl) | split | dsimp only)

theorem keeps_synthCalibrated {b₀ s : State} (w : Nat) (temp : BitVec 16) (irr : List (BitVec 8))  (hk₀ : Keeps b₀ s) : Keeps b₀ (State.synthCalibrated s w temp irr) := by
  unfold State.synthCalibrated
  try dsimp only
  repeat' (first | (with_reducible first | assumption | apply keeps_ite | apply keeps_upNb | apply keeps_serveHeldTx) | dsimp only)

theorem keeps_dropHeld {b₀ s : State}   (hk₀ : Keeps b₀ s) : Keeps b₀ (State.dropHeld s) := by
  unfold State.dropHeld
  try dsimp only
  repeat' (first | (with_reducible first | assumption | intro _ | apply keeps_bleLate | apply keeps_upNb | apply keeps_foldl) | dsimp only)

theorem keeps_synthFailed {b₀ s : State} (w : Nat)  (hk₀ : Keeps b₀ s) : Keeps b₀ (State.synthFailed s w) := by
  unfold State.synthFailed
  try dsimp only
  repeat' (first | (with_reducible first | assumption | apply keeps_ite | apply keeps_upNb | apply keeps_dropHeld) | dsimp only)

theorem ends_SynthCalDone {b₀ s : State} (which : BitVec 2) (ok : Bool) (temp : BitVec 16) (irr : List (BitVec 8))  (hk₀ : Keeps b₀ s) : Ends b₀ (execSynthCalDone which ok temp irr s) := by
  unfold execSynthCalDone
  try dsimp only
  repeat' (first | (with_reducible first | assumption | apply ends_whenDo | apply ends_next | apply keeps_ite | apply ends_ite | apply keeps_synthCalibrated | apply keeps_synthFailed | apply keeps_latch) | dsimp only)

theorem ends_SynthLock {b₀ s : State}   (hk₀ : Keeps b₀ s) : Ends b₀ (execSynthLock s) := by
  unfold execSynthLock
  try dsimp only
  repeat' (first | (with_reducible first | assumption | apply ends_whenDo | apply ends_next | apply keeps_ite | apply ends_ite | apply keeps_upNb | apply keeps_serveHeldTx) | dsimp only)

theorem keeps_bleStops {b₀ s : State}   (hk₀ : Keeps b₀ s) : Keeps b₀ (State.bleStops s) := by
  unfold State.bleStops
  try dsimp only
  repeat' (first | (with_reducible first | assumption | intro _ | apply keeps_ite | apply keeps_upNb | apply keeps_bleLate | apply keeps_foldl) | refine keeps_snd (by assumption) ?_ | refine keeps_fst (by assumption) ?_ | dsimp only)

theorem ends_SynthLossOfLock {b₀ s : State} (which : BitVec 2)  (hk₀ : Keeps b₀ s) : Ends b₀ (execSynthLossOfLock which s) := by
  unfold execSynthLossOfLock
  try dsimp only
  repeat' (first | (with_reducible first | assumption | apply ends_whenDo | apply ends_next | apply keeps_ite | apply ends_ite | apply keeps_upNb | apply keeps_latch | apply keeps_bleStops) | dsimp only)

theorem keeps_soundBegin {b₀ s : State} (n : Nat)  (hk₀ : Keeps b₀ s) : Keeps b₀ (State.soundBegin s n) := by
  unfold State.soundBegin
  try dsimp only
  repeat' (first | (with_reducible first | assumption | apply keeps_upNb) | dsimp only)

theorem keeps_soundHere {b₀ s : State} (n : Nat)  (hk₀ : Keeps b₀ s) : Keeps b₀ (State.soundHere s n) := by
  unfold State.soundHere
  try dsimp only
  repeat' (first | (with_reducible first | assumption | intro _ | apply keeps_bleTakes | apply keeps_bleSend | apply keeps_soundBegin | apply keeps_scanEnds | apply keeps_bleOn | apply keeps_freePackets) | dsimp only)

theorem ends_CsProcedure {b₀ s : State} (n : BitVec 8)  (hk₀ : Keeps b₀ s) : Ends b₀ (execCsProcedure n s) := by
  unfold execCsProcedure
  try dsimp only
  repeat' (first | (with_reducible first | assumption | apply ends_whenDo | apply ends_next | apply keeps_ite | apply ends_ite | apply keeps_upTend | apply keeps_soundHere | apply keeps_soundBegin) | dsimp only)

theorem keeps_soundSet {b₀ s : State} (n : Nat) (a : Nat) (tide : BitVec 32) (res : CsRes)  (hk₀ : Keeps b₀ s) : Keeps b₀ (State.soundSet s n a tide res) := by
  unfold State.soundSet
  try dsimp only
  repeat' (first | (with_reducible first | assumption | apply keeps_ite | apply keeps_upNb | apply keeps_measure) | refine keeps_snd (by assumption) ?_ | refine keeps_fst (by assumption) ?_ | dsimp only)

theorem keeps_soundResult {b₀ s : State} (n : Nat) (tide : BitVec 32) (chains : List (List CsTone))  (hk₀ : Keeps b₀ s) : Keeps b₀ (State.soundResult s n tide chains) := by
  unfold State.soundResult
  try dsimp only
  repeat' (first | (with_reducible first | assumption | apply keeps_soundSet) | refine keeps_snd (by assumption) ?_ | refine keeps_fst (by assumption) ?_ | dsimp only)

theorem keeps_soundExport {b₀ s : State} (n : Nat) (tide : BitVec 32) (chains : List (List CsTone))  (hk₀ : Keeps b₀ s) : Keeps b₀ (State.soundExport s n tide chains) := by
  unfold State.soundExport
  try dsimp only
  repeat' (first | (with_reducible first | assumption | apply keeps_ite | apply keeps_upNb | apply keeps_pierPost) | refine keeps_snd (by assumption) ?_ | refine keeps_fst (by assumption) ?_ | split | dsimp only)

theorem ends_CsResults {b₀ s : State} (n : BitVec 8) (chains : List (List CsTone))  (hk₀ : Keeps b₀ s) : Ends b₀ (execCsResults n chains s) := by
  unfold execCsResults
  try dsimp only
  repeat' (first | (with_reducible first | assumption | apply ends_whenDo | apply ends_next | apply keeps_ite | apply ends_ite | apply keeps_soundExport | apply keeps_soundResult) | split | dsimp only)

theorem keeps_csSelect {b₀ s : State} (v : BitVec 32)  (hk₀ : Keeps b₀ s) : Keeps b₀ (State.csSelect s v) := by
  unfold State.csSelect
  try dsimp only
  repeat' (first | (with_reducible first | assumption | apply keeps_upNb) | dsimp only)

theorem ends_CsSelWrite {b₀ s : State} (v : BitVec 32)  (hk₀ : Keeps b₀ s) : Ends b₀ (execCsSelWrite v s) := by
  unfold execCsSelWrite
  try dsimp only
  repeat' (first | (with_reducible first | assumption | intro _ | apply ends_whenDo | apply ends_next | apply keeps_farWrite | apply keeps_csSelect) | dsimp only)

theorem keeps_nbTestStart {b₀ s : State}   (hk₀ : Keeps b₀ s) : Keeps b₀ (State.nbTestStart s) := by
  unfold State.nbTestStart
  try dsimp only
  repeat' (first | (with_reducible first | assumption | intro _ | apply keeps_ite | apply keeps_notice | apply keeps_bleSend | apply keeps_runTest) | dsimp only)

theorem keeps_nbTest {b₀ s : State} (v : BitVec 32)  (hk₀ : Keeps b₀ s) : Keeps b₀ (State.nbTest s v) := by
  unfold State.nbTest
  try dsimp only
  repeat' (first | (with_reducible first | assumption | apply keeps_ite | apply keeps_upNb | apply keeps_nbTestStart | apply keeps_oneNotice | apply keeps_noticeIf) | dsimp only)

theorem ends_NbradioTestGo {b₀ s : State} (v : BitVec 32)  (hk₀ : Keeps b₀ s) : Ends b₀ (execNbradioTestGo v s) := by
  unfold execNbradioTestGo
  try dsimp only
  repeat' (first | (with_reducible first | assumption | intro _ | apply ends_whenDo | apply ends_next | apply keeps_farWrite | apply keeps_nbTest) | dsimp only)

theorem keeps_jamBoundary {b₀ s : State} (ended : BitVec 32) (jam : List (BitVec 6 × BitVec 2))  (hk₀ : Keeps b₀ s) : Keeps b₀ (State.jamBoundary s ended jam) := by
  unfold State.jamBoundary
  try dsimp only
  repeat' (first | (with_reducible first | assumption | apply keeps_upNb | apply keeps_latchIf) | refine keeps_snd (by assumption) ?_ | refine keeps_fst (by assumption) ?_ | dsimp only)

theorem keeps_nbPower {b₀ s : State}   (hk₀ : Keeps b₀ s) : Keeps b₀ (State.nbPower s) := by
  unfold State.nbPower
  try dsimp only
  repeat' (first | (with_reducible first | assumption | apply keeps_upNb) | dsimp only)

theorem keeps_nbBoundary {b₀ s : State} (temp : BitVec 16)  (hk₀ : Keeps b₀ s) : Keeps b₀ (State.nbBoundary s temp) := by
  unfold State.nbBoundary
  try dsimp only
  repeat' (first | (with_reducible first | assumption | apply keeps_upNb | apply keeps_nbPower) | refine keeps_snd (by assumption) ?_ | refine keeps_fst (by assumption) ?_ | dsimp only)

end Sys2Proof.Machine
end

