-- ==== Sys2Proof/Laws/KeepsManifest.lean ====
section
/-! SUPPORT. What the functions of Machine/Manifest.lean leave alone. -/

namespace Sys2Proof.Machine

set_option linter.all false

theorem keeps_writeBank {b₀ s : State} (m : Mem) (len : Nat)  (hk₀ : Keeps b₀ s) : Keeps b₀ (State.writeBank s m len) := by
  unfold State.writeBank
  try dsimp only
  repeat' (first | (with_reducible first | assumption | apply keeps_upMf) | dsimp only)

theorem keeps_pushImage {b₀ s : State} (n : Nat) (fw : Bool) (adopt : Bool) (serial : BitVec 32) (b : Bytes)  (hk₀ : Keeps b₀ s) : Keeps b₀ (State.pushImage s n fw adopt serial b) := by
  unfold State.pushImage
  try dsimp only
  repeat' (first | (with_reducible first | assumption | intro _ | apply keeps_pierRequest | apply keeps_pierPost | apply keeps_foldl) | refine keeps_snd (by assumption) ?_ | refine keeps_fst (by assumption) ?_ | dsimp only)

theorem keeps_commitAll {b₀ s : State} (links : BitVec 32) (fw : Bool) (t : BitVec 32)  (hk₀ : Keeps b₀ s) : Keeps b₀ (State.commitAll s links fw t) := by
  unfold State.commitAll
  try dsimp only
  repeat' (first | (with_reducible first | assumption | intro _ | apply keeps_pierRequest | apply keeps_foldl) | dsimp only)

theorem keeps_mfIdle {b₀ s : State}   (hk₀ : Keeps b₀ s) : Keeps b₀ (State.mfIdle s) := by
  unfold State.mfIdle
  try dsimp only
  repeat' (first | (with_reducible first | assumption | apply keeps_upMf | apply keeps_upPort) | dsimp only)

theorem keeps_mfResult {b₀ s : State} (r : Nat) (d : Nat)  (hk₀ : Keeps b₀ s) : Keeps b₀ (State.mfResult s r d) := by
  unfold State.mfResult
  try dsimp only
  repeat' (first | (with_reducible first | assumption | apply keeps_upMf) | dsimp only)

theorem keeps_mfOpen {b₀ s : State}   (hk₀ : Keeps b₀ s) : Keeps b₀ (State.mfOpen s) := by
  unfold State.mfOpen
  try dsimp only
  repeat' (first | (with_reducible first | assumption | apply keeps_ite | apply keeps_mfResult | apply keeps_notice | apply keeps_upMf | apply keeps_upPort) | dsimp only)

theorem ends_ManifestOpen {b₀ s : State}   (hk₀ : Keeps b₀ s) : Ends b₀ (execManifestOpen s) := by
  unfold execManifestOpen
  try dsimp only
  repeat' (first | (with_reducible first | assumption | intro _ | apply ends_whenDo | apply ends_next | apply keeps_farWrite | apply keeps_mfOpen) | dsimp only)

theorem keeps_mfBlockCrc {b₀ s : State} (crc : BitVec 32)  (hk₀ : Keeps b₀ s) : Keeps b₀ (State.mfBlockCrc s crc) := by
  unfold State.mfBlockCrc
  try dsimp only
  repeat' (first | (with_reducible first | assumption | apply keeps_ite | apply keeps_upMf | apply keeps_notice) | dsimp only)

theorem ends_ManifestBlockCrc {b₀ s : State} (crc : BitVec 32)  (hk₀ : Keeps b₀ s) : Ends b₀ (execManifestBlockCrc crc s) := by
  unfold execManifestBlockCrc
  try dsimp only
  repeat' (first | (with_reducible first | assumption | intro _ | apply ends_whenDo | apply ends_next | apply keeps_farWrite | apply keeps_mfBlockCrc) | dsimp only)

theorem keeps_mfVerify {b₀ s : State}   (hk₀ : Keeps b₀ s) : Keeps b₀ (State.mfVerify s) := by
  unfold State.mfVerify
  try dsimp only
  repeat' (first | (with_reducible first | assumption | apply keeps_ite | apply keeps_mfResult | apply keeps_latch | apply keeps_upMf | apply keeps_verification | apply keeps_notice) | split | dsimp only)

theorem ends_ManifestVerify {b₀ s : State}   (hk₀ : Keeps b₀ s) : Ends b₀ (execManifestVerify s) := by
  unfold execManifestVerify
  try dsimp only
  repeat' (first | (with_reducible first | assumption | intro _ | apply ends_whenDo | apply ends_next | apply keeps_farWrite | apply keeps_mfVerify) | dsimp only)

theorem keeps_countVerify {b₀ s : State} (v : Option Bool)  (hk₀ : Keeps b₀ s) : Keeps b₀ (State.countVerify s v) := by
  unfold State.countVerify
  try dsimp only
  repeat' (first | (with_reducible first | assumption | apply keeps_ite | apply keeps_upCry) | dsimp only)

theorem keeps_mfVerifyEnd {b₀ s : State}   (hk₀ : Keeps b₀ s) : Keeps b₀ (State.mfVerifyEnd s) := by
  unfold State.mfVerifyEnd
  try dsimp only
  repeat' (first | (with_reducible first | assumption | apply keeps_kecDone | apply keeps_countVerify | apply keeps_upMf | apply keeps_mfResult | apply keeps_latch) | refine keeps_snd (by assumption) ?_ | refine keeps_fst (by assumption) ?_ | split | dsimp only)

theorem ends_ManifestVerifyDone {b₀ s : State}   (hk₀ : Keeps b₀ s) : Ends b₀ (execManifestVerifyDone s) := by
  unfold execManifestVerifyDone
  try dsimp only
  repeat' (first | (with_reducible first | assumption | apply ends_whenDo | apply ends_next | apply keeps_mfVerifyEnd) | dsimp only)

theorem keeps_mfCommit {b₀ s : State}   (hk₀ : Keeps b₀ s) : Keeps b₀ (State.mfCommit s) := by
  unfold State.mfCommit
  try dsimp only
  repeat' (first | (with_reducible first | assumption | intro _ | apply keeps_ite | apply keeps_leaveSlack | apply keeps_upMf | apply keeps_pushImage | apply keeps_notice | apply keeps_foldl) | dsimp only)

theorem ends_ManifestCommit {b₀ s : State}   (hk₀ : Keeps b₀ s) : Ends b₀ (execManifestCommit s) := by
  unfold execManifestCommit
  try dsimp only
  repeat' (first | (with_reducible first | assumption | intro _ | apply ends_whenDo | apply ends_next | apply keeps_farWrite | apply keeps_mfCommit) | dsimp only)

theorem keeps_mfArm {b₀ s : State}   (hk₀ : Keeps b₀ s) : Keeps b₀ (State.mfArm s) := by
  unfold State.mfArm
  try dsimp only
  repeat' (first | (with_reducible first | assumption | apply keeps_ite | apply keeps_upMf | apply keeps_commitAll) | refine keeps_snd (by assumption) ?_ | refine keeps_fst (by assumption) ?_ | split | dsimp only)

theorem keeps_mfRefuse {b₀ s : State} (anchor : Nat)  (hk₀ : Keeps b₀ s) : Keeps b₀ (State.mfRefuse s anchor) := by
  unfold State.mfRefuse
  try dsimp only
  repeat' (first | (with_reducible first | assumption | apply keeps_upMf | apply keeps_mfResult | apply keeps_latch | apply keeps_commitAll) | dsimp only)

theorem keeps_mfWritten {b₀ s : State} (ok : Bool)  (hk₀ : Keeps b₀ s) : Keeps b₀ (State.mfWritten s ok) := by
  unfold State.mfWritten
  try dsimp only
  repeat' (first | (with_reducible first | assumption | apply keeps_ite | apply keeps_writeBank | apply keeps_upMf | apply keeps_mfArm | apply keeps_mfRefuse) | dsimp only)

theorem ends_ManifestWriteDone {b₀ s : State} (ok : Bool)  (hk₀ : Keeps b₀ s) : Ends b₀ (execManifestWriteDone ok s) := by
  unfold execManifestWriteDone
  try dsimp only
  repeat' (first | (with_reducible first | assumption | apply ends_whenDo | apply ends_next | apply keeps_mfWritten) | dsimp only)

theorem keeps_mfTender {b₀ s : State} (n : Nat) (ready : Bool)  (hk₀ : Keeps b₀ s) : Keeps b₀ (State.mfTender s n ready) := by
  unfold State.mfTender
  try dsimp only
  repeat' (first | (with_reducible first | assumption | apply keeps_ite | apply keeps_upMf | apply keeps_mfArm | apply keeps_mfRefuse) | dsimp only)

theorem keeps_mfAbort {b₀ s : State}   (hk₀ : Keeps b₀ s) : Keeps b₀ (State.mfAbort s) := by
  unfold State.mfAbort
  try dsimp only
  repeat' (first | (with_reducible first | assumption | apply keeps_mfIdle | apply keeps_commitAll | apply keeps_upMf | apply keeps_notice) | split | dsimp only)

theorem ends_ManifestAbort {b₀ s : State}   (hk₀ : Keeps b₀ s) : Ends b₀ (execManifestAbort s) := by
  unfold execManifestAbort
  try dsimp only
  repeat' (first | (with_reducible first | assumption | intro _ | apply ends_whenDo | apply ends_next | apply keeps_farWrite | apply keeps_mfAbort) | dsimp only)

theorem keeps_mfCommand {b₀ s : State} (v : BitVec 32)  (hk₀ : Keeps b₀ s) : Keeps b₀ (State.mfCommand s v) := by
  unfold State.mfCommand
  try dsimp only
  repeat' (first | (with_reducible first | assumption | apply keeps_mfOpen | apply keeps_mfVerify | apply keeps_mfCommit | apply keeps_mfAbort | apply keeps_notice) | split | dsimp only)

theorem keeps_applyRules {b₀ s : State} (k f : List (BitVec 8)) (h : Keeps b₀ s) : Keeps b₀ (s.applyRules k f) :=
  keeps_upBt h fun _ hx => by simpa [BerthTable.ok] using hx

theorem keeps_applyLf {b₀ s : State} (o n : Settings) (h : Keeps b₀ s) : Keeps b₀ (s.applyLf o n) :=
  keeps_upLf h fun _ hx => by simpa only [Lf.ok] using hx

theorem CanBlk.ok_total (n : Nat) : ∀ c : CanBlk, c.ok = true → CanBlk.ok { c with total := n } = true := by
  intro c hc
  have : c.ctl.length = 8 := by simpa [CanBlk.ok] using hc
  simp [CanBlk.ok, this]

theorem keeps_applyCan {b₀ s : State} (n : Settings) (h : Keeps b₀ s) : Keeps b₀ (s.applyCan n) := by
  unfold State.applyCan
  have h2 : Keeps b₀ (s.canOwners fun n => n < 7) := keeps_canOwners _ h
  revert h2
  generalize (s.canOwners fun n => n < 7) = t
  exact fun h2 => keeps_upCan h2 (CanBlk.ok_total n.canTotal)

theorem keeps_applyRecord {b₀ s : State} (n : Settings) (h : Keeps b₀ s) : Keeps b₀ (s.applyRecord n) :=
  keeps_ite (keeps_writeRecord _ h) h

theorem keeps_applyPins {b₀ s : State} (same : BitVec 24) (h : Keeps b₀ s) : Keeps b₀ (s.applyPins same) :=
  keeps_upPins h

theorem keeps_applyLinks {b₀ s : State} (n : Settings) (h : Keeps b₀ s) : Keeps b₀ (s.applyLinks n) :=
  keeps_ite (keeps_upPier h fun _ hx => by simpa [PierBlk.ok] using hx) h

theorem keeps_applyChart {b₀ s : State} (old : Settings) (new : Settings)  (hk₀ : Keeps b₀ s) : Keeps b₀ (State.applyChart s old new) := by
  unfold State.applyChart
  try dsimp only
  repeat' (first | (with_reducible first | assumption | apply keeps_ite | apply keeps_upVer | apply keeps_upBt) | exact id | intro _ | assumption | split | (simp_all [BerthTable.ok, Lf.ok, CanBlk.ok, PierBlk.ok]; done) | dsimp only)

theorem keeps_apply {b₀ s : State} (new : Settings) (h : Keeps b₀ s) : Keeps b₀ (s.apply new) :=
  keeps_applyLinks _ (keeps_applyPins _ (keeps_upNfc (keeps_upMf (keeps_upUwb (keeps_applyRecord _
    (keeps_applyCan _ (keeps_applyLf _ _ (keeps_applyChart _ _ (keeps_applyRules _ _ (keeps_upCfg h))))))))))

theorem keeps_manifestBoundary {b₀ s : State}   (hk₀ : Keeps b₀ s) : Keeps b₀ (State.manifestBoundary s) := by
  unfold State.manifestBoundary
  try dsimp only
  repeat' (first | (with_reducible first | assumption | apply keeps_ite | apply keeps_upMf | apply keeps_apply | apply keeps_mfIdle | apply keeps_latch) | dsimp only)

theorem keeps_adoptImage {b₀ s : State} (m : Mem) (len : Nat)  (hk₀ : Keeps b₀ s) : Keeps b₀ (State.adoptImage s m len) := by
  unfold State.adoptImage
  try dsimp only
  repeat' (first | (with_reducible first | assumption | apply keeps_apply | apply keeps_upMf | apply keeps_latch) | dsimp only)

theorem keeps_recordBank {b₀ s : State} (serial : BitVec 32)  (hk₀ : Keeps b₀ s) : Keeps b₀ (State.recordBank s serial) := by
  unfold State.recordBank
  try dsimp only
  repeat' (first | (with_reducible first | assumption | apply keeps_ite | apply keeps_upMf) | dsimp only)

theorem keeps_deferBoundary {b₀ s : State}   (hk₀ : Keeps b₀ s) : Keeps b₀ (State.deferBoundary s) := by
  unfold State.deferBoundary
  try dsimp only
  repeat' (first | (with_reducible first | assumption | apply keeps_ite | apply keeps_upMf | apply keeps_canOwners) | dsimp only)

theorem keeps_runFrom {b₀ s : State} (n : BitVec 1) (fallback : Bool)  (hk₀ : Keeps b₀ s) : Keeps b₀ (State.runFrom s n fallback) := by
  unfold State.runFrom
  try dsimp only
  repeat' (first | (with_reducible first | assumption | apply keeps_upMf | apply keeps_upCfg) | dsimp only)

theorem keeps_mfPowerUp {b₀ s : State}   (hk₀ : Keeps b₀ s) : Keeps b₀ (State.mfPowerUp s) := by
  unfold State.mfPowerUp
  try dsimp only
  repeat' (first | (with_reducible first | assumption | apply keeps_ite | apply keeps_runFrom | apply keeps_upMf | apply keeps_upCfg | apply keeps_latch | apply keeps_logRecord) | dsimp only)

theorem keeps_unmooredBoundary {b₀ s : State}   (hk₀ : Keeps b₀ s) : Keeps b₀ (State.unmooredBoundary s) := by
  unfold State.unmooredBoundary
  try dsimp only
  repeat' (first | (with_reducible first | assumption | apply keeps_ite | apply keeps_upMf | apply keeps_latchIf) | dsimp only)

end Sys2Proof.Machine
end

