-- ==== Sys2Proof/Laws/KeepsFirmware.lean ====
section
/-! SUPPORT. What the functions of Machine/Firmware.lean leave alone. -/

namespace Sys2Proof.Machine

set_option linter.all false

theorem keeps_logFirmware {b₀ s : State} (old : BitVec 16) (new : BitVec 16)  (hk₀ : Keeps b₀ s) : Keeps b₀ (State.logFirmware s old new) := by
  unfold State.logFirmware
  try dsimp only
  repeat' (first | (with_reducible first | assumption | apply keeps_logRecord) | dsimp only)

theorem keeps_fwResult {b₀ s : State} (r : Nat) (d : Nat)  (hk₀ : Keeps b₀ s) : Keeps b₀ (State.fwResult s r d) := by
  unfold State.fwResult
  try dsimp only
  repeat' (first | (with_reducible first | assumption | apply keeps_upFw) | dsimp only)

theorem keeps_fwRelease {b₀ s : State}   (hk₀ : Keeps b₀ s) : Keeps b₀ (State.fwRelease s) := by
  unfold State.fwRelease
  try dsimp only
  repeat' (first | (with_reducible first | assumption | apply keeps_ite | apply keeps_upPort) | dsimp only)

theorem keeps_fwOpen {b₀ s : State}   (hk₀ : Keeps b₀ s) : Keeps b₀ (State.fwOpen s) := by
  unfold State.fwOpen
  try dsimp only
  repeat' (first | (with_reducible first | assumption | apply keeps_ite | apply keeps_notice | apply keeps_fwResult | apply keeps_upFw | apply keeps_upPort) | dsimp only)

theorem ends_FwOpen {b₀ s : State}   (hk₀ : Keeps b₀ s) : Ends b₀ (execFwOpen s) := by
  unfold execFwOpen
  try dsimp only
  repeat' (first | (with_reducible first | assumption | intro _ | apply ends_whenDo | apply ends_next | apply keeps_nearWrite | apply keeps_fwOpen) | dsimp only)

theorem keeps_fwBlockCrc {b₀ s : State} (crc : BitVec 32)  (hk₀ : Keeps b₀ s) : Keeps b₀ (State.fwBlockCrc s crc) := by
  unfold State.fwBlockCrc
  try dsimp only
  repeat' (first | (with_reducible first | assumption | apply keeps_ite | apply keeps_drainBulk | apply keeps_upFw | apply keeps_notice) | dsimp only)

theorem ends_FwBlockCrc {b₀ s : State} (crc : BitVec 32)  (hk₀ : Keeps b₀ s) : Ends b₀ (execFwBlockCrc crc s) := by
  unfold execFwBlockCrc
  try dsimp only
  repeat' (first | (with_reducible first | assumption | intro _ | apply ends_whenDo | apply ends_next | apply keeps_nearWrite | apply keeps_fwBlockCrc) | dsimp only)

theorem keeps_fwVerify {b₀ s : State}   (hk₀ : Keeps b₀ s) : Keeps b₀ (State.fwVerify s) := by
  unfold State.fwVerify
  try dsimp only
  repeat' (first | (with_reducible first | assumption | apply keeps_ite | apply keeps_fwResult | apply keeps_upFw | apply keeps_fwRelease | apply keeps_verification | apply keeps_notice) | split | dsimp only)

theorem ends_FwVerify {b₀ s : State}   (hk₀ : Keeps b₀ s) : Ends b₀ (execFwVerify s) := by
  unfold execFwVerify
  try dsimp only
  repeat' (first | (with_reducible first | assumption | intro _ | apply ends_whenDo | apply ends_next | apply keeps_nearWrite | apply keeps_fwVerify) | dsimp only)

theorem keeps_fwVerifyEnd {b₀ s : State}   (hk₀ : Keeps b₀ s) : Keeps b₀ (State.fwVerifyEnd s) := by
  unfold State.fwVerifyEnd
  try dsimp only
  repeat' (first | (with_reducible first | assumption | apply keeps_ite | apply keeps_kecDone | apply keeps_countVerify | apply keeps_upFw | apply keeps_fwResult) | refine keeps_snd (by assumption) ?_ | refine keeps_fst (by assumption) ?_ | split | dsimp only)

theorem ends_FwVerifyDone {b₀ s : State}   (hk₀ : Keeps b₀ s) : Ends b₀ (execFwVerifyDone s) := by
  unfold execFwVerifyDone
  try dsimp only
  repeat' (first | (with_reducible first | assumption | apply ends_whenDo | apply ends_next | apply keeps_fwVerifyEnd) | dsimp only)

theorem keeps_fwActivate {b₀ s : State}   (hk₀ : Keeps b₀ s) : Keeps b₀ (State.fwActivate s) := by
  unfold State.fwActivate
  try dsimp only
  repeat' (first | (with_reducible first | assumption | intro _ | apply keeps_ite | apply keeps_leaveSlack | apply keeps_upFw | apply keeps_pushImage | apply keeps_notice | apply keeps_foldl) | dsimp only)

theorem ends_FwActivate {b₀ s : State}   (hk₀ : Keeps b₀ s) : Ends b₀ (execFwActivate s) := by
  unfold execFwActivate
  try dsimp only
  repeat' (first | (with_reducible first | assumption | intro _ | apply ends_whenDo | apply ends_next | apply keeps_nearWrite | apply keeps_fwActivate) | dsimp only)

theorem keeps_fwArm {b₀ s : State}   (hk₀ : Keeps b₀ s) : Keeps b₀ (State.fwArm s) := by
  unfold State.fwArm
  try dsimp only
  repeat' (first | (with_reducible first | assumption | apply keeps_ite | apply keeps_upFw | apply keeps_commitAll) | refine keeps_snd (by assumption) ?_ | refine keeps_fst (by assumption) ?_ | dsimp only)

theorem keeps_fwRefuse {b₀ s : State} (anchor : Nat)  (hk₀ : Keeps b₀ s) : Keeps b₀ (State.fwRefuse s anchor) := by
  unfold State.fwRefuse
  try dsimp only
  repeat' (first | (with_reducible first | assumption | apply keeps_upFw | apply keeps_fwResult | apply keeps_commitAll) | dsimp only)

theorem keeps_fwReadBack {b₀ s : State} (ok : Bool)  (hk₀ : Keeps b₀ s) : Keeps b₀ (State.fwReadBack s ok) := by
  unfold State.fwReadBack
  try dsimp only
  repeat' (first | (with_reducible first | assumption | apply keeps_ite | apply keeps_upFw | apply keeps_fwArm | apply keeps_fwRefuse) | dsimp only)

theorem ends_FwDistributionDone {b₀ s : State} (ok : Bool)  (hk₀ : Keeps b₀ s) : Ends b₀ (execFwDistributionDone ok s) := by
  unfold execFwDistributionDone
  try dsimp only
  repeat' (first | (with_reducible first | assumption | apply ends_whenDo | apply ends_next | apply keeps_fwReadBack) | dsimp only)

theorem keeps_fwTender {b₀ s : State} (n : Nat) (ready : Bool)  (hk₀ : Keeps b₀ s) : Keeps b₀ (State.fwTender s n ready) := by
  unfold State.fwTender
  try dsimp only
  repeat' (first | (with_reducible first | assumption | apply keeps_ite | apply keeps_upFw | apply keeps_fwArm | apply keeps_fwRefuse) | dsimp only)

theorem keeps_fwIdle {b₀ s : State}   (hk₀ : Keeps b₀ s) : Keeps b₀ (State.fwIdle s) := by
  unfold State.fwIdle
  try dsimp only
  repeat' (first | (with_reducible first | assumption | apply keeps_upFw | apply keeps_fwRelease) | dsimp only)

theorem keeps_fwAbort {b₀ s : State}   (hk₀ : Keeps b₀ s) : Keeps b₀ (State.fwAbort s) := by
  unfold State.fwAbort
  try dsimp only
  repeat' (first | (with_reducible first | assumption | apply keeps_ite | apply keeps_commitAll | apply keeps_upFw | apply keeps_fwIdle | apply keeps_notice) | dsimp only)

theorem ends_FwAbort {b₀ s : State}   (hk₀ : Keeps b₀ s) : Ends b₀ (execFwAbort s) := by
  unfold execFwAbort
  try dsimp only
  repeat' (first | (with_reducible first | assumption | intro _ | apply ends_whenDo | apply ends_next | apply keeps_nearWrite | apply keeps_fwAbort) | dsimp only)

theorem keeps_fwCommand {b₀ s : State} (v : BitVec 32)  (hk₀ : Keeps b₀ s) : Keeps b₀ (State.fwCommand s v) := by
  unfold State.fwCommand
  try dsimp only
  repeat' (first | (with_reducible first | assumption | apply keeps_fwOpen | apply keeps_fwVerify | apply keeps_fwActivate | apply keeps_fwAbort | apply keeps_notice) | split | dsimp only)

theorem keeps_stopPair {b₀ s : State} (b : Bool)  (hk₀ : Keeps b₀ s) : Keeps b₀ (State.stopPair s b) := by
  unfold State.stopPair
  try dsimp only
  repeat' (first | (with_reducible first | assumption | apply keeps_ite | apply keeps_upIntc | apply keeps_upSys) | (with_reducible first | intro _ | exact Intc.complete_ok (by assumption) _ _ | exact Intc.claim_ok (by assumption) _ | exact Intc.stopTarget_ok (by assumption) _ | exact Intc.foldl_ok _ (fun i n h => Intc.clearBit_ok h n) _ (by assumption) | exact Intc.foldl_ok _ (fun i n h => Intc.enableHost_ok h _ _) _ (by assumption)) | exact Intc.ok_same (by assumption) rfl rfl rfl rfl rfl rfl rfl rfl rfl rfl | dsimp only)

theorem keeps_fwBoundary {b₀ s : State}   (hk₀ : Keeps b₀ s) : Keeps b₀ (State.fwBoundary s) := by
  unfold State.fwBoundary
  try dsimp only
  repeat' (first | (with_reducible first | assumption | apply keeps_ite | apply keeps_upTend | apply keeps_upFw | apply keeps_stopPair | apply keeps_logFirmware) | split | dsimp only)

theorem keeps_pairBack {b₀ s : State} (b : Bool)  (hk₀ : Keeps b₀ s) : Keeps b₀ (State.pairBack s b) := by
  unfold State.pairBack
  try dsimp only
  repeat' (first | (with_reducible first | assumption | apply keeps_ite | apply keeps_upSys | apply keeps_upFw) | dsimp only)

theorem ends_PairRejoin {b₀ s : State} (pairB : Bool)  (hk₀ : Keeps b₀ s) : Ends b₀ (execPairRejoin pairB s) := by
  unfold execPairRejoin
  try dsimp only
  repeat' (first | (with_reducible first | assumption | apply ends_whenDo | apply ends_next | apply keeps_pairBack) | dsimp only)

theorem keeps_fwHandover {b₀ s : State}   (hk₀ : Keeps b₀ s) : Keeps b₀ (State.fwHandover s) := by
  unfold State.fwHandover
  try dsimp only
  repeat' (first | (with_reducible first | assumption | apply keeps_upFw) | dsimp only)

theorem ends_FwHandoverDone {b₀ s : State}   (hk₀ : Keeps b₀ s) : Ends b₀ (execFwHandoverDone s) := by
  unfold execFwHandoverDone
  try dsimp only
  repeat' (first | (with_reducible first | assumption | apply ends_whenDo | apply ends_next | apply keeps_fwHandover) | dsimp only)

theorem keeps_fwConfirm {b₀ s : State}   (hk₀ : Keeps b₀ s) : Keeps b₀ (State.fwConfirm s) := by
  unfold State.fwConfirm
  try dsimp only
  repeat' (first | (with_reducible first | assumption | apply keeps_upFw | apply keeps_logFirmware) | dsimp only)

theorem ends_FwTrialEnd {b₀ s : State}   (hk₀ : Keeps b₀ s) : Ends b₀ (execFwTrialEnd s) := by
  unfold execFwTrialEnd
  try dsimp only
  repeat' (first | (with_reducible first | assumption | apply ends_whenDo | apply ends_next | apply keeps_fwConfirm) | dsimp only)

theorem keeps_fwRevert {b₀ s : State}   (hk₀ : Keeps b₀ s) : Keeps b₀ (State.fwRevert s) := by
  unfold State.fwRevert
  try dsimp only
  repeat' (first | (with_reducible first | assumption | apply keeps_upFw | apply keeps_latch | apply keeps_logFirmware) | dsimp only)

end Sys2Proof.Machine
end

