-- ==== Sys2Proof/Laws/KeepsUwb.lean ====
section
/-! SUPPORT. What the functions of Machine/Uwb.lean leave alone. -/

namespace Sys2Proof.Machine

set_option linter.all false

theorem keeps_pllUCalStart {b₀ s : State}   (hk₀ : Keeps b₀ s) : Keeps b₀ (State.pllUCalStart s) := by
  unfold State.pllUCalStart
  try dsimp only
  repeat' (first | (with_reducible first | assumption | apply keeps_ite | apply keeps_upUwb) | dsimp only)

theorem keeps_uwbCtrl {b₀ s : State} (v : BitVec 32)  (hk₀ : Keeps b₀ s) : Keeps b₀ (State.uwbCtrl s v) := by
  unfold State.uwbCtrl
  try dsimp only
  repeat' (first | (with_reducible first | assumption | apply keeps_ite | apply keeps_upUwb) | dsimp only)

theorem ends_UwbCal {b₀ s : State}   (hk₀ : Keeps b₀ s) : Ends b₀ (execUwbCal s) := by
  unfold execUwbCal
  try dsimp only
  repeat' (first | (with_reducible first | assumption | intro _ | apply ends_whenDo | apply ends_next | apply keeps_farWrite | apply keeps_uwbCtrl) | dsimp only)

theorem keeps_modRounds {b₀ s : State} (p : Round → Bool) (f : Round → Round)  (hk₀ : Keeps b₀ s) : Keeps b₀ (State.modRounds s p f) := by
  unfold State.modRounds
  try dsimp only
  repeat' (first | (with_reducible first | assumption | apply keeps_ite | apply keeps_upUwb) | dsimp only)

theorem keeps_modFirst {b₀ s : State} (p : Round → Bool) (f : Round → Round)  (hk₀ : Keeps b₀ s) : Keeps b₀ (State.modFirst s p f) := by
  unfold State.modFirst
  try dsimp only
  repeat' (first | (with_reducible first | assumption | apply keeps_upUwb) | dsimp only)

theorem keeps_frameSent {b₀ s : State} (t : BitVec 40) (c : Nat) (a : Nat) (b : Nat)  (hk₀ : Keeps b₀ s) : Keeps b₀ (State.frameSent s t c a b) := by
  unfold State.frameSent
  try dsimp only
  repeat' (first | (with_reducible first | assumption | apply keeps_upUwb | apply keeps_enableAmp) | refine keeps_snd (by assumption) ?_ | refine keeps_fst (by assumption) ?_ | dsimp only)

theorem keeps_loseRound {b₀ s : State}   (hk₀ : Keeps b₀ s) : Keeps b₀ (State.loseRound s) := by
  unfold State.loseRound
  try dsimp only
  repeat' (first | (with_reducible first | assumption | apply keeps_modFirst) | dsimp only)

theorem keeps_sendCtrl {b₀ s : State} (at_ : Nat)  (hk₀ : Keeps b₀ s) : Keeps b₀ (State.sendCtrl s at_) := by
  unfold State.sendCtrl
  try dsimp only
  repeat' (first | (with_reducible first | assumption | intro _ | apply keeps_ite | apply keeps_modFirst | apply keeps_upUwb | apply keeps_frameSent | apply keeps_withKey | apply keeps_violation | apply keeps_loseRound) | split | dsimp only)

theorem keeps_uwbLate {b₀ s : State}   (hk₀ : Keeps b₀ s) : Keeps b₀ (State.uwbLate s) := by
  unfold State.uwbLate
  try dsimp only
  repeat' (first | (with_reducible first | assumption | apply keeps_upUwb | apply keeps_latch) | dsimp only)

theorem keeps_uwbTestRun {b₀ s : State}   (hk₀ : Keeps b₀ s) : Keeps b₀ (State.uwbTestRun s) := by
  unfold State.uwbTestRun
  try dsimp only
  repeat' (first | (with_reducible first | assumption | intro _ | apply keeps_upUwb | apply keeps_addJob | apply keeps_frameSent | apply keeps_foldl) | dsimp only)

theorem keeps_dropUwbHeld {b₀ s : State}   (hk₀ : Keeps b₀ s) : Keeps b₀ (State.dropUwbHeld s) := by
  unfold State.dropUwbHeld
  try dsimp only
  repeat' (first | (with_reducible first | assumption | apply keeps_ite | apply keeps_upUwb | apply keeps_uwbLate | apply keeps_loseRound) | split | dsimp only)

theorem keeps_pllUUp {b₀ s : State}   (hk₀ : Keeps b₀ s) : Keeps b₀ (State.pllUUp s) := by
  unfold State.pllUUp
  try dsimp only
  repeat' (first | (with_reducible first | assumption | apply keeps_ite | apply keeps_upUwb | apply keeps_uwbTestRun | apply keeps_sendCtrl | apply keeps_dropUwbHeld) | split | dsimp only)

theorem keeps_moveRound {b₀ s : State} (r : Round)  (hk₀ : Keeps b₀ s) : Keeps b₀ (State.moveRound s r) := by
  unfold State.moveRound
  try dsimp only
  repeat' (first | (with_reducible first | assumption | apply keeps_upBt | apply keeps_modFu) | exact id | intro _ | assumption | split | (simp_all [BerthTable.ok, Lf.ok, CanBlk.ok, PierBlk.ok]; done) | dsimp only)

theorem keeps_waitRounds {b₀ s : State}   (hk₀ : Keeps b₀ s) : Keeps b₀ (State.waitRounds s) := by
  unfold State.waitRounds
  try dsimp only
  repeat' (first | (with_reducible first | assumption | intro _ | apply keeps_upUwb | apply keeps_moveRound | apply keeps_latchIf | apply keeps_foldl) | refine keeps_snd (by assumption) ?_ | refine keeps_fst (by assumption) ?_ | dsimp only)

theorem ends_PllUCalDone {b₀ s : State} (ok : Bool) (temp : BitVec 16)  (hk₀ : Keeps b₀ s) : Ends b₀ (execPllUCalDone ok temp s) := by
  unfold execPllUCalDone
  try dsimp only
  repeat' (first | (with_reducible first | assumption | apply ends_whenDo | apply ends_next | apply keeps_ite | apply ends_ite | apply keeps_upUwb | apply keeps_pllUUp | apply keeps_waitRounds | apply keeps_dropUwbHeld | apply keeps_latch) | dsimp only)

theorem ends_PllULock {b₀ s : State}   (hk₀ : Keeps b₀ s) : Ends b₀ (execPllULock s) := by
  unfold execPllULock
  try dsimp only
  repeat' (first | (with_reducible first | assumption | apply ends_whenDo | apply ends_next | apply keeps_pllUUp) | dsimp only)

theorem ends_PllULossOfLock {b₀ s : State}   (hk₀ : Keeps b₀ s) : Ends b₀ (execPllULossOfLock s) := by
  unfold execPllULossOfLock
  try dsimp only
  repeat' (first | (with_reducible first | assumption | apply ends_whenDo | apply ends_next | apply keeps_ite | apply ends_ite | apply keeps_modRounds | apply keeps_upUwb | apply keeps_upPins | apply keeps_latch | apply keeps_pllUCalStart) | dsimp only)

theorem keeps_placeRounds {b₀ s : State} (lim : Nat) (l : List Nat) (c : Nat) (h : Keeps b₀ s) :
    Keeps b₀ (State.placeRounds lim l c s) := by
  induction l generalizing s c with
  | nil => exact h
  | cons n l ih =>
    unfold State.placeRounds
    dsimp only
    repeat' (first | (with_reducible first | assumption | apply ih | apply keeps_upUwb | apply keeps_modSe | apply keeps_modFu | apply keeps_upBt) | exact fun _ h => h | split)

theorem keeps_scheduleRounds {b₀ s : State}   (hk₀ : Keeps b₀ s) : Keeps b₀ (State.scheduleRounds s) := by
  unfold State.scheduleRounds
  try dsimp only
  repeat' (first | (with_reducible first | assumption | intro _ | apply keeps_ite | apply keeps_upUwb | apply keeps_placeRounds | apply keeps_postSchedule | apply keeps_foldl) | dsimp only)

theorem keeps_renewSession {b₀ s : State} (n : Nat)  (hk₀ : Keeps b₀ s) : Keeps b₀ (State.renewSession s n) := by
  unfold State.renewSession
  try dsimp only
  repeat' (first | (with_reducible first | assumption | apply keeps_ite | apply keeps_dropSlot | apply keeps_releaseSid | apply keeps_modSe | apply keeps_openSession) | split | dsimp only)

theorem keeps_renewSessions {b₀ s : State}   (hk₀ : Keeps b₀ s) : Keeps b₀ (State.renewSessions s) := by
  unfold State.renewSessions
  try dsimp only
  repeat' (first | (with_reducible first | assumption | intro _ | apply keeps_renewSession | apply keeps_foldl) | dsimp only)

theorem keeps_uwbPower {b₀ s : State}   (hk₀ : Keeps b₀ s) : Keeps b₀ (State.uwbPower s) := by
  unfold State.uwbPower
  try dsimp only
  repeat' (first | (with_reducible first | assumption | apply keeps_ite | apply keeps_upUwb | apply keeps_dropUwbHeld | apply keeps_pllUCalStart) | dsimp only)

theorem keeps_uwbBoundary {b₀ s : State} (temp : BitVec 16)  (hk₀ : Keeps b₀ s) : Keeps b₀ (State.uwbBoundary s temp) := by
  unfold State.uwbBoundary
  try dsimp only
  repeat' (first | (with_reducible first | assumption | apply keeps_upUwb | apply keeps_uwbPower) | dsimp only)

theorem keeps_uwbTakes {b₀ s : State}   (hk₀ : Keeps b₀ s) : Keeps b₀ (State.uwbTakes s) := by
  unfold State.uwbTakes
  try dsimp only
  repeat' (first | (with_reducible first | assumption | apply keeps_ite | apply keeps_upUwb | apply keeps_upMf | apply keeps_upPins | apply keeps_latch) | refine keeps_snd (by assumption) ?_ | refine keeps_fst (by assumption) ?_ | dsimp only)

theorem keeps_prepare {b₀ s : State} (r : Round) (temp : BitVec 16)  (hk₀ : Keeps b₀ s) : Keeps b₀ (State.prepare s r temp) := by
  unfold State.prepare
  try dsimp only
  repeat' (first | (with_reducible first | assumption | apply keeps_ite | apply keeps_uwbTakes | apply keeps_modFirst | apply keeps_addJob | apply keeps_upUwb | apply keeps_pllUCalStart) | dsimp only)

theorem ends_RoundPreparation {b₀ s : State} (temp : BitVec 16)  (hk₀ : Keeps b₀ s) : Ends b₀ (execRoundPreparation temp s) := by
  unfold execRoundPreparation
  try dsimp only
  repeat' (first | (with_reducible first | assumption | apply ends_whenDo | apply ends_next | apply keeps_prepare) | split | dsimp only)

theorem keeps_startRound {b₀ s : State} (r : Round)  (hk₀ : Keeps b₀ s) : Keeps b₀ (State.startRound s r) := by
  unfold State.startRound
  try dsimp only
  repeat' (first | (with_reducible first | assumption | apply keeps_ite | apply keeps_loseRound | apply keeps_modFirst | apply keeps_sendCtrl | apply keeps_uwbLate | apply keeps_upUwb) | split | dsimp only)

theorem ends_UwbCtrlTransmit {b₀ s : State}   (hk₀ : Keeps b₀ s) : Ends b₀ (execUwbCtrlTransmit s) := by
  unfold execUwbCtrlTransmit
  try dsimp only
  repeat' (first | (with_reducible first | assumption | apply ends_whenDo | apply ends_next | apply keeps_startRound) | split | dsimp only)

theorem keeps_cirPut {b₀ s : State} (b : Bytes)  (hk₀ : Keeps b₀ s) : Keeps b₀ (State.cirPut s b) := by
  unfold State.cirPut
  try dsimp only
  repeat' (first | (with_reducible first | assumption | apply keeps_ite | apply keeps_upUwb | apply keeps_latchIf) | refine keeps_snd (by assumption) ?_ | refine keeps_fst (by assumption) ?_ | dsimp only)

theorem keeps_cirExport {b₀ s : State} (chain : Nat) (berth : Nat) (b : Bytes)  (hk₀ : Keeps b₀ s) : Keeps b₀ (State.cirExport s chain berth b) := by
  unfold State.cirExport
  try dsimp only
  repeat' (first | (with_reducible first | assumption | apply keeps_ite | apply keeps_pierPost) | split | dsimp only)

theorem keeps_cirCapture {b₀ s : State} (berth : Nat) (frame : Nat) (inside : BitVec 40 → Bool) (x : UwbStamp)  (hk₀ : Keeps b₀ s) : Keeps b₀ (State.cirCapture s berth frame inside x) := by
  unfold State.cirCapture
  try dsimp only
  repeat' (first | (with_reducible first | assumption | intro _ | apply keeps_ite | apply keeps_cirExport | apply keeps_cirPut | apply keeps_foldl) | dsimp only)

theorem keeps_exportRx {b₀ s : State} (kind : Nat) (berth : Nat) (x : UwbMeas)  (hk₀ : Keeps b₀ s) : Keeps b₀ (State.exportRx s kind berth x) := by
  unfold State.exportRx
  try dsimp only
  repeat' (first | (with_reducible first | assumption | apply keeps_ite | apply keeps_pierPost) | split | dsimp only)

theorem keeps_takePoll {b₀ s : State} (r : Round) (x : UwbMeas)  (hk₀ : Keeps b₀ s) : Keeps b₀ (State.takePoll s r x) := by
  unfold State.takePoll
  try dsimp only
  repeat' (first | (with_reducible first | assumption | apply keeps_ite | apply keeps_modRounds) | dsimp only)

theorem keeps_keyFrame {b₀ s : State} (r : Round) (rx : Option UwbStamp) (frame : Nat) (plan : BitVec 40)
    (eff : State → UwbMeas → State) (he : ∀ x m, Keeps b₀ x → Keeps b₀ (eff x m)) (h : Keeps b₀ s) :
    Keeps b₀ (State.keyFrame s r rx frame plan eff) := by
  unfold State.keyFrame
  repeat' (first | (with_reducible first | assumption | apply keeps_ite | apply keeps_cirCapture | apply keeps_exportRx | apply keeps_upUwb | apply he) | split | dsimp only)

theorem ends_UwbPoll {b₀ s : State} (rx : Option UwbStamp)  (hk₀ : Keeps b₀ s) : Ends b₀ (execUwbPoll rx s) := by
  unfold execUwbPoll
  try dsimp only
  repeat' (first | (with_reducible first | assumption | intro _ | apply ends_whenDo | apply ends_next | apply keeps_modFirst | apply keeps_keyFrame | apply keeps_takePoll) | split | dsimp only)

theorem keeps_setResponse {b₀ s : State} (r : Round) (a : Nat) (t : BitVec 40)  (hk₀ : Keeps b₀ s) : Keeps b₀ (State.setResponse s r a t) := by
  unfold State.setResponse
  try dsimp only
  repeat' (first | (with_reducible first | assumption | apply keeps_modRounds) | dsimp only)

theorem keeps_sendResponse {b₀ s : State} (r : Round) (i : Nat) (p : BitVec 40)  (hk₀ : Keeps b₀ s) : Keeps b₀ (State.sendResponse s r i p) := by
  unfold State.sendResponse
  try dsimp only
  repeat' (first | (with_reducible first | assumption | apply keeps_setResponse | apply keeps_frameSent | apply keeps_exportRx) | dsimp only)

theorem ends_UwbResponseTransmit {b₀ s : State} (slot : BitVec 4)  (hk₀ : Keeps b₀ s) : Ends b₀ (execUwbResponseTransmit slot s) := by
  unfold execUwbResponseTransmit
  try dsimp only
  repeat' (first | (with_reducible first | assumption | apply ends_whenDo | apply ends_next | apply keeps_ite | apply ends_ite | apply keeps_sendResponse | apply keeps_uwbLate) | split | dsimp only)

theorem keeps_takeFinal {b₀ s : State} (r : Round) (x : UwbMeas)  (hk₀ : Keeps b₀ s) : Keeps b₀ (State.takeFinal s r x) := by
  unfold State.takeFinal
  try dsimp only
  repeat' (first | (with_reducible first | assumption | apply keeps_modRounds) | dsimp only)

theorem ends_UwbFinal {b₀ s : State} (rx : Option UwbStamp)  (hk₀ : Keeps b₀ s) : Ends b₀ (execUwbFinal rx s) := by
  unfold execUwbFinal
  try dsimp only
  repeat' (first | (with_reducible first | assumption | intro _ | apply ends_whenDo | apply ends_next | apply keeps_modFirst | apply keeps_keyFrame | apply keeps_takeFinal) | split | dsimp only)

theorem keeps_finalData {b₀ s : State} (r : Round) (payload : Bytes)  (hk₀ : Keeps b₀ s) : Keeps b₀ (State.finalData s r payload) := by
  unfold State.finalData
  try dsimp only
  repeat' (first | (with_reducible first | assumption | intro _ | apply keeps_ite | apply keeps_withKey | apply keeps_modFirst | apply keeps_upUwb) | dsimp only)

theorem ends_UwbFinalData {b₀ s : State} (begin_ : BitVec 40) (payload : Bytes)  (hk₀ : Keeps b₀ s) : Ends b₀ (execUwbFinalData begin_ payload s) := by
  unfold execUwbFinalData
  try dsimp only
  repeat' (first | (with_reducible first | assumption | apply ends_whenDo | apply ends_next | apply keeps_finalData | apply keeps_upUwb) | split | dsimp only)

theorem keeps_endRound {b₀ s : State} (r : Round)  (hk₀ : Keeps b₀ s) : Keeps b₀ (State.endRound s r) := by
  unfold State.endRound
  try dsimp only
  repeat' (first | (with_reducible first | assumption | apply keeps_ite | apply keeps_modFirst | apply keeps_upUwb | apply keeps_upNb | apply keeps_postSchedule | apply keeps_pllUCalStart) | dsimp only)

theorem ends_UwbRoundEnd {b₀ s : State}   (hk₀ : Keeps b₀ s) : Ends b₀ (execUwbRoundEnd s) := by
  unfold execUwbRoundEnd
  try dsimp only
  repeat' (first | (with_reducible first | assumption | apply ends_whenDo | apply ends_next | apply keeps_endRound) | split | dsimp only)

theorem keeps_deliverRx {b₀ s : State} (r : Round) (m : UwbRx)  (hk₀ : Keeps b₀ s) : Keeps b₀ (State.deliverRx r s m) := by
  unfold State.deliverRx
  try dsimp only
  repeat' (first | (with_reducible first | assumption | apply keeps_ite | apply keeps_upUwb | apply keeps_measure) | refine keeps_snd (by assumption) ?_ | refine keeps_fst (by assumption) ?_ | split | dsimp only)

theorem keeps_deliverRound {b₀ s : State} (r : Round)  (hk₀ : Keeps b₀ s) : Keeps b₀ (State.deliverRound s r) := by
  unfold State.deliverRound
  try dsimp only
  repeat' (first | (with_reducible first | assumption | intro _ | apply keeps_ite | apply keeps_modFirst | apply keeps_deliverRx | apply keeps_modFu | apply keeps_latchIf | apply keeps_foldl) | dsimp only)

theorem ends_RoundResults {b₀ s : State}   (hk₀ : Keeps b₀ s) : Ends b₀ (execRoundResults s) := by
  unfold execRoundResults
  try dsimp only
  repeat' (first | (with_reducible first | assumption | apply ends_whenDo | apply ends_next | apply keeps_deliverRound) | split | dsimp only)

theorem ends_ForeignUwbFrame {b₀ s : State} (f : UwbFormat)  (hk₀ : Keeps b₀ s) : Ends b₀ (execForeignUwbFrame f s) := by
  unfold execForeignUwbFrame
  try dsimp only
  repeat' (first | (with_reducible first | assumption | apply ends_whenDo | apply ends_next | apply keeps_upUwb) | dsimp only)

theorem keeps_uwbTestStart {b₀ s : State}   (hk₀ : Keeps b₀ s) : Keeps b₀ (State.uwbTestStart s) := by
  unfold State.uwbTestStart
  try dsimp only
  repeat' (first | (with_reducible first | assumption | apply keeps_ite | apply keeps_upUwb | apply keeps_notice | apply keeps_uwbTestRun | apply keeps_uwbLate) | split | dsimp only)

theorem keeps_uwbTest {b₀ s : State} (v : BitVec 32)  (hk₀ : Keeps b₀ s) : Keeps b₀ (State.uwbTest s v) := by
  unfold State.uwbTest
  try dsimp only
  repeat' (first | (with_reducible first | assumption | apply keeps_ite | apply keeps_upUwb | apply keeps_uwbTestStart | apply keeps_oneNotice | apply keeps_noticeIf) | dsimp only)

theorem ends_UwbTestGo {b₀ s : State} (v : BitVec 32)  (hk₀ : Keeps b₀ s) : Ends b₀ (execUwbTestGo v s) := by
  unfold execUwbTestGo
  try dsimp only
  repeat' (first | (with_reducible first | assumption | intro _ | apply ends_whenDo | apply ends_next | apply keeps_farWrite | apply keeps_uwbTest) | dsimp only)

theorem keeps_resSelect {b₀ s : State} (v : BitVec 32)  (hk₀ : Keeps b₀ s) : Keeps b₀ (State.resSelect s v) := by
  unfold State.resSelect
  try dsimp only
  repeat' (first | (with_reducible first | assumption | apply keeps_noticeIf | apply keeps_upUwb) | dsimp only)

theorem ends_ResSelWrite {b₀ s : State} (v : BitVec 32)  (hk₀ : Keeps b₀ s) : Ends b₀ (execResSelWrite v s) := by
  unfold execResSelWrite
  try dsimp only
  repeat' (first | (with_reducible first | assumption | intro _ | apply ends_whenDo | apply ends_next | apply keeps_farWrite | apply keeps_resSelect) | dsimp only)

theorem keeps_cirSelect {b₀ s : State} (v : BitVec 32)  (hk₀ : Keeps b₀ s) : Keeps b₀ (State.cirSelect s v) := by
  unfold State.cirSelect
  try dsimp only
  repeat' (first | (with_reducible first | assumption | apply keeps_ite | apply keeps_noticeIf | apply keeps_upUwb) | refine keeps_snd (by assumption) ?_ | refine keeps_fst (by assumption) ?_ | dsimp only)

theorem ends_CirSelWrite {b₀ s : State} (v : BitVec 32)  (hk₀ : Keeps b₀ s) : Ends b₀ (execCirSelWrite v s) := by
  unfold execCirSelWrite
  try dsimp only
  repeat' (first | (with_reducible first | assumption | intro _ | apply ends_whenDo | apply ends_next | apply keeps_farWrite | apply keeps_cirSelect) | dsimp only)

end Sys2Proof.Machine
end

