-- ==== Sys2Proof/Laws/KeepsNfc.lean ====
section
/-! SUPPORT. What the functions of Machine/Nfc.lean leave alone. -/

namespace Sys2Proof.Machine

set_option linter.all false

theorem ends_ReqaPoll {b₀ s : State}   (hk₀ : Keeps b₀ s) : Ends b₀ (execReqaPoll s) := by
  unfold execReqaPoll
  try dsimp only
  repeat' (first | (with_reducible first | assumption | apply ends_whenDo | apply ends_next | apply keeps_ite | apply ends_ite | apply keeps_upNfc) | dsimp only)

theorem keeps_activate {b₀ s : State} (u : Bytes) (collisions : Nat)  (hk₀ : Keeps b₀ s) : Keeps b₀ (State.activate s u collisions) := by
  unfold State.activate
  try dsimp only
  repeat' (first | (with_reducible first | assumption | apply keeps_upNfc | apply keeps_latch) | split | dsimp only)

theorem keeps_foreignCard {b₀ s : State} (collisions : Nat) (hk₀ : Keeps b₀ s) : Keeps b₀ (State.foreignCard s collisions) :=
  keeps_upNfc hk₀

theorem ends_CardActivation {b₀ s : State} (uids : List (Bytes × Bool))  (hk₀ : Keeps b₀ s) : Ends b₀ (execCardActivation uids s) := by
  unfold execCardActivation
  try dsimp only
  repeat' (first | (with_reducible first | assumption | apply ends_whenDo | apply ends_next | apply keeps_ite | apply ends_ite | apply keeps_wakeHere | apply keeps_foreignCard | apply keeps_activate) | split | dsimp only)

theorem keeps_modCard {b₀ s : State} (cid : BitVec 4) (f : Card → Card)  (hk₀ : Keeps b₀ s) : Keeps b₀ (State.modCard s cid f) := by
  unfold State.modCard
  try dsimp only
  repeat' (first | (with_reducible first | assumption | apply keeps_ite | apply keeps_upNfc) | dsimp only)

theorem keeps_askRa {b₀ s : State} (n : Nat)  (hk₀ : Keeps b₀ s) : Keeps b₀ (State.askRa s n) := by
  unfold State.askRa
  try dsimp only
  repeat' (first | (with_reducible first | assumption | apply keeps_modSe | apply keeps_request) | dsimp only)

theorem keeps_sightCard {b₀ s : State} (cid : BitVec 4) (cred : BitVec 64)  (hk₀ : Keeps b₀ s) : Keeps b₀ (State.sightCard s cid cred) := by
  unfold State.sightCard
  try dsimp only
  repeat' (first | (with_reducible first | assumption | apply keeps_ite | apply keeps_sight | apply keeps_modCard | apply keeps_modSe | apply keeps_identify | apply keeps_askRa) | refine keeps_snd (by assumption) ?_ | refine keeps_fst (by assumption) ?_ | split | dsimp only)

theorem ends_CardSelect {b₀ s : State} (cid : BitVec 4) (sw : BitVec 16) (role : BitVec 8) (cred : BitVec 64)  (hk₀ : Keeps b₀ s) : Ends b₀ (execCardSelect cid sw role cred s) := by
  unfold execCardSelect
  try dsimp only
  repeat' (first | (with_reducible first | assumption | apply ends_whenDo | apply ends_next | apply keeps_ite | apply ends_ite | apply keeps_upNfc | apply keeps_modCard | apply keeps_sightCard) | refine keeps_snd (by assumption) ?_ | refine keeps_fst (by assumption) ?_ | split | dsimp only)

theorem ends_CardAuthBeginResponse {b₀ s : State} (cid : BitVec 4) (rb : Bytes) (macC : Bytes) (sw : BitVec 16)  (hk₀ : Keeps b₀ s) : Ends b₀ (execCardAuthBeginResponse cid rb macC sw s) := by
  unfold execCardAuthBeginResponse
  try dsimp only
  repeat' (first | (with_reducible first | assumption | intro _ | apply ends_whenDo | apply ends_next | apply keeps_ite | apply ends_ite | apply keeps_withKey | apply keeps_modSe | apply keeps_castOff) | split | dsimp only)

theorem ends_CardAuthEndResponse {b₀ s : State} (cid : BitVec 4) (sw : BitVec 16)  (hk₀ : Keeps b₀ s) : Ends b₀ (execCardAuthEndResponse cid sw s) := by
  unfold execCardAuthEndResponse
  try dsimp only
  repeat' (first | (with_reducible first | assumption | apply ends_whenDo | apply ends_next | apply keeps_ite | apply ends_ite | apply keeps_castOff | apply keeps_modCard | apply keeps_upNfc | apply keeps_moor) | split | dsimp only)

theorem keeps_dropCard {b₀ s : State} (c : Card)  (hk₀ : Keeps b₀ s) : Keeps b₀ (State.dropCard s c) := by
  unfold State.dropCard
  try dsimp only
  repeat' (first | (with_reducible first | assumption | apply keeps_ite | apply keeps_upNfc | apply keeps_latch | apply keeps_castOff) | split | dsimp only)

theorem ends_CardLeftField {b₀ s : State} (cid : BitVec 4)  (hk₀ : Keeps b₀ s) : Ends b₀ (execCardLeftField cid s) := by
  unfold execCardLeftField
  try dsimp only
  repeat' (first | (with_reducible first | assumption | apply ends_whenDo | apply ends_next | apply keeps_dropCard) | split | dsimp only)

theorem keeps_reselect {b₀ s : State} (present : List (BitVec 4)) (c : Card)  (hk₀ : Keeps b₀ s) : Keeps b₀ (State.reselect present s c) := by
  unfold State.reselect
  try dsimp only
  repeat' (first | (with_reducible first | assumption | apply keeps_ite | apply keeps_askRa | apply keeps_modCard | apply keeps_dropCard) | split | dsimp only)

theorem ends_ReaderFieldReturn {b₀ s : State} (present : List (BitVec 4))  (hk₀ : Keeps b₀ s) : Ends b₀ (execReaderFieldReturn present s) := by
  unfold execReaderFieldReturn
  try dsimp only
  repeat' (first | (with_reducible first | assumption | intro _ | apply ends_whenDo | apply ends_next | apply keeps_ite | apply ends_ite | apply keeps_upNfc | apply keeps_reselect | apply keeps_foldl) | split | dsimp only)

theorem keeps_nfcCtrl {b₀ s : State} (v : BitVec 32)  (hk₀ : Keeps b₀ s) : Keeps b₀ (State.nfcCtrl s v) := by
  unfold State.nfcCtrl
  try dsimp only
  repeat' (first | (with_reducible first | assumption | apply keeps_ite | apply keeps_upNfc) | dsimp only)

theorem ends_NfcRescan {b₀ s : State}   (hk₀ : Keeps b₀ s) : Ends b₀ (execNfcRescan s) := by
  unfold execNfcRescan
  try dsimp only
  repeat' (first | (with_reducible first | assumption | intro _ | apply ends_whenDo | apply ends_next | apply keeps_farWrite | apply keeps_nfcCtrl) | dsimp only)

theorem keeps_cardSelect {b₀ s : State} (v : BitVec 32)  (hk₀ : Keeps b₀ s) : Keeps b₀ (State.cardSelect s v) := by
  unfold State.cardSelect
  try dsimp only
  repeat' (first | (with_reducible first | assumption | apply keeps_upNfc) | split | dsimp only)

theorem ends_CardSelWrite {b₀ s : State} (v : BitVec 32)  (hk₀ : Keeps b₀ s) : Ends b₀ (execCardSelWrite v s) := by
  unfold execCardSelWrite
  try dsimp only
  repeat' (first | (with_reducible first | assumption | intro _ | apply ends_whenDo | apply ends_next | apply keeps_farWrite | apply keeps_cardSelect) | dsimp only)

theorem keeps_modImage {b₀ s : State} (f : Mem → Mem)  (hk₀ : Keeps b₀ s) : Keeps b₀ (State.modImage s f) := by
  unfold State.modImage
  try dsimp only
  repeat' (first | (with_reducible first | assumption | apply keeps_upNfc) | dsimp only)

theorem keeps_tagIdle {b₀ s : State}   (hk₀ : Keeps b₀ s) : Keeps b₀ (State.tagIdle s) := by
  unfold State.tagIdle
  try dsimp only
  repeat' (first | (with_reducible first | assumption | intro _ | apply keeps_ite | apply keeps_upNfc | apply keeps_modImage | apply keeps_upTend | apply keeps_foldl) | refine keeps_snd (by assumption) ?_ | refine keeps_fst (by assumption) ?_ | dsimp only)

theorem keeps_tagWait {b₀ s : State}   (hk₀ : Keeps b₀ s) : Keeps b₀ (State.tagWait s) := by
  unfold State.tagWait
  try dsimp only
  repeat' (first | (with_reducible first | assumption | apply keeps_ite | apply keeps_upNfc) | dsimp only)

theorem keeps_tagHostWrite {b₀ s : State} (o : Nat) (d : BitVec 16)  (hk₀ : Keeps b₀ s) : Keeps b₀ (State.tagHostWrite s o d) := by
  unfold State.tagHostWrite
  try dsimp only
  repeat' (first | (with_reducible first | assumption | intro _ | apply keeps_ite | apply keeps_upPier | apply keeps_tagWait | apply keeps_upNfc | apply keeps_tagIdle) | refine keeps_snd (by assumption) ?_ | refine keeps_fst (by assumption) ?_ | exact id | intro _ | assumption | split | (simp_all [BerthTable.ok, Lf.ok, CanBlk.ok, PierBlk.ok]; done) | dsimp only)

theorem ends_TagMemHostAccess {b₀ s : State} (ha : BitVec 20) (d : Option (BitVec 16))  (hk₀ : Keeps b₀ s) : Ends b₀ (execTagMemHostAccess ha d s) := by
  unfold execTagMemHostAccess
  try dsimp only
  repeat' (first | (with_reducible first | assumption | intro _ | apply ends_whenDo | apply ends_next | apply keeps_ite | apply ends_ite | apply keeps_windowAccess | apply keeps_tagHostWrite | apply keeps_beginFar | apply keeps_tagWait) | split | dsimp only)

theorem keeps_tagReply {b₀ s : State} (r : Bytes)  (hk₀ : Keeps b₀ s) : Keeps b₀ (State.tagReply s r) := by
  unfold State.tagReply
  try dsimp only
  repeat' (first | (with_reducible first | assumption | apply keeps_ite | apply keeps_upNfc) | dsimp only)

theorem ends_TagFieldOn {b₀ s : State}   (hk₀ : Keeps b₀ s) : Ends b₀ (execTagFieldOn s) := by
  unfold execTagFieldOn
  try dsimp only
  repeat' (first | (with_reducible first | assumption | apply ends_whenDo | apply ends_next | apply keeps_ite | apply ends_ite | apply keeps_upNfc | apply keeps_wakeHere) | dsimp only)

theorem keeps_tagAuthFailed {b₀ s : State}   (hk₀ : Keeps b₀ s) : Keeps b₀ (State.tagAuthFailed s) := by
  unfold State.tagAuthFailed
  try dsimp only
  repeat' (first | (with_reducible first | assumption | apply keeps_upNfc | apply keeps_latch) | dsimp only)

theorem keeps_putRecord {b₀ s : State} (i : Nat) (b : Bytes)  (hk₀ : Keeps b₀ s) : Keeps b₀ (State.putRecord s i b) := by
  unfold State.putRecord
  try dsimp only
  repeat' (first | (with_reducible first | assumption | apply keeps_modImage) | dsimp only)

theorem keeps_newRecord {b₀ s : State} (b : Bytes)  (hk₀ : Keeps b₀ s) : Keeps b₀ (State.newRecord s b) := by
  unfold State.newRecord
  try dsimp only
  repeat' (first | (with_reducible first | assumption | apply keeps_putRecord | apply keeps_upNfc) | dsimp only)

theorem keeps_harvestFailed {b₀ s : State} (cred : BitVec 64)  (hk₀ : Keeps b₀ s) : Keeps b₀ (State.harvestFailed s cred) := by
  unfold State.harvestFailed
  try dsimp only
  repeat' (first | (with_reducible first | assumption | apply keeps_newRecord | apply keeps_modImage | apply keeps_tagAuthFailed) | dsimp only)

theorem keeps_pendingFails {b₀ s : State}   (hk₀ : Keeps b₀ s) : Keeps b₀ (State.pendingFails s) := by
  unfold State.pendingFails
  try dsimp only
  repeat' (first | (with_reducible first | assumption | apply keeps_castOff | apply keeps_tagAuthFailed | apply keeps_harvestFailed | apply keeps_upNfc | apply keeps_tagReply) | split | dsimp only)

theorem keeps_tagSelected {b₀ s : State}   (hk₀ : Keeps b₀ s) : Keeps b₀ (State.tagSelected s) := by
  unfold State.tagSelected
  try dsimp only
  repeat' (first | (with_reducible first | assumption | apply keeps_ite | apply keeps_tagReply | apply keeps_sight | apply keeps_upNfc) | refine keeps_snd (by assumption) ?_ | refine keeps_fst (by assumption) ?_ | split | dsimp only)

theorem ends_TagSelect {b₀ s : State}   (hk₀ : Keeps b₀ s) : Ends b₀ (execTagSelect s) := by
  unfold execTagSelect
  try dsimp only
  repeat' (first | (with_reducible first | assumption | apply ends_whenDo | apply ends_next | apply keeps_ite | apply ends_ite | apply keeps_pendingFails | apply keeps_tagReply | apply keeps_tagSelected) | dsimp only)

theorem keeps_tagChallenge {b₀ s : State} (kind : Nat) (key : Bytes) (cred : BitVec 64) (ra : Bytes) (noise : Bytes)  (hk₀ : Keeps b₀ s) : Keeps b₀ (State.tagChallenge s kind key cred ra noise) := by
  unfold State.tagChallenge
  try dsimp only
  repeat' (first | (with_reducible first | assumption | apply keeps_ite | apply keeps_useCells | apply keeps_modImage | apply keeps_upNfc | apply keeps_tagReply) | dsimp only)

theorem keeps_tagCardKey {b₀ s : State} (cred : BitVec 64) (ra : Bytes) (noise : Bytes)  (hk₀ : Keeps b₀ s) : Keeps b₀ (State.tagCardKey s cred ra noise) := by
  unfold State.tagCardKey
  try dsimp only
  repeat' (first | (with_reducible first | assumption | apply keeps_ite | apply keeps_tagReply | apply keeps_tagAuthFailed | apply keeps_identify | apply keeps_tagChallenge | apply keeps_modSe) | refine keeps_snd (by assumption) ?_ | refine keeps_fst (by assumption) ?_ | split | dsimp only)

theorem keeps_tagHarvest {b₀ s : State} (cred : BitVec 64) (ra : Bytes) (noise : Bytes)  (hk₀ : Keeps b₀ s) : Keeps b₀ (State.tagHarvest s cred ra noise) := by
  unfold State.tagHarvest
  try dsimp only
  repeat' (first | (with_reducible first | assumption | apply keeps_ite | apply keeps_harvestFailed | apply keeps_tagReply | apply keeps_tagChallenge | apply keeps_upNfc) | split | dsimp only)

theorem ends_TagAuthBegin {b₀ s : State} (kind : BitVec 8) (cred : BitVec 64) (device : BitVec 64) (ra : Bytes) (noise : Bytes)  (hk₀ : Keeps b₀ s) : Ends b₀ (execTagAuthBegin kind cred device ra noise s) := by
  unfold execTagAuthBegin
  try dsimp only
  repeat' (first | (with_reducible first | assumption | apply ends_whenDo | apply ends_next | apply keeps_ite | apply ends_ite | apply keeps_upNfc | apply keeps_tagReply | apply keeps_pendingFails | apply keeps_tagCardKey | apply keeps_tagHarvest) | dsimp only)

theorem ends_TagWtx {b₀ s : State}   (hk₀ : Keeps b₀ s) : Ends b₀ (execTagWtx s) := by
  unfold execTagWtx
  try dsimp only
  repeat' (first | (with_reducible first | assumption | apply ends_whenDo | apply ends_next | apply keeps_tagReply) | dsimp only)

theorem ends_HarvestDelayEnd {b₀ s : State} (noise : Bytes)  (hk₀ : Keeps b₀ s) : Ends b₀ (execHarvestDelayEnd noise s) := by
  unfold execHarvestDelayEnd
  try dsimp only
  repeat' (first | (with_reducible first | assumption | apply ends_whenDo | apply ends_next | apply keeps_tagChallenge) | split | dsimp only)

theorem keeps_harvestOn {b₀ s : State}   (hk₀ : Keeps b₀ s) : Keeps b₀ (State.harvestOn s) := by
  unfold State.harvestOn
  try dsimp only
  repeat' (first | (with_reducible first | assumption | apply keeps_useCells | apply keeps_newRecord | apply keeps_modImage | apply keeps_upNfc) | dsimp only)

theorem keeps_harvestOff {b₀ s : State}   (hk₀ : Keeps b₀ s) : Keeps b₀ (State.harvestOff s) := by
  unfold State.harvestOff
  try dsimp only
  repeat' (first | (with_reducible first | assumption | apply keeps_ite | apply keeps_useCells | apply keeps_putRecord | apply keeps_upNfc) | split | dsimp only)

theorem ends_TagAuthEnd {b₀ s : State} (macR : Bytes)  (hk₀ : Keeps b₀ s) : Ends b₀ (execTagAuthEnd macR s) := by
  unfold execTagAuthEnd
  try dsimp only
  repeat' (first | (with_reducible first | assumption | apply ends_whenDo | apply ends_next | apply keeps_ite | apply ends_ite | apply keeps_useCells | apply keeps_tagReply | apply keeps_pendingFails | apply keeps_moor | apply keeps_upNfc | apply keeps_latch | apply keeps_harvestOn) | split | dsimp only)

theorem ends_TagRead {b₀ s : State} (off : BitVec 16) (len : BitVec 8)  (hk₀ : Keeps b₀ s) : Ends b₀ (execTagRead off len s) := by
  unfold execTagRead
  try dsimp only
  repeat' (first | (with_reducible first | assumption | apply ends_whenDo | apply ends_next | apply keeps_ite | apply ends_ite | apply keeps_pendingFails | apply keeps_tagReply) | dsimp only)

theorem ends_TagWrite {b₀ s : State} (off : BitVec 16) (data : Bytes)  (hk₀ : Keeps b₀ s) : Ends b₀ (execTagWrite off data s) := by
  unfold execTagWrite
  try dsimp only
  repeat' (first | (with_reducible first | assumption | apply ends_whenDo | apply ends_next | apply keeps_ite | apply ends_ite | apply keeps_pendingFails | apply keeps_modImage | apply keeps_tagReply | apply keeps_upNfc) | dsimp only)

theorem ends_TagReadOrig {b₀ s : State} (off : BitVec 16) (len : BitVec 8)  (hk₀ : Keeps b₀ s) : Ends b₀ (execTagReadOrig off len s) := by
  unfold execTagReadOrig
  try dsimp only
  repeat' (first | (with_reducible first | assumption | apply ends_whenDo | apply ends_next | apply keeps_ite | apply ends_ite | apply keeps_tagReply) | dsimp only)

theorem keeps_tagOff {b₀ s : State} (cut : Bool)  (hk₀ : Keeps b₀ s) : Keeps b₀ (State.tagOff s cut) := by
  unfold State.tagOff
  try dsimp only
  repeat' (first | (with_reducible first | assumption | apply keeps_ite | apply keeps_harvestOff | apply keeps_upNfc | apply keeps_castOff | apply keeps_tagIdle) | split | dsimp only)

theorem ends_TagDeactivation {b₀ s : State} (cut : Bool)  (hk₀ : Keeps b₀ s) : Ends b₀ (execTagDeactivation cut s) := by
  unfold execTagDeactivation
  try dsimp only
  repeat' (first | (with_reducible first | assumption | apply ends_whenDo | apply ends_next | apply keeps_tagOff) | dsimp only)

theorem ends_HarvTimeout {b₀ s : State}   (hk₀ : Keeps b₀ s) : Ends b₀ (execHarvTimeout s) := by
  unfold execHarvTimeout
  try dsimp only
  repeat' (first | (with_reducible first | assumption | apply ends_whenDo | apply ends_next | apply keeps_harvestOff) | split | dsimp only)

theorem keeps_copyHarvest {b₀ s : State}   (hk₀ : Keeps b₀ s) : Keeps b₀ (State.copyHarvest s) := by
  unfold State.copyHarvest
  try dsimp only
  repeat' (first | (with_reducible first | assumption | intro _ | apply keeps_logRecord | apply keeps_modImage | apply keeps_latchIf | apply keeps_foldl) | dsimp only)

theorem keeps_nfcBoundary {b₀ s : State}   (hk₀ : Keeps b₀ s) : Keeps b₀ (State.nfcBoundary s) := by
  unfold State.nfcBoundary
  try dsimp only
  repeat' (first | (with_reducible first | assumption | intro _ | apply keeps_ite | apply keeps_request | apply keeps_upNfc | apply keeps_copyHarvest | apply keeps_foldl) | dsimp only)

end Sys2Proof.Machine
end

