-- ==== Sys2Proof/Laws/KeepsPier.lean ====
section
/-! SUPPORT. What the functions of Machine/Pier.lean leave alone. -/

namespace Sys2Proof.Machine

set_option linter.all false

theorem keeps_train {b₀ s : State} (n : Nat)  (hk₀ : Keeps b₀ s) : Keeps b₀ (State.train s n) := by
  unfold State.train
  try dsimp only
  repeat' (first | (with_reducible first | assumption | apply keeps_modPier) | dsimp only)

theorem ends_PierPortEnable {b₀ s : State} (n : BitVec 5)  (hk₀ : Keeps b₀ s) : Ends b₀ (execPierPortEnable n s) := by
  unfold execPierPortEnable
  try dsimp only
  repeat' (first | (with_reducible first | assumption | apply ends_whenDo | apply ends_next | apply keeps_train) | dsimp only)

theorem ends_PierRetrainTimer {b₀ s : State} (n : BitVec 5)  (hk₀ : Keeps b₀ s) : Ends b₀ (execPierRetrainTimer n s) := by
  unfold execPierRetrainTimer
  try dsimp only
  repeat' (first | (with_reducible first | assumption | apply ends_whenDo | apply ends_next | apply keeps_ite | apply ends_ite | apply keeps_train) | dsimp only)

theorem ends_PierTrainingTimeout {b₀ s : State} (n : BitVec 5)  (hk₀ : Keeps b₀ s) : Ends b₀ (execPierTrainingTimeout n s) := by
  unfold execPierTrainingTimeout
  try dsimp only
  repeat' (first | (with_reducible first | assumption | apply ends_whenDo | apply ends_next | apply keeps_modPier) | dsimp only)

theorem keeps_enumNext {b₀ s : State}   (hk₀ : Keeps b₀ s) : Keeps b₀ (State.enumNext s) := by
  unfold State.enumNext
  try dsimp only
  repeat' (first | (with_reducible first | assumption | apply keeps_upPier | apply keeps_modPier | apply keeps_pierRequest) | split | exact id | intro _ | assumption | split | (simp_all [BerthTable.ok, Lf.ok, CanBlk.ok, PierBlk.ok]; done) | dsimp only)

theorem keeps_enumAfter {b₀ s : State} (n : Nat)  (hk₀ : Keeps b₀ s) : Keeps b₀ (State.enumAfter s n) := by
  unfold State.enumAfter
  try dsimp only
  repeat' (first | (with_reducible first | assumption | apply keeps_ite | apply keeps_enumNext) | dsimp only)

theorem keeps_refuseLink {b₀ s : State} (n : Nat) (cause : Nat)  (hk₀ : Keeps b₀ s) : Keeps b₀ (State.refuseLink s n cause) := by
  unfold State.refuseLink
  try dsimp only
  repeat' (first | (with_reducible first | assumption | apply keeps_modPier | apply keeps_upPier | apply keeps_pierEvent | apply keeps_enumAfter) | exact id | intro _ | assumption | split | (simp_all [BerthTable.ok, Lf.ok, CanBlk.ok, PierBlk.ok]; done) | dsimp only)

theorem keeps_admitLink {b₀ s : State} (n : Nat)  (hk₀ : Keeps b₀ s) : Keeps b₀ (State.admitLink s n) := by
  unfold State.admitLink
  try dsimp only
  repeat' (first | (with_reducible first | assumption | apply keeps_modPier | apply keeps_upPier | apply keeps_pierEvent | apply keeps_enumAfter) | exact id | intro _ | assumption | split | (simp_all [BerthTable.ok, Lf.ok, CanBlk.ok, PierBlk.ok]; done) | dsimp only)

theorem keeps_compareFw {b₀ s : State} (n : Nat)  (hk₀ : Keeps b₀ s) : Keeps b₀ (State.compareFw s n) := by
  unfold State.compareFw
  try dsimp only
  repeat' (first | (with_reducible first | assumption | apply keeps_ite | apply keeps_admitLink | apply keeps_modPier | apply keeps_pushImage) | dsimp only)

theorem keeps_compareSerial {b₀ s : State} (n : Nat)  (hk₀ : Keeps b₀ s) : Keeps b₀ (State.compareSerial s n) := by
  unfold State.compareSerial
  try dsimp only
  repeat' (first | (with_reducible first | assumption | apply keeps_ite | apply keeps_compareFw | apply keeps_modPier | apply keeps_pushImage) | dsimp only)

theorem keeps_unboundLink {b₀ s : State} (n : Nat)  (hk₀ : Keeps b₀ s) : Keeps b₀ (State.unboundLink s n) := by
  unfold State.unboundLink
  try dsimp only
  repeat' (first | (with_reducible first | assumption | apply keeps_ite | apply keeps_refuseLink | apply keeps_compareSerial) | dsimp only)

theorem keeps_enumAnswer {b₀ s : State} (n : Nat) (b : Bytes)  (hk₀ : Keeps b₀ s) : Keeps b₀ (State.enumAnswer s n b) := by
  unfold State.enumAnswer
  try dsimp only
  repeat' (first | (with_reducible first | assumption | apply keeps_ite | apply keeps_modPier | apply keeps_refuseLink | apply keeps_request | apply keeps_unboundLink) | dsimp only)

theorem keeps_bindAnswer {b₀ s : State} (n : Nat) (b : Bytes)  (hk₀ : Keeps b₀ s) : Keeps b₀ (State.bindAnswer s n b) := by
  unfold State.bindAnswer
  try dsimp only
  repeat' (first | (with_reducible first | assumption | apply keeps_ite | apply keeps_derivations | apply keeps_modPier | apply keeps_pierRequest | apply keeps_unboundLink) | refine keeps_snd (by assumption) ?_ | refine keeps_fst (by assumption) ?_ | split | dsimp only)

theorem keeps_bindDone {b₀ s : State} (n : Nat) (ok : Bool)  (hk₀ : Keeps b₀ s) : Keeps b₀ (State.bindDone s n ok) := by
  unfold State.bindDone
  try dsimp only
  repeat' (first | (with_reducible first | assumption | apply keeps_ite | apply keeps_modPier | apply keeps_compareSerial | apply keeps_unboundLink) | dsimp only)

theorem keeps_pushAnswer {b₀ s : State} (n : Nat) (r : BitVec 32)  (hk₀ : Keeps b₀ s) : Keeps b₀ (State.pushAnswer s n r) := by
  unfold State.pushAnswer
  try dsimp only
  repeat' (first | (with_reducible first | assumption | apply keeps_ite | apply keeps_mfTender | apply keeps_fwTender | apply keeps_latchIf | apply keeps_refuseLink | apply keeps_modPier | apply keeps_commitAll | apply keeps_admitLink | apply keeps_compareFw) | dsimp only)

theorem keeps_requestLost {b₀ s : State} (n : Nat) (r : PierReq) (code : Nat)  (hk₀ : Keeps b₀ s) : Keeps b₀ (State.requestLost s n r code) := by
  unfold State.requestLost
  try dsimp only
  repeat' (first | (with_reducible first | assumption | apply keeps_ite | apply keeps_modPier | apply keeps_pierEvent | apply keeps_upKeys | apply keeps_keysEnd) | dsimp only)

theorem keeps_adriftHost {b₀ s : State} (n : Nat) (reqs : List PierReq)  (hk₀ : Keeps b₀ s) : Keeps b₀ (State.adriftHost s n reqs) := by
  unfold State.adriftHost
  try dsimp only
  repeat' (first | (with_reducible first | assumption | intro _ | apply keeps_requestLost | apply keeps_castAll | apply keeps_upPier | apply keeps_upMf | apply keeps_mfArm | apply keeps_upFw | apply keeps_fwArm | apply keeps_enumAfter | apply keeps_foldl) | exact id | intro _ | assumption | split | (simp_all [BerthTable.ok, Lf.ok, CanBlk.ok, PierBlk.ok]; done) | dsimp only)

theorem keeps_adriftTender {b₀ s : State}   (hk₀ : Keeps b₀ s) : Keeps b₀ (State.adriftTender s) := by
  unfold State.adriftTender
  try dsimp only
  repeat' (first | (with_reducible first | assumption | apply keeps_ite | apply keeps_upKeys | apply keeps_upUwb | apply keeps_upNb | apply keeps_upTend) | dsimp only)

theorem keeps_goAdrift {b₀ s : State} (n : Nat) (cause : BitVec 4)  (hk₀ : Keeps b₀ s) : Keeps b₀ (State.goAdrift s n cause) := by
  unfold State.goAdrift
  try dsimp only
  repeat' (first | (with_reducible first | assumption | apply keeps_ite | apply keeps_modPier | apply keeps_pierEvent | apply keeps_logRecord | apply keeps_adriftHost | apply keeps_adriftTender) | dsimp only)

theorem ends_PierAdrift {b₀ s : State} (n : BitVec 5) (cause : BitVec 4)  (hk₀ : Keeps b₀ s) : Ends b₀ (execPierAdrift n cause s) := by
  unfold execPierAdrift
  try dsimp only
  repeat' (first | (with_reducible first | assumption | apply ends_whenDo | apply ends_next | apply keeps_goAdrift) | dsimp only)

theorem keeps_pierCtrl {b₀ s : State} (n : Nat) (v : BitVec 32)  (hk₀ : Keeps b₀ s) : Keeps b₀ (State.pierCtrl s n v) := by
  unfold State.pierCtrl
  try dsimp only
  repeat' (first | (with_reducible first | assumption | apply keeps_ite | apply keeps_notice | apply keeps_goAdrift) | dsimp only)

theorem ends_PierRetrain {b₀ s : State} (n : BitVec 5)  (hk₀ : Keeps b₀ s) : Ends b₀ (execPierRetrain n s) := by
  unfold execPierRetrain
  try dsimp only
  repeat' (first | (with_reducible first | assumption | intro _ | apply ends_whenDo | apply ends_next | apply keeps_farWrite | apply keeps_pierCtrl) | dsimp only)

theorem keeps_joinOrder {b₀ s : State} (n : Nat)  (hk₀ : Keeps b₀ s) : Keeps b₀ (State.joinOrder s n) := by
  unfold State.joinOrder
  try dsimp only
  repeat' (first | (with_reducible first | assumption | apply keeps_ite | apply keeps_upPier | apply keeps_enumNext) | exact id | intro _ | assumption | split | (simp_all [BerthTable.ok, Lf.ok, CanBlk.ok, PierBlk.ok]; done) | dsimp only)

theorem keeps_trained {b₀ s : State} (n : Nat) (latency : BitVec 16)  (hk₀ : Keeps b₀ s) : Keeps b₀ (State.trained s n latency) := by
  unfold State.trained
  try dsimp only
  repeat' (first | (with_reducible first | assumption | apply keeps_ite | apply keeps_modPier | apply keeps_pierEvent | apply keeps_joinOrder | apply keeps_upPier) | exact id | intro _ | assumption | split | (simp_all [BerthTable.ok, Lf.ok, CanBlk.ok, PierBlk.ok]; done) | dsimp only)

theorem ends_PierTrainingComplete {b₀ s : State} (n : BitVec 5) (latency : BitVec 16)  (hk₀ : Keeps b₀ s) : Ends b₀ (execPierTrainingComplete n latency s) := by
  unfold execPierTrainingComplete
  try dsimp only
  repeat' (first | (with_reducible first | assumption | apply ends_whenDo | apply ends_next | apply keeps_trained) | dsimp only)

theorem ends_EnumerationStart {b₀ s : State}   (hk₀ : Keeps b₀ s) : Ends b₀ (execEnumerationStart s) := by
  unfold execEnumerationStart
  try dsimp only
  repeat' (first | (with_reducible first | assumption | apply ends_whenDo | apply ends_next | apply keeps_upPier | apply keeps_enumNext) | exact id | intro _ | assumption | split | (simp_all [BerthTable.ok, Lf.ok, CanBlk.ok, PierBlk.ok]; done) | dsimp only)

theorem ends_PierBlockReceived {b₀ s : State} (n : BitVec 5) (seq : BitVec 4) (crcOk : Bool) (codeOk : Bool)  (hk₀ : Keeps b₀ s) : Ends b₀ (execPierBlockReceived n seq crcOk codeOk s) := by
  unfold execPierBlockReceived
  try dsimp only
  repeat' (first | (with_reducible first | assumption | apply ends_whenDo | apply ends_next | apply keeps_modPier) | dsimp only)

theorem ends_PierAck {b₀ s : State} (n : BitVec 5) (q : BitVec 4)  (hk₀ : Keeps b₀ s) : Ends b₀ (execPierAck n q s) := by
  unfold execPierAck
  try dsimp only
  repeat' (first | (with_reducible first | assumption | apply ends_whenDo | apply ends_next | apply keeps_modPier) | dsimp only)

theorem keeps_resendFrom {b₀ s : State} (n : Nat) (i : Nat)  (hk₀ : Keeps b₀ s) : Keeps b₀ (State.resendFrom s n i) := by
  unfold State.resendFrom
  try dsimp only
  repeat' (first | (with_reducible first | assumption | apply keeps_ite | apply keeps_goAdrift | apply keeps_modPier) | refine keeps_snd (by assumption) ?_ | refine keeps_fst (by assumption) ?_ | dsimp only)

theorem keeps_pierNaked {b₀ s : State} (n : Nat) (q : BitVec 4)  (hk₀ : Keeps b₀ s) : Keeps b₀ (State.pierNaked s n q) := by
  unfold State.pierNaked
  try dsimp only
  repeat' (first | (with_reducible first | assumption | apply keeps_resendFrom | apply keeps_modPier) | split | dsimp only)

theorem ends_PierNak {b₀ s : State} (n : BitVec 5) (q : BitVec 4)  (hk₀ : Keeps b₀ s) : Ends b₀ (execPierNak n q s) := by
  unfold execPierNak
  try dsimp only
  repeat' (first | (with_reducible first | assumption | apply ends_whenDo | apply ends_next | apply keeps_pierNaked) | dsimp only)

theorem ends_PierResendTimeout {b₀ s : State} (n : BitVec 5)  (hk₀ : Keeps b₀ s) : Ends b₀ (execPierResendTimeout n s) := by
  unfold execPierResendTimeout
  try dsimp only
  repeat' (first | (with_reducible first | assumption | apply ends_whenDo | apply ends_next | apply keeps_resendFrom) | dsimp only)

theorem keeps_rootAnswer {b₀ s : State} (n : Nat) (r : Nat)  (hk₀ : Keeps b₀ s) : Keeps b₀ (State.rootAnswer s n r) := by
  unfold State.rootAnswer
  try dsimp only
  repeat' (first | (with_reducible first | assumption | apply keeps_ite | apply keeps_upKeys | apply keeps_keysEnd | apply keeps_alignRoot) | dsimp only)

theorem keeps_responseTo {b₀ s : State} (n : Nat) (r : PierReq) (arg : BitVec 32) (body : Bytes)  (hk₀ : Keeps b₀ s) : Keeps b₀ (State.responseTo s n r arg body) := by
  unfold State.responseTo
  try dsimp only
  repeat' (first | (with_reducible first | assumption | apply keeps_ite | apply keeps_enumAnswer | apply keeps_bindAnswer | apply keeps_bindDone | apply keeps_pushAnswer | apply keeps_rootAnswer | apply keeps_modPier | apply keeps_pierEvent) | split | dsimp only)

theorem keeps_pierResponded {b₀ s : State} (n : Nat) (typ : BitVec 8) (tag : BitVec 8) (epoch : BitVec 4) (arg : BitVec 32) (body : Bytes)  (hk₀ : Keeps b₀ s) : Keeps b₀ (State.pierResponded s n typ tag epoch arg body) := by
  unfold State.pierResponded
  try dsimp only
  repeat' (first | (with_reducible first | assumption | apply keeps_retire | apply keeps_responseTo | apply keeps_modPier | apply keeps_pierEvent) | split | dsimp only)

theorem ends_PierResponse {b₀ s : State} (n : BitVec 5) (typ : BitVec 8) (tag : BitVec 8) (epoch : BitVec 4) (arg : BitVec 32) (body : Bytes)  (hk₀ : Keeps b₀ s) : Ends b₀ (execPierResponse n typ tag epoch arg body s) := by
  unfold execPierResponse
  try dsimp only
  repeat' (first | (with_reducible first | assumption | apply ends_whenDo | apply ends_next | apply keeps_pierResponded) | dsimp only)

theorem keeps_requestTimeout {b₀ s : State} (n : Nat) (r : PierReq)  (hk₀ : Keeps b₀ s) : Keeps b₀ (State.requestTimeout s n r) := by
  unfold State.requestTimeout
  try dsimp only
  repeat' (first | (with_reducible first | assumption | apply keeps_ite | apply keeps_retire | apply keeps_modPier | apply keeps_pierEvent | apply keeps_requestLost | apply keeps_mfTender | apply keeps_fwTender | apply keeps_upPier | apply keeps_enumNext) | exact id | intro _ | assumption | split | (simp_all [BerthTable.ok, Lf.ok, CanBlk.ok, PierBlk.ok]; done) | dsimp only)

theorem ends_PierRequestTimeout {b₀ s : State} (n : BitVec 5) (tag : BitVec 8)  (hk₀ : Keeps b₀ s) : Ends b₀ (execPierRequestTimeout n tag s) := by
  unfold execPierRequestTimeout
  try dsimp only
  repeat' (first | (with_reducible first | assumption | apply ends_whenDo | apply ends_next | apply keeps_requestTimeout) | split | dsimp only)

theorem ends_Slack {b₀ s : State} (n : BitVec 5) (rq : ReqId)  (hk₀ : Keeps b₀ s) : Ends b₀ (execSlack n rq s) := by
  unfold execSlack
  try dsimp only
  repeat' (first | (with_reducible first | assumption | apply ends_whenDo | apply ends_next | apply keeps_ite | apply ends_ite | apply keeps_modPier | apply keeps_pierAnswer) | dsimp only)

theorem ends_WakeBeacon {b₀ s : State} (n : BitVec 5)  (hk₀ : Keeps b₀ s) : Ends b₀ (execWakeBeacon n s) := by
  unfold execWakeBeacon
  try dsimp only
  repeat' (first | (with_reducible first | assumption | apply ends_whenDo | apply ends_next | apply keeps_ite | apply ends_ite | apply keeps_pierEvent | apply keeps_wake | apply keeps_upTide | apply keeps_modPier) | (intro _; rfl) | rfl | (intro _; repeat' split; all_goals rfl) | dsimp only)

theorem keeps_remote {b₀ s : State} (n : Nat) (cmd : Nat)  (hk₀ : Keeps b₀ s) : Keeps b₀ (State.remote s n cmd) := by
  unfold State.remote
  try dsimp only
  repeat' (first | (with_reducible first | assumption | apply keeps_ite | apply keeps_notice | apply keeps_modPier | apply keeps_pierEvent | apply keeps_leaveSlack | apply keeps_pierRequest) | dsimp only)

theorem ends_RemoteRead {b₀ s : State} (n : BitVec 5)  (hk₀ : Keeps b₀ s) : Ends b₀ (execRemoteRead n s) := by
  unfold execRemoteRead
  try dsimp only
  repeat' (first | (with_reducible first | assumption | intro _ | apply ends_whenDo | apply ends_next | apply keeps_farWrite | apply keeps_remote) | dsimp only)

theorem ends_RemoteWrite {b₀ s : State} (n : BitVec 5)  (hk₀ : Keeps b₀ s) : Ends b₀ (execRemoteWrite n s) := by
  unfold execRemoteWrite
  try dsimp only
  repeat' (first | (with_reducible first | assumption | intro _ | apply ends_whenDo | apply ends_next | apply keeps_farWrite | apply keeps_remote) | dsimp only)

theorem keeps_takeResult {b₀ s : State} (r : TenderResult)  (hk₀ : Keeps b₀ s) : Keeps b₀ (State.takeResult s r) := by
  unfold State.takeResult
  try dsimp only
  repeat' (first | (with_reducible first | assumption | apply keeps_ite | apply keeps_takePoll | apply keeps_setResponse | apply keeps_takeFinal) | split | dsimp only)

theorem keeps_takeDrivers {b₀ s : State} (r : TenderResult)  (hk₀ : Keeps b₀ s) : Keeps b₀ (State.takeDrivers s r) := by
  unfold State.takeDrivers
  try dsimp only
  repeat' (first | (with_reducible first | assumption | apply keeps_ite | apply keeps_upLf | apply keeps_modBlf) | refine keeps_snd (by assumption) ?_ | refine keeps_fst (by assumption) ?_ | exact id | intro _ | assumption | split | (simp_all [BerthTable.ok, Lf.ok, CanBlk.ok, PierBlk.ok]; done) | dsimp only)

theorem keeps_takeCir {b₀ s : State} (n : Nat) (r : TenderResult)  (hk₀ : Keeps b₀ s) : Keeps b₀ (State.takeCir s n r) := by
  unfold State.takeCir
  try dsimp only
  repeat' (first | (with_reducible first | assumption | apply keeps_ite | apply keeps_modPier | apply keeps_cirPut) | dsimp only)

theorem keeps_takeSounding {b₀ s : State} (a : Nat) (r : TenderResult)  (hk₀ : Keeps b₀ s) : Keeps b₀ (State.takeSounding s a r) := by
  unfold State.takeSounding
  try dsimp only
  repeat' (first | (with_reducible first | assumption | apply keeps_ite | apply keeps_soundSet) | refine keeps_snd (by assumption) ?_ | refine keeps_fst (by assumption) ?_ | dsimp only)

theorem keeps_takeEntry {b₀ s : State} (n : Nat) (r : TenderResult)  (hk₀ : Keeps b₀ s) : Keeps b₀ (State.takeEntry n s r) := by
  unfold State.takeEntry
  try dsimp only
  repeat' (first | (with_reducible first | assumption | apply keeps_ite | apply keeps_takeSounding | apply keeps_takeDrivers | apply keeps_takeCir | apply keeps_takeResult) | dsimp only)

theorem ends_ResultMessage {b₀ s : State} (n : BitVec 5) (results : List TenderResult)  (hk₀ : Keeps b₀ s) : Ends b₀ (execResultMessage n results s) := by
  unfold execResultMessage
  try dsimp only
  repeat' (first | (with_reducible first | assumption | intro _ | apply ends_whenDo | apply ends_next | apply keeps_takeEntry | apply keeps_foldl) | dsimp only)

theorem keeps_tenderWake {b₀ s : State} (bit : Nat)  (hk₀ : Keeps b₀ s) : Keeps b₀ (State.tenderWake s bit) := by
  unfold State.tenderWake
  try dsimp only
  repeat' (first | (with_reducible first | assumption | apply keeps_ite | apply keeps_upTide | apply keeps_wake) | refine keeps_snd (by assumption) ?_ | refine keeps_fst (by assumption) ?_ | (intro _; rfl) | rfl | (intro _; repeat' split; all_goals rfl) | dsimp only)

theorem keeps_tenderEvent {b₀ s : State} (n : Nat) (kind : Nat) (arg : BitVec 32) (stamp : BitVec 48) (body : Bytes)  (hk₀ : Keeps b₀ s) : Keeps b₀ (State.tenderEvent s n kind arg stamp body) := by
  unfold State.tenderEvent
  try dsimp only
  repeat' (first | (with_reducible first | assumption | apply keeps_touched | apply keeps_tenderWake | apply keeps_startRequest | apply keeps_uhfDeliver | apply keeps_tamperEffects | apply keeps_unstageRoots | apply keeps_tamperZeroes | apply keeps_latch | apply keeps_logRecord | apply keeps_tamperLinks) | split | dsimp only)

theorem ends_EventMessage {b₀ s : State} (n : BitVec 5) (kind : BitVec 8) (arg : BitVec 32) (stamp : BitVec 48) (body : Bytes)  (hk₀ : Keeps b₀ s) : Ends b₀ (execEventMessage n kind arg stamp body s) := by
  unfold execEventMessage
  try dsimp only
  repeat' (first | (with_reducible first | assumption | apply ends_whenDo | apply ends_next | apply keeps_tenderEvent) | dsimp only)

theorem keeps_answerUp {b₀ s : State} (typ : Nat) (rq : ReqId) (arg : BitVec 32) (body : Bytes)  (hk₀ : Keeps b₀ s) : Keeps b₀ (State.answerUp s typ rq arg body) := by
  unfold State.answerUp
  try dsimp only
  repeat' (first | (with_reducible first | assumption | apply keeps_pierAnswer) | dsimp only)

theorem keeps_enumerated {b₀ s : State} (rq : ReqId) (host : BitVec 64) (anchor : Nat)  (hk₀ : Keeps b₀ s) : Keeps b₀ (State.enumerated s rq host anchor) := by
  unfold State.enumerated
  try dsimp only
  repeat' (first | (with_reducible first | assumption | apply keeps_upTend | apply keeps_modPier | apply keeps_answerUp) | dsimp only)

theorem ends_Enum {b₀ s : State} (rq : ReqId) (host : BitVec 64) (anchor : BitVec 6)  (hk₀ : Keeps b₀ s) : Ends b₀ (execEnum rq host anchor s) := by
  unfold execEnum
  try dsimp only
  repeat' (first | (with_reducible first | assumption | apply ends_whenDo | apply ends_next | apply keeps_enumerated) | dsimp only)

theorem ends_Bind {b₀ s : State} (rq : ReqId) (nh : Bytes)  (hk₀ : Keeps b₀ s) : Ends b₀ (execBind rq nh s) := by
  unfold execBind
  try dsimp only
  repeat' (first | (with_reducible first | assumption | apply ends_whenDo | apply ends_next | apply keeps_modPier | apply keeps_upTend | apply keeps_request) | dsimp only)

theorem keeps_bindFinished {b₀ s : State} (rq : ReqId) (macH : Bytes)  (hk₀ : Keeps b₀ s) : Keeps b₀ (State.bindFinished s rq macH) := by
  unfold State.bindFinished
  try dsimp only
  repeat' (first | (with_reducible first | assumption | apply keeps_ite | apply keeps_modPier | apply keeps_answerUp) | refine keeps_snd (by assumption) ?_ | refine keeps_fst (by assumption) ?_ | dsimp only)

theorem ends_BindFinish {b₀ s : State} (rq : ReqId) (macH : Bytes)  (hk₀ : Keeps b₀ s) : Ends b₀ (execBindFinish rq macH s) := by
  unfold execBindFinish
  try dsimp only
  repeat' (first | (with_reducible first | assumption | apply ends_whenDo | apply ends_next | apply keeps_bindFinished) | dsimp only)

theorem ends_PushBegin {b₀ s : State} (rq : ReqId) (fw : Bool) (adopt : Bool) (serial : BitVec 32) (len : BitVec 32)  (hk₀ : Keeps b₀ s) : Ends b₀ (execPushBegin rq fw adopt serial len s) := by
  unfold execPushBegin
  try dsimp only
  repeat' (first | (with_reducible first | assumption | apply ends_whenDo | apply ends_next | apply keeps_upTend | apply keeps_answerUp) | dsimp only)

theorem keeps_pushFragment {b₀ s : State} (p : Push) (offset : Nat) (data : Bytes)  (hk₀ : Keeps b₀ s) : Keeps b₀ (State.pushFragment s p offset data) := by
  unfold State.pushFragment
  try dsimp only
  repeat' (first | (with_reducible first | assumption | apply keeps_ite | apply keeps_upTend | apply keeps_modPier) | dsimp only)

theorem ends_PushData {b₀ s : State} (offset : BitVec 32) (data : Bytes) (last : Bool)  (hk₀ : Keeps b₀ s) : Ends b₀ (execPushData offset data last s) := by
  unfold execPushData
  try dsimp only
  repeat' (first | (with_reducible first | assumption | apply ends_whenDo | apply ends_next | apply keeps_ite | apply ends_ite | apply keeps_pushFragment | apply keeps_upTend) | split | dsimp only)

theorem keeps_pushedFw {b₀ s : State} (p : Push) (h : Keeps b₀ s) : Keeps b₀ (s.pushedFw p).2 := by
  unfold State.pushedFw
  dsimp only
  repeat' (first | (with_reducible first | assumption | apply keeps_upFw | apply keeps_countVerify) | split)

theorem keeps_writePushed {b₀ s : State} (rq : ReqId)  (hk₀ : Keeps b₀ s) : Keeps b₀ (State.writePushed s rq) := by
  unfold State.writePushed
  try dsimp only
  repeat' (first | (with_reducible first | assumption | apply keeps_ite | apply keeps_upTend | apply keeps_upMf) | dsimp only)

theorem keeps_pushEnded {b₀ s : State} (rq : ReqId) (p : Push)  (hk₀ : Keeps b₀ s) : Keeps b₀ (State.pushEnded s rq p) := by
  unfold State.pushEnded
  try dsimp only
  repeat' (first | (with_reducible first | assumption | apply keeps_ite | apply keeps_upTend | apply keeps_answerUp | apply keeps_pushedFw | apply keeps_countVerify | apply keeps_writePushed) | refine keeps_snd (by assumption) ?_ | refine keeps_fst (by assumption) ?_ | split | dsimp only)

theorem ends_PushEnd {b₀ s : State} (rq : ReqId)  (hk₀ : Keeps b₀ s) : Ends b₀ (execPushEnd rq s) := by
  unfold execPushEnd
  try dsimp only
  repeat' (first | (with_reducible first | assumption | apply ends_whenDo | apply ends_next | apply keeps_answerUp | apply keeps_pushEnded) | split | dsimp only)

theorem keeps_ownWritten {b₀ s : State} (p : Push) (ok : Bool)  (hk₀ : Keeps b₀ s) : Keeps b₀ (State.ownWritten s p ok) := by
  unfold State.ownWritten
  try dsimp only
  repeat' (first | (with_reducible first | assumption | apply keeps_ite | apply keeps_writeBank | apply keeps_upTend) | dsimp only)

theorem keeps_pushWritten {b₀ s : State} (rq : ReqId) (ok : Bool)  (hk₀ : Keeps b₀ s) : Keeps b₀ (State.pushWritten s rq ok) := by
  unfold State.pushWritten
  try dsimp only
  repeat' (first | (with_reducible first | assumption | apply keeps_ite | apply keeps_writeBank | apply keeps_upTend | apply keeps_answerUp) | dsimp only)

theorem ends_TenderBankWriteDone {b₀ s : State} (ok : Bool)  (hk₀ : Keeps b₀ s) : Ends b₀ (execTenderBankWriteDone ok s) := by
  unfold execTenderBankWriteDone
  try dsimp only
  repeat' (first | (with_reducible first | assumption | apply ends_whenDo | apply ends_next | apply keeps_ownWritten | apply keeps_pushWritten | apply keeps_upTend) | split | dsimp only)

theorem keeps_commitAt {b₀ s : State} (fw : Bool) (tide : BitVec 32)  (hk₀ : Keeps b₀ s) : Keeps b₀ (State.commitAt s fw tide) := by
  unfold State.commitAt
  try dsimp only
  repeat' (first | (with_reducible first | assumption | apply keeps_ite | apply keeps_upFw | apply keeps_upTend | apply keeps_upMf) | dsimp only)

theorem ends_CommitAt {b₀ s : State} (rq : ReqId) (fw : Bool) (tide : BitVec 32)  (hk₀ : Keeps b₀ s) : Ends b₀ (execCommitAt rq fw tide s) := by
  unfold execCommitAt
  try dsimp only
  repeat' (first | (with_reducible first | assumption | apply ends_whenDo | apply ends_next | apply keeps_commitAt | apply keeps_answerUp) | dsimp only)

theorem keeps_forwarded {b₀ s : State} (code : Nat) (b : Bytes)  (hk₀ : Keeps b₀ s) : Keeps b₀ (State.forwarded s code b) := by
  unfold State.forwarded
  try dsimp only
  repeat' (first | (with_reducible first | assumption | apply keeps_ite | apply keeps_installHere | apply keeps_pubHere | apply keeps_fleetHere | apply keeps_keysEnd | apply keeps_upTide) | split | (intro _; rfl) | rfl | (intro _; repeat' split; all_goals rfl) | dsimp only)

theorem keeps_keyFwd {b₀ s : State} (rq : ReqId) (code : BitVec 8) (b : Bytes)  (hk₀ : Keeps b₀ s) : Keeps b₀ (State.keyFwd s rq code b) := by
  unfold State.keyFwd
  try dsimp only
  repeat' (first | (with_reducible first | assumption | apply keeps_ite | apply keeps_retimeRoot | apply keeps_answerUp | apply keeps_upKeys | apply keeps_forwarded) | dsimp only)

theorem ends_KeyFwd {b₀ s : State} (rq : ReqId) (code : BitVec 8) (body : Bytes)  (hk₀ : Keeps b₀ s) : Ends b₀ (execKeyFwd rq code body s) := by
  unfold execKeyFwd
  try dsimp only
  repeat' (first | (with_reducible first | assumption | apply ends_whenDo | apply ends_next | apply keeps_keyFwd) | dsimp only)

theorem keeps_runHeld {b₀ s : State}   (hk₀ : Keeps b₀ s) : Keeps b₀ (State.runHeld s) := by
  unfold State.runHeld
  try dsimp only
  repeat' (first | (with_reducible first | assumption | intro _ | apply keeps_ite | apply keeps_keyFwd | apply keeps_upKeys | apply keeps_runHeldKeys | apply keeps_foldl) | refine keeps_snd (by assumption) ?_ | refine keeps_fst (by assumption) ?_ | dsimp only)

theorem ends_NoiseBlockDone {b₀ s : State} (raw : BitVec 1024)  (hk₀ : Keeps b₀ s) : Ends b₀ (execNoiseBlockDone raw s) := by
  unfold execNoiseBlockDone
  try dsimp only
  repeat' (first | (with_reducible first | assumption | apply ends_whenDo | apply ends_next | apply keeps_noiseBlock | apply keeps_runHeld) | dsimp only)

theorem keeps_sessionIn {b₀ s : State} (b : Bytes)  (hk₀ : Keeps b₀ s) : Keeps b₀ (State.sessionIn s b) := by
  unfold State.sessionIn
  try dsimp only
  repeat' (first | (with_reducible first | assumption | apply keeps_putSlot | apply keeps_upBt) | exact id | intro _ | assumption | split | (simp_all [BerthTable.ok, Lf.ok, CanBlk.ok, PierBlk.ok]; done) | dsimp only)

theorem ends_SessionSet {b₀ s : State} (header : Bytes) (body : Bytes)  (hk₀ : Keeps b₀ s) : Ends b₀ (execSessionSet header body s) := by
  unfold execSessionSet
  try dsimp only
  repeat' (first | (with_reducible first | assumption | apply ends_whenDo | apply ends_next | apply keeps_pierOpen | apply keeps_sessionIn) | refine keeps_snd (by assumption) ?_ | refine keeps_fst (by assumption) ?_ | split | dsimp only)

theorem keeps_harvestIn {b₀ s : State} (header : Bytes) (b : Bytes)  (hk₀ : Keeps b₀ s) : Keeps b₀ (State.harvestIn s header b) := by
  unfold State.harvestIn
  try dsimp only
  repeat' (first | (with_reducible first | assumption | apply keeps_ite | apply keeps_upTend | apply keeps_tagIdle | apply keeps_modPier) | split | dsimp only)

theorem ends_HarvestTable {b₀ s : State} (header : Bytes) (body : Bytes)  (hk₀ : Keeps b₀ s) : Ends b₀ (execHarvestTable header body s) := by
  unfold execHarvestTable
  try dsimp only
  repeat' (first | (with_reducible first | assumption | apply ends_whenDo | apply ends_next | apply keeps_pierOpen | apply keeps_harvestIn) | refine keeps_snd (by assumption) ?_ | refine keeps_fst (by assumption) ?_ | split | dsimp only)

theorem keeps_scheduleOne {b₀ s : State} (tide : BitVec 32) (e : Nat × Bytes)  (hk₀ : Keeps b₀ s) : Keeps b₀ (State.scheduleOne tide s e) := by
  unfold State.scheduleOne
  try dsimp only
  repeat' (first | (with_reducible first | assumption | apply keeps_ite | apply keeps_modPier | apply keeps_upUwb | apply keeps_cutAt | apply keeps_upTend) | refine keeps_snd (by assumption) ?_ | refine keeps_fst (by assumption) ?_ | dsimp only)

theorem ends_Schedule {b₀ s : State} (tide : BitVec 32) (work : List Stamped)  (hk₀ : Keeps b₀ s) : Ends b₀ (execSchedule tide work s) := by
  unfold execSchedule
  try dsimp only
  repeat' (first | (with_reducible first | assumption | intro _ | apply ends_whenDo | apply ends_next | apply keeps_scheduleOne | apply keeps_foldl) | dsimp only)

theorem ends_TamperMessage {b₀ s : State}   (hk₀ : Keeps b₀ s) : Ends b₀ (execTamperMessage s) := by
  unfold execTamperMessage
  try dsimp only
  repeat' (first | (with_reducible first | assumption | apply ends_whenDo | apply ends_next | apply keeps_tamperEffects | apply keeps_unstageRoots) | dsimp only)

theorem keeps_harvestFor {b₀ s : State} (n : Nat) (h : Keeps b₀ s) : Keeps b₀ (s.harvestFor n).2 := by
  have fold : ∀ {α β : Type} (l : List β) (f : α × State → β → α × State)
      (hf : ∀ x a, Keeps b₀ x.2 → Keeps b₀ (f x a).2) (x : α × State), Keeps b₀ x.2 → Keeps b₀ (l.foldl f x).2 := by
    intro α β l f hf
    induction l with
    | nil => exact fun _ hx => hx
    | cons a l ih => exact fun x hx => ih _ (hf x a hx)
  refine fold _ _ (fun x i hx => ?_) _ h
  dsimp only
  split
  · next e =>
    refine keeps_derivations _ _ _ (keeps_useCells ?_)
    split at e
    · exact keeps_snd e (keeps_lookup _ hx)
    · cases e
  · next e =>
    split at e
    · exact keeps_snd e (keeps_lookup _ hx)
    · cases e; exact hx

theorem keeps_sendHarvest {b₀ s : State} (n : Nat)  (hk₀ : Keeps b₀ s) : Keeps b₀ (State.sendHarvest s n) := by
  unfold State.sendHarvest
  try dsimp only
  repeat' (first | (with_reducible first | assumption | intro _ | apply keeps_harvestFor | apply keeps_pierProtected | apply keeps_foldl) | refine keeps_snd (by assumption) ?_ | refine keeps_fst (by assumption) ?_ | split | dsimp only)

theorem keeps_joinService {b₀ s : State} (n : Nat)  (hk₀ : Keeps b₀ s) : Keeps b₀ (State.joinService s n) := by
  unfold State.joinService
  try dsimp only
  repeat' (first | (with_reducible first | assumption | intro _ | apply keeps_modPier | apply keeps_upPier | apply keeps_shareSlot | apply keeps_foldl) | split | exact id | intro _ | assumption | split | (simp_all [BerthTable.ok, Lf.ok, CanBlk.ok, PierBlk.ok]; done) | dsimp only)

theorem keeps_joinLinks {b₀ s : State}   (hk₀ : Keeps b₀ s) : Keeps b₀ (State.joinLinks s) := by
  unfold State.joinLinks
  try dsimp only
  repeat' (first | (with_reducible first | assumption | intro _ | apply keeps_ite | apply keeps_modPier | apply keeps_joinService | apply keeps_foldl) | dsimp only)

theorem keeps_bindAgain {b₀ s : State}   (hk₀ : Keeps b₀ s) : Keeps b₀ (State.bindAgain s) := by
  unfold State.bindAgain
  try dsimp only
  repeat' (first | (with_reducible first | assumption | intro _ | apply keeps_ite | apply keeps_request | apply keeps_foldl) | dsimp only)

theorem keeps_sendTide {b₀ s : State}   (hk₀ : Keeps b₀ s) : Keeps b₀ (State.sendTide s) := by
  unfold State.sendTide
  try dsimp only
  repeat' (first | (with_reducible first | assumption | intro _ | apply keeps_ite | apply keeps_pierPost | apply keeps_foldl) | dsimp only)

theorem keeps_sendSlack {b₀ s : State}   (hk₀ : Keeps b₀ s) : Keeps b₀ (State.sendSlack s) := by
  unfold State.sendSlack
  try dsimp only
  repeat' (first | (with_reducible first | assumption | intro _ | apply keeps_ite | apply keeps_modPier | apply keeps_pierRequest | apply keeps_foldl) | dsimp only)

theorem keeps_pierBoundary {b₀ s : State}   (hk₀ : Keeps b₀ s) : Keeps b₀ (State.pierBoundary s) := by
  unfold State.pierBoundary
  try dsimp only
  repeat' (first | (with_reducible first | assumption | intro _ | apply keeps_ite | apply keeps_sendTide | apply keeps_joinLinks | apply keeps_bindAgain | apply keeps_upPier | apply keeps_sendHarvest | apply keeps_sendSlack | apply keeps_foldl) | exact id | intro _ | assumption | split | (simp_all [BerthTable.ok, Lf.ok, CanBlk.ok, PierBlk.ok]; done) | dsimp only)

theorem keeps_tenderCommit {b₀ s : State}   (hk₀ : Keeps b₀ s) : Keeps b₀ (State.tenderCommit s) := by
  unfold State.tenderCommit
  try dsimp only
  repeat' (first | (with_reducible first | assumption | apply keeps_ite | apply keeps_upTend | apply keeps_recordBank | apply keeps_adoptImage) | split | dsimp only)

theorem keeps_takeRecord {b₀ s : State}   (hk₀ : Keeps b₀ s) : Keeps b₀ (State.takeRecord s) := by
  unfold State.takeRecord
  try dsimp only
  repeat' (first | (with_reducible first | assumption | apply keeps_recordBank | apply keeps_upTend | apply keeps_writePushed) | split | dsimp only)

theorem keeps_adoptPushed {b₀ s : State}   (hk₀ : Keeps b₀ s) : Keeps b₀ (State.adoptPushed s) := by
  unfold State.adoptPushed
  try dsimp only
  repeat' (first | (with_reducible first | assumption | apply keeps_adoptImage | apply keeps_upMf | apply keeps_upTend) | split | dsimp only)

theorem keeps_takeAnchor {b₀ s : State}   (hk₀ : Keeps b₀ s) : Keeps b₀ (State.takeAnchor s) := by
  unfold State.takeAnchor
  try dsimp only
  repeat' (first | (with_reducible first | assumption | apply keeps_ite | apply keeps_apply) | dsimp only)

theorem keeps_tenderBoundary {b₀ s : State}   (hk₀ : Keeps b₀ s) : Keeps b₀ (State.tenderBoundary s) := by
  unfold State.tenderBoundary
  try dsimp only
  repeat' (first | (with_reducible first | assumption | apply keeps_ite | apply keeps_tenderCommit | apply keeps_takeRecord | apply keeps_adoptPushed | apply keeps_takeAnchor) | dsimp only)

end Sys2Proof.Machine
end

