-- ==== Sys2Proof/Laws/KeepsReset.lean ====
section
/-! SUPPORT. What the functions of Machine/Reset.lean leave alone. -/

namespace Sys2Proof.Machine

set_option linter.all false

theorem keeps_mainReset {b₀ s : State} (cause : BitVec 3) (supply : BitVec 8) (h : Keeps b₀ s) :
    Keeps b₀ (s.mainReset cause supply) := by
  refine ⟨h.pending, h.ident, h.now, h.clock, fun x => ?_, h.starts⟩
  obtain ⟨h1, h2, h3, h4, h5, h6⟩ := (sound_iff s).1 (h.sound x)
  refine (sound_iff _).2 ⟨h1, h2, ?_, ?_, ?_, ?_⟩
  · exact beq_iff_eq.2 (List.length_replicate ..)
  · exact beq_iff_eq.2 ((List.length_map ..).trans (beq_iff_eq.1 h4))
  · exact beq_iff_eq.2 ((List.length_map ..).trans (beq_iff_eq.1 h5))
  · exact beq_iff_eq.2 ((List.length_map ..).trans (beq_iff_eq.1 h6))

theorem kept_powerOn {b₀ s : State} (h : Kept b₀ s) : Kept b₀ s.powerOn := by
  refine ⟨h.pending, h.ident, fun x => ?_, fun x => by cases x⟩
  obtain ⟨h1, h2, h3, h4, h5, h6⟩ := (sound_iff s).1 (h.sound x)
  refine (sound_iff _).2 ⟨by show Intc.reset.ok = true; decide, rfl, ?_, ?_, ?_, ?_⟩
  · exact beq_iff_eq.2 (List.length_replicate ..)
  · exact beq_iff_eq.2 (List.length_replicate ..)
  · exact beq_iff_eq.2 ((List.length_map ..).trans (beq_iff_eq.1 h5))
  · exact beq_iff_eq.2 (List.length_replicate ..)

theorem ends_PowerOnReset {b₀ s : State} (h : Kept b₀ s) : EndsKept b₀ (execPowerOnReset s) := ⟨_, rfl, kept_powerOn h⟩

theorem keeps_lower {b₀ s : State} (v : BitVec 8)  (hk₀ : Keeps b₀ s) : Keeps b₀ (State.lower s v) := by
  unfold State.lower
  try dsimp only
  repeat' (first | (with_reducible first | assumption | apply keeps_upSys | apply keeps_latchIf) | dsimp only)

theorem keeps_brownOut {b₀ s : State} (v : BitVec 8)  (hk₀ : Keeps b₀ s) : Keeps b₀ (State.brownOut s v) := by
  unfold State.brownOut
  try dsimp only
  repeat' (first | (with_reducible first | assumption | intro _ | apply keeps_ite | apply keeps_lower | apply keeps_signCut | apply keeps_mainReset | apply keeps_logRecord | apply keeps_upSys) | dsimp only)

theorem ends_BrownOut {b₀ s : State} (supplies : BitVec 8)  (hk₀ : Keeps b₀ s) : Ends b₀ (execBrownOut supplies s) := by
  unfold execBrownOut
  try dsimp only
  repeat' (first | (with_reducible first | assumption | apply ends_whenDo | apply ends_next | apply keeps_brownOut) | dsimp only)

theorem keeps_supplyCross {b₀ s : State} (b : Nat) (below : Bool)  (hk₀ : Keeps b₀ s) : Keeps b₀ (State.supplyCross s b below) := by
  unfold State.supplyCross
  try dsimp only
  repeat' (first | (with_reducible first | assumption | apply keeps_ite | apply keeps_upSys | apply keeps_latch) | dsimp only)

theorem ends_SupplyWarning {b₀ s : State} (bit : BitVec 3) (below : Bool)  (hk₀ : Keeps b₀ s) : Ends b₀ (execSupplyWarning bit below s) := by
  unfold execSupplyWarning
  try dsimp only
  repeat' (first | (with_reducible first | assumption | apply ends_whenDo | apply ends_next | apply keeps_supplyCross) | dsimp only)

theorem keeps_bankLow {b₀ s : State} (hk₀ : Keeps b₀ s) : Keeps b₀ s.bankLow := by
  unfold State.bankLow
  exact keeps_ite hk₀ (keeps_supplyCross _ _ hk₀)

theorem ends_VioBrownOut {b₀ s : State} (bank : BitVec 2)  (hk₀ : Keeps b₀ s) : Ends b₀ (execVioBrownOut bank s) := by
  unfold execVioBrownOut
  try dsimp only
  repeat' (first | (with_reducible first | assumption | apply ends_whenDo | apply ends_next | apply keeps_ite | apply ends_ite | apply keeps_bankLow | apply keeps_upSys | apply keeps_upPins) | dsimp only)

theorem ends_VioBankRelease {b₀ s : State} (bank : BitVec 2)  (hk₀ : Keeps b₀ s) : Ends b₀ (execVioBankRelease bank s) := by
  unfold execVioBankRelease
  try dsimp only
  repeat' (first | (with_reducible first | assumption | apply ends_whenDo | apply ends_next | apply keeps_ite | apply ends_ite | apply keeps_upSys | apply keeps_upPins) | dsimp only)

theorem ends_WatchdogExpiry {b₀ s : State}   (hk₀ : Keeps b₀ s) : Ends b₀ (execWatchdogExpiry s) := by
  unfold execWatchdogExpiry
  try dsimp only
  repeat' (first | (with_reducible first | assumption | apply ends_whenDo | apply ends_next | apply keeps_mainReset) | dsimp only)

theorem keeps_lockstep {b₀ s : State} (b : Bool)  (hk₀ : Keeps b₀ s) : Keeps b₀ (State.lockstep s b) := by
  unfold State.lockstep
  try dsimp only
  repeat' (first | (with_reducible first | assumption | apply keeps_ite | apply keeps_stopPair | apply keeps_latch | apply keeps_logRecord | apply keeps_upSys | apply keeps_mainReset | apply keeps_fwRevert) | refine keeps_snd (by assumption) ?_ | refine keeps_fst (by assumption) ?_ | dsimp only)

theorem ends_LockstepFault {b₀ s : State} (pairB : Bool)  (hk₀ : Keeps b₀ s) : Ends b₀ (execLockstepFault pairB s) := by
  unfold execLockstepFault
  try dsimp only
  repeat' (first | (with_reducible first | assumption | apply ends_whenDo | apply ends_next | apply keeps_lockstep) | dsimp only)

theorem keeps_hostReset {b₀ s : State} (v : BitVec 32)  (hk₀ : Keeps b₀ s) : Keeps b₀ (State.hostReset s v) := by
  unfold State.hostReset
  try dsimp only
  repeat' (first | (with_reducible first | assumption | apply keeps_ite | apply keeps_mainReset | apply keeps_notice) | dsimp only)

theorem ends_HostReset {b₀ s : State} (v : BitVec 32)  (hk₀ : Keeps b₀ s) : Ends b₀ (execHostReset v s) := by
  unfold execHostReset
  try dsimp only
  repeat' (first | (with_reducible first | assumption | intro _ | apply ends_whenDo | apply ends_next | apply keeps_nearWrite | apply keeps_hostReset) | dsimp only)

theorem ends_CrystalChangeover {b₀ s : State}   (hk₀ : Keeps b₀ s) : Ends b₀ (execCrystalChangeover s) := by
  unfold execCrystalChangeover
  try dsimp only
  repeat' (first | (with_reducible first | assumption | apply ends_whenDo | apply ends_next | apply keeps_upSys) | dsimp only)

end Sys2Proof.Machine
end

