-- ==== Sys2Proof/Laws/KeepsTide.lean ====
section
/-! SUPPORT. What the functions of Machine/Tide.lean leave alone. -/

namespace Sys2Proof.Machine

set_option linter.all false

theorem ends_WatchDwellExpiry {b₀ s : State}   (hk₀ : Keeps b₀ s) : Ends b₀ (execWatchDwellExpiry s) := by
  unfold execWatchDwellExpiry
  try dsimp only
  repeat' (first | (with_reducible first | assumption | apply ends_whenDo | apply ends_next | apply keeps_upTide) | (intro _; rfl) | rfl | (intro _; repeat' split; all_goals rfl) | dsimp only)

theorem ends_ServiceDwellExpiry {b₀ s : State}   (hk₀ : Keeps b₀ s) : Ends b₀ (execServiceDwellExpiry s) := by
  unfold execServiceDwellExpiry
  try dsimp only
  repeat' (first | (with_reducible first | assumption | apply ends_whenDo | apply ends_next | apply keeps_upTide) | (intro _; rfl) | rfl | (intro _; repeat' split; all_goals rfl) | dsimp only)

theorem kept_setPower {b₀ s : State} (p : Power) (h : Kept b₀ s) : Kept b₀ (s.setPower p) := by
  unfold State.setPower
  dsimp only
  split
  · exact h
  · generalize e : s.upTide _ = u
    have k : Kept b₀ u := e ▸ kept_upTide h
    clear e
    split
    · exact k.of (keeps_latch _ (keeps_upTrng (keeps_upLog (keeps_refl _))))
    · split
      · exact k.of (keeps_latch _ (keeps_wakeNoise (keeps_upLog (keeps_refl _))))
      · exact k.of (keeps_latch _ (keeps_refl _))

theorem kept_lifeTo {b₀ s : State} (l : LifeCycle) (h : Kept b₀ s) : Kept b₀ (s.lifeTo l) := by
  unfold State.lifeTo
  dsimp only
  split
  · exact h
  · generalize e : s.upTide _ = u
    have k : Kept b₀ u := e ▸ kept_upTide h
    clear e
    refine k.of (keeps_latch _ (keeps_ite (keeps_endLoopback ?_) ?_)) <;>
    · split
      · exact keeps_invalidateRoot _ (keeps_upVer (keeps_writeRecord _ (keeps_refl _)))
      · exact keeps_upVer (keeps_writeRecord _ (keeps_refl _))

theorem kept_lifeBoundary {b₀ s : State} (h : Kept b₀ s) : Kept b₀ s.lifeBoundary := by
  unfold State.lifeBoundary
  split
  · exact h
  · exact kept_lifeTo _ (kept_upTide h)

theorem kept_newTide {b₀ s : State} (w : Option (BitVec 4)) (h : Kept b₀ s) : Kept b₀ (s.newTide w) :=
  (kept_upTide h).of (keeps_latchIf _ _ (keeps_latch _ (keeps_refl _)))

theorem keeps_wakesOf {b₀ s : State} (waited : List (BitVec 4)) (h : Keeps b₀ s) : Keeps b₀ (s.wakesOf waited) := by
  unfold State.wakesOf
  dsimp only
  refine keeps_ite (keeps_foldl (fun x a hx => keeps_upTide hx fun t => Tide.noteWake_clock t _ _) ?_) ?_
  all_goals exact keeps_upTide h fun _ => rfl

theorem keeps_dwellBoundary {b₀ s : State} (live : Bool)  (hk₀ : Keeps b₀ s) : Keeps b₀ (State.dwellBoundary s live) := by
  unfold State.dwellBoundary
  try dsimp only
  repeat' (first | (with_reducible first | assumption | apply keeps_ite | apply keeps_upTide) | (intro _; rfl) | rfl | (intro _; repeat' split; all_goals rfl) | dsimp only)

theorem keeps_nonceBoundary {b₀ s : State}   (hk₀ : Keeps b₀ s) : Keeps b₀ (State.nonceBoundary s) := by
  unfold State.nonceBoundary
  try dsimp only
  repeat' (first | (with_reducible first | assumption | intro _ | apply keeps_request | apply keeps_foldl) | dsimp only)

theorem keeps_blocksBoundary {b₀ s : State} (env : TideEnv)  (hk₀ : Keeps b₀ s) : Keeps b₀ (State.blocksBoundary s env) := by
  unfold State.blocksBoundary
  try dsimp only
  repeat' (first | (with_reducible first | assumption | apply keeps_lfBoundary | apply keeps_schedulePolls | apply keeps_nbBoundary | apply keeps_bleMeasured | apply keeps_uwbBoundary | apply keeps_renewSessions | apply keeps_scheduleRounds | apply keeps_nfcBoundary | apply keeps_canConfigBoundary | apply keeps_canFilterBoundary | apply keeps_canRunBoundary | apply keeps_canHeldBoundary) | dsimp only)

theorem keeps_serviceWatchdog {b₀ s : State}   (hk₀ : Keeps b₀ s) : Keeps b₀ (State.serviceWatchdog s) := by
  unfold State.serviceWatchdog
  try dsimp only
  repeat' (first | (with_reducible first | assumption | apply keeps_ite | apply keeps_upSys) | dsimp only)

theorem keeps_restartOver {b₀ s : State}   (hk₀ : Keeps b₀ s) : Keeps b₀ (State.restartOver s) := by
  unfold State.restartOver
  try dsimp only
  repeat' (first | (with_reducible first | assumption | apply keeps_ite | apply keeps_upSys) | dsimp only)

theorem keeps_takeSettings {b₀ s : State} (toReturn : Bool)  (hk₀ : Keeps b₀ s) : Keeps b₀ (State.takeSettings s toReturn) := by
  unfold State.takeSettings
  try dsimp only
  repeat' (first | (with_reducible first | assumption | apply keeps_manifestBoundary | apply keeps_tenderBoundary | apply keeps_regBoundary | apply keeps_keysBoundary) | dsimp only)

theorem BerthTable.takeBooking_ok (b : BerthTable) (t : Nat) (h : b.ok = true) : (b.takeBooking t).ok = true := by
  unfold BerthTable.takeBooking
  dsimp only
  split <;> exact h

theorem keeps_tableBoundary {b₀ s : State} (cast : List Nat) (h : Keeps b₀ s) : Keeps b₀ (s.tableBoundary cast) :=
  keeps_startBoundary (keeps_verdictBoundary (keeps_upBt (keeps_freeCastOff _ h) fun b hb => BerthTable.takeBooking_ok b _ hb))

theorem keeps_runTide {b₀ s : State} (env : TideEnv) (cast : List Nat) (live : Bool) (waited : List (BitVec 4))  (hk₀ : Keeps b₀ s) : Keeps b₀ (State.runTide s env cast live waited) := by
  unfold State.runTide
  try dsimp only
  repeat' (first | (with_reducible first | assumption | apply keeps_ite | apply keeps_restartOver | apply keeps_tamperBoundary | apply keeps_vlfBoundary | apply keeps_lkBoundary | apply keeps_deferBoundary | apply keeps_unmooredBoundary | apply keeps_pollsEnded | apply keeps_jamBoundary | apply keeps_tableBoundary | apply keeps_blocksBoundary | apply keeps_dwellBoundary | apply keeps_nonceBoundary | apply keeps_signBoundary | apply keeps_serviceWatchdog | apply keeps_fwBoundary | apply keeps_pierBoundary | apply keeps_wakesOf | apply keeps_regBackground) | dsimp only)

theorem kept_setLength {b₀ s : State} (cap : Nat) (h : Kept b₀ s) : Kept b₀ (s.setLength cap) := kept_upTide h

theorem kept_ite {b x y : State} {c : Prop} [Decidable c] (hx : Kept b x) (hy : Kept b y) : Kept b (if c then x else y) := by
  split
  · exact hx
  · exact hy

theorem kept_boundary {b₀ s : State} (env : TideEnv) (power : State → Power) (wake : Option (BitVec 4)) (cap : Nat)
    (h : Kept b₀ s) : Kept b₀ (s.boundary env power wake cap) := by
  have k := (kept_lifeBoundary (kept_newTide wake (h.of (keeps_publish (keeps_refl s))))).of
      (keeps_takeSettings (s.publish.tide.lifeNext == some .returned) (keeps_refl _))
  unfold State.boundary
  dsimp only
  generalize ((s.publish.newTide wake).lifeBoundary.takeSettings (s.publish.tide.lifeNext == some .returned)) = u at k ⊢
  exact (kept_setLength cap (kept_setPower _ k)).of (keeps_runTide _ _ _ _ (keeps_refl _))

theorem ends_TideBoundary {b₀ s : State} (env : TideEnv) (h : Kept b₀ s) : EndsKept b₀ (execTideBoundary env s) :=
  endsKept_whenDo h (kept_boundary _ _ _ _ h)

theorem ends_WakeBoundary {b₀ s : State} (env : TideEnv) (h : Kept b₀ s) : EndsKept b₀ (execWakeBoundary env s) := by
  unfold execWakeBoundary
  split
  · exact ⟨_, rfl, h⟩
  · exact endsKept_whenDo h (kept_boundary _ _ _ _ (kept_upTide h))

theorem keeps_powerReqWrite {b₀ s : State} (v : BitVec 32)  (hk₀ : Keeps b₀ s) : Keeps b₀ (State.powerReqWrite s v) := by
  unfold State.powerReqWrite
  try dsimp only
  repeat' (first | (with_reducible first | assumption | apply keeps_ite | apply keeps_upTide | apply keeps_wake | apply keeps_noticeIf) | (intro _; rfl) | rfl | (intro _; repeat' split; all_goals rfl) | dsimp only)

theorem ends_PowerReqWrite {b₀ s : State} (v : BitVec 32)  (hk₀ : Keeps b₀ s) : Ends b₀ (execPowerReqWrite v s) := by
  unfold execPowerReqWrite
  try dsimp only
  repeat' (first | (with_reducible first | assumption | intro _ | apply ends_whenDo | apply ends_next | apply keeps_farWrite | apply keeps_powerReqWrite) | dsimp only)

theorem ends_PierMark {b₀ s : State} (env : TideEnv) (h : Kept b₀ s) : EndsKept b₀ (execPierMark env s) :=
  endsKept_whenDo h ((kept_boundary _ _ _ _ h).of (keeps_upTend (keeps_refl _)))

theorem kept_followPower {b₀ s : State} (p : Power) (h : Kept b₀ s) : Kept b₀ (s.followPower p) := by
  unfold State.followPower
  dsimp only
  generalize (if p = .deep ∧ s.tide.life = .fleet then Power.standby else p) = p
  split
  · exact h
  · exact (kept_setPower _ h).of (keeps_canHeldBoundary (keeps_canRunBoundary (keeps_nfcBoundary (keeps_uwbPower
      (keeps_nbPower (keeps_refl _))))))

theorem keeps_lateCommit {b₀ s : State}   (hk₀ : Keeps b₀ s) : Keeps b₀ (State.lateCommit s) := by
  unfold State.lateCommit
  try dsimp only
  repeat' (first | (with_reducible first | assumption | apply keeps_ite | apply keeps_upMf | apply keeps_upTend) | split | dsimp only)

theorem kept_takeMark {b₀ s : State} (stamp : BitVec 48) (h : Kept b₀ s) : Kept b₀ (s.takeMark stamp).1 := by
  unfold State.takeMark
  split <;> dsimp only
  · exact h.of (keeps_upTend (keeps_refl _))
  · exact kept_boundary _ _ _ _ (h.of (keeps_modPier _ _ (keeps_refl _)))

theorem kept_takeTide {b₀ s : State} (number : BitVec 32) (stamp : BitVec 48) (length : Nat) (step : Int) (h : Kept b₀ s) :
    Kept b₀ (s.takeTide number stamp length step) := by
  unfold State.takeTide
  dsimp only
  exact kept_upTide (kept_atTick (h.of (keeps_upTend (keeps_refl _))))

theorem keeps_tideSynced {b₀ s : State}   (hk₀ : Keeps b₀ s) : Keeps b₀ (State.tideSynced s) := by
  unfold State.tideSynced
  try dsimp only
  repeat' (first | (with_reducible first | assumption | apply keeps_ite | apply keeps_lateCommit | apply keeps_upTend) | dsimp only)

theorem kept_followLife {b₀ s : State} (life : Nat) (h : Kept b₀ s) : Kept b₀ (s.followLife life) :=
  kept_ite (kept_lifeTo _ h) h

theorem kept_tideIn {b₀ s : State} (number : BitVec 32) (stamp : BitVec 48) (length power life : Nat) (h : Kept b₀ s) :
    Kept b₀ (s.tideIn number stamp length power life) :=
  kept_followPower _ (kept_followLife _ ((kept_takeTide _ _ _ _ (kept_takeMark _ h)).of (keeps_tideSynced (keeps_refl _))))

theorem ends_TideMessage {b₀ s : State} (number : BitVec 32) (stamp : BitVec 48) (length : BitVec 11) (power : BitVec 3)
    (life : BitVec 2) (h : Kept b₀ s) : EndsKept b₀ (execTideMessage number stamp length power life s) :=
  endsKept_whenDo h (kept_tideIn _ _ _ _ _ h)

end Sys2Proof.Machine
end

