-- ==== Sys2Proof/Laws/KeepsStart.lean ====
section
/-! SUPPORT. What the functions of Machine/Start.lean leave alone. -/

namespace Sys2Proof.Machine

set_option linter.all false

theorem keeps_regStart {b₀ s : State}   (hk₀ : Keeps b₀ s) : Keeps b₀ (State.regStart s) := by
  unfold State.regStart
  try dsimp only
  repeat' (first | (with_reducible first | assumption | apply keeps_ite | apply keeps_upReg | apply keeps_latch | apply keeps_logRecord) | dsimp only)

theorem keeps_startRecords {b₀ s : State}   (hk₀ : Keeps b₀ s) : Keeps b₀ (State.startRecords s) := by
  unfold State.startRecords
  try dsimp only
  repeat' (first | (with_reducible first | assumption | apply keeps_ite | apply keeps_logRecord | apply keeps_upSys) | dsimp only)

theorem keeps_sysStart {b₀ s : State}   (hk₀ : Keeps b₀ s) : Keeps b₀ (State.sysStart s) := by
  unfold State.sysStart
  try dsimp only
  repeat' (first | (with_reducible first | assumption | apply keeps_ite | apply keeps_upSys | apply keeps_upPort | apply keeps_latch) | dsimp only)

theorem keeps_katStart {b₀ s : State} (kat : BitVec 4)  (hk₀ : Keeps b₀ s) : Keeps b₀ (State.katStart s kat) := by
  unfold State.katStart
  try dsimp only
  repeat' (first | (with_reducible first | assumption | apply keeps_ite | apply keeps_upCry | apply keeps_latchIf | apply keeps_upTrng | apply keeps_request) | dsimp only)

theorem keeps_cfgStart {b₀ s : State} (h : Keeps b₀ s) : Keeps b₀ s.cfgStart := by
  unfold State.cfgStart
  have h2 : Keeps b₀ (s.canOwners fun n => n < 7) := keeps_canOwners _ h
  revert h2
  generalize (s.canOwners fun n => n < 7) = t
  exact fun h2 => keeps_upPins (keeps_upLf (keeps_upCan h2 (CanBlk.ok_total s.cfg.canTotal)) fun _ hx => hx)

theorem kept_restart {b₀ s : State} (env : TideEnv) (h : Kept b₀ s) : Kept b₀ (s.restart env) :=
  (kept_boundary _ _ _ _ h).of (keeps_upSys (keeps_refl _))

theorem keeps_cellStart {b₀ s : State} (bad : BitVec 6)  (hk₀ : Keeps b₀ s) : Keeps b₀ (State.cellStart s bad) := by
  unfold State.cellStart
  try dsimp only
  repeat' (first | (with_reducible first | assumption | apply keeps_ite | apply keeps_upKeys | apply keeps_upCry | apply keeps_writeRecord) | dsimp only)

theorem kept_mainStart {b₀ s : State} (env : TideEnv) (kat : BitVec 4) (cells : BitVec 6) (h : Kept b₀ s) : Kept b₀ (s.mainStart env kat cells) := by
  unfold State.mainStart
  dsimp only
  have c : Keeps s ((s.sysStart.cellStart cells).upLog Logbook.recover) := keeps_upLog (keeps_cellStart _ (keeps_sysStart (keeps_refl _)))
  exact kept_restart _ (h.of (keeps_cfgStart (keeps_katStart _ (keeps_regStart (keeps_startRecords (keeps_mfPowerUp
    (keeps_ite (keeps_fwRevert c) c)))))))

theorem ends_MainStart {b₀ s : State} (env : TideEnv) (kat : BitVec 4) (cells : BitVec 6) (h : Kept b₀ s) : EndsKept b₀ (execMainStart env kat cells s) :=
  endsKept_whenDo h (kept_mainStart _ _ _ h)

end Sys2Proof.Machine
end

