-- ==== Sys2Proof/Laws/KeepsOperands.lean ====
section
/-! SUPPORT. What the functions of Machine/Operands.lean leave alone. -/

namespace Sys2Proof.Machine

set_option linter.all false

theorem keeps_clearRc {b₀ s : State} (a : Nat)  (hk₀ : Keeps b₀ s) : Keeps b₀ (State.clearRc s a) := by
  unfold State.clearRc
  try dsimp only
  repeat' (first | (with_reducible first | assumption | apply keeps_ite | apply keeps_upPort | apply keeps_upIntc | apply keeps_upTide | apply keeps_upBt | apply keeps_upVer | apply keeps_modCtl | apply keeps_modPier | apply keeps_upLf | apply keeps_upUwb | apply keeps_upNb | apply keeps_upNfc | apply keeps_upCry | apply keeps_upKeys | apply keeps_violation | apply keeps_upTrng | apply keeps_upReg) | (with_reducible first | intro _ | exact Intc.complete_ok (by assumption) _ _ | exact Intc.claim_ok (by assumption) _ | exact Intc.enablePair_ok (by assumption) _ (pairTarget_ne _) _ | exact Intc.foldl_ok _ (fun i n h => Intc.clearBit_ok h n) _ (by assumption) | exact Intc.foldl_ok _ (fun i n h => Intc.enableHost_ok h _ _) _ (by assumption)) | exact Intc.ok_same (by assumption) rfl rfl rfl rfl rfl rfl rfl rfl rfl rfl | split | exact id | intro _ | assumption | split | (simp_all [BerthTable.ok, Lf.ok, CanBlk.ok, PierBlk.ok]; done) | (intro _; rfl) | rfl | (intro _; repeat' split; all_goals rfl) | dsimp only)

theorem keeps_takeReg {b₀ s : State} (a : Nat) (v : BitVec 32) (h : Keeps b₀ s) : Keeps b₀ (s.takeReg a v).2 := by
  unfold State.takeReg
  split
  · exact keeps_claimHost h
  · exact keeps_clearRc _ h

end Sys2Proof.Machine
end

