-- ==== Sys2Proof/Laws/KeepsHostWrite.lean ====
section
/-! SUPPORT. What the functions of Machine/HostWrite.lean leave alone. -/

namespace Sys2Proof.Machine

set_option linter.all false

theorem keeps_fwLenWrite {b₀ s : State} (v : BitVec 32)  (hk₀ : Keeps b₀ s) : Keeps b₀ (State.fwLenWrite s v) := by
  unfold State.fwLenWrite
  try dsimp only
  repeat' (first | (with_reducible first | assumption | apply keeps_upFw | apply keeps_noticeIf) | dsimp only)

theorem keeps_fwBlockWrite {b₀ s : State} (v : BitVec 32)  (hk₀ : Keeps b₀ s) : Keeps b₀ (State.fwBlockWrite s v) := by
  unfold State.fwBlockWrite
  try dsimp only
  repeat' (first | (with_reducible first | assumption | apply keeps_ite | apply keeps_upFw | apply keeps_noticeIf) | dsimp only)

theorem keeps_hirqWrite {b₀ s : State} (v : BitVec 32)  (hk₀ : Keeps b₀ s) : Keeps b₀ (State.hirqWrite s v) := by
  unfold State.hirqWrite
  try dsimp only
  repeat' (first | (with_reducible first | assumption | apply keeps_upIntc | apply keeps_noticeIf) | (with_reducible first | intro _ | exact Intc.complete_ok (by assumption) _ _ | exact Intc.claim_ok (by assumption) _ | exact Intc.enablePair_ok (by assumption) _ (pairTarget_ne _) _ | exact Intc.foldl_ok _ (fun i n h => Intc.clearBit_ok h n) _ (by assumption) | exact Intc.foldl_ok _ (fun i n h => Intc.enableHost_ok h _ _) _ (by assumption)) | exact Intc.ok_same (by assumption) rfl rfl rfl rfl rfl rfl rfl rfl rfl rfl | dsimp only)

theorem keeps_lengthReqWrite {b₀ s : State} (v : BitVec 32)  (hk₀ : Keeps b₀ s) : Keeps b₀ (State.lengthReqWrite s v) := by
  unfold State.lengthReqWrite
  try dsimp only
  repeat' (first | (with_reducible first | assumption | apply keeps_ite | apply keeps_upTide | apply keeps_noticeIf) | (intro _; rfl) | rfl | (intro _; repeat' split; all_goals rfl) | dsimp only)

theorem keeps_mfLenWrite {b₀ s : State} (v : BitVec 32)  (hk₀ : Keeps b₀ s) : Keeps b₀ (State.mfLenWrite s v) := by
  unfold State.mfLenWrite
  try dsimp only
  repeat' (first | (with_reducible first | assumption | apply keeps_upMf | apply keeps_noticeIf) | dsimp only)

theorem keeps_mfBlockWrite {b₀ s : State} (v : BitVec 32)  (hk₀ : Keeps b₀ s) : Keeps b₀ (State.mfBlockWrite s v) := by
  unfold State.mfBlockWrite
  try dsimp only
  repeat' (first | (with_reducible first | assumption | apply keeps_ite | apply keeps_upMf | apply keeps_noticeIf) | dsimp only)

theorem keeps_regLenWrite {b₀ s : State} (v : BitVec 32)  (hk₀ : Keeps b₀ s) : Keeps b₀ (State.regLenWrite s v) := by
  unfold State.regLenWrite
  try dsimp only
  repeat' (first | (with_reducible first | assumption | apply keeps_upReg | apply keeps_noticeIf) | dsimp only)

theorem keeps_regBlockWrite {b₀ s : State} (v : BitVec 32)  (hk₀ : Keeps b₀ s) : Keeps b₀ (State.regBlockWrite s v) := by
  unfold State.regBlockWrite
  try dsimp only
  repeat' (first | (with_reducible first | assumption | apply keeps_ite | apply keeps_upReg | apply keeps_noticeIf) | dsimp only)

theorem keeps_markWrite {b₀ s : State} (v : BitVec 32)  (hk₀ : Keeps b₀ s) : Keeps b₀ (State.markWrite s v) := by
  unfold State.markWrite
  try dsimp only
  repeat' (first | (with_reducible first | assumption | apply keeps_ite | apply keeps_upLog | apply keeps_noticeIf) | dsimp only)

theorem keeps_tuneWrite {b₀ s : State} (n : Nat) (v : BitVec 32)  (hk₀ : Keeps b₀ s) : Keeps b₀ (State.tuneWrite s n v) := by
  unfold State.tuneWrite
  try dsimp only
  repeat' (first | (with_reducible first | assumption | apply keeps_ite | apply keeps_upLf | apply keeps_noticeIf) | exact id | intro _ | assumption | split | (simp_all [BerthTable.ok, Lf.ok, CanBlk.ok, PierBlk.ok]; done) | dsimp only)

theorem keeps_attenWrite {b₀ s : State} (v : BitVec 32)  (hk₀ : Keeps b₀ s) : Keeps b₀ (State.attenWrite s v) := by
  unfold State.attenWrite
  try dsimp only
  repeat' (first | (with_reducible first | assumption | apply keeps_upUwb) | dsimp only)

theorem keeps_cirCtrlWrite {b₀ s : State} (v : BitVec 32)  (hk₀ : Keeps b₀ s) : Keeps b₀ (State.cirCtrlWrite s v) := by
  unfold State.cirCtrlWrite
  try dsimp only
  repeat' (first | (with_reducible first | assumption | apply keeps_upUwb) | dsimp only)

theorem keeps_txPowerWrite {b₀ s : State} (v : BitVec 32)  (hk₀ : Keeps b₀ s) : Keeps b₀ (State.txPowerWrite s v) := by
  unfold State.txPowerWrite
  try dsimp only
  repeat' (first | (with_reducible first | assumption | apply keeps_upNb | apply keeps_noticeIf) | dsimp only)

theorem keeps_intervalWrite {b₀ s : State} (v : BitVec 32)  (hk₀ : Keeps b₀ s) : Keeps b₀ (State.intervalWrite s v) := by
  unfold State.intervalWrite
  try dsimp only
  repeat' (first | (with_reducible first | assumption | apply keeps_upNb | apply keeps_noticeIf) | dsimp only)

theorem keeps_genLenWrite {b₀ s : State} (v : BitVec 32)  (hk₀ : Keeps b₀ s) : Keeps b₀ (State.genLenWrite s v) := by
  unfold State.genLenWrite
  try dsimp only
  repeat' (first | (with_reducible first | assumption | apply keeps_upTrng | apply keeps_noticeIf) | dsimp only)

theorem keeps_keysCmdWrite {b₀ s : State} (v : BitVec 32)  (hk₀ : Keeps b₀ s) : Keeps b₀ (State.keysCmdWrite s v) := by
  unfold State.keysCmdWrite
  try dsimp only
  repeat' (first | (with_reducible first | assumption | apply keeps_ite | apply keeps_keysCmd | apply keeps_notice) | dsimp only)

theorem keeps_trngCmdWrite {b₀ s : State} (v : BitVec 32)  (hk₀ : Keeps b₀ s) : Keeps b₀ (State.trngCmdWrite s v) := by
  unfold State.trngCmdWrite
  try dsimp only
  repeat' (first | (with_reducible first | assumption | apply keeps_hostGenerate | apply keeps_hostReseedCmd | apply keeps_setPersCmd | apply keeps_notice) | split | dsimp only)

theorem keeps_signCmdWrite {b₀ s : State} (v : BitVec 32)  (hk₀ : Keeps b₀ s) : Keeps b₀ (State.signCmdWrite s v) := by
  unfold State.signCmdWrite
  try dsimp only
  repeat' (first | (with_reducible first | assumption | apply keeps_ite | apply keeps_attestCmd | apply keeps_notice) | dsimp only)

theorem keeps_regCommand {b₀ s : State} (v : BitVec 32)  (hk₀ : Keeps b₀ s) : Keeps b₀ (State.regCommand s v) := by
  unfold State.regCommand
  try dsimp only
  repeat' (first | (with_reducible first | assumption | apply keeps_regOpen | apply keeps_regVerify | apply keeps_regCommit | apply keeps_regAbort | apply keeps_notice) | split | dsimp only)

theorem keeps_mbCommand {b₀ s : State} (v : BitVec 32)  (hk₀ : Keeps b₀ s) : Keeps b₀ (State.mbCommand s v) := by
  unfold State.mbCommand
  try dsimp only
  repeat' (first | (with_reducible first | assumption | apply keeps_mbStart | apply keeps_notice) | split | dsimp only)

theorem keeps_writeHost {b₀ s : State} (o : Nat) (v : BitVec 32)  (hk₀ : Keeps b₀ s) : Keeps b₀ (State.writeHost s o v) := by
  unfold State.writeHost
  try dsimp only
  repeat' (first | (with_reducible first | assumption | intro _ | apply keeps_upPort | apply keeps_upSys | apply keeps_hostReset | apply keeps_fwCommand | apply keeps_fwLenWrite | apply keeps_fwBlockWrite | apply keeps_fwBlockCrc | apply keeps_upFw) | split | dsimp only)

theorem keeps_writeIntc {b₀ s : State} (o : Nat) (v : BitVec 32)  (hk₀ : Keeps b₀ s) : Keeps b₀ (State.writeIntc s o v) := by
  unfold State.writeIntc
  try dsimp only
  repeat' (first | (with_reducible first | assumption | intro _ | apply keeps_pendingWrite | apply keeps_enableHost | apply keeps_upIntc | apply keeps_hirqWrite | apply keeps_triggerWrite) | (with_reducible first | intro _ | exact Intc.complete_ok (by assumption) _ _ | exact Intc.claim_ok (by assumption) _ | exact Intc.enablePair_ok (by assumption) _ (pairTarget_ne _) _ | exact Intc.foldl_ok _ (fun i n h => Intc.clearBit_ok h n) _ (by assumption) | exact Intc.foldl_ok _ (fun i n h => Intc.enableHost_ok h _ _) _ (by assumption)) | exact Intc.ok_same (by assumption) rfl rfl rfl rfl rfl rfl rfl rfl rfl rfl | split | dsimp only)

theorem keeps_writeTide {b₀ s : State} (o : Nat) (v : BitVec 32)  (hk₀ : Keeps b₀ s) : Keeps b₀ (State.writeTide s o v) := by
  unfold State.writeTide
  try dsimp only
  repeat' (first | (with_reducible first | assumption | intro _ | apply keeps_powerReqWrite | apply keeps_lengthReqWrite) | split | dsimp only)

theorem keeps_writeManifest {b₀ s : State} (o : Nat) (v : BitVec 32)  (hk₀ : Keeps b₀ s) : Keeps b₀ (State.writeManifest s o v) := by
  unfold State.writeManifest
  try dsimp only
  repeat' (first | (with_reducible first | assumption | intro _ | apply keeps_mfCommand | apply keeps_mfLenWrite | apply keeps_mfBlockWrite | apply keeps_mfBlockCrc | apply keeps_upMf) | split | dsimp only)

theorem keeps_writeBerth {b₀ s : State} (o : Nat) (v : BitVec 32)  (hk₀ : Keeps b₀ s) : Keeps b₀ (State.writeBerth s o v) := by
  unfold State.writeBerth
  try dsimp only
  repeat' (first | (with_reducible first | assumption | intro _ | apply keeps_ite | apply keeps_castWrite | apply keeps_bookLo | apply keeps_bookHi | apply keeps_vselWrite | apply keeps_ovrCommand) | split | dsimp only)

theorem keeps_writeCan {b₀ s : State} (o : Nat) (v : BitVec 32)  (hk₀ : Keeps b₀ s) : Keeps b₀ (State.writeCan s o v) := by
  unfold State.writeCan
  try dsimp only
  repeat' (first | (with_reducible first | assumption | intro _ | apply keeps_ite | apply keeps_canCfgWrite | apply keeps_canIdWrite | apply keeps_canCtrlWrite | apply keeps_canModeWrite | apply keeps_canWrite | apply keeps_modCtl | apply keeps_canFiltCtrl | apply keeps_canAck) | split | dsimp only)

theorem keeps_writePier {b₀ s : State} (o : Nat) (v : BitVec 32)  (hk₀ : Keeps b₀ s) : Keeps b₀ (State.writePier s o v) := by
  unfold State.writePier
  try dsimp only
  repeat' (first | (with_reducible first | assumption | apply keeps_ite | apply keeps_pierCtrl | apply keeps_modPier | apply keeps_remote) | split | dsimp only)

theorem keeps_writeLf {b₀ s : State} (o : Nat) (v : BitVec 32)  (hk₀ : Keeps b₀ s) : Keeps b₀ (State.writeLf s o v) := by
  unfold State.writeLf
  try dsimp only
  repeat' (first | (with_reducible first | assumption | intro _ | apply keeps_ite | apply keeps_lfCtrl | apply keeps_tuneWrite | apply keeps_upLf | apply keeps_latch) | exact id | intro _ | assumption | split | (simp_all [BerthTable.ok, Lf.ok, CanBlk.ok, PierBlk.ok]; done) | dsimp only)

theorem keeps_writeUwb {b₀ s : State} (o : Nat) (v : BitVec 32)  (hk₀ : Keeps b₀ s) : Keeps b₀ (State.writeUwb s o v) := by
  unfold State.writeUwb
  try dsimp only
  repeat' (first | (with_reducible first | assumption | intro _ | apply keeps_uwbCtrl | apply keeps_attenWrite | apply keeps_resSelect | apply keeps_cirCtrlWrite | apply keeps_cirSelect | apply keeps_uwbTest) | split | dsimp only)

theorem keeps_writeNb {b₀ s : State} (o : Nat) (v : BitVec 32)  (hk₀ : Keeps b₀ s) : Keeps b₀ (State.writeNb s o v) := by
  unfold State.writeNb
  try dsimp only
  repeat' (first | (with_reducible first | assumption | intro _ | apply keeps_nbCtrl | apply keeps_txPowerWrite | apply keeps_upNb | apply keeps_intervalWrite | apply keeps_csSelect | apply keeps_nbTest) | split | dsimp only)

theorem keeps_writeNfc {b₀ s : State} (o : Nat) (v : BitVec 32)  (hk₀ : Keeps b₀ s) : Keeps b₀ (State.writeNfc s o v) := by
  unfold State.writeNfc
  try dsimp only
  repeat' (first | (with_reducible first | assumption | apply keeps_nfcCtrl | apply keeps_cardSelect) | split | dsimp only)

theorem keeps_writeCry {b₀ s : State} (o : Nat) (v : BitVec 32)  (hk₀ : Keeps b₀ s) : Keeps b₀ (State.writeCry s o v) := by
  unfold State.writeCry
  try dsimp only
  repeat' (first | (with_reducible first | assumption | intro _ | apply keeps_ite | apply keeps_upCry | apply keeps_aesCtrl | apply keeps_signCmdWrite) | split | dsimp only)

theorem keeps_writeKeys {b₀ s : State} (o : Nat) (v : BitVec 32)  (hk₀ : Keeps b₀ s) : Keeps b₀ (State.writeKeys s o v) := by
  unfold State.writeKeys
  try dsimp only
  repeat' (first | (with_reducible first | assumption | intro _ | apply keeps_keysCmdWrite | apply keeps_upKeys) | split | dsimp only)

theorem keeps_writeTrng {b₀ s : State} (o : Nat) (v : BitVec 32)  (hk₀ : Keeps b₀ s) : Keeps b₀ (State.writeTrng s o v) := by
  unfold State.writeTrng
  try dsimp only
  repeat' (first | (with_reducible first | assumption | intro _ | apply keeps_trngCmdWrite | apply keeps_genLenWrite) | split | dsimp only)

theorem keeps_writeRegister {b₀ s : State} (o : Nat) (v : BitVec 32)  (hk₀ : Keeps b₀ s) : Keeps b₀ (State.writeRegister s o v) := by
  unfold State.writeRegister
  try dsimp only
  repeat' (first | (with_reducible first | assumption | intro _ | apply keeps_ite | apply keeps_regCommand | apply keeps_regLenWrite | apply keeps_regBlockWrite | apply keeps_regBlockCrc | apply keeps_upReg | apply keeps_clockSet | apply keeps_mbCommand) | split | dsimp only)

theorem keeps_writeLog {b₀ s : State} (o : Nat) (v : BitVec 32)  (hk₀ : Keeps b₀ s) : Keeps b₀ (State.writeLog s o v) := by
  unfold State.writeLog
  try dsimp only
  repeat' (first | (with_reducible first | assumption | intro _ | apply keeps_ite | apply keeps_checkpointDemand | apply keeps_markWrite | apply keeps_logSel) | split | dsimp only)

theorem keeps_writeReg {b₀ s : State} (a : Nat) (v : BitVec 32)  (hk₀ : Keeps b₀ s) : Keeps b₀ (State.writeReg s a v) := by
  unfold State.writeReg
  try dsimp only
  repeat' (first | (with_reducible first | assumption | apply keeps_ite | apply keeps_writeHost | apply keeps_writeIntc | apply keeps_writeTide | apply keeps_writeManifest | apply keeps_writeBerth | apply keeps_writeCan | apply keeps_writePier | apply keeps_writeLf | apply keeps_writeUwb | apply keeps_writeNb | apply keeps_writeNfc | apply keeps_writeCry | apply keeps_writeKeys | apply keeps_writeTrng | apply keeps_writeRegister | apply keeps_writeLog) | dsimp only)

theorem keeps_writeWindow {b₀ s : State} (a : Nat) (d : BitVec 16)  (hk₀ : Keeps b₀ s) : Keeps b₀ (State.writeWindow s a d) := by
  unfold State.writeWindow
  try dsimp only
  repeat' (first | (with_reducible first | assumption | intro _ | apply keeps_ite | apply keeps_notice | apply keeps_upVer | apply keeps_canWrite | apply keeps_noticeIf | apply keeps_modCtl | apply keeps_tagHostWrite | apply keeps_upCry | apply keeps_challenge | apply keeps_upKeys | apply keeps_upTrng | apply keeps_importWrite) | dsimp only)

theorem keeps_latchLow {b₀ s : State} (a : Nat) (lo : BitVec 16)  (hk₀ : Keeps b₀ s) : Keeps b₀ (State.latchLow s a lo) := by
  unfold State.latchLow
  try dsimp only
  repeat' (first | (with_reducible first | assumption | apply keeps_ite | apply keeps_latch | apply keeps_upPort | apply keeps_notice) | split | dsimp only)

theorem keeps_commitHigh {b₀ s : State} (a : Nat) (hi : BitVec 16)  (hk₀ : Keeps b₀ s) : Keeps b₀ (State.commitHigh s a hi) := by
  unfold State.commitHigh
  try dsimp only
  repeat' (first | (with_reducible first | assumption | intro _ | apply keeps_ite | apply keeps_nearWrite | apply keeps_writeReg | apply keeps_farWrite) | dsimp only)

theorem keeps_lowWrite {b₀ s : State} (a : Nat) (lo : BitVec 16)  (hk₀ : Keeps b₀ s) : Keeps b₀ (State.lowWrite s a lo) := by
  unfold State.lowWrite
  try dsimp only
  repeat' (first | (with_reducible first | assumption | intro _ | apply keeps_ite | apply keeps_latchLow | apply keeps_windowAccess) | dsimp only)

theorem ends_RegisterWrite {b₀ s : State} (ha : BitVec 20) (hi : BitVec 16)  (hk₀ : Keeps b₀ s) : Ends b₀ (execRegisterWrite ha hi s) := by
  unfold execRegisterWrite
  try dsimp only
  repeat' (first | (with_reducible first | assumption | apply ends_whenDo | apply ends_next | apply keeps_commitHigh) | dsimp only)

theorem ends_LowHalfWrite {b₀ s : State} (ha : BitVec 20) (lo : BitVec 16)  (hk₀ : Keeps b₀ s) : Ends b₀ (execLowHalfWrite ha lo s) := by
  unfold execLowHalfWrite
  try dsimp only
  repeat' (first | (with_reducible first | assumption | intro _ | apply ends_whenDo | apply ends_next | apply keeps_lowWrite) | dsimp only)

theorem ends_UndefinedCommandCode {b₀ s : State} (ha : BitVec 20) (hi : BitVec 16)  (hk₀ : Keeps b₀ s) : Ends b₀ (execUndefinedCommandCode ha hi s) := by
  unfold execUndefinedCommandCode
  try dsimp only
  repeat' (first | (with_reducible first | assumption | apply ends_whenDo | apply ends_next | apply keeps_commitHigh) | dsimp only)

theorem ends_WindowWrite {b₀ s : State} (ha : BitVec 20) (d : BitVec 16)  (hk₀ : Keeps b₀ s) : Ends b₀ (execWindowWrite ha d s) := by
  unfold execWindowWrite
  try dsimp only
  repeat' (first | (with_reducible first | assumption | intro _ | apply ends_whenDo | apply ends_next | apply keeps_ite | apply ends_ite | apply keeps_bulkWrite | apply keeps_windowAccess | apply keeps_writeWindow) | dsimp only)

theorem keeps_farHalf {b₀ s : State} (a : Nat) (d : BitVec 16)  (hk₀ : Keeps b₀ s) : Keeps b₀ (State.farHalf s a d) := by
  unfold State.farHalf
  try dsimp only
  repeat' (first | (with_reducible first | assumption | apply keeps_ite | apply keeps_beginFar) | dsimp only)

theorem keeps_nearHalf {b₀ s : State} (d : BitVec 16)  (hk₀ : Keeps b₀ s) : Keeps b₀ (State.nearHalf s d) := by
  unfold State.nearHalf
  try dsimp only
  repeat' (first | (with_reducible first | assumption | apply keeps_ite | apply keeps_upPort) | dsimp only)

theorem keeps_lowRead {b₀ s : State} (a : Nat)  (hk₀ : Keeps b₀ s) : Keeps b₀ (State.lowRead s a) := by
  unfold State.lowRead
  try dsimp only
  repeat' (first | (with_reducible first | assumption | intro _ | apply keeps_ite | apply keeps_clearRc | apply keeps_upPort | apply keeps_nearHalf | apply keeps_farRead | apply keeps_takeReg) | refine keeps_snd (by assumption) ?_ | refine keeps_fst (by assumption) ?_ | dsimp only)

theorem keeps_highRead {b₀ s : State} (a : Nat)  (hk₀ : Keeps b₀ s) : Keeps b₀ (State.highRead s a) := by
  unfold State.highRead
  try dsimp only
  repeat' (first | (with_reducible first | assumption | apply keeps_ite | apply keeps_nearHalf | apply keeps_farHalf) | split | dsimp only)

theorem keeps_windowRead {b₀ s : State} (a : Nat)  (hk₀ : Keeps b₀ s) : Keeps b₀ (State.windowRead s a) := by
  unfold State.windowRead
  try dsimp only
  repeat' (first | (with_reducible first | assumption | apply keeps_ite | apply keeps_drainBulk | apply keeps_farHalf | apply keeps_tagWait) | dsimp only)

theorem ends_PortLowHalfRead {b₀ s : State} (ha : BitVec 20)  (hk₀ : Keeps b₀ s) : Ends b₀ (execPortLowHalfRead ha s) := by
  unfold execPortLowHalfRead
  try dsimp only
  repeat' (first | (with_reducible first | assumption | apply ends_whenDo | apply ends_next | apply keeps_ite | apply ends_ite | apply keeps_windowRead | apply keeps_lowRead | apply keeps_highRead) | dsimp only)

theorem keeps_unmapped {b₀ s : State} (a : Nat) (d : Option (BitVec 16))  (hk₀ : Keeps b₀ s) : Keeps b₀ (State.unmapped s a d) := by
  unfold State.unmapped
  try dsimp only
  repeat' (first | (with_reducible first | assumption | apply keeps_ite | apply keeps_nearHalf | apply keeps_beginFar | apply keeps_upPort | apply keeps_noticeIf) | split | dsimp only)

theorem ends_UnmappedAccess {b₀ s : State} (ha : BitVec 20) (d : Option (BitVec 16))  (hk₀ : Keeps b₀ s) : Ends b₀ (execUnmappedAccess ha d s) := by
  unfold execUnmappedAccess
  try dsimp only
  repeat' (first | (with_reducible first | assumption | apply ends_whenDo | apply ends_next | apply keeps_unmapped) | dsimp only)

theorem ends_CoreClockStop {b₀ s : State}   (hk₀ : Keeps b₀ s) : Ends b₀ (execCoreClockStop s) := by
  unfold execCoreClockStop
  try dsimp only
  repeat' (first | (with_reducible first | assumption | apply ends_whenDo | apply ends_next | apply keeps_upPort) | dsimp only)

end Sys2Proof.Machine
end

