-- ==== Sys2Proof/Laws/KeepsTick.lean ====
section
/-! SUPPORT. What the functions of Machine/Tick.lean leave alone. -/

namespace Sys2Proof.Machine

set_option linter.all false

theorem kept_tick {b₀ s : State} (h : Kept b₀ s) : Kept b₀ (tick s) := by
  have k : Keeps (s.atTick (s.now + 1)) (((s.atTick (s.now + 1)).upLk fun k => { k with shadow := if (s.atTick (s.now + 1)).now % 4 = 0 then k.shadow + 4 else k.shadow }).aesTick.kecTick) :=
    keeps_kecTick (keeps_aesTick (keeps_upLk (keeps_refl _) (fun _ h => h) (fun _ h => h)))
  unfold tick
  dsimp only
  generalize ((s.atTick (s.now + 1)).upLk fun k => { k with shadow := if (s.atTick (s.now + 1)).now % 4 = 0 then k.shadow + 4 else k.shadow }).aesTick.kecTick = u at k ⊢
  have k2 := kept_ite (c := (u.tide.power == .standby && !u.canReceives) = true)
    (kept_upTide (f := fun t => { t with tbOff := t.tbOff + 1 }) ((kept_atTick h).of k)) ((kept_atTick h).of k)
  exact kept_ite k2 (k2.of (keeps_drainBulk (keeps_refl _)))

end Sys2Proof.Machine
end

