-- ==== Sys2Proof/Laws/State.lean ====
section
/-! SUPPORT. What each part of the state is after a shared operation, so that no proof unfolds a record
update. The lemmas of the update of one part are generated beside its definition (Machine/Ops.lean). -/

namespace Sys2Proof.Machine

set_option linter.all false

@[simp] theorem State.latch_pending (s : State) (n : Nat) : (s.latch n).pending = s.pending := rfl
@[simp] theorem State.latch_now (s : State) (n : Nat) : (s.latch n).now = s.now := rfl
@[simp] theorem State.latch_port (s : State) (n : Nat) : (s.latch n).port = s.port := rfl
@[simp] theorem State.latch_tide (s : State) (n : Nat) : (s.latch n).tide = s.tide := rfl
@[simp] theorem State.latch_bt (s : State) (n : Nat) : (s.latch n).bt = s.bt := rfl
@[simp] theorem State.latch_ver (s : State) (n : Nat) : (s.latch n).ver = s.ver := rfl
@[simp] theorem State.latch_cfg (s : State) (n : Nat) : (s.latch n).cfg = s.cfg := rfl
@[simp] theorem State.latch_mf (s : State) (n : Nat) : (s.latch n).mf = s.mf := rfl
@[simp] theorem State.latch_lf (s : State) (n : Nat) : (s.latch n).lf = s.lf := rfl
@[simp] theorem State.latch_uwb (s : State) (n : Nat) : (s.latch n).uwb = s.uwb := rfl
@[simp] theorem State.latch_nb (s : State) (n : Nat) : (s.latch n).nb = s.nb := rfl
@[simp] theorem State.latch_reg (s : State) (n : Nat) : (s.latch n).reg = s.reg := rfl
@[simp] theorem State.latch_lk (s : State) (n : Nat) : (s.latch n).lk = s.lk := rfl
@[simp] theorem State.latch_keys (s : State) (n : Nat) : (s.latch n).keys = s.keys := rfl
@[simp] theorem State.latch_cry (s : State) (n : Nat) : (s.latch n).cry = s.cry := rfl
@[simp] theorem State.latch_trng (s : State) (n : Nat) : (s.latch n).trng = s.trng := rfl
@[simp] theorem State.latch_nfc (s : State) (n : Nat) : (s.latch n).nfc = s.nfc := rfl
@[simp] theorem State.latch_can (s : State) (n : Nat) : (s.latch n).can = s.can := rfl
@[simp] theorem State.latch_pier (s : State) (n : Nat) : (s.latch n).pier = s.pier := rfl
@[simp] theorem State.latch_tend (s : State) (n : Nat) : (s.latch n).tend = s.tend := rfl
@[simp] theorem State.latch_sys (s : State) (n : Nat) : (s.latch n).sys = s.sys := rfl
@[simp] theorem State.latch_fw (s : State) (n : Nat) : (s.latch n).fw = s.fw := rfl
@[simp] theorem State.latch_log (s : State) (n : Nat) : (s.latch n).log = s.log := rfl
@[simp] theorem State.latch_pins (s : State) (n : Nat) : (s.latch n).pins = s.pins := rfl
@[simp] theorem State.latch_ident (s : State) (n : Nat) : (s.latch n).ident = s.ident := rfl

@[simp] theorem State.latchIf_pending (s : State) (b : Bool) (n : Nat) : (s.latchIf b n).pending = s.pending := by
  unfold State.latchIf; cases b <;> rfl
@[simp] theorem State.latchIf_now (s : State) (b : Bool) (n : Nat) : (s.latchIf b n).now = s.now := by
  unfold State.latchIf; cases b <;> rfl
@[simp] theorem State.latchIf_port (s : State) (b : Bool) (n : Nat) : (s.latchIf b n).port = s.port := by
  unfold State.latchIf; cases b <;> rfl
@[simp] theorem State.latchIf_tide (s : State) (b : Bool) (n : Nat) : (s.latchIf b n).tide = s.tide := by
  unfold State.latchIf; cases b <;> rfl
@[simp] theorem State.latchIf_bt (s : State) (b : Bool) (n : Nat) : (s.latchIf b n).bt = s.bt := by
  unfold State.latchIf; cases b <;> rfl
@[simp] theorem State.latchIf_ver (s : State) (b : Bool) (n : Nat) : (s.latchIf b n).ver = s.ver := by
  unfold State.latchIf; cases b <;> rfl
@[simp] theorem State.latchIf_cfg (s : State) (b : Bool) (n : Nat) : (s.latchIf b n).cfg = s.cfg := by
  unfold State.latchIf; cases b <;> rfl
@[simp] theorem State.latchIf_mf (s : State) (b : Bool) (n : Nat) : (s.latchIf b n).mf = s.mf := by
  unfold State.latchIf; cases b <;> rfl
@[simp] theorem State.latchIf_lf (s : State) (b : Bool) (n : Nat) : (s.latchIf b n).lf = s.lf := by
  unfold State.latchIf; cases b <;> rfl
@[simp] theorem State.latchIf_uwb (s : State) (b : Bool) (n : Nat) : (s.latchIf b n).uwb = s.uwb := by
  unfold State.latchIf; cases b <;> rfl
@[simp] theorem State.latchIf_nb (s : State) (b : Bool) (n : Nat) : (s.latchIf b n).nb = s.nb := by
  unfold State.latchIf; cases b <;> rfl
@[simp] theorem State.latchIf_reg (s : State) (b : Bool) (n : Nat) : (s.latchIf b n).reg = s.reg := by
  unfold State.latchIf; cases b <;> rfl
@[simp] theorem State.latchIf_lk (s : State) (b : Bool) (n : Nat) : (s.latchIf b n).lk = s.lk := by
  unfold State.latchIf; cases b <;> rfl
@[simp] theorem State.latchIf_keys (s : State) (b : Bool) (n : Nat) : (s.latchIf b n).keys = s.keys := by
  unfold State.latchIf; cases b <;> rfl
@[simp] theorem State.latchIf_cry (s : State) (b : Bool) (n : Nat) : (s.latchIf b n).cry = s.cry := by
  unfold State.latchIf; cases b <;> rfl
@[simp] theorem State.latchIf_trng (s : State) (b : Bool) (n : Nat) : (s.latchIf b n).trng = s.trng := by
  unfold State.latchIf; cases b <;> rfl
@[simp] theorem State.latchIf_nfc (s : State) (b : Bool) (n : Nat) : (s.latchIf b n).nfc = s.nfc := by
  unfold State.latchIf; cases b <;> rfl
@[simp] theorem State.latchIf_can (s : State) (b : Bool) (n : Nat) : (s.latchIf b n).can = s.can := by
  unfold State.latchIf; cases b <;> rfl
@[simp] theorem State.latchIf_pier (s : State) (b : Bool) (n : Nat) : (s.latchIf b n).pier = s.pier := by
  unfold State.latchIf; cases b <;> rfl
@[simp] theorem State.latchIf_tend (s : State) (b : Bool) (n : Nat) : (s.latchIf b n).tend = s.tend := by
  unfold State.latchIf; cases b <;> rfl
@[simp] theorem State.latchIf_sys (s : State) (b : Bool) (n : Nat) : (s.latchIf b n).sys = s.sys := by
  unfold State.latchIf; cases b <;> rfl
@[simp] theorem State.latchIf_fw (s : State) (b : Bool) (n : Nat) : (s.latchIf b n).fw = s.fw := by
  unfold State.latchIf; cases b <;> rfl
@[simp] theorem State.latchIf_log (s : State) (b : Bool) (n : Nat) : (s.latchIf b n).log = s.log := by
  unfold State.latchIf; cases b <;> rfl
@[simp] theorem State.latchIf_pins (s : State) (b : Bool) (n : Nat) : (s.latchIf b n).pins = s.pins := by
  unfold State.latchIf; cases b <;> rfl
@[simp] theorem State.latchIf_ident (s : State) (b : Bool) (n : Nat) : (s.latchIf b n).ident = s.ident := by
  unfold State.latchIf; cases b <;> rfl

@[simp] theorem State.notice_pending (s : State) (k a : Nat) : (s.notice k a).pending = s.pending := rfl
@[simp] theorem State.notice_now (s : State) (k a : Nat) : (s.notice k a).now = s.now := rfl
@[simp] theorem State.notice_tide (s : State) (k a : Nat) : (s.notice k a).tide = s.tide := rfl
@[simp] theorem State.notice_bt (s : State) (k a : Nat) : (s.notice k a).bt = s.bt := rfl
@[simp] theorem State.notice_ver (s : State) (k a : Nat) : (s.notice k a).ver = s.ver := rfl
@[simp] theorem State.notice_cfg (s : State) (k a : Nat) : (s.notice k a).cfg = s.cfg := rfl
@[simp] theorem State.notice_mf (s : State) (k a : Nat) : (s.notice k a).mf = s.mf := rfl
@[simp] theorem State.notice_lf (s : State) (k a : Nat) : (s.notice k a).lf = s.lf := rfl
@[simp] theorem State.notice_uwb (s : State) (k a : Nat) : (s.notice k a).uwb = s.uwb := rfl
@[simp] theorem State.notice_nb (s : State) (k a : Nat) : (s.notice k a).nb = s.nb := rfl
@[simp] theorem State.notice_reg (s : State) (k a : Nat) : (s.notice k a).reg = s.reg := rfl
@[simp] theorem State.notice_lk (s : State) (k a : Nat) : (s.notice k a).lk = s.lk := rfl
@[simp] theorem State.notice_keys (s : State) (k a : Nat) : (s.notice k a).keys = s.keys := rfl
@[simp] theorem State.notice_cry (s : State) (k a : Nat) : (s.notice k a).cry = s.cry := rfl
@[simp] theorem State.notice_trng (s : State) (k a : Nat) : (s.notice k a).trng = s.trng := rfl
@[simp] theorem State.notice_nfc (s : State) (k a : Nat) : (s.notice k a).nfc = s.nfc := rfl
@[simp] theorem State.notice_can (s : State) (k a : Nat) : (s.notice k a).can = s.can := rfl
@[simp] theorem State.notice_pier (s : State) (k a : Nat) : (s.notice k a).pier = s.pier := rfl
@[simp] theorem State.notice_tend (s : State) (k a : Nat) : (s.notice k a).tend = s.tend := rfl
@[simp] theorem State.notice_sys (s : State) (k a : Nat) : (s.notice k a).sys = s.sys := rfl
@[simp] theorem State.notice_fw (s : State) (k a : Nat) : (s.notice k a).fw = s.fw := rfl
@[simp] theorem State.notice_log (s : State) (k a : Nat) : (s.notice k a).log = s.log := rfl
@[simp] theorem State.notice_pins (s : State) (k a : Nat) : (s.notice k a).pins = s.pins := rfl
@[simp] theorem State.notice_ident (s : State) (k a : Nat) : (s.notice k a).ident = s.ident := rfl

@[simp] theorem State.noticeIf_pending (s : State) (b : Bool) (k a : Nat) : (s.noticeIf b k a).pending = s.pending := by
  unfold State.noticeIf; cases b <;> rfl
@[simp] theorem State.noticeIf_now (s : State) (b : Bool) (k a : Nat) : (s.noticeIf b k a).now = s.now := by
  unfold State.noticeIf; cases b <;> rfl
@[simp] theorem State.noticeIf_tide (s : State) (b : Bool) (k a : Nat) : (s.noticeIf b k a).tide = s.tide := by
  unfold State.noticeIf; cases b <;> rfl
@[simp] theorem State.noticeIf_bt (s : State) (b : Bool) (k a : Nat) : (s.noticeIf b k a).bt = s.bt := by
  unfold State.noticeIf; cases b <;> rfl
@[simp] theorem State.noticeIf_ver (s : State) (b : Bool) (k a : Nat) : (s.noticeIf b k a).ver = s.ver := by
  unfold State.noticeIf; cases b <;> rfl
@[simp] theorem State.noticeIf_cfg (s : State) (b : Bool) (k a : Nat) : (s.noticeIf b k a).cfg = s.cfg := by
  unfold State.noticeIf; cases b <;> rfl
@[simp] theorem State.noticeIf_mf (s : State) (b : Bool) (k a : Nat) : (s.noticeIf b k a).mf = s.mf := by
  unfold State.noticeIf; cases b <;> rfl
@[simp] theorem State.noticeIf_lf (s : State) (b : Bool) (k a : Nat) : (s.noticeIf b k a).lf = s.lf := by
  unfold State.noticeIf; cases b <;> rfl
@[simp] theorem State.noticeIf_uwb (s : State) (b : Bool) (k a : Nat) : (s.noticeIf b k a).uwb = s.uwb := by
  unfold State.noticeIf; cases b <;> rfl
@[simp] theorem State.noticeIf_nb (s : State) (b : Bool) (k a : Nat) : (s.noticeIf b k a).nb = s.nb := by
  unfold State.noticeIf; cases b <;> rfl
@[simp] theorem State.noticeIf_reg (s : State) (b : Bool) (k a : Nat) : (s.noticeIf b k a).reg = s.reg := by
  unfold State.noticeIf; cases b <;> rfl
@[simp] theorem State.noticeIf_lk (s : State) (b : Bool) (k a : Nat) : (s.noticeIf b k a).lk = s.lk := by
  unfold State.noticeIf; cases b <;> rfl
@[simp] theorem State.noticeIf_keys (s : State) (b : Bool) (k a : Nat) : (s.noticeIf b k a).keys = s.keys := by
  unfold State.noticeIf; cases b <;> rfl
@[simp] theorem State.noticeIf_cry (s : State) (b : Bool) (k a : Nat) : (s.noticeIf b k a).cry = s.cry := by
  unfold State.noticeIf; cases b <;> rfl
@[simp] theorem State.noticeIf_trng (s : State) (b : Bool) (k a : Nat) : (s.noticeIf b k a).trng = s.trng := by
  unfold State.noticeIf; cases b <;> rfl
@[simp] theorem State.noticeIf_nfc (s : State) (b : Bool) (k a : Nat) : (s.noticeIf b k a).nfc = s.nfc := by
  unfold State.noticeIf; cases b <;> rfl
@[simp] theorem State.noticeIf_can (s : State) (b : Bool) (k a : Nat) : (s.noticeIf b k a).can = s.can := by
  unfold State.noticeIf; cases b <;> rfl
@[simp] theorem State.noticeIf_pier (s : State) (b : Bool) (k a : Nat) : (s.noticeIf b k a).pier = s.pier := by
  unfold State.noticeIf; cases b <;> rfl
@[simp] theorem State.noticeIf_tend (s : State) (b : Bool) (k a : Nat) : (s.noticeIf b k a).tend = s.tend := by
  unfold State.noticeIf; cases b <;> rfl
@[simp] theorem State.noticeIf_sys (s : State) (b : Bool) (k a : Nat) : (s.noticeIf b k a).sys = s.sys := by
  unfold State.noticeIf; cases b <;> rfl
@[simp] theorem State.noticeIf_fw (s : State) (b : Bool) (k a : Nat) : (s.noticeIf b k a).fw = s.fw := by
  unfold State.noticeIf; cases b <;> rfl
@[simp] theorem State.noticeIf_log (s : State) (b : Bool) (k a : Nat) : (s.noticeIf b k a).log = s.log := by
  unfold State.noticeIf; cases b <;> rfl
@[simp] theorem State.noticeIf_pins (s : State) (b : Bool) (k a : Nat) : (s.noticeIf b k a).pins = s.pins := by
  unfold State.noticeIf; cases b <;> rfl
@[simp] theorem State.noticeIf_ident (s : State) (b : Bool) (k a : Nat) : (s.noticeIf b k a).ident = s.ident := by
  unfold State.noticeIf; cases b <;> rfl


@[simp] theorem State.logRecord_pending (s : State) (k : Nat) (d : Bytes) : (s.logRecord k d).pending = s.pending := by
  unfold State.logRecord; simp
@[simp] theorem State.logRecord_now (s : State) (k : Nat) (d : Bytes) : (s.logRecord k d).now = s.now := by
  unfold State.logRecord; simp
@[simp] theorem State.logRecord_port (s : State) (k : Nat) (d : Bytes) : (s.logRecord k d).port = s.port := by
  unfold State.logRecord; simp
@[simp] theorem State.logRecord_tide (s : State) (k : Nat) (d : Bytes) : (s.logRecord k d).tide = s.tide := by
  unfold State.logRecord; simp
@[simp] theorem State.logRecord_bt (s : State) (k : Nat) (d : Bytes) : (s.logRecord k d).bt = s.bt := by
  unfold State.logRecord; simp
@[simp] theorem State.logRecord_ver (s : State) (k : Nat) (d : Bytes) : (s.logRecord k d).ver = s.ver := by
  unfold State.logRecord; simp
@[simp] theorem State.logRecord_cfg (s : State) (k : Nat) (d : Bytes) : (s.logRecord k d).cfg = s.cfg := by
  unfold State.logRecord; simp
@[simp] theorem State.logRecord_mf (s : State) (k : Nat) (d : Bytes) : (s.logRecord k d).mf = s.mf := by
  unfold State.logRecord; simp
@[simp] theorem State.logRecord_lf (s : State) (k : Nat) (d : Bytes) : (s.logRecord k d).lf = s.lf := by
  unfold State.logRecord; simp
@[simp] theorem State.logRecord_uwb (s : State) (k : Nat) (d : Bytes) : (s.logRecord k d).uwb = s.uwb := by
  unfold State.logRecord; simp
@[simp] theorem State.logRecord_nb (s : State) (k : Nat) (d : Bytes) : (s.logRecord k d).nb = s.nb := by
  unfold State.logRecord; simp
@[simp] theorem State.logRecord_reg (s : State) (k : Nat) (d : Bytes) : (s.logRecord k d).reg = s.reg := by
  unfold State.logRecord; simp
@[simp] theorem State.logRecord_lk (s : State) (k : Nat) (d : Bytes) : (s.logRecord k d).lk = s.lk := by
  unfold State.logRecord; simp
@[simp] theorem State.logRecord_keys (s : State) (k : Nat) (d : Bytes) : (s.logRecord k d).keys = s.keys := by
  unfold State.logRecord; simp
@[simp] theorem State.logRecord_cry (s : State) (k : Nat) (d : Bytes) : (s.logRecord k d).cry = s.cry := by
  unfold State.logRecord; simp
@[simp] theorem State.logRecord_trng (s : State) (k : Nat) (d : Bytes) : (s.logRecord k d).trng = s.trng := by
  unfold State.logRecord; simp
@[simp] theorem State.logRecord_nfc (s : State) (k : Nat) (d : Bytes) : (s.logRecord k d).nfc = s.nfc := by
  unfold State.logRecord; simp
@[simp] theorem State.logRecord_can (s : State) (k : Nat) (d : Bytes) : (s.logRecord k d).can = s.can := by
  unfold State.logRecord; simp
@[simp] theorem State.logRecord_pier (s : State) (k : Nat) (d : Bytes) : (s.logRecord k d).pier = s.pier := by
  unfold State.logRecord; simp
@[simp] theorem State.logRecord_tend (s : State) (k : Nat) (d : Bytes) : (s.logRecord k d).tend = s.tend := by
  unfold State.logRecord; simp
@[simp] theorem State.logRecord_sys (s : State) (k : Nat) (d : Bytes) : (s.logRecord k d).sys = s.sys := by
  unfold State.logRecord; simp
@[simp] theorem State.logRecord_fw (s : State) (k : Nat) (d : Bytes) : (s.logRecord k d).fw = s.fw := by
  unfold State.logRecord; simp
@[simp] theorem State.logRecord_pins (s : State) (k : Nat) (d : Bytes) : (s.logRecord k d).pins = s.pins := by
  unfold State.logRecord; simp
@[simp] theorem State.logRecord_ident (s : State) (k : Nat) (d : Bytes) : (s.logRecord k d).ident = s.ident := by
  unfold State.logRecord; simp

@[simp] theorem State.drainBulk_pending (s : State)  : (s.drainBulk).pending = s.pending := rfl
@[simp] theorem State.drainBulk_now (s : State)  : (s.drainBulk).now = s.now := rfl
@[simp] theorem State.drainBulk_intc (s : State)  : (s.drainBulk).intc = s.intc := rfl
@[simp] theorem State.drainBulk_tide (s : State)  : (s.drainBulk).tide = s.tide := rfl
@[simp] theorem State.drainBulk_bt (s : State)  : (s.drainBulk).bt = s.bt := rfl
@[simp] theorem State.drainBulk_ver (s : State)  : (s.drainBulk).ver = s.ver := rfl
@[simp] theorem State.drainBulk_cfg (s : State)  : (s.drainBulk).cfg = s.cfg := rfl
@[simp] theorem State.drainBulk_mf (s : State)  : (s.drainBulk).mf = s.mf := rfl
@[simp] theorem State.drainBulk_lf (s : State)  : (s.drainBulk).lf = s.lf := rfl
@[simp] theorem State.drainBulk_uwb (s : State)  : (s.drainBulk).uwb = s.uwb := rfl
@[simp] theorem State.drainBulk_nb (s : State)  : (s.drainBulk).nb = s.nb := rfl
@[simp] theorem State.drainBulk_reg (s : State)  : (s.drainBulk).reg = s.reg := rfl
@[simp] theorem State.drainBulk_lk (s : State)  : (s.drainBulk).lk = s.lk := rfl
@[simp] theorem State.drainBulk_keys (s : State)  : (s.drainBulk).keys = s.keys := rfl
@[simp] theorem State.drainBulk_cry (s : State)  : (s.drainBulk).cry = s.cry := rfl
@[simp] theorem State.drainBulk_trng (s : State)  : (s.drainBulk).trng = s.trng := rfl
@[simp] theorem State.drainBulk_nfc (s : State)  : (s.drainBulk).nfc = s.nfc := rfl
@[simp] theorem State.drainBulk_can (s : State)  : (s.drainBulk).can = s.can := rfl
@[simp] theorem State.drainBulk_pier (s : State)  : (s.drainBulk).pier = s.pier := rfl
@[simp] theorem State.drainBulk_tend (s : State)  : (s.drainBulk).tend = s.tend := rfl
@[simp] theorem State.drainBulk_sys (s : State)  : (s.drainBulk).sys = s.sys := rfl
@[simp] theorem State.drainBulk_fw (s : State)  : (s.drainBulk).fw = s.fw := rfl
@[simp] theorem State.drainBulk_log (s : State)  : (s.drainBulk).log = s.log := rfl
@[simp] theorem State.drainBulk_pins (s : State)  : (s.drainBulk).pins = s.pins := rfl
@[simp] theorem State.drainBulk_ident (s : State)  : (s.drainBulk).ident = s.ident := rfl

@[simp] theorem State.beginFar_pending (s : State) (d : Option (BitVec 16)) : (s.beginFar d).pending = s.pending := rfl
@[simp] theorem State.beginFar_now (s : State) (d : Option (BitVec 16)) : (s.beginFar d).now = s.now := rfl
@[simp] theorem State.beginFar_intc (s : State) (d : Option (BitVec 16)) : (s.beginFar d).intc = s.intc := rfl
@[simp] theorem State.beginFar_tide (s : State) (d : Option (BitVec 16)) : (s.beginFar d).tide = s.tide := rfl
@[simp] theorem State.beginFar_bt (s : State) (d : Option (BitVec 16)) : (s.beginFar d).bt = s.bt := rfl
@[simp] theorem State.beginFar_ver (s : State) (d : Option (BitVec 16)) : (s.beginFar d).ver = s.ver := rfl
@[simp] theorem State.beginFar_cfg (s : State) (d : Option (BitVec 16)) : (s.beginFar d).cfg = s.cfg := rfl
@[simp] theorem State.beginFar_mf (s : State) (d : Option (BitVec 16)) : (s.beginFar d).mf = s.mf := rfl
@[simp] theorem State.beginFar_lf (s : State) (d : Option (BitVec 16)) : (s.beginFar d).lf = s.lf := rfl
@[simp] theorem State.beginFar_uwb (s : State) (d : Option (BitVec 16)) : (s.beginFar d).uwb = s.uwb := rfl
@[simp] theorem State.beginFar_nb (s : State) (d : Option (BitVec 16)) : (s.beginFar d).nb = s.nb := rfl
@[simp] theorem State.beginFar_reg (s : State) (d : Option (BitVec 16)) : (s.beginFar d).reg = s.reg := rfl
@[simp] theorem State.beginFar_lk (s : State) (d : Option (BitVec 16)) : (s.beginFar d).lk = s.lk := rfl
@[simp] theorem State.beginFar_keys (s : State) (d : Option (BitVec 16)) : (s.beginFar d).keys = s.keys := rfl
@[simp] theorem State.beginFar_cry (s : State) (d : Option (BitVec 16)) : (s.beginFar d).cry = s.cry := rfl
@[simp] theorem State.beginFar_trng (s : State) (d : Option (BitVec 16)) : (s.beginFar d).trng = s.trng := rfl
@[simp] theorem State.beginFar_can (s : State) (d : Option (BitVec 16)) : (s.beginFar d).can = s.can := rfl
@[simp] theorem State.beginFar_pier (s : State) (d : Option (BitVec 16)) : (s.beginFar d).pier = s.pier := rfl
@[simp] theorem State.beginFar_tend (s : State) (d : Option (BitVec 16)) : (s.beginFar d).tend = s.tend := rfl
@[simp] theorem State.beginFar_sys (s : State) (d : Option (BitVec 16)) : (s.beginFar d).sys = s.sys := rfl
@[simp] theorem State.beginFar_fw (s : State) (d : Option (BitVec 16)) : (s.beginFar d).fw = s.fw := rfl
@[simp] theorem State.beginFar_log (s : State) (d : Option (BitVec 16)) : (s.beginFar d).log = s.log := rfl
@[simp] theorem State.beginFar_pins (s : State) (d : Option (BitVec 16)) : (s.beginFar d).pins = s.pins := rfl
@[simp] theorem State.beginFar_ident (s : State) (d : Option (BitVec 16)) : (s.beginFar d).ident = s.ident := rfl

@[simp] theorem State.modBerth_pending (s : State) (n : Nat) (f : Berth → Berth) : (s.modBerth n f).pending = s.pending := rfl
@[simp] theorem State.modBerth_now (s : State) (n : Nat) (f : Berth → Berth) : (s.modBerth n f).now = s.now := rfl
@[simp] theorem State.modBerth_port (s : State) (n : Nat) (f : Berth → Berth) : (s.modBerth n f).port = s.port := rfl
@[simp] theorem State.modBerth_intc (s : State) (n : Nat) (f : Berth → Berth) : (s.modBerth n f).intc = s.intc := rfl
@[simp] theorem State.modBerth_tide (s : State) (n : Nat) (f : Berth → Berth) : (s.modBerth n f).tide = s.tide := rfl
@[simp] theorem State.modBerth_ver (s : State) (n : Nat) (f : Berth → Berth) : (s.modBerth n f).ver = s.ver := rfl
@[simp] theorem State.modBerth_cfg (s : State) (n : Nat) (f : Berth → Berth) : (s.modBerth n f).cfg = s.cfg := rfl
@[simp] theorem State.modBerth_mf (s : State) (n : Nat) (f : Berth → Berth) : (s.modBerth n f).mf = s.mf := rfl
@[simp] theorem State.modBerth_lf (s : State) (n : Nat) (f : Berth → Berth) : (s.modBerth n f).lf = s.lf := rfl
@[simp] theorem State.modBerth_uwb (s : State) (n : Nat) (f : Berth → Berth) : (s.modBerth n f).uwb = s.uwb := rfl
@[simp] theorem State.modBerth_nb (s : State) (n : Nat) (f : Berth → Berth) : (s.modBerth n f).nb = s.nb := rfl
@[simp] theorem State.modBerth_reg (s : State) (n : Nat) (f : Berth → Berth) : (s.modBerth n f).reg = s.reg := rfl
@[simp] theorem State.modBerth_lk (s : State) (n : Nat) (f : Berth → Berth) : (s.modBerth n f).lk = s.lk := rfl
@[simp] theorem State.modBerth_keys (s : State) (n : Nat) (f : Berth → Berth) : (s.modBerth n f).keys = s.keys := rfl
@[simp] theorem State.modBerth_cry (s : State) (n : Nat) (f : Berth → Berth) : (s.modBerth n f).cry = s.cry := rfl
@[simp] theorem State.modBerth_trng (s : State) (n : Nat) (f : Berth → Berth) : (s.modBerth n f).trng = s.trng := rfl
@[simp] theorem State.modBerth_nfc (s : State) (n : Nat) (f : Berth → Berth) : (s.modBerth n f).nfc = s.nfc := rfl
@[simp] theorem State.modBerth_can (s : State) (n : Nat) (f : Berth → Berth) : (s.modBerth n f).can = s.can := rfl
@[simp] theorem State.modBerth_pier (s : State) (n : Nat) (f : Berth → Berth) : (s.modBerth n f).pier = s.pier := rfl
@[simp] theorem State.modBerth_tend (s : State) (n : Nat) (f : Berth → Berth) : (s.modBerth n f).tend = s.tend := rfl
@[simp] theorem State.modBerth_sys (s : State) (n : Nat) (f : Berth → Berth) : (s.modBerth n f).sys = s.sys := rfl
@[simp] theorem State.modBerth_fw (s : State) (n : Nat) (f : Berth → Berth) : (s.modBerth n f).fw = s.fw := rfl
@[simp] theorem State.modBerth_log (s : State) (n : Nat) (f : Berth → Berth) : (s.modBerth n f).log = s.log := rfl
@[simp] theorem State.modBerth_pins (s : State) (n : Nat) (f : Berth → Berth) : (s.modBerth n f).pins = s.pins := rfl
@[simp] theorem State.modBerth_ident (s : State) (n : Nat) (f : Berth → Berth) : (s.modBerth n f).ident = s.ident := rfl

@[simp] theorem State.modId_pending (s : State) (n : Nat) (f : BerthId → BerthId) : (s.modId n f).pending = s.pending := rfl
@[simp] theorem State.modId_now (s : State) (n : Nat) (f : BerthId → BerthId) : (s.modId n f).now = s.now := rfl
@[simp] theorem State.modId_port (s : State) (n : Nat) (f : BerthId → BerthId) : (s.modId n f).port = s.port := rfl
@[simp] theorem State.modId_intc (s : State) (n : Nat) (f : BerthId → BerthId) : (s.modId n f).intc = s.intc := rfl
@[simp] theorem State.modId_tide (s : State) (n : Nat) (f : BerthId → BerthId) : (s.modId n f).tide = s.tide := rfl
@[simp] theorem State.modId_ver (s : State) (n : Nat) (f : BerthId → BerthId) : (s.modId n f).ver = s.ver := rfl
@[simp] theorem State.modId_cfg (s : State) (n : Nat) (f : BerthId → BerthId) : (s.modId n f).cfg = s.cfg := rfl
@[simp] theorem State.modId_mf (s : State) (n : Nat) (f : BerthId → BerthId) : (s.modId n f).mf = s.mf := rfl
@[simp] theorem State.modId_lf (s : State) (n : Nat) (f : BerthId → BerthId) : (s.modId n f).lf = s.lf := rfl
@[simp] theorem State.modId_uwb (s : State) (n : Nat) (f : BerthId → BerthId) : (s.modId n f).uwb = s.uwb := rfl
@[simp] theorem State.modId_nb (s : State) (n : Nat) (f : BerthId → BerthId) : (s.modId n f).nb = s.nb := rfl
@[simp] theorem State.modId_reg (s : State) (n : Nat) (f : BerthId → BerthId) : (s.modId n f).reg = s.reg := rfl
@[simp] theorem State.modId_lk (s : State) (n : Nat) (f : BerthId → BerthId) : (s.modId n f).lk = s.lk := rfl
@[simp] theorem State.modId_keys (s : State) (n : Nat) (f : BerthId → BerthId) : (s.modId n f).keys = s.keys := rfl
@[simp] theorem State.modId_cry (s : State) (n : Nat) (f : BerthId → BerthId) : (s.modId n f).cry = s.cry := rfl
@[simp] theorem State.modId_trng (s : State) (n : Nat) (f : BerthId → BerthId) : (s.modId n f).trng = s.trng := rfl
@[simp] theorem State.modId_nfc (s : State) (n : Nat) (f : BerthId → BerthId) : (s.modId n f).nfc = s.nfc := rfl
@[simp] theorem State.modId_can (s : State) (n : Nat) (f : BerthId → BerthId) : (s.modId n f).can = s.can := rfl
@[simp] theorem State.modId_pier (s : State) (n : Nat) (f : BerthId → BerthId) : (s.modId n f).pier = s.pier := rfl
@[simp] theorem State.modId_tend (s : State) (n : Nat) (f : BerthId → BerthId) : (s.modId n f).tend = s.tend := rfl
@[simp] theorem State.modId_sys (s : State) (n : Nat) (f : BerthId → BerthId) : (s.modId n f).sys = s.sys := rfl
@[simp] theorem State.modId_fw (s : State) (n : Nat) (f : BerthId → BerthId) : (s.modId n f).fw = s.fw := rfl
@[simp] theorem State.modId_log (s : State) (n : Nat) (f : BerthId → BerthId) : (s.modId n f).log = s.log := rfl
@[simp] theorem State.modId_pins (s : State) (n : Nat) (f : BerthId → BerthId) : (s.modId n f).pins = s.pins := rfl
@[simp] theorem State.modId_ident (s : State) (n : Nat) (f : BerthId → BerthId) : (s.modId n f).ident = s.ident := rfl

@[simp] theorem State.modSe_pending (s : State) (n : Nat) (f : BerthSess → BerthSess) : (s.modSe n f).pending = s.pending := rfl
@[simp] theorem State.modSe_now (s : State) (n : Nat) (f : BerthSess → BerthSess) : (s.modSe n f).now = s.now := rfl
@[simp] theorem State.modSe_port (s : State) (n : Nat) (f : BerthSess → BerthSess) : (s.modSe n f).port = s.port := rfl
@[simp] theorem State.modSe_intc (s : State) (n : Nat) (f : BerthSess → BerthSess) : (s.modSe n f).intc = s.intc := rfl
@[simp] theorem State.modSe_tide (s : State) (n : Nat) (f : BerthSess → BerthSess) : (s.modSe n f).tide = s.tide := rfl
@[simp] theorem State.modSe_ver (s : State) (n : Nat) (f : BerthSess → BerthSess) : (s.modSe n f).ver = s.ver := rfl
@[simp] theorem State.modSe_cfg (s : State) (n : Nat) (f : BerthSess → BerthSess) : (s.modSe n f).cfg = s.cfg := rfl
@[simp] theorem State.modSe_mf (s : State) (n : Nat) (f : BerthSess → BerthSess) : (s.modSe n f).mf = s.mf := rfl
@[simp] theorem State.modSe_lf (s : State) (n : Nat) (f : BerthSess → BerthSess) : (s.modSe n f).lf = s.lf := rfl
@[simp] theorem State.modSe_uwb (s : State) (n : Nat) (f : BerthSess → BerthSess) : (s.modSe n f).uwb = s.uwb := rfl
@[simp] theorem State.modSe_nb (s : State) (n : Nat) (f : BerthSess → BerthSess) : (s.modSe n f).nb = s.nb := rfl
@[simp] theorem State.modSe_reg (s : State) (n : Nat) (f : BerthSess → BerthSess) : (s.modSe n f).reg = s.reg := rfl
@[simp] theorem State.modSe_lk (s : State) (n : Nat) (f : BerthSess → BerthSess) : (s.modSe n f).lk = s.lk := rfl
@[simp] theorem State.modSe_keys (s : State) (n : Nat) (f : BerthSess → BerthSess) : (s.modSe n f).keys = s.keys := rfl
@[simp] theorem State.modSe_cry (s : State) (n : Nat) (f : BerthSess → BerthSess) : (s.modSe n f).cry = s.cry := rfl
@[simp] theorem State.modSe_trng (s : State) (n : Nat) (f : BerthSess → BerthSess) : (s.modSe n f).trng = s.trng := rfl
@[simp] theorem State.modSe_nfc (s : State) (n : Nat) (f : BerthSess → BerthSess) : (s.modSe n f).nfc = s.nfc := rfl
@[simp] theorem State.modSe_can (s : State) (n : Nat) (f : BerthSess → BerthSess) : (s.modSe n f).can = s.can := rfl
@[simp] theorem State.modSe_pier (s : State) (n : Nat) (f : BerthSess → BerthSess) : (s.modSe n f).pier = s.pier := rfl
@[simp] theorem State.modSe_tend (s : State) (n : Nat) (f : BerthSess → BerthSess) : (s.modSe n f).tend = s.tend := rfl
@[simp] theorem State.modSe_sys (s : State) (n : Nat) (f : BerthSess → BerthSess) : (s.modSe n f).sys = s.sys := rfl
@[simp] theorem State.modSe_fw (s : State) (n : Nat) (f : BerthSess → BerthSess) : (s.modSe n f).fw = s.fw := rfl
@[simp] theorem State.modSe_log (s : State) (n : Nat) (f : BerthSess → BerthSess) : (s.modSe n f).log = s.log := rfl
@[simp] theorem State.modSe_pins (s : State) (n : Nat) (f : BerthSess → BerthSess) : (s.modSe n f).pins = s.pins := rfl
@[simp] theorem State.modSe_ident (s : State) (n : Nat) (f : BerthSess → BerthSess) : (s.modSe n f).ident = s.ident := rfl

@[simp] theorem State.modBlf_pending (s : State) (n : Nat) (f : BerthLf → BerthLf) : (s.modBlf n f).pending = s.pending := rfl
@[simp] theorem State.modBlf_now (s : State) (n : Nat) (f : BerthLf → BerthLf) : (s.modBlf n f).now = s.now := rfl
@[simp] theorem State.modBlf_port (s : State) (n : Nat) (f : BerthLf → BerthLf) : (s.modBlf n f).port = s.port := rfl
@[simp] theorem State.modBlf_intc (s : State) (n : Nat) (f : BerthLf → BerthLf) : (s.modBlf n f).intc = s.intc := rfl
@[simp] theorem State.modBlf_tide (s : State) (n : Nat) (f : BerthLf → BerthLf) : (s.modBlf n f).tide = s.tide := rfl
@[simp] theorem State.modBlf_ver (s : State) (n : Nat) (f : BerthLf → BerthLf) : (s.modBlf n f).ver = s.ver := rfl
@[simp] theorem State.modBlf_cfg (s : State) (n : Nat) (f : BerthLf → BerthLf) : (s.modBlf n f).cfg = s.cfg := rfl
@[simp] theorem State.modBlf_mf (s : State) (n : Nat) (f : BerthLf → BerthLf) : (s.modBlf n f).mf = s.mf := rfl
@[simp] theorem State.modBlf_lf (s : State) (n : Nat) (f : BerthLf → BerthLf) : (s.modBlf n f).lf = s.lf := rfl
@[simp] theorem State.modBlf_uwb (s : State) (n : Nat) (f : BerthLf → BerthLf) : (s.modBlf n f).uwb = s.uwb := rfl
@[simp] theorem State.modBlf_nb (s : State) (n : Nat) (f : BerthLf → BerthLf) : (s.modBlf n f).nb = s.nb := rfl
@[simp] theorem State.modBlf_reg (s : State) (n : Nat) (f : BerthLf → BerthLf) : (s.modBlf n f).reg = s.reg := rfl
@[simp] theorem State.modBlf_lk (s : State) (n : Nat) (f : BerthLf → BerthLf) : (s.modBlf n f).lk = s.lk := rfl
@[simp] theorem State.modBlf_keys (s : State) (n : Nat) (f : BerthLf → BerthLf) : (s.modBlf n f).keys = s.keys := rfl
@[simp] theorem State.modBlf_cry (s : State) (n : Nat) (f : BerthLf → BerthLf) : (s.modBlf n f).cry = s.cry := rfl
@[simp] theorem State.modBlf_trng (s : State) (n : Nat) (f : BerthLf → BerthLf) : (s.modBlf n f).trng = s.trng := rfl
@[simp] theorem State.modBlf_nfc (s : State) (n : Nat) (f : BerthLf → BerthLf) : (s.modBlf n f).nfc = s.nfc := rfl
@[simp] theorem State.modBlf_can (s : State) (n : Nat) (f : BerthLf → BerthLf) : (s.modBlf n f).can = s.can := rfl
@[simp] theorem State.modBlf_pier (s : State) (n : Nat) (f : BerthLf → BerthLf) : (s.modBlf n f).pier = s.pier := rfl
@[simp] theorem State.modBlf_tend (s : State) (n : Nat) (f : BerthLf → BerthLf) : (s.modBlf n f).tend = s.tend := rfl
@[simp] theorem State.modBlf_sys (s : State) (n : Nat) (f : BerthLf → BerthLf) : (s.modBlf n f).sys = s.sys := rfl
@[simp] theorem State.modBlf_fw (s : State) (n : Nat) (f : BerthLf → BerthLf) : (s.modBlf n f).fw = s.fw := rfl
@[simp] theorem State.modBlf_log (s : State) (n : Nat) (f : BerthLf → BerthLf) : (s.modBlf n f).log = s.log := rfl
@[simp] theorem State.modBlf_pins (s : State) (n : Nat) (f : BerthLf → BerthLf) : (s.modBlf n f).pins = s.pins := rfl
@[simp] theorem State.modBlf_ident (s : State) (n : Nat) (f : BerthLf → BerthLf) : (s.modBlf n f).ident = s.ident := rfl

@[simp] theorem State.modFu_pending (s : State) (n : Nat) (f : BerthFuse → BerthFuse) : (s.modFu n f).pending = s.pending := rfl
@[simp] theorem State.modFu_now (s : State) (n : Nat) (f : BerthFuse → BerthFuse) : (s.modFu n f).now = s.now := rfl
@[simp] theorem State.modFu_port (s : State) (n : Nat) (f : BerthFuse → BerthFuse) : (s.modFu n f).port = s.port := rfl
@[simp] theorem State.modFu_intc (s : State) (n : Nat) (f : BerthFuse → BerthFuse) : (s.modFu n f).intc = s.intc := rfl
@[simp] theorem State.modFu_tide (s : State) (n : Nat) (f : BerthFuse → BerthFuse) : (s.modFu n f).tide = s.tide := rfl
@[simp] theorem State.modFu_ver (s : State) (n : Nat) (f : BerthFuse → BerthFuse) : (s.modFu n f).ver = s.ver := rfl
@[simp] theorem State.modFu_cfg (s : State) (n : Nat) (f : BerthFuse → BerthFuse) : (s.modFu n f).cfg = s.cfg := rfl
@[simp] theorem State.modFu_mf (s : State) (n : Nat) (f : BerthFuse → BerthFuse) : (s.modFu n f).mf = s.mf := rfl
@[simp] theorem State.modFu_lf (s : State) (n : Nat) (f : BerthFuse → BerthFuse) : (s.modFu n f).lf = s.lf := rfl
@[simp] theorem State.modFu_uwb (s : State) (n : Nat) (f : BerthFuse → BerthFuse) : (s.modFu n f).uwb = s.uwb := rfl
@[simp] theorem State.modFu_nb (s : State) (n : Nat) (f : BerthFuse → BerthFuse) : (s.modFu n f).nb = s.nb := rfl
@[simp] theorem State.modFu_reg (s : State) (n : Nat) (f : BerthFuse → BerthFuse) : (s.modFu n f).reg = s.reg := rfl
@[simp] theorem State.modFu_lk (s : State) (n : Nat) (f : BerthFuse → BerthFuse) : (s.modFu n f).lk = s.lk := rfl
@[simp] theorem State.modFu_keys (s : State) (n : Nat) (f : BerthFuse → BerthFuse) : (s.modFu n f).keys = s.keys := rfl
@[simp] theorem State.modFu_cry (s : State) (n : Nat) (f : BerthFuse → BerthFuse) : (s.modFu n f).cry = s.cry := rfl
@[simp] theorem State.modFu_trng (s : State) (n : Nat) (f : BerthFuse → BerthFuse) : (s.modFu n f).trng = s.trng := rfl
@[simp] theorem State.modFu_nfc (s : State) (n : Nat) (f : BerthFuse → BerthFuse) : (s.modFu n f).nfc = s.nfc := rfl
@[simp] theorem State.modFu_can (s : State) (n : Nat) (f : BerthFuse → BerthFuse) : (s.modFu n f).can = s.can := rfl
@[simp] theorem State.modFu_pier (s : State) (n : Nat) (f : BerthFuse → BerthFuse) : (s.modFu n f).pier = s.pier := rfl
@[simp] theorem State.modFu_tend (s : State) (n : Nat) (f : BerthFuse → BerthFuse) : (s.modFu n f).tend = s.tend := rfl
@[simp] theorem State.modFu_sys (s : State) (n : Nat) (f : BerthFuse → BerthFuse) : (s.modFu n f).sys = s.sys := rfl
@[simp] theorem State.modFu_fw (s : State) (n : Nat) (f : BerthFuse → BerthFuse) : (s.modFu n f).fw = s.fw := rfl
@[simp] theorem State.modFu_log (s : State) (n : Nat) (f : BerthFuse → BerthFuse) : (s.modFu n f).log = s.log := rfl
@[simp] theorem State.modFu_pins (s : State) (n : Nat) (f : BerthFuse → BerthFuse) : (s.modFu n f).pins = s.pins := rfl
@[simp] theorem State.modFu_ident (s : State) (n : Nat) (f : BerthFuse → BerthFuse) : (s.modFu n f).ident = s.ident := rfl

@[simp] theorem State.modPier_pending (s : State) (n : Nat) (f : Pier → Pier) : (s.modPier n f).pending = s.pending := rfl
@[simp] theorem State.modPier_now (s : State) (n : Nat) (f : Pier → Pier) : (s.modPier n f).now = s.now := rfl
@[simp] theorem State.modPier_port (s : State) (n : Nat) (f : Pier → Pier) : (s.modPier n f).port = s.port := rfl
@[simp] theorem State.modPier_intc (s : State) (n : Nat) (f : Pier → Pier) : (s.modPier n f).intc = s.intc := rfl
@[simp] theorem State.modPier_tide (s : State) (n : Nat) (f : Pier → Pier) : (s.modPier n f).tide = s.tide := rfl
@[simp] theorem State.modPier_bt (s : State) (n : Nat) (f : Pier → Pier) : (s.modPier n f).bt = s.bt := rfl
@[simp] theorem State.modPier_ver (s : State) (n : Nat) (f : Pier → Pier) : (s.modPier n f).ver = s.ver := rfl
@[simp] theorem State.modPier_cfg (s : State) (n : Nat) (f : Pier → Pier) : (s.modPier n f).cfg = s.cfg := rfl
@[simp] theorem State.modPier_mf (s : State) (n : Nat) (f : Pier → Pier) : (s.modPier n f).mf = s.mf := rfl
@[simp] theorem State.modPier_lf (s : State) (n : Nat) (f : Pier → Pier) : (s.modPier n f).lf = s.lf := rfl
@[simp] theorem State.modPier_uwb (s : State) (n : Nat) (f : Pier → Pier) : (s.modPier n f).uwb = s.uwb := rfl
@[simp] theorem State.modPier_nb (s : State) (n : Nat) (f : Pier → Pier) : (s.modPier n f).nb = s.nb := rfl
@[simp] theorem State.modPier_reg (s : State) (n : Nat) (f : Pier → Pier) : (s.modPier n f).reg = s.reg := rfl
@[simp] theorem State.modPier_lk (s : State) (n : Nat) (f : Pier → Pier) : (s.modPier n f).lk = s.lk := rfl
@[simp] theorem State.modPier_keys (s : State) (n : Nat) (f : Pier → Pier) : (s.modPier n f).keys = s.keys := rfl
@[simp] theorem State.modPier_cry (s : State) (n : Nat) (f : Pier → Pier) : (s.modPier n f).cry = s.cry := rfl
@[simp] theorem State.modPier_trng (s : State) (n : Nat) (f : Pier → Pier) : (s.modPier n f).trng = s.trng := rfl
@[simp] theorem State.modPier_nfc (s : State) (n : Nat) (f : Pier → Pier) : (s.modPier n f).nfc = s.nfc := rfl
@[simp] theorem State.modPier_can (s : State) (n : Nat) (f : Pier → Pier) : (s.modPier n f).can = s.can := rfl
@[simp] theorem State.modPier_tend (s : State) (n : Nat) (f : Pier → Pier) : (s.modPier n f).tend = s.tend := rfl
@[simp] theorem State.modPier_sys (s : State) (n : Nat) (f : Pier → Pier) : (s.modPier n f).sys = s.sys := rfl
@[simp] theorem State.modPier_fw (s : State) (n : Nat) (f : Pier → Pier) : (s.modPier n f).fw = s.fw := rfl
@[simp] theorem State.modPier_log (s : State) (n : Nat) (f : Pier → Pier) : (s.modPier n f).log = s.log := rfl
@[simp] theorem State.modPier_pins (s : State) (n : Nat) (f : Pier → Pier) : (s.modPier n f).pins = s.pins := rfl
@[simp] theorem State.modPier_ident (s : State) (n : Nat) (f : Pier → Pier) : (s.modPier n f).ident = s.ident := rfl

@[simp] theorem State.pierEvent_pending (s : State) (n b : Nat) : (s.pierEvent n b).pending = s.pending := by
  unfold State.pierEvent; simp
@[simp] theorem State.pierEvent_now (s : State) (n b : Nat) : (s.pierEvent n b).now = s.now := by
  unfold State.pierEvent; simp
@[simp] theorem State.pierEvent_port (s : State) (n b : Nat) : (s.pierEvent n b).port = s.port := by
  unfold State.pierEvent; simp
@[simp] theorem State.pierEvent_tide (s : State) (n b : Nat) : (s.pierEvent n b).tide = s.tide := by
  unfold State.pierEvent; simp
@[simp] theorem State.pierEvent_bt (s : State) (n b : Nat) : (s.pierEvent n b).bt = s.bt := by
  unfold State.pierEvent; simp
@[simp] theorem State.pierEvent_ver (s : State) (n b : Nat) : (s.pierEvent n b).ver = s.ver := by
  unfold State.pierEvent; simp
@[simp] theorem State.pierEvent_cfg (s : State) (n b : Nat) : (s.pierEvent n b).cfg = s.cfg := by
  unfold State.pierEvent; simp
@[simp] theorem State.pierEvent_mf (s : State) (n b : Nat) : (s.pierEvent n b).mf = s.mf := by
  unfold State.pierEvent; simp
@[simp] theorem State.pierEvent_lf (s : State) (n b : Nat) : (s.pierEvent n b).lf = s.lf := by
  unfold State.pierEvent; simp
@[simp] theorem State.pierEvent_uwb (s : State) (n b : Nat) : (s.pierEvent n b).uwb = s.uwb := by
  unfold State.pierEvent; simp
@[simp] theorem State.pierEvent_nb (s : State) (n b : Nat) : (s.pierEvent n b).nb = s.nb := by
  unfold State.pierEvent; simp
@[simp] theorem State.pierEvent_reg (s : State) (n b : Nat) : (s.pierEvent n b).reg = s.reg := by
  unfold State.pierEvent; simp
@[simp] theorem State.pierEvent_lk (s : State) (n b : Nat) : (s.pierEvent n b).lk = s.lk := by
  unfold State.pierEvent; simp
@[simp] theorem State.pierEvent_keys (s : State) (n b : Nat) : (s.pierEvent n b).keys = s.keys := by
  unfold State.pierEvent; simp
@[simp] theorem State.pierEvent_cry (s : State) (n b : Nat) : (s.pierEvent n b).cry = s.cry := by
  unfold State.pierEvent; simp
@[simp] theorem State.pierEvent_trng (s : State) (n b : Nat) : (s.pierEvent n b).trng = s.trng := by
  unfold State.pierEvent; simp
@[simp] theorem State.pierEvent_nfc (s : State) (n b : Nat) : (s.pierEvent n b).nfc = s.nfc := by
  unfold State.pierEvent; simp
@[simp] theorem State.pierEvent_can (s : State) (n b : Nat) : (s.pierEvent n b).can = s.can := by
  unfold State.pierEvent; simp
@[simp] theorem State.pierEvent_tend (s : State) (n b : Nat) : (s.pierEvent n b).tend = s.tend := by
  unfold State.pierEvent; simp
@[simp] theorem State.pierEvent_sys (s : State) (n b : Nat) : (s.pierEvent n b).sys = s.sys := by
  unfold State.pierEvent; simp
@[simp] theorem State.pierEvent_fw (s : State) (n b : Nat) : (s.pierEvent n b).fw = s.fw := by
  unfold State.pierEvent; simp
@[simp] theorem State.pierEvent_log (s : State) (n b : Nat) : (s.pierEvent n b).log = s.log := by
  unfold State.pierEvent; simp
@[simp] theorem State.pierEvent_pins (s : State) (n b : Nat) : (s.pierEvent n b).pins = s.pins := by
  unfold State.pierEvent; simp
@[simp] theorem State.pierEvent_ident (s : State) (n b : Nat) : (s.pierEvent n b).ident = s.ident := by
  unfold State.pierEvent; simp

@[simp] theorem State.modCtl_pending (s : State) (n : Nat) (f : CanCtl → CanCtl) : (s.modCtl n f).pending = s.pending := rfl
@[simp] theorem State.modCtl_now (s : State) (n : Nat) (f : CanCtl → CanCtl) : (s.modCtl n f).now = s.now := rfl
@[simp] theorem State.modCtl_port (s : State) (n : Nat) (f : CanCtl → CanCtl) : (s.modCtl n f).port = s.port := rfl
@[simp] theorem State.modCtl_intc (s : State) (n : Nat) (f : CanCtl → CanCtl) : (s.modCtl n f).intc = s.intc := rfl
@[simp] theorem State.modCtl_tide (s : State) (n : Nat) (f : CanCtl → CanCtl) : (s.modCtl n f).tide = s.tide := rfl
@[simp] theorem State.modCtl_bt (s : State) (n : Nat) (f : CanCtl → CanCtl) : (s.modCtl n f).bt = s.bt := rfl
@[simp] theorem State.modCtl_ver (s : State) (n : Nat) (f : CanCtl → CanCtl) : (s.modCtl n f).ver = s.ver := rfl
@[simp] theorem State.modCtl_cfg (s : State) (n : Nat) (f : CanCtl → CanCtl) : (s.modCtl n f).cfg = s.cfg := rfl
@[simp] theorem State.modCtl_mf (s : State) (n : Nat) (f : CanCtl → CanCtl) : (s.modCtl n f).mf = s.mf := rfl
@[simp] theorem State.modCtl_lf (s : State) (n : Nat) (f : CanCtl → CanCtl) : (s.modCtl n f).lf = s.lf := rfl
@[simp] theorem State.modCtl_uwb (s : State) (n : Nat) (f : CanCtl → CanCtl) : (s.modCtl n f).uwb = s.uwb := rfl
@[simp] theorem State.modCtl_nb (s : State) (n : Nat) (f : CanCtl → CanCtl) : (s.modCtl n f).nb = s.nb := rfl
@[simp] theorem State.modCtl_reg (s : State) (n : Nat) (f : CanCtl → CanCtl) : (s.modCtl n f).reg = s.reg := rfl
@[simp] theorem State.modCtl_lk (s : State) (n : Nat) (f : CanCtl → CanCtl) : (s.modCtl n f).lk = s.lk := rfl
@[simp] theorem State.modCtl_keys (s : State) (n : Nat) (f : CanCtl → CanCtl) : (s.modCtl n f).keys = s.keys := rfl
@[simp] theorem State.modCtl_cry (s : State) (n : Nat) (f : CanCtl → CanCtl) : (s.modCtl n f).cry = s.cry := rfl
@[simp] theorem State.modCtl_trng (s : State) (n : Nat) (f : CanCtl → CanCtl) : (s.modCtl n f).trng = s.trng := rfl
@[simp] theorem State.modCtl_nfc (s : State) (n : Nat) (f : CanCtl → CanCtl) : (s.modCtl n f).nfc = s.nfc := rfl
@[simp] theorem State.modCtl_pier (s : State) (n : Nat) (f : CanCtl → CanCtl) : (s.modCtl n f).pier = s.pier := rfl
@[simp] theorem State.modCtl_tend (s : State) (n : Nat) (f : CanCtl → CanCtl) : (s.modCtl n f).tend = s.tend := rfl
@[simp] theorem State.modCtl_sys (s : State) (n : Nat) (f : CanCtl → CanCtl) : (s.modCtl n f).sys = s.sys := rfl
@[simp] theorem State.modCtl_fw (s : State) (n : Nat) (f : CanCtl → CanCtl) : (s.modCtl n f).fw = s.fw := rfl
@[simp] theorem State.modCtl_log (s : State) (n : Nat) (f : CanCtl → CanCtl) : (s.modCtl n f).log = s.log := rfl
@[simp] theorem State.modCtl_pins (s : State) (n : Nat) (f : CanCtl → CanCtl) : (s.modCtl n f).pins = s.pins := rfl
@[simp] theorem State.modCtl_ident (s : State) (n : Nat) (f : CanCtl → CanCtl) : (s.modCtl n f).ident = s.ident := rfl

@[simp] theorem State.modObj_pending (s : State) (n k : Nat) (f : MObj → MObj) : (s.modObj n k f).pending = s.pending := rfl
@[simp] theorem State.modObj_now (s : State) (n k : Nat) (f : MObj → MObj) : (s.modObj n k f).now = s.now := rfl
@[simp] theorem State.modObj_port (s : State) (n k : Nat) (f : MObj → MObj) : (s.modObj n k f).port = s.port := rfl
@[simp] theorem State.modObj_intc (s : State) (n k : Nat) (f : MObj → MObj) : (s.modObj n k f).intc = s.intc := rfl
@[simp] theorem State.modObj_tide (s : State) (n k : Nat) (f : MObj → MObj) : (s.modObj n k f).tide = s.tide := rfl
@[simp] theorem State.modObj_bt (s : State) (n k : Nat) (f : MObj → MObj) : (s.modObj n k f).bt = s.bt := rfl
@[simp] theorem State.modObj_ver (s : State) (n k : Nat) (f : MObj → MObj) : (s.modObj n k f).ver = s.ver := rfl
@[simp] theorem State.modObj_cfg (s : State) (n k : Nat) (f : MObj → MObj) : (s.modObj n k f).cfg = s.cfg := rfl
@[simp] theorem State.modObj_mf (s : State) (n k : Nat) (f : MObj → MObj) : (s.modObj n k f).mf = s.mf := rfl
@[simp] theorem State.modObj_lf (s : State) (n k : Nat) (f : MObj → MObj) : (s.modObj n k f).lf = s.lf := rfl
@[simp] theorem State.modObj_uwb (s : State) (n k : Nat) (f : MObj → MObj) : (s.modObj n k f).uwb = s.uwb := rfl
@[simp] theorem State.modObj_nb (s : State) (n k : Nat) (f : MObj → MObj) : (s.modObj n k f).nb = s.nb := rfl
@[simp] theorem State.modObj_reg (s : State) (n k : Nat) (f : MObj → MObj) : (s.modObj n k f).reg = s.reg := rfl
@[simp] theorem State.modObj_lk (s : State) (n k : Nat) (f : MObj → MObj) : (s.modObj n k f).lk = s.lk := rfl
@[simp] theorem State.modObj_keys (s : State) (n k : Nat) (f : MObj → MObj) : (s.modObj n k f).keys = s.keys := rfl
@[simp] theorem State.modObj_cry (s : State) (n k : Nat) (f : MObj → MObj) : (s.modObj n k f).cry = s.cry := rfl
@[simp] theorem State.modObj_trng (s : State) (n k : Nat) (f : MObj → MObj) : (s.modObj n k f).trng = s.trng := rfl
@[simp] theorem State.modObj_nfc (s : State) (n k : Nat) (f : MObj → MObj) : (s.modObj n k f).nfc = s.nfc := rfl
@[simp] theorem State.modObj_pier (s : State) (n k : Nat) (f : MObj → MObj) : (s.modObj n k f).pier = s.pier := rfl
@[simp] theorem State.modObj_tend (s : State) (n k : Nat) (f : MObj → MObj) : (s.modObj n k f).tend = s.tend := rfl
@[simp] theorem State.modObj_sys (s : State) (n k : Nat) (f : MObj → MObj) : (s.modObj n k f).sys = s.sys := rfl
@[simp] theorem State.modObj_fw (s : State) (n k : Nat) (f : MObj → MObj) : (s.modObj n k f).fw = s.fw := rfl
@[simp] theorem State.modObj_log (s : State) (n k : Nat) (f : MObj → MObj) : (s.modObj n k f).log = s.log := rfl
@[simp] theorem State.modObj_pins (s : State) (n k : Nat) (f : MObj → MObj) : (s.modObj n k f).pins = s.pins := rfl
@[simp] theorem State.modObj_ident (s : State) (n k : Nat) (f : MObj → MObj) : (s.modObj n k f).ident = s.ident := rfl

@[simp] theorem State.wake_pending (s : State) (b : Nat) : (s.wake b).pending = s.pending := by
  unfold State.wake; split <;> rfl
@[simp] theorem State.wake_now (s : State) (b : Nat) : (s.wake b).now = s.now := by
  unfold State.wake; split <;> rfl
@[simp] theorem State.wake_port (s : State) (b : Nat) : (s.wake b).port = s.port := by
  unfold State.wake; split <;> rfl
@[simp] theorem State.wake_intc (s : State) (b : Nat) : (s.wake b).intc = s.intc := by
  unfold State.wake; split <;> rfl
@[simp] theorem State.wake_bt (s : State) (b : Nat) : (s.wake b).bt = s.bt := by
  unfold State.wake; split <;> rfl
@[simp] theorem State.wake_ver (s : State) (b : Nat) : (s.wake b).ver = s.ver := by
  unfold State.wake; split <;> rfl
@[simp] theorem State.wake_cfg (s : State) (b : Nat) : (s.wake b).cfg = s.cfg := by
  unfold State.wake; split <;> rfl
@[simp] theorem State.wake_mf (s : State) (b : Nat) : (s.wake b).mf = s.mf := by
  unfold State.wake; split <;> rfl
@[simp] theorem State.wake_lf (s : State) (b : Nat) : (s.wake b).lf = s.lf := by
  unfold State.wake; split <;> rfl
@[simp] theorem State.wake_uwb (s : State) (b : Nat) : (s.wake b).uwb = s.uwb := by
  unfold State.wake; split <;> rfl
@[simp] theorem State.wake_nb (s : State) (b : Nat) : (s.wake b).nb = s.nb := by
  unfold State.wake; split <;> rfl
@[simp] theorem State.wake_reg (s : State) (b : Nat) : (s.wake b).reg = s.reg := by
  unfold State.wake; split <;> rfl
@[simp] theorem State.wake_lk (s : State) (b : Nat) : (s.wake b).lk = s.lk := by
  unfold State.wake; split <;> rfl
@[simp] theorem State.wake_keys (s : State) (b : Nat) : (s.wake b).keys = s.keys := by
  unfold State.wake; split <;> rfl
@[simp] theorem State.wake_cry (s : State) (b : Nat) : (s.wake b).cry = s.cry := by
  unfold State.wake; split <;> rfl
@[simp] theorem State.wake_trng (s : State) (b : Nat) : (s.wake b).trng = s.trng := by
  unfold State.wake; split <;> rfl
@[simp] theorem State.wake_nfc (s : State) (b : Nat) : (s.wake b).nfc = s.nfc := by
  unfold State.wake; split <;> rfl
@[simp] theorem State.wake_can (s : State) (b : Nat) : (s.wake b).can = s.can := by
  unfold State.wake; split <;> rfl
@[simp] theorem State.wake_tend (s : State) (b : Nat) : (s.wake b).tend = s.tend := by
  unfold State.wake; split <;> rfl
@[simp] theorem State.wake_sys (s : State) (b : Nat) : (s.wake b).sys = s.sys := by
  unfold State.wake; split <;> rfl
@[simp] theorem State.wake_fw (s : State) (b : Nat) : (s.wake b).fw = s.fw := by
  unfold State.wake; split <;> rfl
@[simp] theorem State.wake_log (s : State) (b : Nat) : (s.wake b).log = s.log := by
  unfold State.wake; split <;> rfl
@[simp] theorem State.wake_pins (s : State) (b : Nat) : (s.wake b).pins = s.pins := by
  unfold State.wake; split <;> rfl
@[simp] theorem State.wake_ident (s : State) (b : Nat) : (s.wake b).ident = s.ident := by
  unfold State.wake; split <;> rfl

@[simp] theorem State.upX_latchIf_false (s : State) (n : Nat) : s.latchIf false n = s := rfl
@[simp] theorem State.latchIf_true (s : State) (n : Nat) : s.latchIf true n = s.latch n := rfl
@[simp] theorem State.noticeIf_false (s : State) (k a : Nat) : s.noticeIf false k a = s := rfl
@[simp] theorem State.noticeIf_true (s : State) (k a : Nat) : s.noticeIf true k a = s.notice k a := rfl

/-- A command whose condition holds has its effect. -/
theorem State.whenDo_of (s t : State) {b : Bool} (h : b = true) : s.whenDo b t = .next t := by simp [State.whenDo, h]

/-- A command whose condition does not hold leaves the state as it was (log entry 2). -/
theorem State.whenDo_not (s t : State) {b : Bool} (h : b = false) : s.whenDo b t = .next s := by simp [State.whenDo, h]

/-- A far write that is served: the access begins, the latch of its register is released, the register has its effect. -/
theorem State.farWrite_served (s : State) (a : Nat) (eff : State → State) (hp : s.portUp = true)
    (hm : s.mainUp = true ∨ alwaysServed a = true) :
    s.farWrite a eff = eff ((s.beginFar none).upPort fun p => p.unlatch a) := by
  have : ((s.beginFar none).upPort fun p => p.unlatch a).mainUp = s.mainUp := rfl
  unfold State.farWrite
  rcases hm with h | h <;> simp [hp, this, h]

/-- A far write in a main-domain reset is counted and dropped (R667). -/
theorem State.farWrite_dropped (s : State) (a : Nat) (eff : State → State) (hp : s.portUp = true)
    (hm : s.mainUp = false) (ha : alwaysServed a = false) :
    s.farWrite a eff = ((s.beginFar none).upPort fun p => p.unlatch a).upPort
      fun p => { p with errDropped := satInc p.errDropped } := by
  have : ((s.beginFar none).upPort fun p => p.unlatch a).mainUp = s.mainUp := rfl
  unfold State.farWrite
  simp [hp, this, hm, ha]

/-- A near write that is served. -/
theorem State.nearWrite_served (s : State) (a : Nat) (eff : State → State) (hp : s.portUp = true) :
    s.nearWrite a eff = eff (s.upPort fun p => p.unlatch a) := by simp [State.nearWrite, hp]

/-- Before the port has started no far write has an effect (R746). -/
theorem State.farWrite_down (s : State) (a : Nat) (eff : State → State) (hp : s.portUp = false) :
    s.farWrite a eff = s := by simp [State.farWrite, hp]

end Sys2Proof.Machine
end

