-- ==== Sys2Proof/Laws/Boundary.lean ====
section
/-! SUPPORT. What a tide boundary leaves of the tide: number, start, stamp, tick and power state. -/

namespace Sys2Proof.Machine

theorem Keeps.tide {s t : State} (k : Keeps s t) :
    t.now = s.now ∧ t.tide.number = s.tide.number ∧ t.tide.startAt = s.tide.startAt ∧
      t.tide.boundary = s.tide.boundary ∧ t.tide.lengthMs = s.tide.lengthMs ∧ t.tide.power = s.tide.power ∧
      t.tide.life = s.tide.life ∧ t.stamp = s.stamp := by
  have c := k.clock
  simp only [Tide.clock, Prod.mk.injEq] at c
  exact ⟨k.now, c.1, c.2.1, c.2.2.1, c.2.2.2.1, c.2.2.2.2.1, c.2.2.2.2.2.1,
    by simp only [State.stamp, State.baseAt, k.now, c.2.2.2.2.2.2]⟩

theorem State.lifeTo_tide (s : State) (l : LifeCycle) :
    (s.lifeTo l).now = s.now ∧ (s.lifeTo l).tide.number = s.tide.number ∧
      (s.lifeTo l).tide.startAt = s.tide.startAt ∧ (s.lifeTo l).tide.boundary = s.tide.boundary ∧
      (s.lifeTo l).tide.power = s.tide.power ∧ (s.lifeTo l).tide.life = l := by
  unfold State.lifeTo
  split
  · next h => exact ⟨rfl, rfl, rfl, rfl, rfl, h⟩
  · have after : ∀ x : State, Keeps (s.upTide fun t => { t with
      life := l, powerReq := if l = .fleet then t.powerReq.without 3#3 else t.powerReq }) x → x.now = s.now ∧
        x.tide.number = s.tide.number ∧ x.tide.startAt = s.tide.startAt ∧ x.tide.boundary = s.tide.boundary ∧
        x.tide.power = s.tide.power ∧ x.tide.life = l := fun x k =>
      ⟨k.tide.1, k.tide.2.1, k.tide.2.2.1, k.tide.2.2.2.1, k.tide.2.2.2.2.2.1, k.tide.2.2.2.2.2.2.1⟩
    dsimp only
    refine after _ (keeps_latch _ (keeps_ite (keeps_endLoopback ?_) ?_)) <;>
    exact keeps_ite (keeps_invalidateRoot _ (keeps_upVer (keeps_writeRecord _ (keeps_refl _))))
      (keeps_upVer (keeps_writeRecord _ (keeps_refl _)))

theorem State.lifeBoundary_tide (s : State) :
    s.lifeBoundary.now = s.now ∧ s.lifeBoundary.tide.number = s.tide.number ∧
      s.lifeBoundary.tide.startAt = s.tide.startAt ∧ s.lifeBoundary.tide.boundary = s.tide.boundary ∧
      s.lifeBoundary.tide.power = s.tide.power := by
  unfold State.lifeBoundary
  split
  · exact ⟨rfl, rfl, rfl, rfl, rfl⟩
  · have h := State.lifeTo_tide (s.upTide fun t => { t with lifeNext := none })
    exact ⟨(h _).1, (h _).2.1, (h _).2.2.1, (h _).2.2.2.1, (h _).2.2.2.2.1⟩

theorem State.wakeNoise_same (s : State) : s.wakeNoise.now = s.now ∧ s.wakeNoise.tide = s.tide := by
  unfold State.wakeNoise
  split <;> exact ⟨rfl, rfl⟩

theorem State.setPower_tide (s : State) (p : Power) :
    (s.setPower p).now = s.now ∧ (s.setPower p).tide.number = s.tide.number ∧
      (s.setPower p).tide.startAt = s.tide.startAt ∧ (s.setPower p).tide.boundary = s.tide.boundary ∧
      (s.setPower p).tide.power = p ∧ (s.setPower p).tide.life = s.tide.life := by
  unfold State.setPower
  dsimp only
  split
  · next h => exact ⟨rfl, rfl, rfl, rfl, h.symm, rfl⟩
  · split
    · exact ⟨rfl, rfl, rfl, rfl, rfl, rfl⟩
    · split
      · have same {α : Type} {f : Tide → α} {u : State} : f u.wakeNoise.tide = f u.tide := congrArg f (State.wakeNoise_same u).2
        exact ⟨(State.wakeNoise_same _).1, (same (f := (·.number))).trans rfl, (same (f := (·.startAt))).trans rfl,
          (same (f := (·.boundary))).trans rfl, (same (f := (·.power))).trans rfl, (same (f := (·.life))).trans rfl⟩
      · exact ⟨rfl, rfl, rfl, rfl, rfl, rfl⟩

theorem State.newTide_tide (s : State) (w : Option (BitVec 4)) :
    (s.newTide w).now = s.now ∧ (s.newTide w).tide.number = s.tide.number + 1#32 ∧
      (s.newTide w).tide.startAt = s.now ∧ (s.newTide w).tide.boundary = s.stamp ∧
      (s.newTide w).tide.power = s.tide.power := by
  cases w <;> exact ⟨rfl, rfl, rfl, rfl, rfl⟩

/-- A boundary: the number rises by 1, the tide starts now, and the power state is what `power` gives in a
state that still has the old one and already has the life-cycle state of the new tide. -/
theorem State.boundary_tide (s : State) (env : TideEnv) (power : State → Power) (wake : Option (BitVec 4)) (cap : Nat) :
    ∃ u : State, u.tide.power = s.tide.power ∧
      (s.boundary env power wake cap).now = s.now ∧
      (s.boundary env power wake cap).tide.number = s.tide.number + 1#32 ∧
      (s.boundary env power wake cap).tide.startAt = s.now ∧
      (s.boundary env power wake cap).tide.boundary = s.stamp ∧
      (s.boundary env power wake cap).tide.power = power u ∧
      (s.boundary env power wake cap).tide.life = u.tide.life := by
  have k0 := (keeps_publish (keeps_refl s)).tide
  have nt := State.newTide_tide s.publish wake
  have lb := State.lifeBoundary_tide (s.publish.newTide wake)
  have k1 := (keeps_takeSettings (s.publish.tide.lifeNext == some .returned)
    (keeps_refl (s.publish.newTide wake).lifeBoundary)).tide
  generalize hu : (s.publish.newTide wake).lifeBoundary.takeSettings (s.publish.tide.lifeNext == some .returned) = u at k1
  have sp := State.setPower_tide u (power u)
  have k2 := (keeps_runTide env s.publish.castBerths (!s.publish.liveBerths.isEmpty) (s.publish.laterWakes wake)
    (keeps_refl ((u.setPower (power u)).setLength cap))).tide
  have e : s.boundary env power wake cap =
      ((u.setPower (power u)).setLength cap).runTide env s.publish.castBerths (!s.publish.liveBerths.isEmpty)
        (s.publish.laterWakes wake) := by
    unfold State.boundary; dsimp only; rw [hu]
  have sl : ∀ v : State, (v.setLength cap).now = v.now ∧ (v.setLength cap).tide.number = v.tide.number ∧
      (v.setLength cap).tide.startAt = v.tide.startAt ∧ (v.setLength cap).tide.boundary = v.tide.boundary ∧
      (v.setLength cap).tide.power = v.tide.power ∧ (v.setLength cap).tide.life = v.tide.life :=
    fun v => ⟨rfl, rfl, rfl, rfl, rfl, rfl⟩
  have sl := sl (u.setPower (power u))
  have st : s.publish.stamp = s.stamp := k0.2.2.2.2.2.2.2
  refine ⟨u, ?_, ?_, ?_, ?_, ?_, ?_, ?_⟩
  · rw [k1.2.2.2.2.2.1, lb.2.2.2.2, nt.2.2.2.2, k0.2.2.2.2.2.1]
  · rw [e, k2.1, sl.1, sp.1, k1.1, lb.1, nt.1, k0.1]
  · rw [e, k2.2.1, sl.2.1, sp.2.1, k1.2.1, lb.2.1, nt.2.1, k0.2.1]
  · rw [e, k2.2.2.1, sl.2.2.1, sp.2.2.1, k1.2.2.1, lb.2.2.1, nt.2.2.1, k0.1]
  · rw [e, k2.2.2.2.1, sl.2.2.2.1, sp.2.2.2.1, k1.2.2.2.1, lb.2.2.2.1, nt.2.2.2.1, st]
  · rw [e, k2.2.2.2.2.2.1, sl.2.2.2.2.1, sp.2.2.2.2.1]
  · rw [e, k2.2.2.2.2.2.2.1, sl.2.2.2.2.2, sp.2.2.2.2.2]

end Sys2Proof.Machine
end

