-- ==== Sys2Proof/Laws/Mem.lean ====
section
/-! SUPPORT. The laws of the sparse memories: every operation keeps the canonical form, a read after a
write gives what was written, a write leaves every other place alone, and a canonical memory is known
by what it reads. -/

namespace Sys2Proof.Machine

theorem Mem.wf_tail {p : Nat × Byte} {m : Mem} (h : Mem.wf (p :: m) = true) : Mem.wf m = true := by
  cases m with
  | nil => rfl
  | cons q r => simp only [Mem.wf, Bool.and_eq_true] at h; exact h.2

theorem Mem.wf_head {p : Nat × Byte} {m : Mem} (h : Mem.wf (p :: m) = true) : p.2 ≠ 0#8 := by
  cases m with
  | nil => simpa [Mem.wf] using h
  | cons q r => simp only [Mem.wf, Bool.and_eq_true] at h; simpa using h.1.1

theorem Mem.wf_rising {p : Nat × Byte} {m : Mem} (h : Mem.wf (p :: m) = true) : ∀ q ∈ m, p.1 < q.1 := by
  induction m generalizing p with
  | nil => simp
  | cons q r ih =>
    simp only [Mem.wf, Bool.and_eq_true, decide_eq_true_eq] at h
    intro x hx
    rcases List.mem_cons.1 hx with rfl | hx
    · exact h.1.2
    · exact Nat.lt_trans h.1.2 (ih h.2 x hx)

theorem Mem.wf_cons {p : Nat × Byte} {m : Mem} (hv : p.2 ≠ 0#8) (hm : Mem.wf m = true)
    (hr : ∀ q ∈ m, p.1 < q.1) : Mem.wf (p :: m) = true := by
  cases m with
  | nil => simpa [Mem.wf] using hv
  | cons q r =>
    simp only [Mem.wf, Bool.and_eq_true, decide_eq_true_eq]
    exact ⟨⟨by simpa using hv, hr q (List.mem_cons_self ..)⟩, hm⟩

/-- What remains without an offset was listed at another. -/
theorem Mem.mem_without {m : Mem} {a : Nat} {q : Nat × Byte} : q ∈ Mem.without m a ↔ q ∈ m ∧ q.1 ≠ a := by
  simp [Mem.without]

/-- Listing nothing at one offset keeps the canonical form. -/
theorem Mem.wf_without {m : Mem} (a : Nat) (h : Mem.wf m = true) : Mem.wf (Mem.without m a) = true := by
  induction m with
  | nil => rfl
  | cons p r ih =>
    have rise := Mem.wf_rising h
    have ih := ih (Mem.wf_tail h)
    by_cases e : p.1 = a
    · simpa [Mem.without, e] using ih
    · have : Mem.without (p :: r) a = p :: Mem.without r a := by simp [Mem.without, e]
      rw [this]
      exact Mem.wf_cons (Mem.wf_head h) ih fun q hq => rise q (Mem.mem_without.1 hq).1

/-- What `put` lists. -/
theorem Mem.mem_put {m : Mem} {a : Nat} {v : Byte} {q : Nat × Byte} (h : q ∈ Mem.put m a v) : q = (a, v) ∨ q ∈ m := by
  induction m with
  | nil => simpa [Mem.put] using h
  | cons p r ih =>
    simp only [Mem.put] at h
    split at h
    · simpa using h
    · rcases List.mem_cons.1 h with rfl | h
      · exact .inr (List.mem_cons_self ..)
      · exact (ih h).imp id (List.mem_cons_of_mem _)

/-- Listing a byte other than 0 where nothing was listed keeps the canonical form. -/
theorem Mem.wf_put {m : Mem} {a : Nat} {v : Byte} (h : Mem.wf m = true) (hv : v ≠ 0#8) (ha : ∀ q ∈ m, q.1 ≠ a) :
    Mem.wf (Mem.put m a v) = true := by
  induction m with
  | nil => simpa [Mem.put, Mem.wf] using hv
  | cons p r ih =>
    have rise := Mem.wf_rising h
    simp only [Mem.put]
    split
    · rename_i lt
      exact Mem.wf_cons hv h fun q hq => by
        rcases List.mem_cons.1 hq with rfl | hq
        · exact lt
        · exact Nat.lt_trans lt (rise q hq)
    · rename_i nlt
      refine Mem.wf_cons (Mem.wf_head h) (ih (Mem.wf_tail h) fun q hq => ha q (List.mem_cons_of_mem _ hq)) fun q hq => ?_
      rcases Mem.mem_put hq with e | hq
      · have := ha p (List.mem_cons_self ..)
        subst e
        simp only at *
        omega
      · exact rise q hq

/-- A write keeps the canonical form. -/
theorem Mem.wf_write {m : Mem} (a : Nat) (v : Byte) (h : Mem.wf m = true) : Mem.wf (Mem.write m a v) = true := by
  unfold Mem.write
  split
  · exact Mem.wf_without a h
  · exact Mem.wf_put (Mem.wf_without a h) (by assumption) fun q hq => (Mem.mem_without.1 hq).2

/-- Storing a byte string keeps the canonical form. -/
theorem Mem.wf_store {m : Mem} (a : Nat) (d : Bytes) (h : Mem.wf m = true) : Mem.wf (Mem.store m a d) = true := by
  induction d generalizing m a with
  | nil => exact h
  | cons v r ih => exact ih (a + 1) (Mem.wf_write a v h)

/-- Storing a half word keeps the canonical form. -/
theorem Mem.wf_setHalf {m : Mem} (a : Nat) (d : BitVec 16) (h : Mem.wf m = true) : Mem.wf (Mem.setHalf m a d) = true :=
  Mem.wf_store a _ h

/-- Where nothing is listed, a memory reads 0. -/
theorem Mem.read_none {m : Mem} {a : Nat} (h : ∀ q ∈ m, q.1 ≠ a) : Mem.read m a = 0#8 := by
  induction m with
  | nil => rfl
  | cons p r ih =>
    simp only [Mem.read]
    rw [if_neg (Ne.symm (h p (List.mem_cons_self ..)))]
    exact ih fun q hq => h q (List.mem_cons_of_mem _ hq)

/-- Below everything that is listed, a memory reads 0. -/
theorem Mem.read_below {m : Mem} {a : Nat} (h : ∀ q ∈ m, a < q.1) : Mem.read m a = 0#8 :=
  Mem.read_none fun q hq => by have := h q hq; omega

theorem Mem.read_without (m : Mem) (a b : Nat) : Mem.read (Mem.without m a) b = if b = a then 0#8 else Mem.read m b := by
  by_cases hb : b = a
  · rw [if_pos hb]
    exact Mem.read_none fun q hq => hb ▸ (Mem.mem_without.1 hq).2
  · rw [if_neg hb]
    induction m with
    | nil => rfl
    | cons p r ih =>
      by_cases e : p.1 = a
      · have : Mem.without (p :: r) a = Mem.without r a := by simp [Mem.without, e]
        rw [this, ih]
        simp [Mem.read, e, hb]
      · have : Mem.without (p :: r) a = p :: Mem.without r a := by simp [Mem.without, e]
        rw [this]
        simp only [Mem.read, ih]

theorem Mem.read_put {m : Mem} {a : Nat} (b : Nat) (v : Byte) (ha : ∀ q ∈ m, q.1 ≠ a) :
    Mem.read (Mem.put m a v) b = if b = a then v else Mem.read m b := by
  induction m with
  | nil => rfl
  | cons p r ih =>
    have hp := ha p (List.mem_cons_self ..)
    simp only [Mem.put]
    split
    · rfl
    · simp only [Mem.read, ih fun q hq => ha q (List.mem_cons_of_mem _ hq)]
      by_cases h1 : b = p.1
      · have : b ≠ a := h1 ▸ hp
        simp [h1, hp]
      · simp [h1]

/-- What a byte reads as after a write. -/
theorem Mem.read_write (m : Mem) (a b : Nat) (v : Byte) :
    Mem.read (Mem.write m a v) b = if b = a then v else Mem.read m b := by
  unfold Mem.write
  split
  · rename_i hv; rw [Mem.read_without, hv]
  · rw [Mem.read_put b v fun q hq => (Mem.mem_without.1 hq).2, Mem.read_without]
    by_cases hb : b = a <;> simp [hb]

/-- A read after a write to the same place. -/
@[simp] theorem Mem.read_write_same (m : Mem) (a : Nat) (v : Byte) : Mem.read (Mem.write m a v) a = v := by
  rw [Mem.read_write, if_pos rfl]

/-- A write leaves every other place alone. -/
theorem Mem.read_write_other (m : Mem) {a b : Nat} (v : Byte) (ne : b ≠ a) : Mem.read (Mem.write m a v) b = Mem.read m b := by
  rw [Mem.read_write, if_neg ne]

/-- What a byte reads as after a byte string was stored. -/
theorem Mem.read_store (m : Mem) (a b : Nat) (d : Bytes) :
    Mem.read (Mem.store m a d) b =
      if a ≤ b ∧ b < a + d.length then d.getD (b - a) 0#8 else Mem.read m b := by
  induction d generalizing m a with
  | nil =>
    have : ¬(a ≤ b ∧ b < a) := by omega
    simp [Mem.store, this]
  | cons v r ih =>
    simp only [Mem.store, List.length_cons]
    rw [ih (Mem.write m a v) (a + 1), Mem.read_write]
    by_cases hb : b = a
    · subst hb
      have h1 : ¬(b + 1 ≤ b ∧ b < b + 1 + r.length) := by omega
      have h2 : b ≤ b ∧ b < b + (r.length + 1) := by omega
      rw [if_neg h1, if_pos rfl, if_pos h2]; simp
    · by_cases hi : a + 1 ≤ b ∧ b < a + 1 + r.length
      · have h2 : a ≤ b ∧ b < a + (r.length + 1) := by omega
        rw [if_pos hi, if_pos h2]
        obtain ⟨k, hk⟩ : ∃ k, b - a = k + 1 := ⟨b - a - 1, by omega⟩
        have : b - (a + 1) = k := by omega
        rw [hk, this]; simp
      · have h2 : ¬(a ≤ b ∧ b < a + (r.length + 1)) := by omega
        rw [if_neg hi, if_neg hb, if_neg h2]

/-- Two canonical memories that read alike are the same. -/
theorem Mem.ext_read {m n : Mem} (hm : Mem.wf m = true) (hn : Mem.wf n = true)
    (h : ∀ a, Mem.read m a = Mem.read n a) : m = n := by
  induction m generalizing n with
  | nil =>
    cases n with
    | nil => rfl
    | cons q t =>
      have := h q.1
      simp only [Mem.read, if_true] at this
      exact absurd this.symm (Mem.wf_head hn)
  | cons p r ih =>
    cases n with
    | nil =>
      have := h p.1
      simp only [Mem.read, if_true] at this
      exact absurd this (Mem.wf_head hm)
    | cons q t =>
      have rp := Mem.wf_rising hm
      have rq := Mem.wf_rising hn
      have key : p.1 = q.1 := by
        rcases Nat.lt_trichotomy p.1 q.1 with l | e | l
        · have e1 := h p.1
          have e2 : Mem.read (q :: t) p.1 = 0#8 := Mem.read_below fun x hx => by
            rcases List.mem_cons.1 hx with rfl | hx
            · exact l
            · exact Nat.lt_trans l (rq x hx)
          rw [e2] at e1
          simp only [Mem.read, if_true] at e1
          exact absurd e1 (Mem.wf_head hm)
        · exact e
        · have e1 := h q.1
          have e2 : Mem.read (p :: r) q.1 = 0#8 := Mem.read_below fun x hx => by
            rcases List.mem_cons.1 hx with rfl | hx
            · exact l
            · exact Nat.lt_trans l (rp x hx)
          rw [e2] at e1
          simp only [Mem.read, if_true] at e1
          exact absurd e1.symm (Mem.wf_head hn)
      have val : p.2 = q.2 := by
        have := h p.1
        simp only [Mem.read, if_true] at this
        rw [key] at this
        simpa using this
      have tails : r = t := by
        refine ih (Mem.wf_tail hm) (Mem.wf_tail hn) fun a => ?_
        by_cases hl : a ≤ p.1
        · rw [Mem.read_below fun x hx => Nat.lt_of_le_of_lt hl (rp x hx),
            Mem.read_below fun x hx => Nat.lt_of_le_of_lt (key ▸ hl) (rq x hx)]
        · have := h a
          simp only [Mem.read] at this
          rw [if_neg (by omega), if_neg (by omega)] at this
          exact this
      rw [tails, Prod.ext key val]

end Sys2Proof.Machine
end

