-- ==== Sys2Proof/WellFormed.lean ====
section
/-! DEFINITION. Which operands a command can have: what the outside can bring with it. The block runs a
command whose operands no outside brings as its meaning says; nothing here changes what it does. -/

namespace Sys2Proof

/-- Why the operands of a command are not ones that the outside can bring. -/
inductive OperandFault where
  /-- an anchor outside 0 to 32 (R80), or none -/
  | anchor
  /-- a byte string of a length that its message or record does not have -/
  | length
  /-- a link, pin, slot, synthesizer or bank that the device does not have -/
  | index
  /-- a half-word address outside the registers or the window that the command names -/
  | address
  /-- a number outside the range that its message allows -/
  | range
deriving DecidableEq, Repr

/-- The finding `f` where `ok` does not hold. -/
def lacks (ok : Bool) (f : OperandFault) : List OperandFault := if ok then [] else [f]

/-- Anchors run from 0 to 32 (R80). -/
def anchorOk (a : BitVec 6) : Bool := decide (a.toNat < 33)

/-- The low half of a register has the even half-word address (R655). -/
def halfLow (ha : BitVec 20) : Bool := !ha.getLsbD 0

/-- The anchors of what is sensed at a boundary. -/
def TideEnv.anchors (e : TideEnv) : List OperandFault := lacks (e.jam.all fun p => anchorOk p.1) .anchor

/-- The anchor of a UHF frame. -/
def UhfRx.anchors (r : UhfRx) : List OperandFault := lacks (anchorOk r.anchor) .anchor

/-- A receive chain brings 64 taps (R262). -/
def UwbStamp.chainFaults (x : UwbStamp) : List OperandFault :=
  lacks (x.chains.all fun c => c.taps.length == 64) .length

/-- What this device's anchor took of a UWB frame, if anything. -/
def stamps (rx : Option UwbStamp) : List OperandFault := (rx.map UwbStamp.chainFaults).getD []

/-- What is wrong with the operands of a command. -/
def Instr.faults (i : Instr) : List OperandFault :=
  match i with
  | .tideBoundary env => env.anchors
  | .wakeBoundary env => env.anchors
  | .watchDwellExpiry => []
  | .serviceDwellExpiry => []
  | .powerReqWrite _ => []
  | .registerWrite ha _ => lacks (!halfLow ha) .address
  | .lowHalfWrite ha _ => lacks (halfLow ha) .address
  | .undefinedCommandCode ha _ => lacks (!halfLow ha) .address
  | .portLowHalfRead _ => []
  | .farAccessComplete => []
  | .busProtocolError => []
  | .unmappedAccess _ _ => []
  | .bulkWindowWrite ha _ => lacks (decide (0x80000 ≤ ha.toNat)) .address
  | .portStartAfterPor => []
  | .hostReset _ => []
  | .bleAdvertisement _ _ _ _ heard => lacks (!heard.isEmpty && heard.all fun p => anchorOk p.1) .anchor
  | .advertisingBurst _ => []
  | .advertisingEvent _ => []
  | .scanWindow => []
  | .connectionEvent link _ _ => lacks (decide (link < 1056)) .index
  | .hello link _ _ _ _ _ => lacks (decide (link < 1056)) .index
  | .helloTimeout link => lacks (decide (link < 1056)) .index
  | .bleResponse _ _ => []
  | .encryptionRefused _ => []
  | .ready _ _ _ => []
  | .fieldFrame _ _ _ a field _ => lacks (field.length == 3 * a.toNat) .length
  | .close _ _ => []
  | .accessFrameForeign link _ _ => lacks (decide (link < 1056)) .index
  | .bleDisconnection _ => []
  | .hailTimeout _ => []
  | .quietTimeout _ => []
  | .farTimeout _ => []
  | .berthCast _ _ => []
  | .bookingLoWrite _ => []
  | .bookingHiWrite _ => []
  | .startButtonPress mfp => lacks (decide (mfp.toNat < 24)) .index
  | .startDebounceEnd mfp => lacks (decide (mfp.toNat < 24)) .index
  | .verdictPublication => []
  | .latchPulseEnd mfp => lacks (decide (mfp.toNat < 24)) .index
  | .ovrVerify => []
  | .ovrVerifyDone => []
  | .fireRule _ => []
  | .fireStart => []
  | .ovrCancel => []
  | .ovrNewNonce => []
  | .ovrWindowEnd => []
  | .vselWrite _ => []
  | .handleTouch mfp => lacks (decide (mfp.toNat < 24)) .index
  | .lfFrameStart => []
  | .lfPatternEnd _ => []
  | .answerWindowClose _ => []
  | .slottedRoundClose _ => []
  | .lfPollingPattern => []
  | .uhfSniff => []
  | .wakeAnswer rx _ _ _ => rx.anchors
  | .challengeResponse rx _ _ _ _ => rx.anchors
  | .buttonTelegram rx _ _ _ _ _ => rx.anchors
  | .pollReport rx _ _ _ _ _ _ => rx.anchors
  | .fieldFit _ => []
  | .lfCal => []
  | .lfCalibrationDone _ => []
  | .clrIdle => []
  | .driverTrip _ => []
  | .vlfLow _ => []
  | .uwbCal => []
  | .pllUCalDone _ _ => []
  | .pllULock => []
  | .pllULossOfLock => []
  | .roundPreparation _ => []
  | .uwbCtrlTransmit => []
  | .uwbPoll rx => stamps rx
  | .uwbResponseTransmit slot => lacks (decide (slot.toNat < 8)) .index
  | .uwbFinal rx => stamps rx
  | .uwbFinalData _ _ => []
  | .uwbRoundEnd => []
  | .roundResults => []
  | .foreignUwbFrame _ => []
  | .uwbTestGo _ => []
  | .resSelWrite _ => []
  | .cirSelWrite _ => []
  | .nbradioCal => []
  | .synthCalibration which => lacks (which != 3#2) .index
  | .synthCalDone which _ _ irr => lacks (which != 3#2) .index ++ lacks (irr.length == if which = 0#2 then 4 else 1) .length
  | .synthLock => []
  | .synthLossOfLock which => lacks (which != 3#2) .index
  | .csProcedure _ => []
  | .csResults _ _ => []
  | .csSelWrite _ => []
  | .nbradioTestGo _ => []
  | .reqaPoll => []
  | .cardActivation uids => lacks (uids.all fun u => u.1.length == 4 || u.1.length == 7 || u.1.length == 10) .length
  | .cardSelect _ _ _ _ => []
  | .cardAuthBeginResponse _ rb macC _ => lacks (rb.length == 16 && macC.length == 16) .length
  | .cardAuthEndResponse _ _ => []
  | .cardLeftField _ => []
  | .readerFieldReturn _ => []
  | .nfcRescan => []
  | .cardSelWrite _ => []
  | .tagFieldOn => []
  | .tagSelect => []
  | .tagAuthBegin _ _ _ ra _ => lacks (ra.length == 16) .length
  | .tagWtx => []
  | .harvestDelayEnd _ => []
  | .tagAuthEnd macR => lacks (macR.length == 16) .length
  | .tagRead _ _ => []
  | .tagWrite _ _ => []
  | .tagReadOrig _ _ => []
  | .tagDeactivation _ => []
  | .harvTimeout => []
  | .tagMemHostAccess ha _ => lacks (decide (0x2E000 ≤ ha.toNat) && decide (ha.toNat < 0x2F000)) .address
  | .registerOpen => []
  | .registerBlockCrc _ => []
  | .importWindowWrite ha _ => lacks (decide (0x40800 ≤ ha.toNat) && decide (ha.toNat < 0x41000)) .address
  | .registerVerify => []
  | .registerVerifyDone => []
  | .registerCommit => []
  | .stagingDone _ => []
  | .registerAbort => []
  | .journalApply => []
  | .mbLookup => []
  | .mbScrub => []
  | .mailboxDone => []
  | .clockWrite _ => []
  | .clockFloorHour => []
  | .installRoot => []
  | .installPub => []
  | .setFleetId => []
  | .pair => []
  | .genXmss => []
  | .genXmssDone => []
  | .advance => []
  | .keysReturn => []
  | .respond => []
  | .exportHarvest => []
  | .keysNewNonce => []
  | .destroy _ => []
  | .keysAbort => []
  | .rootRetagDone => []
  | .pairingFrame => []
  | .pairingTimeout => []
  | .tamperLineRise _ => []
  | .aesGo _ => []
  | .aesBlockDone => []
  | .aesJobArrival _ _ _ _ _ _ _ => []
  | .aesJobResume => []
  | .keccakJobArrival _ _ _ _ => []
  | .attest => []
  | .signRelease _ => []
  | .trngGenerate => []
  | .trngReseed => []
  | .setPers => []
  | .noiseBlockDone _ => []
  | .fatalRestart => []
  | .drbgReseedTimer => []
  | .entropyRequestTimeout => []
  | .maskGeneratorReseed => []
  | .ticketDelivery => []
  | .requestTimerExpiry => []
  | .lkChallenge _ _ _ _ => []
  | .lkStatus _ _ _ _ _ => []
  | .ticketWindowEnd => []
  | .crankWindowEnd => []
  | .ecuSilent => []
  | .stenReadback _ => []
  | .lkBusOff => []
  | .islandSupplyTrip => []
  | .islandPowerUp _ => []
  | .islandSelftestRetry _ => []
  | .canFrameReceived _ frame _ => lacks (frame.data.length ≤ if frame.fdf then 64 else 8) .length
  | .canTxRequest _ _ => []
  | .canLoad _ _ => []
  | .canCancel _ _ => []
  | .canArbitrationStart _ => []
  | .canTxSuccess _ => []
  | .canTxAttemptFailed _ _ => []
  | .canBusOffRecovery _ => []
  | .canBusIntegration _ => []
  | .canProtocolException _ => []
  | .canRxAck _ _ => []
  | .canTransactTimeout _ _ _ => []
  | .pierPortEnable _ => []
  | .pierTrainingComplete _ _ => []
  | .pierTrainingTimeout _ => []
  | .pierRetrainTimer _ => []
  | .pierAdrift _ _ => []
  | .pierRetrain _ => []
  | .pierBlockReceived _ _ _ _ => []
  | .pierAck _ _ => []
  | .pierNak _ _ => []
  | .pierResendTimeout _ => []
  | .pierMark env => env.anchors
  | .tideMessage _ _ length power _ => lacks (decide (1 ≤ length.toNat) && decide (length.toNat ≤ 1024)) .range ++ lacks (decide (power.toNat ≤ 4)) .range
  | .enumerationStart => []
  | .enum _ _ anchor => lacks (decide (1 ≤ anchor.toNat) && anchorOk anchor) .anchor
  | .bind _ nh => lacks (nh.length == 16) .length
  | .bindFinish _ macH => lacks (macH.length == 16) .length
  | .pierResponse _ _ _ _ _ _ => []
  | .pierRequestTimeout _ _ => []
  | .slack _ _ => []
  | .wakeBeacon _ => []
  | .pushBegin _ _ _ _ _ => []
  | .pushData _ data _ => lacks (decide (data.length ≤ 248)) .length
  | .pushEnd _ => []
  | .commitAt _ _ _ => []
  | .keyFwd _ _ _ => []
  | .sessionSet _ _ => []
  | .harvestTable _ _ => []
  | .schedule _ _ => []
  | .resultMessage _ results => lacks (results.all fun r => anchorOk r.rx.anchor) .anchor
  | .eventMessage _ _ _ _ _ => []
  | .tamperMessage => []
  | .remoteRead _ => []
  | .remoteWrite _ => []
  | .manifestOpen => []
  | .manifestBlockCrc _ => []
  | .manifestVerify => []
  | .manifestVerifyDone => []
  | .manifestCommit => []
  | .manifestWriteDone _ => []
  | .manifestAbort => []
  | .claim => []
  | .complete _ => []
  | .pendingClear _ _ => []
  | .enableHWrite _ _ => []
  | .pairEnableWrite _ _ => []
  | .trigger _ => []
  | .powerOnReset => []
  | .brownOut _ => []
  | .supplyWarning bit _ => lacks (decide (bit.toNat < 6)) .index
  | .vioBrownOut bank => lacks (bank != 3#2) .index
  | .watchdogExpiry => []
  | .lockstepFault _ => []
  | .pairRejoin _ => []
  | .mainStart env _ _ => env.anchors
  | .crystalChangeover => []
  | .fwOpen => []
  | .fwBlockCrc _ => []
  | .fwVerify => []
  | .fwVerifyDone => []
  | .fwActivate => []
  | .fwDistributionDone _ => []
  | .fwAbort => []
  | .fwHandoverDone => []
  | .fwTrialEnd => []
  | .checkpoint => []
  | .checkpointDue => []
  | .logbookSelWrite _ => []
  | .pairClaim _ => []
  | .pairComplete _ _ => []
  | .windowWrite _ _ => []
  | .canReceiveError _ _ => []
  | .vioBankRelease bank => lacks (bank != 3#2) .index
  | .coreClockStop => []
  | .sessionIdBaseRetry => []
  | .tenderBankWriteDone _ => []

/-- Every operand is one that the outside can bring. -/
def Instr.wf (i : Instr) : Bool := i.faults.isEmpty

end Sys2Proof
end

