-- ==== Sys2Proof/Laws/PerInstr.lean ====
section
/-! SUPPORT. Statements about every command as a written term, one lemma for each. -/

namespace Sys2Proof.Laws.Operands

/-- A command is well formed exactly if no check of its operands finds anything. -/
def Statement (i : Instr) : Prop := i.wf = true ↔ i.faults = []

/-- The statement holds of every command, through the one definition of well-formedness. -/
theorem of_def (i : Instr) : Statement i := List.isEmpty_iff

theorem tideBoundary (a0 : TideEnv) : Statement (.tideBoundary a0) := of_def _
theorem wakeBoundary (a0 : TideEnv) : Statement (.wakeBoundary a0) := of_def _
theorem watchDwellExpiry : Statement (.watchDwellExpiry) := of_def _
theorem serviceDwellExpiry : Statement (.serviceDwellExpiry) := of_def _
theorem powerReqWrite (a0 : BitVec 32) : Statement (.powerReqWrite a0) := of_def _
theorem registerWrite (a0 : BitVec 20) (a1 : BitVec 16) : Statement (.registerWrite a0 a1) := of_def _
theorem lowHalfWrite (a0 : BitVec 20) (a1 : BitVec 16) : Statement (.lowHalfWrite a0 a1) := of_def _
theorem undefinedCommandCode (a0 : BitVec 20) (a1 : BitVec 16) : Statement (.undefinedCommandCode a0 a1) := of_def _
theorem portLowHalfRead (a0 : BitVec 20) : Statement (.portLowHalfRead a0) := of_def _
theorem farAccessComplete : Statement (.farAccessComplete) := of_def _
theorem busProtocolError : Statement (.busProtocolError) := of_def _
theorem unmappedAccess (a0 : BitVec 20) (a1 : Option (BitVec 16)) : Statement (.unmappedAccess a0 a1) := of_def _
theorem bulkWindowWrite (a0 : BitVec 20) (a1 : BitVec 16) : Statement (.bulkWindowWrite a0 a1) := of_def _
theorem portStartAfterPor : Statement (.portStartAfterPor) := of_def _
theorem hostReset (a0 : BitVec 32) : Statement (.hostReset a0) := of_def _
theorem bleAdvertisement (a0 : BitVec 16) (a1 : BitVec 8) (a2 : BitVec 32) (a3 : BitVec 64) (a4 : Heard) : Statement (.bleAdvertisement a0 a1 a2 a3 a4) := of_def _
theorem advertisingBurst (a0 : BleSense) : Statement (.advertisingBurst a0) := of_def _
theorem advertisingEvent (a0 : BleSense) : Statement (.advertisingEvent a0) := of_def _
theorem scanWindow : Statement (.scanWindow) := of_def _
theorem connectionEvent (a0 : Nat) (a1 : BitVec 8) (a2 : List PeerPdu) : Statement (.connectionEvent a0 a1 a2) := of_def _
theorem hello (a0 : Nat) (a1 : BitVec 64) (a2 : BitVec 64) (a3 : BitVec 8) (a4 : BitVec 8) (a5 : BitVec 16) : Statement (.hello a0 a1 a2 a3 a4 a5) := of_def _
theorem helloTimeout (a0 : Nat) : Statement (.helloTimeout a0) := of_def _
theorem bleResponse (a0 : BitVec 8) (a1 : BitVec 128) : Statement (.bleResponse a0 a1) := of_def _
theorem encryptionRefused (a0 : BitVec 8) : Statement (.encryptionRefused a0) := of_def _
theorem ready (a0 : BitVec 8) (a1 : BitVec 32) (a2 : BitVec 64) : Statement (.ready a0 a1 a2) := of_def _
theorem fieldFrame (a0 : BitVec 8) (a1 : BitVec 16) (a2 : BitVec 8) (a3 : BitVec 8) (a4 : Bytes) (a5 : BitVec 32) : Statement (.fieldFrame a0 a1 a2 a3 a4 a5) := of_def _
theorem close (a0 : BitVec 8) (a1 : BitVec 8) : Statement (.close a0 a1) := of_def _
theorem accessFrameForeign (a0 : Nat) (a1 : BitVec 8) (a2 : BitVec 8) : Statement (.accessFrameForeign a0 a1 a2) := of_def _
theorem bleDisconnection (a0 : BitVec 8) : Statement (.bleDisconnection a0) := of_def _
theorem hailTimeout (a0 : BitVec 8) : Statement (.hailTimeout a0) := of_def _
theorem quietTimeout (a0 : BitVec 8) : Statement (.quietTimeout a0) := of_def _
theorem farTimeout (a0 : BitVec 8) : Statement (.farTimeout a0) := of_def _
theorem berthCast (a0 : BitVec 8) (a1 : BitVec 32) : Statement (.berthCast a0 a1) := of_def _
theorem bookingLoWrite (a0 : BitVec 32) : Statement (.bookingLoWrite a0) := of_def _
theorem bookingHiWrite (a0 : BitVec 32) : Statement (.bookingHiWrite a0) := of_def _
theorem startButtonPress (a0 : BitVec 5) : Statement (.startButtonPress a0) := of_def _
theorem startDebounceEnd (a0 : BitVec 5) : Statement (.startDebounceEnd a0) := of_def _
theorem verdictPublication : Statement (.verdictPublication) := of_def _
theorem latchPulseEnd (a0 : BitVec 5) : Statement (.latchPulseEnd a0) := of_def _
theorem ovrVerify : Statement (.ovrVerify) := of_def _
theorem ovrVerifyDone : Statement (.ovrVerifyDone) := of_def _
theorem fireRule (a0 : BitVec 8) : Statement (.fireRule a0) := of_def _
theorem fireStart : Statement (.fireStart) := of_def _
theorem ovrCancel : Statement (.ovrCancel) := of_def _
theorem ovrNewNonce : Statement (.ovrNewNonce) := of_def _
theorem ovrWindowEnd : Statement (.ovrWindowEnd) := of_def _
theorem vselWrite (a0 : BitVec 32) : Statement (.vselWrite a0) := of_def _
theorem handleTouch (a0 : BitVec 5) : Statement (.handleTouch a0) := of_def _
theorem lfFrameStart : Statement (.lfFrameStart) := of_def _
theorem lfPatternEnd (a0 : List LfSense) : Statement (.lfPatternEnd a0) := of_def _
theorem answerWindowClose (a0 : AirHeard) : Statement (.answerWindowClose a0) := of_def _
theorem slottedRoundClose (a0 : AirHeard) : Statement (.slottedRoundClose a0) := of_def _
theorem lfPollingPattern : Statement (.lfPollingPattern) := of_def _
theorem uhfSniff : Statement (.uhfSniff) := of_def _
theorem wakeAnswer (a0 : UhfRx) (a1 : BitVec 4) (a2 : BitVec 64) (a3 : BitVec 8) : Statement (.wakeAnswer a0 a1 a2 a3) := of_def _
theorem challengeResponse (a0 : UhfRx) (a1 : BitVec 4) (a2 : BitVec 64) (a3 : BitVec 32) (a4 : BitVec 64) : Statement (.challengeResponse a0 a1 a2 a3 a4) := of_def _
theorem buttonTelegram (a0 : UhfRx) (a1 : BitVec 4) (a2 : BitVec 64) (a3 : BitVec 32) (a4 : BitVec 8) (a5 : BitVec 64) : Statement (.buttonTelegram a0 a1 a2 a3 a4 a5) := of_def _
theorem pollReport (a0 : UhfRx) (a1 : BitVec 4) (a2 : BitVec 16) (a3 : BitVec 2) (a4 : BitVec 6) (a5 : Bytes) (a6 : BitVec 32) : Statement (.pollReport a0 a1 a2 a3 a4 a5 a6) := of_def _
theorem fieldFit (a0 : BitVec 8) : Statement (.fieldFit a0) := of_def _
theorem lfCal : Statement (.lfCal) := of_def _
theorem lfCalibrationDone (a0 : List LfCal) : Statement (.lfCalibrationDone a0) := of_def _
theorem clrIdle : Statement (.clrIdle) := of_def _
theorem driverTrip (a0 : BitVec 4) : Statement (.driverTrip a0) := of_def _
theorem vlfLow (a0 : BitVec 12) : Statement (.vlfLow a0) := of_def _
theorem uwbCal : Statement (.uwbCal) := of_def _
theorem pllUCalDone (a0 : Bool) (a1 : BitVec 16) : Statement (.pllUCalDone a0 a1) := of_def _
theorem pllULock : Statement (.pllULock) := of_def _
theorem pllULossOfLock : Statement (.pllULossOfLock) := of_def _
theorem roundPreparation (a0 : BitVec 16) : Statement (.roundPreparation a0) := of_def _
theorem uwbCtrlTransmit : Statement (.uwbCtrlTransmit) := of_def _
theorem uwbPoll (a0 : Option UwbStamp) : Statement (.uwbPoll a0) := of_def _
theorem uwbResponseTransmit (a0 : BitVec 4) : Statement (.uwbResponseTransmit a0) := of_def _
theorem uwbFinal (a0 : Option UwbStamp) : Statement (.uwbFinal a0) := of_def _
theorem uwbFinalData (a0 : BitVec 40) (a1 : Bytes) : Statement (.uwbFinalData a0 a1) := of_def _
theorem uwbRoundEnd : Statement (.uwbRoundEnd) := of_def _
theorem roundResults : Statement (.roundResults) := of_def _
theorem foreignUwbFrame (a0 : UwbFormat) : Statement (.foreignUwbFrame a0) := of_def _
theorem uwbTestGo (a0 : BitVec 32) : Statement (.uwbTestGo a0) := of_def _
theorem resSelWrite (a0 : BitVec 32) : Statement (.resSelWrite a0) := of_def _
theorem cirSelWrite (a0 : BitVec 32) : Statement (.cirSelWrite a0) := of_def _
theorem nbradioCal : Statement (.nbradioCal) := of_def _
theorem synthCalibration (a0 : BitVec 2) : Statement (.synthCalibration a0) := of_def _
theorem synthCalDone (a0 : BitVec 2) (a1 : Bool) (a2 : BitVec 16) (a3 : List (BitVec 8)) : Statement (.synthCalDone a0 a1 a2 a3) := of_def _
theorem synthLock : Statement (.synthLock) := of_def _
theorem synthLossOfLock (a0 : BitVec 2) : Statement (.synthLossOfLock a0) := of_def _
theorem csProcedure (a0 : BitVec 8) : Statement (.csProcedure a0) := of_def _
theorem csResults (a0 : BitVec 8) (a1 : List (List CsTone)) : Statement (.csResults a0 a1) := of_def _
theorem csSelWrite (a0 : BitVec 32) : Statement (.csSelWrite a0) := of_def _
theorem nbradioTestGo (a0 : BitVec 32) : Statement (.nbradioTestGo a0) := of_def _
theorem reqaPoll : Statement (.reqaPoll) := of_def _
theorem cardActivation (a0 : List (Bytes × Bool)) : Statement (.cardActivation a0) := of_def _
theorem cardSelect (a0 : BitVec 4) (a1 : BitVec 16) (a2 : BitVec 8) (a3 : BitVec 64) : Statement (.cardSelect a0 a1 a2 a3) := of_def _
theorem cardAuthBeginResponse (a0 : BitVec 4) (a1 : Bytes) (a2 : Bytes) (a3 : BitVec 16) : Statement (.cardAuthBeginResponse a0 a1 a2 a3) := of_def _
theorem cardAuthEndResponse (a0 : BitVec 4) (a1 : BitVec 16) : Statement (.cardAuthEndResponse a0 a1) := of_def _
theorem cardLeftField (a0 : BitVec 4) : Statement (.cardLeftField a0) := of_def _
theorem readerFieldReturn (a0 : List (BitVec 4)) : Statement (.readerFieldReturn a0) := of_def _
theorem nfcRescan : Statement (.nfcRescan) := of_def _
theorem cardSelWrite (a0 : BitVec 32) : Statement (.cardSelWrite a0) := of_def _
theorem tagFieldOn : Statement (.tagFieldOn) := of_def _
theorem tagSelect : Statement (.tagSelect) := of_def _
theorem tagAuthBegin (a0 : BitVec 8) (a1 : BitVec 64) (a2 : BitVec 64) (a3 : Bytes) (a4 : Bytes) : Statement (.tagAuthBegin a0 a1 a2 a3 a4) := of_def _
theorem tagWtx : Statement (.tagWtx) := of_def _
theorem harvestDelayEnd (a0 : Bytes) : Statement (.harvestDelayEnd a0) := of_def _
theorem tagAuthEnd (a0 : Bytes) : Statement (.tagAuthEnd a0) := of_def _
theorem tagRead (a0 : BitVec 16) (a1 : BitVec 8) : Statement (.tagRead a0 a1) := of_def _
theorem tagWrite (a0 : BitVec 16) (a1 : Bytes) : Statement (.tagWrite a0 a1) := of_def _
theorem tagReadOrig (a0 : BitVec 16) (a1 : BitVec 8) : Statement (.tagReadOrig a0 a1) := of_def _
theorem tagDeactivation (a0 : Bool) : Statement (.tagDeactivation a0) := of_def _
theorem harvTimeout : Statement (.harvTimeout) := of_def _
theorem tagMemHostAccess (a0 : BitVec 20) (a1 : Option (BitVec 16)) : Statement (.tagMemHostAccess a0 a1) := of_def _
theorem registerOpen : Statement (.registerOpen) := of_def _
theorem registerBlockCrc (a0 : BitVec 32) : Statement (.registerBlockCrc a0) := of_def _
theorem importWindowWrite (a0 : BitVec 20) (a1 : BitVec 16) : Statement (.importWindowWrite a0 a1) := of_def _
theorem registerVerify : Statement (.registerVerify) := of_def _
theorem registerVerifyDone : Statement (.registerVerifyDone) := of_def _
theorem registerCommit : Statement (.registerCommit) := of_def _
theorem stagingDone (a0 : Bool) : Statement (.stagingDone a0) := of_def _
theorem registerAbort : Statement (.registerAbort) := of_def _
theorem journalApply : Statement (.journalApply) := of_def _
theorem mbLookup : Statement (.mbLookup) := of_def _
theorem mbScrub : Statement (.mbScrub) := of_def _
theorem mailboxDone : Statement (.mailboxDone) := of_def _
theorem clockWrite (a0 : BitVec 32) : Statement (.clockWrite a0) := of_def _
theorem clockFloorHour : Statement (.clockFloorHour) := of_def _
theorem installRoot : Statement (.installRoot) := of_def _
theorem installPub : Statement (.installPub) := of_def _
theorem setFleetId : Statement (.setFleetId) := of_def _
theorem pair : Statement (.pair) := of_def _
theorem genXmss : Statement (.genXmss) := of_def _
theorem genXmssDone : Statement (.genXmssDone) := of_def _
theorem advance : Statement (.advance) := of_def _
theorem keysReturn : Statement (.keysReturn) := of_def _
theorem respond : Statement (.respond) := of_def _
theorem exportHarvest : Statement (.exportHarvest) := of_def _
theorem keysNewNonce : Statement (.keysNewNonce) := of_def _
theorem destroy (a0 : Bool) : Statement (.destroy a0) := of_def _
theorem keysAbort : Statement (.keysAbort) := of_def _
theorem rootRetagDone : Statement (.rootRetagDone) := of_def _
theorem pairingFrame : Statement (.pairingFrame) := of_def _
theorem pairingTimeout : Statement (.pairingTimeout) := of_def _
theorem tamperLineRise (a0 : BitVec 2) : Statement (.tamperLineRise a0) := of_def _
theorem aesGo (a0 : BitVec 32) : Statement (.aesGo a0) := of_def _
theorem aesBlockDone : Statement (.aesBlockDone) := of_def _
theorem aesJobArrival (a0 : BitVec 2) (a1 : Option KeyCell) (a2 : BitVec 4) (a3 : Bool) (a4 : Nat) (a5 : BitVec 5) (a6 : Bool) : Statement (.aesJobArrival a0 a1 a2 a3 a4 a5 a6) := of_def _
theorem aesJobResume : Statement (.aesJobResume) := of_def _
theorem keccakJobArrival (a0 : BitVec 2) (a1 : Bool) (a2 : Nat) (a3 : BitVec 5) : Statement (.keccakJobArrival a0 a1 a2 a3) := of_def _
theorem attest : Statement (.attest) := of_def _
theorem signRelease (a0 : Bool) : Statement (.signRelease a0) := of_def _
theorem trngGenerate : Statement (.trngGenerate) := of_def _
theorem trngReseed : Statement (.trngReseed) := of_def _
theorem setPers : Statement (.setPers) := of_def _
theorem noiseBlockDone (a0 : BitVec 1024) : Statement (.noiseBlockDone a0) := of_def _
theorem fatalRestart : Statement (.fatalRestart) := of_def _
theorem drbgReseedTimer : Statement (.drbgReseedTimer) := of_def _
theorem entropyRequestTimeout : Statement (.entropyRequestTimeout) := of_def _
theorem maskGeneratorReseed : Statement (.maskGeneratorReseed) := of_def _
theorem ticketDelivery : Statement (.ticketDelivery) := of_def _
theorem requestTimerExpiry : Statement (.requestTimerExpiry) := of_def _
theorem lkChallenge (a0 : BitVec 8) (a1 : BitVec 8) (a2 : BitVec 48) (a3 : BitVec 16) : Statement (.lkChallenge a0 a1 a2 a3) := of_def _
theorem lkStatus (a0 : BitVec 2) (a1 : BitVec 2) (a2 : BitVec 8) (a3 : BitVec 8) (a4 : BitVec 32) : Statement (.lkStatus a0 a1 a2 a3 a4) := of_def _
theorem ticketWindowEnd : Statement (.ticketWindowEnd) := of_def _
theorem crankWindowEnd : Statement (.crankWindowEnd) := of_def _
theorem ecuSilent : Statement (.ecuSilent) := of_def _
theorem stenReadback (a0 : Bool) : Statement (.stenReadback a0) := of_def _
theorem lkBusOff : Statement (.lkBusOff) := of_def _
theorem islandSupplyTrip : Statement (.islandSupplyTrip) := of_def _
theorem islandPowerUp (a0 : Bool) : Statement (.islandPowerUp a0) := of_def _
theorem islandSelftestRetry (a0 : Bool) : Statement (.islandSelftestRetry a0) := of_def _
theorem canFrameReceived (a0 : BitVec 3) (a1 : CanFrame) (a2 : Nat) : Statement (.canFrameReceived a0 a1 a2) := of_def _
theorem canTxRequest (a0 : BitVec 3) (a1 : BitVec 7) : Statement (.canTxRequest a0 a1) := of_def _
theorem canLoad (a0 : BitVec 3) (a1 : BitVec 7) : Statement (.canLoad a0 a1) := of_def _
theorem canCancel (a0 : BitVec 3) (a1 : BitVec 7) : Statement (.canCancel a0 a1) := of_def _
theorem canArbitrationStart (a0 : BitVec 3) : Statement (.canArbitrationStart a0) := of_def _
theorem canTxSuccess (a0 : BitVec 3) : Statement (.canTxSuccess a0) := of_def _
theorem canTxAttemptFailed (a0 : BitVec 3) (a1 : BitVec 2) : Statement (.canTxAttemptFailed a0 a1) := of_def _
theorem canBusOffRecovery (a0 : BitVec 3) : Statement (.canBusOffRecovery a0) := of_def _
theorem canBusIntegration (a0 : BitVec 3) : Statement (.canBusIntegration a0) := of_def _
theorem canProtocolException (a0 : BitVec 3) : Statement (.canProtocolException a0) := of_def _
theorem canRxAck (a0 : BitVec 3) (a1 : BitVec 32) : Statement (.canRxAck a0 a1) := of_def _
theorem canTransactTimeout (a0 : BitVec 3) (a1 : BitVec 7) (a2 : BitVec 8) : Statement (.canTransactTimeout a0 a1 a2) := of_def _
theorem pierPortEnable (a0 : BitVec 5) : Statement (.pierPortEnable a0) := of_def _
theorem pierTrainingComplete (a0 : BitVec 5) (a1 : BitVec 16) : Statement (.pierTrainingComplete a0 a1) := of_def _
theorem pierTrainingTimeout (a0 : BitVec 5) : Statement (.pierTrainingTimeout a0) := of_def _
theorem pierRetrainTimer (a0 : BitVec 5) : Statement (.pierRetrainTimer a0) := of_def _
theorem pierAdrift (a0 : BitVec 5) (a1 : BitVec 4) : Statement (.pierAdrift a0 a1) := of_def _
theorem pierRetrain (a0 : BitVec 5) : Statement (.pierRetrain a0) := of_def _
theorem pierBlockReceived (a0 : BitVec 5) (a1 : BitVec 4) (a2 : Bool) (a3 : Bool) : Statement (.pierBlockReceived a0 a1 a2 a3) := of_def _
theorem pierAck (a0 : BitVec 5) (a1 : BitVec 4) : Statement (.pierAck a0 a1) := of_def _
theorem pierNak (a0 : BitVec 5) (a1 : BitVec 4) : Statement (.pierNak a0 a1) := of_def _
theorem pierResendTimeout (a0 : BitVec 5) : Statement (.pierResendTimeout a0) := of_def _
theorem pierMark (a0 : TideEnv) : Statement (.pierMark a0) := of_def _
theorem tideMessage (a0 : BitVec 32) (a1 : BitVec 48) (a2 : BitVec 11) (a3 : BitVec 3) (a4 : BitVec 2) : Statement (.tideMessage a0 a1 a2 a3 a4) := of_def _
theorem enumerationStart : Statement (.enumerationStart) := of_def _
theorem enum (a0 : ReqId) (a1 : BitVec 64) (a2 : BitVec 6) : Statement (.enum a0 a1 a2) := of_def _
theorem bind (a0 : ReqId) (a1 : Bytes) : Statement (.bind a0 a1) := of_def _
theorem bindFinish (a0 : ReqId) (a1 : Bytes) : Statement (.bindFinish a0 a1) := of_def _
theorem pierResponse (a0 : BitVec 5) (a1 : BitVec 8) (a2 : BitVec 8) (a3 : BitVec 4) (a4 : BitVec 32) (a5 : Bytes) : Statement (.pierResponse a0 a1 a2 a3 a4 a5) := of_def _
theorem pierRequestTimeout (a0 : BitVec 5) (a1 : BitVec 8) : Statement (.pierRequestTimeout a0 a1) := of_def _
theorem slack (a0 : BitVec 5) (a1 : ReqId) : Statement (.slack a0 a1) := of_def _
theorem wakeBeacon (a0 : BitVec 5) : Statement (.wakeBeacon a0) := of_def _
theorem pushBegin (a0 : ReqId) (a1 : Bool) (a2 : Bool) (a3 : BitVec 32) (a4 : BitVec 32) : Statement (.pushBegin a0 a1 a2 a3 a4) := of_def _
theorem pushData (a0 : BitVec 32) (a1 : Bytes) (a2 : Bool) : Statement (.pushData a0 a1 a2) := of_def _
theorem pushEnd (a0 : ReqId) : Statement (.pushEnd a0) := of_def _
theorem commitAt (a0 : ReqId) (a1 : Bool) (a2 : BitVec 32) : Statement (.commitAt a0 a1 a2) := of_def _
theorem keyFwd (a0 : ReqId) (a1 : BitVec 8) (a2 : Bytes) : Statement (.keyFwd a0 a1 a2) := of_def _
theorem sessionSet (a0 : Bytes) (a1 : Bytes) : Statement (.sessionSet a0 a1) := of_def _
theorem harvestTable (a0 : Bytes) (a1 : Bytes) : Statement (.harvestTable a0 a1) := of_def _
theorem schedule (a0 : BitVec 32) (a1 : List Stamped) : Statement (.schedule a0 a1) := of_def _
theorem resultMessage (a0 : BitVec 5) (a1 : List TenderResult) : Statement (.resultMessage a0 a1) := of_def _
theorem eventMessage (a0 : BitVec 5) (a1 : BitVec 8) (a2 : BitVec 32) (a3 : BitVec 48) (a4 : Bytes) : Statement (.eventMessage a0 a1 a2 a3 a4) := of_def _
theorem tamperMessage : Statement (.tamperMessage) := of_def _
theorem remoteRead (a0 : BitVec 5) : Statement (.remoteRead a0) := of_def _
theorem remoteWrite (a0 : BitVec 5) : Statement (.remoteWrite a0) := of_def _
theorem manifestOpen : Statement (.manifestOpen) := of_def _
theorem manifestBlockCrc (a0 : BitVec 32) : Statement (.manifestBlockCrc a0) := of_def _
theorem manifestVerify : Statement (.manifestVerify) := of_def _
theorem manifestVerifyDone : Statement (.manifestVerifyDone) := of_def _
theorem manifestCommit : Statement (.manifestCommit) := of_def _
theorem manifestWriteDone (a0 : Bool) : Statement (.manifestWriteDone a0) := of_def _
theorem manifestAbort : Statement (.manifestAbort) := of_def _
theorem claim : Statement (.claim) := of_def _
theorem complete (a0 : BitVec 32) : Statement (.complete a0) := of_def _
theorem pendingClear (a0 : Bool) (a1 : BitVec 32) : Statement (.pendingClear a0 a1) := of_def _
theorem enableHWrite (a0 : Bool) (a1 : BitVec 32) : Statement (.enableHWrite a0 a1) := of_def _
theorem pairEnableWrite (a0 : Bool) (a1 : BitVec 64) : Statement (.pairEnableWrite a0 a1) := of_def _
theorem trigger (a0 : BitVec 32) : Statement (.trigger a0) := of_def _
theorem powerOnReset : Statement (.powerOnReset) := of_def _
theorem brownOut (a0 : BitVec 8) : Statement (.brownOut a0) := of_def _
theorem supplyWarning (a0 : BitVec 3) (a1 : Bool) : Statement (.supplyWarning a0 a1) := of_def _
theorem vioBrownOut (a0 : BitVec 2) : Statement (.vioBrownOut a0) := of_def _
theorem watchdogExpiry : Statement (.watchdogExpiry) := of_def _
theorem lockstepFault (a0 : Bool) : Statement (.lockstepFault a0) := of_def _
theorem pairRejoin (a0 : Bool) : Statement (.pairRejoin a0) := of_def _
theorem mainStart (a0 : TideEnv) (a1 : BitVec 4) (a2 : BitVec 6) : Statement (.mainStart a0 a1 a2) := of_def _
theorem crystalChangeover : Statement (.crystalChangeover) := of_def _
theorem fwOpen : Statement (.fwOpen) := of_def _
theorem fwBlockCrc (a0 : BitVec 32) : Statement (.fwBlockCrc a0) := of_def _
theorem fwVerify : Statement (.fwVerify) := of_def _
theorem fwVerifyDone : Statement (.fwVerifyDone) := of_def _
theorem fwActivate : Statement (.fwActivate) := of_def _
theorem fwDistributionDone (a0 : Bool) : Statement (.fwDistributionDone a0) := of_def _
theorem fwAbort : Statement (.fwAbort) := of_def _
theorem fwHandoverDone : Statement (.fwHandoverDone) := of_def _
theorem fwTrialEnd : Statement (.fwTrialEnd) := of_def _
theorem checkpoint : Statement (.checkpoint) := of_def _
theorem checkpointDue : Statement (.checkpointDue) := of_def _
theorem logbookSelWrite (a0 : BitVec 32) : Statement (.logbookSelWrite a0) := of_def _
theorem pairClaim (a0 : Bool) : Statement (.pairClaim a0) := of_def _
theorem pairComplete (a0 : Bool) (a1 : BitVec 6) : Statement (.pairComplete a0 a1) := of_def _
theorem windowWrite (a0 : BitVec 20) (a1 : BitVec 16) : Statement (.windowWrite a0 a1) := of_def _
theorem canReceiveError (a0 : BitVec 3) (a1 : Bool) : Statement (.canReceiveError a0 a1) := of_def _
theorem vioBankRelease (a0 : BitVec 2) : Statement (.vioBankRelease a0) := of_def _
theorem coreClockStop : Statement (.coreClockStop) := of_def _
theorem sessionIdBaseRetry : Statement (.sessionIdBaseRetry) := of_def _
theorem tenderBankWriteDone (a0 : Bool) : Statement (.tenderBankWriteDone a0) := of_def _

end Sys2Proof.Laws.Operands
end

