-- ==== Sys2Proof/Laws/Ready.lean ====
section
/-! SUPPORT. The host's register writes that are served, one lemma for each kind of access, and what stands in the
state that reaches the register. -/

namespace Sys2Proof.Machine

/-- A far write of a served host: the register's effect, on the state that reaches it. -/
theorem State.farWrite_ready {s : State} (h : s.hostReady = true) (a : Nat) (eff : State → State) :
    s.farWrite a eff = eff (s.reached a) := by
  simp [State.hostReady] at h
  rw [State.farWrite_served _ _ _ h.1 (.inl h.2)]; rfl

/-- A far read of a served host: the register's effect, and its value captured for the half reads. -/
theorem State.farRead_ready {s : State} (h : s.hostReady = true) (a : Nat) (get : State → BitVec 32 × State) :
    s.farRead a get = (get (s.beginFar none)).2.upPort fun p => { p with
      far := some (some (loHalf (get (s.beginFar none)).1))
      capture := some (BitVec.ofNat 21 a, hiHalf (get (s.beginFar none)).1) } := by
  simp [State.hostReady] at h
  have : (s.beginFar none).mainUp = s.mainUp := rfl
  simp [State.farRead, h, this]

/-- An access to a window of a served host. -/
theorem State.windowAccess_ready {s : State} (h : s.hostReady = true) (a : Nat) (eff : State → State) :
    s.windowAccess a eff = eff (s.beginFar none) := by
  simp [State.hostReady] at h
  have : (s.beginFar none).mainUp = s.mainUp := rfl
  simp [State.windowAccess, h, this]

/-- A BERTH register of a device that is no tender (R62). -/
theorem State.berthWrite_ready {s : State} (h : s.hostReady = true) (ht : s.cfg.role ≠ .tender) (a : Nat)
    (eff : State → State) : s.berthWrite a eff = eff (s.reached a) := by
  have h2 : (s.reached a).isTender = false := by simpa [State.isTender, State.reached] using ht
  simp [State.berthWrite, State.farWrite_ready h, h2]

/-- A REGISTER register of a device that is no tender. -/
theorem State.regWrite_ready {s : State} (h : s.hostReady = true) (ht : s.cfg.role ≠ .tender) (a : Nat)
    (eff : State → State) : s.regWrite a eff = eff (s.reached a) := by
  have h2 : (s.reached a).isTender = false := by simpa [State.isTender, State.reached] using ht
  simp [State.regWrite, State.farWrite_ready h, h2]

@[simp] theorem State.reached_pending (s : State) (a : Nat) : (s.reached a).pending = s.pending := rfl
@[simp] theorem State.reached_now (s : State) (a : Nat) : (s.reached a).now = s.now := rfl
@[simp] theorem State.reached_intc (s : State) (a : Nat) : (s.reached a).intc = s.intc := rfl
@[simp] theorem State.reached_tide (s : State) (a : Nat) : (s.reached a).tide = s.tide := rfl
@[simp] theorem State.reached_bt (s : State) (a : Nat) : (s.reached a).bt = s.bt := rfl
@[simp] theorem State.reached_ver (s : State) (a : Nat) : (s.reached a).ver = s.ver := rfl
@[simp] theorem State.reached_cfg (s : State) (a : Nat) : (s.reached a).cfg = s.cfg := rfl
@[simp] theorem State.reached_mf (s : State) (a : Nat) : (s.reached a).mf = s.mf := rfl
@[simp] theorem State.reached_lf (s : State) (a : Nat) : (s.reached a).lf = s.lf := rfl
@[simp] theorem State.reached_uwb (s : State) (a : Nat) : (s.reached a).uwb = s.uwb := rfl
@[simp] theorem State.reached_nb (s : State) (a : Nat) : (s.reached a).nb = s.nb := rfl
@[simp] theorem State.reached_reg (s : State) (a : Nat) : (s.reached a).reg = s.reg := rfl
@[simp] theorem State.reached_lk (s : State) (a : Nat) : (s.reached a).lk = s.lk := rfl
@[simp] theorem State.reached_keys (s : State) (a : Nat) : (s.reached a).keys = s.keys := rfl
@[simp] theorem State.reached_cry (s : State) (a : Nat) : (s.reached a).cry = s.cry := rfl
@[simp] theorem State.reached_trng (s : State) (a : Nat) : (s.reached a).trng = s.trng := rfl
@[simp] theorem State.reached_can (s : State) (a : Nat) : (s.reached a).can = s.can := rfl
@[simp] theorem State.reached_pier (s : State) (a : Nat) : (s.reached a).pier = s.pier := rfl
@[simp] theorem State.reached_tend (s : State) (a : Nat) : (s.reached a).tend = s.tend := rfl
@[simp] theorem State.reached_sys (s : State) (a : Nat) : (s.reached a).sys = s.sys := rfl
@[simp] theorem State.reached_fw (s : State) (a : Nat) : (s.reached a).fw = s.fw := rfl
@[simp] theorem State.reached_log (s : State) (a : Nat) : (s.reached a).log = s.log := rfl
@[simp] theorem State.reached_pins (s : State) (a : Nat) : (s.reached a).pins = s.pins := rfl
@[simp] theorem State.reached_ident (s : State) (a : Nat) : (s.reached a).ident = s.ident := rfl
@[simp] theorem State.reached_berth (s : State) (a n : Nat) : (s.reached a).berth n = s.berth n := rfl
@[simp] theorem State.reached_mainUp (s : State) (a : Nat) : (s.reached a).mainUp = s.mainUp := rfl

end Sys2Proof.Machine
end

