-- ==== Sys2Proof/Tests/Slice0.lean ====
section
/-! SUPPORT. The model's own tests: operands that are not well formed, values that the spec or a public standard
works out, and, for each statement with hypotheses, states and operands that meet the hypotheses of its clauses. -/

namespace Sys2Proof.Tests

open Sys2Proof Sys2Proof.Machine

set_option Elab.async false

/-! Operands. -/

/-- There is no anchor 33 (R80). -/
theorem test_wf_anchor : (Instr.bleAdvertisement 0xFFFF#16 0xA1#8 0#32 0#64 [(33#6, 0)]).faults = [.anchor] := by decide

/-- Three bytes of field strength for each antenna (R293), 64 taps of a receive chain (R262), and the image rejection
of each of the four BLE chains after their calibration. -/
theorem test_wf_length : (Instr.fieldFrame 0#8 0#16 0#8 2#8 [1#8, 2#8, 3#8] 0#32).faults = [.length] ∧
    (Instr.uwbPoll (some { cfo := 0, chains := [
      { chain := 0#2, stamp := 0#40, fp := 0, total := 0, phase := 0, exp := 0#8, pos := 0#16, taps := [] }] })).faults = [.length] ∧
    (Instr.synthCalDone 0#2 true 0#16 []).faults = [.length] := by decide

/-- There are 24 multi-function pins (R147), 32 BLE links on each of 33 anchors (R80, R285), and 3 pin banks (R686). -/
theorem test_wf_index : (Instr.startButtonPress 24#5).faults = [.index] ∧ (Instr.hello 1056 0#64 0#64 0#8 0#8 0#16).faults = [.index] ∧
    (Instr.vioBankRelease 3#2).faults = [.index] := by decide

/-- A register write commits at the high half, which has the odd half-word address (R655); the bulk window
begins at half word 0x80000. -/
theorem test_wf_address : (Instr.registerWrite 0x10#20 0#16).faults = [.address] ∧ (Instr.lowHalfWrite 0x11#20 0#16).faults = [.address] ∧
    (Instr.bulkWindowWrite 0x7FFFF#20 0#16).faults = [.address] := by decide

/-- A tide lasts 1 to 1,024 ms. -/
theorem test_wf_range : (Instr.tideMessage 0#32 0#48 0#11 1#3 2#2).faults = [.range] := by decide

/-- What the outside can bring is well formed. -/
theorem test_wf_good : (Instr.bleAdvertisement 0xFFFF#16 0xA1#8 0#32 0#64 [(32#6, 0)]).wf = true ∧ (Instr.startButtonPress 23#5).wf = true ∧
    (Instr.registerWrite 0x11#20 0#16).wf = true ∧ (Instr.bulkWindowWrite 0x80000#20 0#16).wf = true := by decide

/-! Values worked out by the spec and by the standards it names. -/

/-- The worked example of the address map chapter: CAN[3].MOBJ[40].CTRL lies at 0x23A88. -/
theorem test_mobj_address : mobjCtrl 3 40 = 0x23A88 := by decide

/-- The worked DS round of the ranging chapter: its four times in ns, 63.8976 units each, give 2,400 mm (R255, R256). -/
theorem test_ds_distance :
    distOf (dsTof (295890178 * 638976 / 10000000) (443801783 * 638976 / 10000000) (443789322 * 638976 / 10000000)
      (295871800 * 638976 / 10000000)) = 2400 := by decide +kernel

/-- The worked sounding of the BLE chapter: chains of 2,396, 2,399, 2,401 and 2,405 mm have the median 2,400 (R302). -/
theorem test_cs_median : median [2396, 2399, 2401, 2405] = 2400 := by decide +kernel

/-- The worked ticket of the lock keeper chapter: 45 s from 0x312C400000, the end excluded (R427). -/
theorem test_ticket_window :
    let k (t : Nat) : LockKeeper := { LockKeeper.reset with
      shadow := t, record := { LkRecord.reset with lock := { LockCfg.reset with ticketS := 45 } } }
    let x : Ticket := { Ticket.reset with issued := 0x312C400000 }
    (k 0x312C400000).windowOpen x = true ∧ (k 0x31D7E94FFF).windowOpen x = true ∧ (k 0x31D7E95000).windowOpen x = false := by
  decide +kernel

/-- Commit tides count modulo 2^32 (R98): the earliest tide after 0xFFFFFFFF is 1. -/
theorem test_commit_tide_wraps : commitTideOf 0#32 0xFFFFFFFF#32 = (1#32, false) ∧ commitTideOf 0#32 0xFFFFFFFE#32 = (0#32, false) ∧
    commitTideOf 0xFFFFFFFF#32 0xFFFFFFFE#32 = (0#32, true) := by decide

/-- The check value of CRC-32C: the digits 1 to 9 give 0xE3069283. -/
theorem test_crc32c : crc32c [0x31#8, 0x32#8, 0x33#8, 0x34#8, 0x35#8, 0x36#8, 0x37#8, 0x38#8, 0x39#8] = 0xE3069283#32 := by
  decide +kernel

/-- FIPS 202: SHAKE256 of no message begins with 46 B9 DD 2B. -/
theorem test_shake256 : shake256 [] 4 = [0x46#8, 0xB9#8, 0xDD#8, 0x2B#8] := by decide +kernel

/-- FIPS 197, appendix C.1: AES-128. -/
theorem test_aes128 :
    aesEnc (le 16 0x0F0E0D0C0B0A09080706050403020100) (le 16 0xFFEEDDCCBBAA99887766554433221100) =
      be 16 0x69C4E0D86A7B0430D8CDB78070B4C55A := by decide +kernel

/-! Memories. -/

/-- Every memory of the device lists nothing after reset, and so has the canonical form. -/
theorem test_reset_memories :
    ([State.reset.port.staging, State.reset.reg.phys, State.reset.reg.window, State.reset.reg.stage, State.reset.ver.ovrBuf,
      State.reset.keys.buf, State.reset.cry.aesKey, State.reset.cry.aesIn, State.reset.cry.challenge, State.reset.trng.pers,
      State.reset.nfc.image].all Mem.wf) = true := by decide +kernel

/-- A byte of 0 is not listed: writing it back restores the empty memory. -/
theorem test_memory_forgets_zero : Mem.write (Mem.write [] 5 7#8) 5 0#8 = [] := by decide

/-! States. -/

/-- An anchor with every sink, that ranges. -/
def site : AnchorCfg := { AnchorCfg.reset with
  present := true, lfEnable := 0xFFFF#16, rng := 0xF#4, aoa := 0xF#4, cir := 0xF#4, sink4 := true, sink5 := true, uwbFlags := 1#8 }

/-- Pins of each function a test needs: 0 a latch output, 1 a handle, 2 a start button. -/
def pins : List PinCfg :=
  [{ func := 1#8, flags := 0#8, param := 100#16 }, { func := 2#8, flags := 0#8, param := 0#16 },
    { func := 3#8, flags := 0#8, param := 0#16 }]

/-- A rule of trigger 1 that asks for a release ticket. -/
def startRule : Rule := { Rule.reset with id := 4#8, action := 2#8 }

/-- A key: of one byte, so that the kernel evaluates a MAC under it fast. -/
def key : Bytes := [0#8]

/-- The session set of identifier 0. -/
def sess : SessSlot := { k := 0, sts := key, mac := key, link := key, ctr := key, attr := sessAttr 0#8 }

/-- A standalone device in FLEET and SERVICE that runs, with four berths, one anchor and one antenna. -/
def car : State := { State.reset with
  now := 64000000000
  port := { Port.reset with started := true, main := .running }
  tide := { Tide.reset with number := 100#32, power := .service, life := .fleet, startAt := 63999360000, lengthMs := 64 }
  cfg := { Settings.reset with
    loaded := true, role := .standalone, count := 4, anchors := [site], rules := [startRule], pins := pins
    chart := { Chart.reset with antennas := [AntCfg.reset], pollMask := 1#16 } }
  trng := { Trng.reset with state := .ready, running := true, inst := true, startup := false }
  sys := { Sys.reset with pairAUp := true, pairBUp := true }
  lk := { LockKeeper.reset with
    alive := true, state := .locked, shadow := 64000000000
    record := { LkRecord.reset with can := { CanCfg.reset with owner := 2#8 } } }
  keys := { Keys.reset with slots := [sess] }
  nb := { Nb.reset with blePll := .locked }
  uwb := { Uwb.reset with pll := .locked } }

/-- The same device in another power state. -/
def carIn (p : Power) : State := car.upTide fun t => { t with power := p }

/-- The same device in another stage of its life. -/
def carOf (l : LifeCycle) : State := car.upTide fun t => { t with life := l }

/-- `s` with the berth `b` at the number `n`. -/
def seat (s : State) (n : Nat) (b : Berth) : State := s.modBerth n fun _ => b

/-- A phone's berth. -/
def phone (st : BerthState) : Berth := { Berth.reset with
  id := { BerthId.reset with st := st, cred := 7#64 }
  se := { BerthSess.reset with
    challengeSent := true, encrypted := true, caps := 0x1F#8, sid := some 0, authKey := key, memberKey := key } }

/-- A fob's berth. -/
def fob (st : BerthState) : Berth := { Berth.reset with
  id := { BerthId.reset with st := st, kind := 1#3, cred := 8#64 }
  se := { BerthSess.reset with challengeSent := true, sid := some 0, authKey := key } }

/-- The device with a phone at berth 0 and its link. -/
def linked (st : BerthState) : State :=
  (seat car 0 (phone st)).upNb fun b => { b with links := [{ Link.reset with berth := some 0 }] }

/-- The device with one card in the field, which berth 0 holds, in the state `st`. -/
def carded (st : BerthState) : State :=
  (seat car 0 { Berth.reset with
    id := { BerthId.reset with st := st, kind := 3#3, cred := 7#64 }
    se := { BerthSess.reset with ra := [1#8], authKey := key } }).upNfc fun c =>
      { c with cards := [{ Card.reset with uid := [1#8, 2#8, 3#8, 4#8], cid := 1#4, access := true, berth := some 0 }] }

/-- The device with the round `r` alone in its schedule. -/
def ranging (r : Round) : State := car.upUwb fun u => { u with schedule := [r] }

/-- A round of berth 0 with the own anchor, in the phase `p`. -/
def round (p : RoundPhase) : Round := { Round.reset with phase := p, slots := [0], stsReady := true }

/-- The device with a field at its tag port. -/
def tagged (t : TagState) : State := car.upNfc fun c => { c with tagField := true, tagState := t }

/-- A harbourmaster with its port 0 in the link state `st`. -/
def host (st : LinkState) : State :=
  ((car.upCfg fun c => { c with role := .harbourmaster, linkMask := 0xFFFFFFFF#32 }).upSys fun y =>
    { y with verdictsFrom := true }).modPier 0 fun l => { l with st := st, admission := .admitted }

/-- A tender with its port 0 active and bound. -/
def mate : State :=
  ((car.upCfg fun c => { c with role := .tender, anchor := 1 }).upPier fun p => { p with upstream := some 0#5 }).modPier 0
    fun l => { l with st := .active, bound := true, nt := [1#8] }

/-- An enabled transmit object and an enabled receive object of a running controller 0. -/
def bused : State :=
  ((car.modCtl 0 fun c => { c with owner := 1#8, state := 1#2 }).modObj 0 0 fun o =>
    { o with cfgForce := 3#32, st := .idle }).modObj 0 1 fun o => { o with cfgForce := 0x102#32, st := .idle }

/-- A device whose register lists a member at its first slot: page 2,693 holds credential 9 at offset 400. -/
def listed : State :=
  (car.upReg fun r => { r with
    health := 1#2, mbBusy := true, mbCred := 9#64, ramMap := [(2693, 0)], verified := [2693]
    phys := [(400, 9#8), (410, 1#8)] }).upKeys fun k => { k with cred := 9#64, fr := { Root.reset with valid := true } }

/-- A device in PROVISION that is ready for FLEET. -/
def readied : State :=
  (((((carOf .provision).upKeys fun k => { k with
    vr := { Root.reset with valid := true }, fr := { Root.reset with valid := true }, xmss := 2#2
    pubManifest := [1#8], pubRegister := [1#8], pubOverride := [1#8], fleetId := 1#64 }).upLk fun k =>
      { k with paired := true })).upCfg fun c => { c with lifeMask := 4#8 })

/-- A device with a field at its tag port and one credential in its harvest table. -/
def keyed : State := (tagged .field).upNfc fun c => { c with
  image := [(6, 1#8), (0x1000, 7#8), (0x1018, 1#8), (0x1E05, 4#8)] }

/-! Witnesses: for each clause of a statement, a state and operands that meet its hypotheses. -/

/-- Witnesses for `Obligations.StepRunsFront`. -/
theorem test_meets_StepRunsFront :
    ∃ (c : Instr) (s : State) (rest : List Instr), s.pending = c :: rest :=
  ⟨.claim, { car with pending := [.claim, .fwOpen] }, [.fwOpen], by decide +kernel⟩

/-- Witnesses for `Obligations.IdleStepTicks`. -/
theorem test_meets_IdleStepTicks :
    ∃ (s : State), s.pending = [] ∧ s.cry.jobs = [] ∧ s.cry.kjobs = [] ∧ s.port.bulkQueue = [] :=
  ⟨car, by decide +kernel⟩

/-- Witnesses for `Obligations.StepKeepsSound`. -/
theorem test_meets_StepKeepsSound :
    ∃ (s : State) (t : State), s.sound = true ∧ step s = .next t :=
  ⟨car, _, by decide +kernel, rfl⟩

/-- Witnesses for `Obligations.ClaimTakesHighest`. -/
theorem test_meets_ClaimTakesHighest :
    (∃ (i : Intc) (t : Nat) (n : Nat), i.top t = some n) ∧
    (∃ (i : Intc) (t : Nat), i.top t = none) :=
  ⟨⟨{ Intc.reset with pending := 0x8000000000000001#64, asgH := 0x8000000000000001#64 }, 0, 63, by decide +kernel⟩,
    ⟨Intc.reset, 2, by decide +kernel⟩⟩

/-- Witnesses for `Obligations.EventIsDelivered`. -/
theorem test_meets_EventIsDelivered :
    (∃ (n : Nat) (t : _) (m : _), n < 64 ∧ t < 3 ∧ m ≠ n) ∧
    (∃ (i : Intc) (n : Nat) (t : _), n < 64 ∧ i.free n = false ∧ t < 3) ∧
    (∃ (i : Intc) (n : Nat) (t : _) (k : _), n < 64 ∧ i.free n = true ∧ t < 3 ∧ ((i.event n).assigned t).getLsbD n = true ∧
      k < (t + 2 - i.last n) % 3) ∧
    (∃ (i : Intc) (n : Nat), n < 64 ∧ i.free n = true ∧ (∃ t, t < 3 ∧ (i.enables t).getLsbD n = true)) :=
  ⟨⟨63, 2, 0, by decide +kernel⟩,
    ⟨{ Intc.reset with enA := 0x8000000000000000#64, asgH := 1#64 }, 0, 2, by decide +kernel⟩,
    ⟨{ Intc.reset with enA := 0x8000000000000000#64, asgH := 1#64 }, 63, 1, 0, by decide +kernel⟩,
    ⟨{ Intc.reset with enA := 0x8000000000000000#64, asgH := 1#64 }, 63, by decide +kernel⟩⟩

/-- Witnesses for `Obligations.HostClaimAndComplete`. -/
theorem test_meets_HostClaimAndComplete :
    (∃ (s : State) (n : Nat), s.portUp = true ∧ s.intc.top 0 = some n) ∧
    (∃ (s : State), s.portUp = true ∧ s.intc.top 0 = none) ∧
    (∃ (s : State) (v : BitVec 32), s.portUp = true ∧ s.intc.actH.getLsbD (fieldN v 5 0) = true) ∧
    (∃ (s : State) (v : BitVec 32), s.portUp = true ∧ s.intc.actH.getLsbD (fieldN v 5 0) = false) :=
  ⟨⟨(car.upIntc fun i => { i with pending := 0x8000000000000000#64, asgH := 0x8000000000000000#64 }), 63,
      by decide +kernel⟩,
    ⟨car, by decide +kernel⟩,
    ⟨(car.upIntc fun i => { i with actH := 0x8000000000000000#64 }), 63#32, by decide +kernel⟩,
    ⟨car, 63#32, by decide +kernel⟩⟩

/-- Witnesses for `Obligations.HostInterruptWrites`. -/
theorem test_meets_HostInterruptWrites :
    (∃ (s : State) (hi : Bool) (v : BitVec 32) (n : _), s.portUp = true ∧ (∀ n, n < 32 → v.getLsbD n = true →
      s.intc.asgA.getLsbD (if hi then n + 32 else n) = false ∧ s.intc.asgB.getLsbD (if hi then n + 32 else n) = false) ∧ n <
      32) ∧
    (∃ (s : State) (v : BitVec 32), s.portUp = true ∧ v.getLsbD 8 = true ∧ (s.tide.life = .manufacture ∨ s.tide.life =
      .provision)) ∧
    (∃ (s : State) (v : BitVec 32), s.portUp = true ∧ v.getLsbD 8 = true ∧ (s.tide.life = .fleet ∨ s.tide.life = .returned)) ∧
    (∃ (s : State) (v : BitVec 32) (n : _), s.portUp = true ∧ n < 32 ∧ v.getLsbD n = true) :=
  ⟨⟨car, true, 0xFFFFFFFF#32, 31, by decide +kernel⟩,
    ⟨(carOf .provision), 0x13F#32, by decide +kernel⟩,
    ⟨car, 0x100#32, by decide +kernel⟩,
    ⟨car, 0x80000000#32, 31, by decide +kernel⟩⟩

/-- Witnesses for `Obligations.PairInterruptCommands`. -/
theorem test_meets_PairInterruptCommands :
    (∃ (s : State) (b : Bool) (n : Nat), s.pairUp b = true ∧ s.intc.top (pairTarget b) = some n) ∧
    (∃ (s : State) (b : Bool) (n : BitVec 6), s.pairUp b = true ∧ (s.intc.active (pairTarget b)).getLsbD n.toNat = true) ∧
    (∃ (s : State) (b : Bool), s.pairUp b = true) :=
  ⟨⟨(car.upIntc fun i => { i with pending := 1#64, asgB := 1#64 }), true, 0, by decide +kernel⟩,
    ⟨(car.upIntc fun i => { i with actA := 0x8000000000000000#64 }), false, 63#6, by decide +kernel⟩,
    ⟨car, true, by decide +kernel⟩⟩

/-- Witnesses for `Obligations.PortEvents`. -/
theorem test_meets_PortEvents :
    (∃ (s : State) (d : Option (BitVec 16)), s.port.far = some d ∧ s.nfc.hostWaiting = false) ∧
    (∃ (s : State), s.portUp = true) ∧
    (∃ (s : State), s.port.started = false) ∧
    (∃ (s : State), s.tide.power.asleep = true ∧ s.port.coreClk = true ∧ s.port.lastFar + 64000 ≤ s.now) ∧
    (∃ (s : State) (ha : BitVec 20), s.portUp = true ∧ isWindow (byteOf ha) = false ∧ s.isReg ha = false ∧ 0x1000 ≤ byteOf
      ha) ∧
    (∃ (s : State) (ha : BitVec 20), s.portUp = true ∧ isWindow (byteOf ha) = false ∧ s.isReg ha = false ∧ 0x1000 ≤ byteOf
      ha) :=
  ⟨⟨(car.upPort fun p => { p with far := some (some 5#16) }), some 5#16, by decide +kernel⟩,
    ⟨car, by decide +kernel⟩,
    ⟨State.reset, by decide +kernel⟩,
    ⟨((carIn .deep).upPort fun p => { p with coreClk := true, lastFar := 63999936000 }), by decide +kernel⟩,
    ⟨car, 0x8FF#20, by decide +kernel⟩,
    ⟨car, 0x7FFFF#20, by decide +kernel⟩⟩

/-- Witnesses for `Obligations.PortHalves`. -/
theorem test_meets_PortHalves :
    (∃ (s : State), s.portUp = true ∧ s.port.latch = none) ∧
    (∃ (s : State) (old : BitVec 16), s.portUp = true ∧ s.port.latch = some (0x28#21, old)) ∧
    (∃ (s : State) (lo : BitVec 16), s.portUp = true ∧ s.port.latch = some (0x20#21, lo)) ∧
    (∃ (s : State), s.portUp = true) ∧
    (∃ (s : State) (h : BitVec 16), s.portUp = true ∧ s.port.capture = some (0x20#21, h)) :=
  ⟨⟨car, by decide +kernel⟩,
    ⟨(car.upPort fun p => { p with latch := some (0x28#21, 7#16) }), 7#16, by decide +kernel⟩,
    ⟨(car.upPort fun p => { p with latch := some (0x20#21, 7#16) }), 7#16, by decide +kernel⟩,
    ⟨car, by decide +kernel⟩,
    ⟨(car.upPort fun p => { p with capture := some (0x20#21, 7#16) }), 7#16, by decide +kernel⟩⟩

/-- Witnesses for `Obligations.PortWindowsAndCodes`. -/
theorem test_meets_PortWindowsAndCodes :
    (∃ (s : State) (hi : BitVec 16), s.hostReady = true ∧ undefinedCode 0x70000 (s.commitValue 0x70000 hi) = true) ∧
    (∃ (s : State) (ha : BitVec 20) (n : Nat), s.portUp = true ∧ s.bulkLen = some n ∧ 0x80000 ≤ ha.toNat ∧ 2 * ha.toNat -
      0x100000 < n ∧ s.port.bulkQueue.length < 64) ∧
    (∃ (s : State) (ha : BitVec 20), s.portUp = true ∧ s.bulkLen = none ∧ 0x80000 ≤ ha.toNat) ∧
    (∃ (s : State) (ha : BitVec 20) (n : Nat), s.portUp = true ∧ s.bulkLen = some n ∧ 0x80000 ≤ ha.toNat ∧ n ≤ 2 * ha.toNat
      - 0x100000) ∧
    (∃ (s : State) (o : Nat), s.hostReady = true ∧ o < 24) :=
  ⟨⟨car, 0#16, by decide +kernel⟩,
    ⟨((car.upMf fun m => { m with state := .loading, len := 5000 }).upPort fun p => { p with bulk := .manifest }),
      0x809C3#20, 5000, by decide +kernel⟩,
    ⟨car, 0xFFFFF#20, by decide +kernel⟩,
    ⟨((car.upMf fun m => { m with state := .loading, len := 5000 }).upPort fun p => { p with bulk := .manifest }),
      0x809C4#20, 5000, by decide +kernel⟩,
    ⟨car, 23, by decide +kernel⟩⟩

/-- Witnesses for `Obligations.OnlyBoundariesChangeTide`. -/
theorem test_meets_OnlyBoundariesChangeTide :
    ∃ (c : Instr) (s : State) (t : State), Sys2Proof.Machine.exec c s = .next t ∧ (∀ env, c ≠ .tideBoundary env) ∧ (∀ env, c
      ≠ .wakeBoundary env) ∧ (∀ env, c ≠ .pierMark env) ∧ (∀ n st l p li, c ≠ .tideMessage n st l p li) ∧ (∀ env kat cells,
      c ≠ .mainStart env kat cells) ∧ c ≠ .powerOnReset :=
  ⟨.pairingTimeout, car, car, rfl, nofun, nofun, nofun, nofun, nofun, nofun⟩

/-- Witnesses for `Obligations.TideBoundary`. -/
theorem test_meets_TideBoundary :
    ∃ (s : State), s.boundaryDue = true :=
  ⟨(car.upTide fun t => { t with startAt := 63995904000 }), by decide +kernel⟩

/-- Witnesses for `Obligations.WakeBoundary`. -/
theorem test_meets_WakeBoundary :
    (∃ (s : State) (at_ : Nat) (b : BitVec 4), s.tide.firstWake = some (at_, b) ∧ s.mainUp = true ∧ s.mirrored = false ∧
      s.cfg.role ≠ .tender ∧ s.wakeTick at_ ≤ s.now ∧ s.tide.power.low = true) ∧
    (∃ (s : State), (s.tide.power = .service ∨ s.tide.power = .drive)) :=
  ⟨⟨((carIn .standby).upTide fun t => { t with firstWake := some (63999359999, 4#4), startAt := 63999359999 }),
      63999359999, 4#4, by decide +kernel⟩,
    ⟨(carIn .drive), by decide +kernel⟩⟩

/-- Witnesses for `Obligations.PowerRequests`. -/
theorem test_meets_PowerRequests :
    (∃ (s : State), s.mainUp = true ∧ s.tide.power = .watch ∧ s.liveBerths = [] ∧ s.tide.dwellFrom + sec 20 ≤ s.now) ∧
    (∃ (s : State), s.mainUp = true ∧ s.tide.power = .service ∧ s.mooredBerths = [] ∧ s.tide.dwellFrom + sec 10 ≤ s.now) ∧
    (∃ (s : State), (s.mainUp && s.watchOver) = false) ∧
    (∃ (s : State) (v : BitVec 32), s.hostReady = true ∧ s.cfg.role ≠ .tender ∧ s.tide.power = .drive ∧ (fieldN v 2 0 < 3 ∨
      (fieldN v 2 0 = 3 ∧ s.tide.life ≠ .fleet))) ∧
    (∃ (s : State) (v : BitVec 32), s.hostReady = true ∧ s.cfg.role ≠ .tender ∧ s.tide.power = .drive ∧ (3 < fieldN v 2 0 ∨
      (fieldN v 2 0 = 3 ∧ s.tide.life = .fleet))) ∧
    (∃ (s : State), s.hostReady = true ∧ s.cfg.role = .tender) ∧
    (∃ (s : State) (v : BitVec 32), s.hostReady = true ∧ s.cfg.role ≠ .tender ∧ s.tide.power = .standby ∧ fieldN v 2 0 = 2 ∧
      s.boundaryDue = false ∧ s.wakeDue = false) ∧
    (∃ (s : State) (v : BitVec 32), s.hostReady = true ∧ s.cfg.role ≠ .tender ∧ s.tide.power = .standby ∧ fieldN v 2 0 = 2 ∧
      (s.boundaryDue = true ∨ s.wakeDue = true)) :=
  ⟨⟨((carIn .watch).upTide fun t => { t with dwellFrom := 62720000000 }), by decide +kernel⟩,
    ⟨(car.upTide fun t => { t with dwellFrom := 63360000000 }), by decide +kernel⟩,
    ⟨car, by decide +kernel⟩,
    ⟨(carIn .drive), 2#32, by decide +kernel⟩,
    ⟨(carIn .drive), 4#32, by decide +kernel⟩,
    ⟨(car.upCfg fun c => { c with role := .tender }), by decide +kernel⟩,
    ⟨(carIn .standby), 2#32, by decide +kernel⟩,
    ⟨((carIn .standby).upTide fun t => { t with startAt := 0 }), 2#32, by decide +kernel⟩⟩

/-- Witnesses for `Obligations.Resets`. -/
theorem test_meets_Resets :
    (∃ (s : State) (v : BitVec 32), s.portUp = true ∧ fieldN v 15 0 = 0x7256 ∧ v.getLsbD 16 = true) ∧
    (∃ (s : State) (v : BitVec 32), s.portUp = true ∧ (¬(fieldN v 15 0 = 0x7256 ∧ v.getLsbD 16 = true))) ∧
    (∃ (s : State) (v : BitVec 8), s.mainUp = true ∧ v &&& 0x1F#8 ≠ 0#8) ∧
    (∃ (s : State), s.mainUp = true ∧ s.watchdogOut = true) :=
  ⟨⟨car, 0x17256#32, by decide +kernel⟩,
    ⟨car, 0x7256#32, by decide +kernel⟩,
    ⟨car, 0x10#8, by decide +kernel⟩,
    ⟨car, by decide +kernel⟩⟩

/-- Witnesses for `Obligations.SupplyEvents`. -/
theorem test_meets_SupplyEvents :
    (∃ (s : State) (b : BitVec 3), b.toNat < 6 ∧ s.sys.low.getLsbD b.toNat = false) ∧
    (∃ (s : State) (b : BitVec 3), b.toNat < 6 ∧ s.sys.low.getLsbD b.toNat = true ∧ s.port.main ≠ .reset) ∧
    (∃ (s : State), s.sys.vioLow.getLsbD 1 = true) ∧
    (∃ (s : State) (b : BitVec 2), (b = 0#2 ∨ b = 2#2) ∧ s.sys.vioLow.getLsbD b.toNat = true) ∧
    (∃ (s : State), s.sys.crystal = false) :=
  ⟨⟨car, 5#3, by decide +kernel⟩,
    ⟨(car.upSys fun y => { y with low := 0x20#7 }), 5#3, by decide +kernel⟩,
    ⟨(car.upSys fun y => { y with vioLow := 2#3 }), by decide +kernel⟩,
    ⟨(car.upSys fun y => { y with vioLow := 4#3 }), 2#2, by decide +kernel⟩,
    ⟨car, by decide +kernel⟩⟩

/-- Witnesses for `Obligations.MirrorAndStart`. -/
theorem test_meets_MirrorAndStart :
    (∃ (s : State), s.mainUp = true ∧ s.mirrored = true) ∧
    (∃ (s : State), s.mainUp = true ∧ s.mirrored = true) ∧
    (∃ (s : State), s.mainUp = true ∧ s.mirrored = true ∧ s.tend.markAt ≠ none) ∧
    (∃ (s : State), s.port.main = .reset ∧ s.sys.low &&& 0x1F#7 = 0#7 ∧ s.sys.resetAt ≤ s.now) :=
  ⟨⟨mate, by decide +kernel⟩,
    ⟨mate, by decide +kernel⟩,
    ⟨(mate.upTend fun t => { t with markAt := some 63999360000, synced := true }), by decide +kernel⟩,
    ⟨{ State.reset with now := 64000 }, by decide +kernel⟩⟩

/-- Witnesses for `Obligations.ManifestImport`. -/
theorem test_meets_ManifestImport :
    (∃ (s : State), s.hostReady = true ∧ s.mf.state = .idle ∧ s.port.bulk = .none) ∧
    (∃ (s : State), s.hostReady = true ∧ (s.mf.state ≠ .idle ∨ s.port.bulk ≠ .none)) ∧
    (∃ (s : State), s.hostReady = true ∧ s.mf.state = .loading) ∧
    (∃ (s : State) (crc : BitVec 32), s.hostReady = true ∧ s.mf.state = .loading ∧ crc32c ((s.reached 0x400C).windowBlock
      s.mf.block.toNat s.mf.len) = crc) ∧
    (∃ (s : State) (crc : BitVec 32), s.hostReady = true ∧ s.mf.state = .loading ∧ crc32c ((s.reached 0x400C).windowBlock
      s.mf.block.toNat s.mf.len) ≠ crc) ∧
    (∃ (s : State) (b : _), s.hostReady = true ∧ s.mf.state = .loading ∧ b ≠ s.mf.block.toNat) ∧
    (∃ (s : State), s.hostReady = true ∧ s.mf.state = .loading ∧ missingBlock s.mf.len s.mf.good = none) ∧
    (∃ (s : State) (b : Nat), s.hostReady = true ∧ s.mf.state = .loading ∧ missingBlock s.mf.len s.mf.good = some b) :=
  ⟨⟨car, by decide +kernel⟩,
    ⟨(car.upMf fun m => { m with state := .loading, len := 5000 }), by decide +kernel⟩,
    ⟨(car.upMf fun m => { m with state := .loading, len := 5000 }), by decide +kernel⟩,
    ⟨((car.upMf fun m => { m with state := .loading })), (crc32c ((((car.upMf fun m =>
      { m with state := .loading })).reached 0x400C).windowBlock 0 0)), by decide +kernel, by decide +kernel, rfl⟩,
    ⟨(car.upMf fun m => { m with state := .loading }), 0xFFFFFFFF#32, by decide +kernel⟩,
    ⟨(car.upMf fun m => { m with state := .loading, len := 5000 }), 127, by decide +kernel⟩,
    ⟨(car.upMf fun m => { m with state := .loading, len := 5000, good := [1, 0] }), by decide +kernel⟩,
    ⟨(car.upMf fun m => { m with state := .loading, len := 5000, good := [0] }), 1, by decide +kernel⟩⟩

/-- Witnesses for `Obligations.ManifestCommit`. -/
theorem test_meets_ManifestCommit :
    (∃ (s : State), s.mainUp = true ∧ s.canVerify = true ∧ s.mf.state = .verifying) ∧
    (∃ (s : State), s.hostReady = true ∧ s.tide.life = .returned) ∧
    (∃ (s : State), s.hostReady = true ∧ s.mf.state = .verified ∧ s.cfg.role = .standalone ∧ s.tide.life ≠ .returned) ∧
    (∃ (s : State), s.mainUp = true ∧ s.mf.state = .writing ∧ s.mf.ownRead = false ∧ s.mf.pushAll = 0#32) ∧
    (∃ (s : State), s.mainUp = true ∧ s.mf.state = .writing ∧ s.mf.ownRead = false ∧ s.mf.pushSet = 0#32 ∧ s.mf.pushAll =
      0#32) ∧
    (∃ (s : State), s.hostReady = true ∧ (s.mf.state = .loading ∨ s.mf.state = .verified ∨ s.mf.state = .refused)) :=
  ⟨⟨(car.upMf fun m => { m with state := .verifying }), by decide +kernel⟩,
    ⟨(carOf .returned), by decide +kernel⟩,
    ⟨(car.upMf fun m => { m with state := .verified }), by decide +kernel⟩,
    ⟨(car.upMf fun m => { m with state := .writing, pushSet := 3#32 }), by decide +kernel⟩,
    ⟨(car.upMf fun m => { m with state := .writing }), by decide +kernel⟩,
    ⟨(car.upMf fun m => { m with state := .refused }), by decide +kernel⟩⟩

/-- Witnesses for `Obligations.FirmwareImport`. -/
theorem test_meets_FirmwareImport :
    (∃ (s : State), s.portUp = true ∧ s.fw.state = .idle ∧ s.port.bulk = .none) ∧
    (∃ (s : State) (crc : BitVec 32), s.portUp = true ∧ s.fw.state = .loading ∧ crc32c (Mem.load ((s.upPort fun p =>
      p.unlatch 0x4C).drainBulk).port.staging (4096 * ((s.fw.block.toNat) % 256)) (min 4096 (s.fw.len - 4096 *
      (s.fw.block.toNat)))) = crc) ∧
    (∃ (s : State) (crc : BitVec 32), s.portUp = true ∧ s.fw.state = .loading ∧ crc32c (Mem.load ((s.upPort fun p =>
      p.unlatch 0x4C).drainBulk).port.staging (4096 * ((s.fw.block.toNat) % 256)) (min 4096 (s.fw.len - 4096 *
      (s.fw.block.toNat)))) ≠ crc) ∧
    (∃ (s : State), s.portUp = true ∧ s.fw.state = .loading ∧ missingBlock s.fw.len s.fw.good = none ∧ s.port.bulk =
      .firmware) ∧
    (∃ (s : State), s.mainUp = true ∧ s.canVerify = true ∧ s.fw.state = .verifying) ∧
    (∃ (s : State), s.portUp = true ∧ s.fw.state = .verified ∧ s.cfg.role = .standalone) :=
  ⟨⟨car, by decide +kernel⟩,
    ⟨(car.upFw fun f => { f with state := .loading }), 0#32, by decide +kernel⟩,
    ⟨(car.upFw fun f => { f with state := .loading }), 5#32, by decide +kernel⟩,
    ⟨((car.upFw fun f => { f with state := .loading, len := 4097, good := [0, 1] }).upPort fun p =>
      { p with bulk := .firmware }), by decide +kernel⟩,
    ⟨(car.upFw fun f => { f with state := .verifying }), by decide +kernel⟩,
    ⟨(car.upFw fun f => { f with state := .verified }), by decide +kernel⟩⟩

/-- Witnesses for `Obligations.FirmwareActivation`. -/
theorem test_meets_FirmwareActivation :
    (∃ (s : State), s.mainUp = true ∧ s.fw.state = .distributing ∧ s.fw.ownRead = false ∧ s.fw.pushSet = 0#32 ∧ s.fw.pushAll
      = 0#32) ∧
    (∃ (s : State), s.mainUp = true ∧ s.fw.state = .distributing ∧ s.fw.ownRead = false ∧ s.fw.pushAll = 0#32) ∧
    (∃ (s : State), s.portUp = true ∧ s.fw.state = .verified ∧ s.fw.pushAll = 0#32 ∧ s.port.bulk ≠ .firmware) ∧
    (∃ (s : State), s.mainUp = true ∧ s.fw.state = .handover ∧ s.fw.hoA = true ∧ s.fw.hoB = true ∧ s.sys.pairAUp = true ∧
      s.sys.pairBUp = true) ∧
    (∃ (s : State), s.mainUp = true ∧ s.fw.state = .trial ∧ s.fw.left = 0#11) :=
  ⟨⟨(car.upFw fun f => { f with state := .distributing }), by decide +kernel⟩,
    ⟨(car.upFw fun f => { f with state := .distributing }), by decide +kernel⟩,
    ⟨(car.upFw fun f => { f with state := .verified }), by decide +kernel⟩,
    ⟨(car.upFw fun f => { f with state := .handover, hoA := true, hoB := true }), by decide +kernel⟩,
    ⟨(car.upFw fun f => { f with state := .trial }), by decide +kernel⟩⟩

/-- Witnesses for `Obligations.PairFaults`. -/
theorem test_meets_PairFaults :
    (∃ (s : State) (b : Bool), s.mainUp = true ∧ s.pairUp b = true ∧ s.sys.pairFault = [] ∧ s.fw.state ≠ .trial) ∧
    (∃ (s : State), s.mainUp = true ∧ s.sys.pairAUp = false ∧ s.fw.state ≠ .handover) ∧
    (∃ (s : State), s.mainUp = true ∧ s.sys.pairBUp = false ∧ s.fw.state ≠ .handover) :=
  ⟨⟨car, true, by decide +kernel⟩,
    ⟨(car.upSys fun y => { y with pairAUp := false }), by decide +kernel⟩,
    ⟨(car.upSys fun y => { y with pairBUp := false }), by decide +kernel⟩⟩

/-- Witnesses for `Obligations.SightingOpensLowest`. -/
theorem test_meets_SightingOpensLowest :
    (∃ (s : State) (n : _) (m : _), s.bt.berths.length = 256 ∧ s.freeBerth = some n ∧ m < n) ∧
    (∃ (s : State) (n : _) (m : _), s.bt.berths.length = 256 ∧ s.freeBerth = some n ∧ m ≠ n) ∧
    (∃ (s : State), s.bt.berths.length = 256 ∧ s.freeBerth = none) :=
  ⟨⟨(seat car 0 (phone .moored)), 1, 0, by decide +kernel⟩,
    ⟨car, 0, 255, by decide +kernel⟩,
    ⟨(car.upCfg fun c => { c with count := 0 }), by decide +kernel⟩⟩

/-- Witnesses for `Obligations.CastOffBerth`. -/
theorem test_meets_CastOffBerth :
    (∃ (s : State) (n : Nat), (s.berth n).id.st.held = false) ∧
    (∃ (s : State) (n : Nat) (m : _), (s.berth n).id.st.held = true ∧ m ≠ n) ∧
    (∃ (s : State) (n : Nat), (s.berth n).id.st.held = true ∧ s.linkOf n = none) ∧
    (∃ (s : State) (n : Nat) (k : _), (s.berth n).id.st.held = true ∧ s.linkOf n = some k) :=
  ⟨⟨car, 255, by decide +kernel⟩,
    ⟨(linked .moored), 0, 255, by decide +kernel⟩,
    ⟨(seat car 255 (fob .ranged)), 255, by decide +kernel⟩,
    ⟨(linked .sighted), 0, 0, by decide +kernel⟩⟩

/-- Witnesses for `Obligations.BerthTimers`. -/
theorem test_meets_BerthTimers :
    (∃ (s : State) (n : BitVec 8), ((s.berth n.toNat).id.st = .sighted ∨ (s.berth n.toNat).id.st = .hailed) ∧ s.berthTimers
      = true ∧ s.timerElapsed (s.berth n.toNat).id.sightAt (ms s.cfg.hailMs) = true) ∧
    (∃ (s : State) (n : BitVec 8), ((s.berth n.toNat).id.st = .moored ∨ (s.berth n.toNat).id.st = .ranged) ∧ s.berthTimers =
      true ∧ s.timerElapsed (s.berth n.toNat).id.quietFrom (sec s.cfg.quietS) = true) ∧
    (∃ (s : State) (n : BitVec 8) (t : Nat), (s.berth n.toNat).id.st = .ranged ∧ s.berthTimers = true ∧ (s.berth
      n.toNat).id.farFrom = some t ∧ t + sec s.cfg.farS < s.now) ∧
    (∃ (s : State), s.berthTimers = false) ∧
    (∃ (s : State) (n : BitVec 8) (v : BitVec 32), s.hostReady = true ∧ s.cfg.role ≠ .tender ∧ v.getLsbD 0 = true ∧ (s.berth
      n.toNat).id.st.held = true) ∧
    (∃ (s : State) (n : BitVec 8) (v : BitVec 32), s.hostReady = true ∧ s.cfg.role ≠ .tender ∧ v.getLsbD 0 = true ∧ (s.berth
      n.toNat).id.st.held = false) ∧
    (∃ (s : State), s.hostReady = true ∧ s.cfg.role = .tender) :=
  ⟨⟨((seat car 255 (phone .hailed)).upCfg fun c => { c with owners := [4#4] }), 255#8, by decide +kernel⟩,
    ⟨((seat car 255 (fob .moored)).upCfg fun c => { c with owners := [4#4] }), 255#8, by decide +kernel⟩,
    ⟨(((seat car 255 (fob .ranged)).modId 255 fun b => { b with farFrom := some 5 }).upCfg fun c =>
      { c with owners := [4#4] }), 255#8, 5, by decide +kernel⟩,
    ⟨(seat car 255 (fob .sighted)), by decide +kernel⟩,
    ⟨(seat car 255 (fob .sighted)), 255#8, 1#32, by decide +kernel⟩,
    ⟨car, 255#8, 1#32, by decide +kernel⟩,
    ⟨(car.upCfg fun c => { c with role := .tender }), by decide +kernel⟩⟩

/-- Witnesses for `Obligations.BookingAndView`. -/
theorem test_meets_BookingAndView :
    (∃ (s : State), s.hostReady = true ∧ s.cfg.role ≠ .tender) ∧
    (∃ (s : State), s.hostReady = true ∧ s.cfg.role ≠ .tender) ∧
    (∃ (s : State), s.hostReady = true ∧ s.cfg.role ≠ .tender ∧ s.bt.bookLoFresh = true) ∧
    (∃ (s : State), s.hostReady = true ∧ s.cfg.role ≠ .tender) ∧
    (∃ (s : State), s.hostReady = true ∧ s.cfg.role ≠ .tender) :=
  ⟨⟨car, by decide +kernel⟩,
    ⟨car, by decide +kernel⟩,
    ⟨(car.upBt fun b => { b with bookLoFresh := true }), by decide +kernel⟩,
    ⟨car, by decide +kernel⟩,
    ⟨car, by decide +kernel⟩⟩

/-- Witnesses for `Obligations.StartWinner`. -/
theorem test_meets_StartWinner :
    (∃ (s : State) (n : Nat) (m : Nat), s.startWinner = some n ∧ s.qualifies m = true ∧ m < 256) ∧
    (∃ (s : State), s.startWinner = none) :=
  ⟨⟨((seat car 255 (phone .ranged)).modFu 255 fun f => { f with zone := 4#3, conf := 3#2, age := 1#8 }), 255, 255,
      by decide +kernel⟩,
    ⟨car, by decide +kernel⟩⟩

/-- Witnesses for `Obligations.StartRequest`. -/
theorem test_meets_StartRequest :
    (∃ (s : State) (m : BitVec 5), s.startPin m.toNat = true ∧ s.cfg.role ≠ .tender ∧ s.bt.debounce = []) ∧
    (∃ (s : State) (m : BitVec 5) (t : Nat) (n : Nat), s.bt.debounce = [(m, t)] ∧ t + ms 2 ≤ s.now ∧ s.berthsRun = true ∧
      s.tide.power ≠ .deep ∧ s.startBusy = false ∧ s.lk.state.released? = false ∧ s.ver.outAt = none ∧ s.startWinner = some
      n) ∧
    (∃ (s : State) (m : BitVec 5) (t : Nat), s.bt.debounce = [(m, t)] ∧ t + ms 2 ≤ s.now ∧ s.berthsRun = true ∧ s.tide.power
      = .service ∧ s.startBusy = false ∧ s.lk.state.released? = true) :=
  ⟨⟨car, 2#5, by decide +kernel⟩,
    ⟨(((seat car 255 (phone .ranged)).modFu 255 fun f => { f with zone := 4#3, conf := 3#2, age := 1#8 }).upBt fun b =>
      { b with debounce := [(2#5, 63999872000)] }), 2#5, 63999872000, 255, by decide +kernel⟩,
    ⟨((car.upLk fun k => { k with state := .released }).upBt fun b => { b with debounce := [(2#5, 63999872000)] }), 2#5,
      63999872000, by decide +kernel⟩⟩

/-- Witnesses for `Obligations.VerdictPublished`. -/
theorem test_meets_VerdictPublished :
    (∃ (s : State) (at_ : Nat) (o : VerdictOut) (before : List VerdictOut) (after : List VerdictOut), s.mainUp = true ∧
      s.ver.outAt = some at_ ∧ s.ver.out = before ++ o :: after ∧ (∀ p ∈ after, p.berth ≠ o.berth) ∧ (s.berth
      o.berth).id.st.moored? = true) ∧
    (∃ (s : State) (at_ : Nat), s.mainUp = true ∧ s.ver.outAt = some at_ ∧ s.ver.out ≠ []) ∧
    (∃ (s : State) (at_ : Nat) (n : _), s.mainUp = true ∧ s.ver.outAt = some at_ ∧ ((∀ o ∈ s.ver.out, o.berth ≠ n) ∨
      (s.berth n).id.st.moored? = false)) ∧
    (∃ (s : State) (o : VerdictOut) (m : _), (s.berth o.berth).id.st.moored? = true ∧ m ≠ o.berth) ∧
    (∃ (s : State) (o : VerdictOut), (s.berth o.berth).id.st.moored? = false) ∧
    (∃ (s : State) (m : BitVec 5) (t : Nat), (m, t) ∈ s.pins.pulses ∧ t ≤ s.now) ∧
    (∃ (s : State), s.keys.tamperHold = true) ∧
    (∃ (s : State), s.keys.tamperHold = false ∧ s.moored 19 = true ∧ s.tide.power ≠ .deep) :=
  ⟨⟨((seat car 0 (fob .moored)).upVer fun v =>
      { v with outAt := some 5, out := [{ VerdictOut.reset with berth := 0, zone := 4#3 }] }), 5,
      { VerdictOut.reset with berth := 0, zone := 4#3 }, [], [], by decide +kernel⟩,
    ⟨((seat car 0 (fob .hailed)).upVer fun v =>
      { v with outAt := some 5, out := [{ VerdictOut.reset with berth := 0, zone := 4#3 }] }), 5, by decide +kernel⟩,
    ⟨((seat car 0 (fob .hailed)).upVer fun v =>
      { v with outAt := some 5, out := [{ VerdictOut.reset with berth := 0, zone := 4#3 }] }), 5, 0, by decide +kernel⟩,
    ⟨(seat car 255 (fob .moored)), { VerdictOut.reset with berth := 255, zone := 4#3 }, 0, by decide +kernel⟩,
    ⟨car, VerdictOut.reset, by decide +kernel⟩,
    ⟨(car.upPins fun p => { p with pulses := [(0#5, 64000000000)] }), 0#5, 64000000000, by decide +kernel⟩,
    ⟨(car.upKeys fun k => { k with tamperHold := true }), by decide +kernel⟩,
    ⟨car, by decide +kernel⟩⟩

/-- Witnesses for `Obligations.OverrideVerify`. -/
theorem test_meets_OverrideVerify :
    (∃ (s : State), s.hostReady = true ∧ s.cfg.role ≠ .tender ∧ s.ver.ovrState ≠ .verifying) ∧
    (∃ (s : State), s.hostReady = true ∧ s.cfg.role ≠ .tender ∧ s.ver.ovrState = .verifying) ∧
    (∃ (s : State), s.mainUp = true ∧ s.ver.ovrState = .verifying ∧ s.canVerify = true) :=
  ⟨⟨car, by decide +kernel⟩,
    ⟨(car.upVer fun v => { v with ovrState := .verifying }), by decide +kernel⟩,
    ⟨(car.upVer fun v => { v with ovrState := .verifying }), by decide +kernel⟩⟩

/-- Witnesses for `Obligations.OverrideFire`. -/
theorem test_meets_OverrideFire :
    (∃ (s : State), s.hostReady = true ∧ s.cfg.role ≠ .tender ∧ s.ver.ovrState = .idle) ∧
    (∃ (s : State) (r : BitVec 8) (x : Rule), s.hostReady = true ∧ s.cfg.role ≠ .tender ∧ s.ver.ovrState = .active ∧
      s.ver.ovrGrant.getLsbD 0 = true ∧ r ∈ s.ver.ovrRules ∧ s.cfg.rules.find? (fun q => q.id == r) = some x) ∧
    (∃ (s : State) (r : BitVec 8), s.hostReady = true ∧ s.cfg.role ≠ .tender ∧ s.ver.ovrState = .active ∧
      (s.ver.ovrGrant.getLsbD 0 = false ∨ r ∉ s.ver.ovrRules)) ∧
    (∃ (s : State), s.hostReady = true ∧ s.cfg.role ≠ .tender ∧ s.ver.ovrState = .active ∧ s.ver.ovrGrant.getLsbD 1 = true ∧
      s.cfg.loaded = true ∧ s.startBusy = false ∧ s.lk.state.released? = false) ∧
    (∃ (s : State), s.hostReady = true ∧ s.cfg.role ≠ .tender ∧ s.ver.ovrState = .active) ∧
    (∃ (s : State), s.ver.ovrState = .active ∧ s.ver.ovrEnd ≤ s.baseAt s.now) ∧
    (∃ (s : State), s.hostReady = true ∧ s.cfg.role ≠ .tender ∧ s.trng.serves = true ∧ s.trng.held = []) :=
  ⟨⟨car, by decide +kernel⟩,
    ⟨(car.upVer fun v =>
      { v with ovrState := .active, ovrGrant := 3#8, ovrRules := [4#8], ovrUses := 1#5, ovrEnd := 64000000000 }), 4#8,
      startRule, by decide +kernel⟩,
    ⟨(car.upVer fun v =>
      { v with ovrState := .active, ovrGrant := 3#8, ovrRules := [4#8], ovrUses := 1#5, ovrEnd := 64000000000 }), 5#8,
      by decide +kernel⟩,
    ⟨(car.upVer fun v =>
      { v with ovrState := .active, ovrGrant := 3#8, ovrRules := [4#8], ovrUses := 1#5, ovrEnd := 64000000000 }),
      by decide +kernel⟩,
    ⟨(car.upVer fun v =>
      { v with ovrState := .active, ovrGrant := 3#8, ovrRules := [4#8], ovrUses := 1#5, ovrEnd := 64000000000 }),
      by decide +kernel⟩,
    ⟨(car.upVer fun v =>
      { v with ovrState := .active, ovrGrant := 3#8, ovrRules := [4#8], ovrUses := 1#5, ovrEnd := 63936000000 }),
      by decide +kernel⟩,
    ⟨car, by decide +kernel⟩⟩

/-- Witnesses for `Obligations.OnlyStatusReleases`. -/
theorem test_meets_OnlyStatusReleases :
    ∃ (c : Instr) (s : State) (t : State), Sys2Proof.Machine.exec c s = .next t ∧ s.lk.state.released? = false ∧
      t.lk.state.released? = true :=
  ⟨(.lkStatus 3#2 1#2 1#8 5#8 92340483#32), (car.upLk fun k =>
      { k with state := .answered, ticket := some { Ticket.reset with issued := 5 }, record := { LkRecord.reset with epoch := 1#8, can := { CanCfg.reset with owner := 2#8 } } }),
      _, rfl, by decide +kernel, by decide +kernel⟩

/-- Witnesses for `Obligations.TicketHandling`. -/
theorem test_meets_TicketHandling :
    (∃ (s : State) (k : Ticket), s.lk.alive = true ∧ s.lk.queue = some k ∧ s.lk.state = .locked ∧ s.lk.busOff = false ∧
      s.lk.windowOpen k = true) ∧
    (∃ (s : State) (k : Ticket), s.lk.alive = true ∧ s.lk.queue = some k ∧ s.lk.state ≠ .locked ∧ s.port.main ≠ .reset) ∧
    (∃ (s : State) (k : Ticket), s.lk.ticket = some k ∧ (s.lk.state = .requested ∨ s.lk.state = .answered) ∧ k.issued + sec
      s.lk.record.lock.ticketS ≤ s.lk.shadow) ∧
    (∃ (s : State) (k : Ticket), s.lk.ticket = some k ∧ s.lk.state = .requested ∧ s.lk.timerFrom + ms 100 ≤ s.lk.shadow ∧
      s.lk.windowOpen k = true) :=
  ⟨⟨(car.upLk fun k =>
      { k with queue := some { Ticket.reset with issued := 5 }, shadow := 5, record := { LkRecord.reset with lock := { LockCfg.reset with ticketS := 5 } } }),
      { Ticket.reset with issued := 5 }, by decide +kernel⟩,
    ⟨(car.upLk fun k => { k with queue := some { Ticket.reset with issued := 5 }, state := .inactive }),
      { Ticket.reset with issued := 5 }, by decide +kernel⟩,
    ⟨(car.upLk fun k =>
      { k with ticket := some { Ticket.reset with issued := 5 }, state := .answered, shadow := 320000005, record := { LkRecord.reset with lock := { LockCfg.reset with ticketS := 5 } } }),
      { Ticket.reset with issued := 5 }, by decide +kernel⟩,
    ⟨(car.upLk fun k =>
      { k with ticket := some { Ticket.reset with issued := 5 }, state := .requested, shadow := 6400000, record := { LkRecord.reset with lock := { LockCfg.reset with ticketS := 5 } } }),
      { Ticket.reset with issued := 5 }, by decide +kernel⟩⟩

/-- Witnesses for `Obligations.Handshake`. -/
theorem test_meets_Handshake :
    (∃ (s : State) (ctr : BitVec 8) (ep : BitVec 8) (key : Bytes), s.lk.alive = true ∧ s.lk.ownsCan = true ∧ s.lk.state =
      .requested ∧ ctr = s.lk.reqCtr ∧ s.lk.keyOf ep = some key) ∧
    (∃ (s : State), s.lk.alive = true ∧ s.lk.ownsCan = true ∧ s.lk.state = .locked) ∧
    (∃ (s : State) (e : BitVec 2) (ep : BitVec 8) (sq : BitVec 8) (mac : BitVec 32) (k : Ticket), s.lk.alive = true ∧
      s.lk.ownsCan = true ∧ s.lk.state = .answered ∧ s.lk.ticket = some k ∧ s.statusValid e 1#2 ep sq mac = true) ∧
    (∃ (s : State) (e : BitVec 2) (ep : BitVec 8) (sq : BitVec 8) (mac : BitVec 32), s.lk.alive = true ∧ s.lk.ownsCan = true
      ∧ s.lk.state = .answered ∧ s.statusValid e 2#2 ep sq mac = true) ∧
    (∃ (s : State) (e : BitVec 2) (v : BitVec 2) (ep : BitVec 8) (sq : BitVec 8) (mac : BitVec 32), s.lk.alive = true ∧
      s.lk.ownsCan = true ∧ s.statusValid e v ep sq mac = false) :=
  ⟨⟨(car.upLk fun k =>
      { k with state := .requested, reqCtr := 255#8, record := { LkRecord.reset with epoch := 1#8, can := { CanCfg.reset with owner := 2#8 } } }),
      255#8, 1#8, [], by decide +kernel⟩,
    ⟨car, by decide +kernel⟩,
    ⟨(car.upLk fun k =>
      { k with state := .answered, ticket := some { Ticket.reset with issued := 5 }, record := { LkRecord.reset with epoch := 1#8, can := { CanCfg.reset with owner := 2#8 } } }),
      3#2, 1#8, 5#8, 92340483#32, { Ticket.reset with issued := 5 }, by decide +kernel⟩,
    ⟨(car.upLk fun k =>
      { k with state := .answered, ticket := some { Ticket.reset with issued := 5 }, record := { LkRecord.reset with epoch := 1#8, can := { CanCfg.reset with owner := 2#8 } } }),
      3#2, 1#8, 5#8, 92340739#32, by decide +kernel⟩,
    ⟨car, 3#2, 1#2, 0#8, 5#8, 0#32, by decide +kernel⟩⟩

/-- Witnesses for `Obligations.LockTimers`. -/
theorem test_meets_LockTimers :
    (∃ (s : State), s.lk.state = .released ∧ s.lk.crankFrom + sec 60 ≤ s.lk.shadow) ∧
    (∃ (s : State), s.lk.alive = true ∧ s.lk.ecuSilent = false ∧ s.lk.statusFrom + sec 1 ≤ s.lk.shadow) ∧
    (∃ (s : State), s.lk.alive = true ∧ s.lk.stenFault = false ∧ s.lk.stenBad < 2) ∧
    (∃ (s : State), s.lk.alive = true ∧ s.lk.stenFault = false ∧ s.lk.stenBad = 2) ∧
    (∃ (s : State), s.lk.alive = true ∧ s.lk.record.can.owner = 2#8 ∧ s.lk.busOff = false) :=
  ⟨⟨(car.upLk fun k => { k with state := .released, shadow := 3840000000 }), by decide +kernel⟩,
    ⟨(car.upLk fun k => { k with shadow := 64000000 }), by decide +kernel⟩,
    ⟨(car.upLk fun k => { k with stenBad := 1 }), by decide +kernel⟩,
    ⟨(car.upLk fun k => { k with stenBad := 2 }), by decide +kernel⟩,
    ⟨(car.upLk fun k => { k with record := { LkRecord.reset with can := { CanCfg.reset with owner := 2#8 } } }),
      by decide +kernel⟩⟩

/-- Witnesses for `Obligations.IslandSupply`. -/
theorem test_meets_IslandSupply :
    (∃ (s : State), s.lk.alive = false) ∧
    (∃ (s : State), s.lk.alive = false) ∧
    (∃ (s : State), s.lk.alive = false) ∧
    (∃ (s : State), s.lk.alive = false) ∧
    (∃ (s : State), s.lk.alive = true ∧ s.lk.state = .inactive ∧ s.lk.cause = 4#3 ∧ s.lk.selftestAt + sec 1 ≤ s.lk.shadow) :=
  ⟨⟨State.reset, by decide +kernel⟩,
    ⟨State.reset, by decide +kernel⟩,
    ⟨State.reset, by decide +kernel⟩,
    ⟨State.reset, by decide +kernel⟩,
    ⟨(car.upLk fun k => { k with state := .inactive, cause := 4#3 }), by decide +kernel⟩⟩

/-- Witnesses for `Obligations.LfFrames`. -/
theorem test_meets_LfFrames :
    (∃ (s : State) (w : LfWork), firstByRank s.lfDue = some w ∧ s.lfReady = true ∧ s.lf.vlfLow = false ∧ s.lfValid w = true) ∧
    (∃ (s : State) (w : LfWork), firstByRank s.lfDue = some w ∧ s.lfReady = true ∧ s.lf.vlfLow = false ∧ s.lfValid w = true
      ∧ w.kind ≠ .poll) ∧
    (∃ (s : State) (w : LfWork), s.lf.onAir = some w ∧ s.mainUp = true ∧ w.notBefore ≤ s.now ∧ s.lf.touchCut = false ∧
      s.cfg.role ≠ .tender) ∧
    (∃ (s : State) (w : LfWork), s.lf.onAir = some w ∧ s.mainUp = true ∧ w.notBefore ≤ s.now ∧ s.lf.touchCut = false ∧
      s.cfg.role ≠ .tender ∧ w.kind = .slotted) ∧
    (∃ (s : State) (w : LfWork), s.lf.onAir = some w ∧ s.mainUp = true ∧ w.notBefore ≤ s.now ∧ s.lf.touchCut = false ∧
      s.cfg.role ≠ .tender ∧ (w.kind = .wake ∨ w.kind = .handle ∨ w.kind = .pollPattern)) ∧
    (∃ (s : State) (w : LfWork), s.lf.onAir = some w ∧ s.mainUp = true ∧ w.notBefore ≤ s.now ∧ s.lf.touchCut = true) ∧
    (∃ (s : State) (f : Fallback) (air : AirHeard), s.lf.fallbacks.find? (fun g => g.state == .window && s.elapsed
      g.windowAt (us 1250)) = some f ∧ s.mainUp = true ∧ f.collided air = false) ∧
    (∃ (s : State) (f : Fallback) (air : AirHeard), s.lf.fallbacks.find? (fun g => g.state == .window && s.elapsed
      g.windowAt (us 1250)) = some f ∧ s.mainUp = true ∧ f.collided air = true) ∧
    (∃ (s : State) (f : Fallback) (air : AirHeard), s.lf.fallbacks.find? (fun g => g.state == .round && s.elapsed g.windowAt
      (us (100 + 1250 * 2 ^ (g.k + 2)))) = some f ∧ s.mainUp = true ∧ f.collided air = false) ∧
    (∃ (s : State) (f : Fallback) (air : AirHeard), s.lf.fallbacks.find? (fun g => g.state == .round && s.elapsed g.windowAt
      (us (100 + 1250 * 2 ^ (g.k + 2)))) = some f ∧ s.mainUp = true ∧ f.collided air = true ∧ f.k < 4) ∧
    (∃ (s : State) (f : Fallback) (air : AirHeard), s.lf.fallbacks.find? (fun g => g.state == .round && s.elapsed g.windowAt
      (us (100 + 1250 * 2 ^ (g.k + 2)))) = some f ∧ s.mainUp = true ∧ f.collided air = true ∧ 4 ≤ f.k) ∧
    (∃ (s : State) (m : BitVec 5), (s.cfg.pins.getD m.toNat PinCfg.reset).func = 2#8 ∧ s.mainUp = true ∧ s.mfpSeen = true ∧
      s.moored 20 = true ∧ s.tide.power ≠ .deep ∧ s.cfg.role ≠ .tender ∧ ((s.wake 0).presentOf
      ((s.cfg.chart.handles[((s.cfg.pins.getD m.toNat PinCfg.reset).param.toNat)]?.map (·.mask)).getD 0#16)) ≠ [] ∧
      s.tide.power ≠ .drive) ∧
    (∃ (s : State) (m : BitVec 5), (s.cfg.pins.getD m.toNat PinCfg.reset).func = 2#8 ∧ s.mainUp = true ∧ s.mfpSeen = true ∧
      s.moored 20 = true ∧ s.tide.power ≠ .deep ∧ s.cfg.role ≠ .tender ∧ (((s.wake 0).presentOf
      ((s.cfg.chart.handles[((s.cfg.pins.getD m.toNat PinCfg.reset).param.toNat)]?.map (·.mask)).getD 0#16)) = [] ∨
      s.tide.power = .drive)) ∧
    (∃ (s : State) (p : Nat), s.lfPeriod = some p ∧ s.mainUp = true ∧ s.cfg.loaded = true ∧ s.moored 0 = true ∧
      s.plansPolling = true ∧ s.timerElapsed s.tide.lfPollAt (ms p) = true ∧ s.wakePending = false ∧ ofBits 16 (s.presentOf
      s.cfg.chart.pollMask) ≠ 0#16 ∧ s.tidePolls = false ∧ s.lf.vlfLow = false) ∧
    (∃ (s : State), s.mainUp = true ∧ s.tide.power = .standby ∧ s.moored 7 = true ∧ s.timerElapsed s.tide.sniffAt (ms 100) =
      true) :=
  ⟨⟨(car.upLf fun l => { l with queue := [{ LfWork.reset with kind := .wake }] }), { LfWork.reset with kind := .wake },
      by decide +kernel⟩,
    ⟨(car.upLf fun l => { l with queue := [{ LfWork.reset with kind := .wake }] }), { LfWork.reset with kind := .wake },
      by decide +kernel⟩,
    ⟨(car.upLf fun l => { l with onAir := some { LfWork.reset with kind := .poll } }), { LfWork.reset with kind := .poll },
      by decide +kernel⟩,
    ⟨(car.upLf fun l => { l with onAir := some { LfWork.reset with kind := .slotted } }),
      { LfWork.reset with kind := .slotted }, by decide +kernel⟩,
    ⟨(car.upLf fun l => { l with onAir := some { LfWork.reset with kind := .pollPattern } }),
      { LfWork.reset with kind := .pollPattern }, by decide +kernel⟩,
    ⟨(car.upLf fun l => { l with onAir := some { LfWork.reset with kind := .pollPattern }, touchCut := true }),
      { LfWork.reset with kind := .pollPattern }, by decide +kernel⟩,
    ⟨(car.upLf fun l => { l with fallbacks := [{ Fallback.reset with state := .window }] }),
      { Fallback.reset with state := .window }, { syncs := [], energy := [] }, by decide +kernel⟩,
    ⟨(car.upLf fun l => { l with fallbacks := [{ Fallback.reset with state := .window, bad := true }] }),
      { Fallback.reset with state := .window, bad := true }, { syncs := [], energy := [] }, by decide +kernel⟩,
    ⟨(car.upLf fun l => { l with fallbacks := [{ Fallback.reset with state := .round, k := 4 }] }),
      { Fallback.reset with state := .round, k := 4 }, { syncs := [], energy := [] }, by decide +kernel⟩,
    ⟨(car.upLf fun l => { l with fallbacks := [{ Fallback.reset with state := .round, k := 3, bad := true }] }),
      { Fallback.reset with state := .round, k := 3, bad := true }, { syncs := [], energy := [] }, by decide +kernel⟩,
    ⟨(car.upLf fun l => { l with fallbacks := [{ Fallback.reset with state := .round, k := 4, bad := true }] }),
      { Fallback.reset with state := .round, k := 4, bad := true }, { syncs := [], energy := [] }, by decide +kernel⟩,
    ⟨(car.upCfg fun c => { c with chart := { c.chart with handles := [{ HandleCfg.reset with mask := 1#16 }] } }), 1#5,
      by decide +kernel⟩,
    ⟨(carIn .drive), 1#5, by decide +kernel⟩,
    ⟨((carIn .standby).upCfg fun c => { c with lfPoll := true, owners := [1#4] }), 250, by decide +kernel⟩,
    ⟨(carIn .standby), by decide +kernel⟩⟩

/-- Witnesses for `Obligations.LfDrivers`. -/
theorem test_meets_LfDrivers :
    (∃ (s : State), s.hostReady = true) ∧
    (∃ (s : State) (i : BitVec 4), s.lf.ok = true ∧ s.lf.calib = true ∧ s.mainUp = true ∧ s.cfg.role ≠ .tender ∧ s.lf.calAt
      + s.calTicks ≤ s.now ∧ s.lf.calDue = false ∧ s.cfg.radio.lfEnable.getLsbD i.toNat = true ∧ (s.driver
      i.toNat).ovr.force.getLsbD 6 = false) ∧
    (∃ (s : State) (i : BitVec 4) (j : _), s.lf.ok = true ∧ s.lf.calib = true ∧ s.mainUp = true ∧ s.cfg.role ≠ .tender ∧
      s.lf.calAt + s.calTicks ≤ s.now ∧ s.lf.calDue = false ∧ s.cfg.radio.lfEnable.getLsbD i.toNat = true ∧ (s.driver
      i.toNat).ovr.force.getLsbD 6 = false ∧ j ≠ i.toNat) ∧
    (∃ (s : State) (i : BitVec 4) (j : _), s.lf.ok = true ∧ s.lf.calib = true ∧ s.mainUp = true ∧ s.cfg.role ≠ .tender ∧
      s.lf.calAt + s.calTicks ≤ s.now ∧ s.lf.calDue = false ∧ s.cfg.radio.lfEnable.getLsbD i.toNat = true ∧ (s.driver
      i.toNat).ovr.force.getLsbD 6 = false ∧ j ≠ i.toNat ∧ (s.driver j).ovr.force.getLsbD 6 = false) ∧
    (∃ (s : State) (d : BitVec 4), s.lf.ok = true ∧ s.mainUp = true ∧ d.toNat ∈ s.driving) ∧
    (∃ (s : State) (d : BitVec 4) (j : _), s.lf.ok = true ∧ s.mainUp = true ∧ d.toNat ∈ s.driving ∧ j ≠ d.toNat) ∧
    (∃ (s : State) (d : BitVec 4), s.lf.ok = true ∧ s.mainUp = true ∧ d.toNat ∈ s.driving ∧ s.cfg.role ≠ .tender) ∧
    (∃ (s : State) (v : BitVec 12), s.mainUp = true ∧ v.toNat < 750) :=
  ⟨⟨car, by decide +kernel⟩,
    ⟨(car.upLf fun l => { l with calib := true }), 15#4, by decide +kernel⟩,
    ⟨(car.upLf fun l => { l with calib := true }), 15#4, 0, by decide +kernel⟩,
    ⟨(car.upLf fun l => { l with calib := true }), 0#4, 15, by decide +kernel⟩,
    ⟨((car.upLf fun l => { l with calib := true, calAt := 64000000000 }).upCfg fun c =>
      { c with chart := { c.chart with antennas := [{ AntCfg.reset with itarget := 1000 }] }, radio := { c.radio with lfEnable := 1#16, lfMax := 1 } }),
      0#4, by decide +kernel⟩,
    ⟨((car.upLf fun l => { l with calib := true, calAt := 64000000000 }).upCfg fun c =>
      { c with chart := { c.chart with antennas := [{ AntCfg.reset with itarget := 1000 }] }, radio := { c.radio with lfEnable := 1#16, lfMax := 1 } }),
      0#4, 15, by decide +kernel⟩,
    ⟨((car.upLf fun l => { l with calib := true, calAt := 64000000000 }).upCfg fun c =>
      { c with chart := { c.chart with antennas := [{ AntCfg.reset with itarget := 1000 }] }, radio := { c.radio with lfEnable := 1#16, lfMax := 1 } }),
      0#4, by decide +kernel⟩,
    ⟨car, 749#12, by decide +kernel⟩⟩

/-- Witnesses for `Obligations.FobFrames`. -/
theorem test_meets_FobFrames :
    (∃ (s : State) (rx : UhfRx) (flags : BitVec 4) (fob : BitVec 64) (idle : BitVec 8) (f : Fallback), s.hearsUhf rx
      (wakeAnswerBytes flags fob idle) = true ∧ s.lf.fallbacks.find? (fun g => g.hears rx.stamp) = some f) ∧
    (∃ (s : State) (fob : BitVec 64), s.berthOf fob = none ∧ s.lf.idleList.contains fob = false) ∧
    (∃ (s : State) (rx : UhfRx) (flags : BitVec 4) (fob : BitVec 64) (c : BitVec 32) (mac : BitVec 64) (n : Nat), s.hearsUhf
      rx (responseBytes flags fob c mac) = true ∧ s.berthOf fob = some n ∧ (s.berth n).id.st = .hailed ∧ (s.berth n).isFob =
      true ∧ (s.berth n).se.challengeSent = true ∧ (s.berth n).se.kept = none ∧ s.keysServe = true ∧ s.useAdmits (.auth n)
      4#4 true 1 = true ∧ (macOf (s.berth n).se.authKey 8 ((s.berth n).nonce5 ++ be 8 fob.toNat ++ be 4 c.toNat) == be 8
      mac.toNat) = true) ∧
    (∃ (s : State) (rx : UhfRx) (flags : BitVec 4) (fob : BitVec 64) (c : BitVec 32) (mac : BitVec 64) (n : Nat), s.hearsUhf
      rx (responseBytes flags fob c mac) = true ∧ s.berthOf fob = some n ∧ (s.berth n).id.st = .hailed ∧ (s.berth n).isFob =
      true ∧ (s.berth n).se.challengeSent = true ∧ (s.berth n).se.kept = none ∧ s.keysServe = true ∧ s.useAdmits (.auth n)
      4#4 true 1 = true ∧ (macOf (s.berth n).se.authKey 8 ((s.berth n).nonce5 ++ be 8 fob.toNat ++ be 4 c.toNat) == be 8
      mac.toNat) = false) ∧
    (∃ (s : State) (rx : UhfRx) (flags : BitVec 4) (fob : BitVec 64) (c : BitVec 32) (mac : BitVec 64) (n : Nat), s.hearsUhf
      rx (responseBytes flags fob c mac) = true ∧ s.berthOf fob = some n ∧ (s.berth n).id.st = .hailed ∧ (s.berth n).isFob =
      true ∧ (s.berth n).se.challengeSent = true ∧ (s.berth n).se.kept = none ∧ s.keysServe = true ∧ s.useAdmits (.auth n)
      4#4 true 1 = false) :=
  ⟨⟨(car.upLf fun l => { l with fallbacks := [{ Fallback.reset with state := .window }] }),
      { anchor := 0#6, stamp := us 50, chain := 1#1, rssi := 0#8, crc := uhfCrc (wakeAnswerBytes 0#4 8#64 61#8) }, 0#4,
      8#64, 61#8, { Fallback.reset with state := .window }, by decide +kernel⟩,
    ⟨car, 8#64, by decide +kernel⟩,
    ⟨(seat car 3
      { fob .hailed with se := { (fob .hailed).se with nonce := [0#8] }, lf := { BerthLf.reset with pollCount := 3#16, order := [0], report := [(0, [])] } }),
      { anchor := 0#6, stamp := 5, chain := 1#1, rssi := 0#8, crc := uhfCrc (responseBytes 0#4 8#64 5#32 396316767208603648#64) },
      0#4, 8#64, 5#32, 396316767208603648#64, 3, by decide +kernel⟩,
    ⟨(seat car 3
      { fob .hailed with se := { (fob .hailed).se with nonce := [0#8] }, lf := { BerthLf.reset with pollCount := 3#16, order := [0], report := [(0, [])] } }),
      { anchor := 0#6, stamp := 5, chain := 1#1, rssi := 0#8, crc := uhfCrc (responseBytes 0#4 8#64 5#32 0#64) }, 0#4, 8#64,
      5#32, 0#64, 3, by decide +kernel⟩,
    ⟨(seat car 3
      { fob .hailed with se := { (fob .hailed).se with nonce := [0#8], authKey := [] }, lf := { BerthLf.reset with pollCount := 3#16, order := [0], report := [(0, [])] } }),
      { anchor := 0#6, stamp := 5, chain := 1#1, rssi := 0#8, crc := uhfCrc (responseBytes 0#4 8#64 5#32 0#64) }, 0#4, 8#64,
      5#32, 0#64, 3, by decide +kernel⟩⟩

/-- Witnesses for `Obligations.FobFrames`. -/
theorem test_meets_FobFrames_2 :
    (∃ (s : State) (rx : UhfRx) (cmd : BitVec 4) (fob : BitVec 64) (c : BitVec 32) (l : BitVec 32) (idle : BitVec 8) (mac :
      BitVec 64) (n : Nat), s.hearsUhf rx (telegramBytes cmd fob c idle mac) = true ∧ cmd.toNat < 8 ∧ s.lf.recent = [] ∧
      s.berthOf fob = some n ∧ (s.berth n).id.st.moored? = true ∧ (s.berth n).isFob = true ∧ s.cached fob = some l ∧ l.toNat
      < c.toNat ∧ c.toNat ≤ l.toNat + 256 ∧ s.keysServe = true ∧ s.useAdmits (.auth n) 4#4 true 1 = true ∧ macOf (s.berth
      n).se.authKey 8 (BitVec.ofNat 8 (64 + cmd.toNat) :: (be 8 fob.toNat ++ be 4 c.toNat ++ [idle])) = be 8 mac.toNat) ∧
    (∃ (s : State) (rx : UhfRx) (flags : BitVec 4) (tag : BitVec 16) (seq : BitVec 2) (resv : BitVec 6) (field : Bytes) (mac
      : BitVec 32) (n : Nat), s.hearsUhf rx (reportBytes flags tag seq resv field mac) = true ∧ s.tagBerth tag = some n ∧
      (s.berth n).lf.pollCount.setWidth 2 = seq ∧ field.length = 3 * (s.berth n).lf.order.length ∧ s.keysServe = true ∧
      s.useAdmits (.auth n) 4#4 true 1 = true ∧ macOf (s.berth n).se.authKey 4 (((BitVec.ofNat 8 (48 + flags.toNat) :: (be 2
      tag.toNat ++ [BitVec.ofNat 8 (64 * seq.toNat + resv.toNat)] ++ field)) ++ (s.berth n).nonce5 ++ be 2 (s.berth
      n).lf.pollCount.toNat)) = be 4 mac.toNat) ∧
    (∃ (s : State) (n : BitVec 8), s.bt.berths.length = 256 ∧ s.mainUp = true ∧ (s.berth n.toNat).id.st.moored? = true ∧
      (s.berth n.toNat).lf.report ≠ []) ∧
    (∃ (s : State) (n : BitVec 8) (m : _), s.bt.berths.length = 256 ∧ s.mainUp = true ∧ (s.berth n.toNat).id.st.moored? =
      true ∧ (s.berth n.toNat).lf.report ≠ [] ∧ m ≠ n.toNat) :=
  ⟨⟨((seat car 3
      { fob .moored with se := { (fob .moored).se with nonce := [0#8] }, lf := { BerthLf.reset with pollCount := 3#16, order := [0], report := [(0, [])] } }).upLf
      fun l => { l with cache := [(8#64, 4#32, 0#32)] }),
      { anchor := 0#6, stamp := 5, chain := 1#1, rssi := 0#8, crc := uhfCrc (telegramBytes 7#4 8#64 260#32 1#8 5116089176692883456#64) },
      7#4, 8#64, 260#32, 4#32, 1#8, 5116089176692883456#64, 3, by decide +kernel⟩,
    ⟨(seat car 3
      { fob .moored with se := { (fob .moored).se with nonce := [0#8] }, lf := { BerthLf.reset with pollCount := 3#16, order := [0], report := [(0, [])] } }),
      { anchor := 0#6, stamp := 5, chain := 1#1, rssi := 0#8, crc := uhfCrc (reportBytes 0#4 0#16 3#2 0#6 [1#8, 2#8, 3#8] 805306560#32) },
      0#4, 0#16, 3#2, 0#6, [1#8, 2#8, 3#8], 805306560#32, 3, by decide +kernel⟩,
    ⟨(seat car 3
      { fob .ranged with se := { (fob .ranged).se with nonce := [0#8] }, lf := { BerthLf.reset with pollCount := 3#16, order := [0], report := [(0, [])] } }),
      3#8, by decide +kernel⟩,
    ⟨(seat car 3
      { fob .ranged with se := { (fob .ranged).se with nonce := [0#8] }, lf := { BerthLf.reset with pollCount := 3#16, order := [0], report := [(0, [])] } }),
      3#8, 255, by decide +kernel⟩⟩

/-- Witnesses for `Obligations.BleLinks`. -/
theorem test_meets_BleLinks :
    (∃ (s : State) (company : BitVec 16) (typ : BitVec 8) (fleet : BitVec 32), (company ≠ s.nb.company.force ∨ typ ≠ 0xA1#8
      ∨ fleet ≠ s.cfg.fleetId.setWidth 32)) ∧
    (∃ (s : State), s.bleRuns = true ∧ s.tide.power = .standby) ∧
    (∃ (s : State) (token : BitVec 64) (a : BitVec 6) (stamp : Nat) (n : Nat), s.bleRuns = true ∧ s.berthsRun = true ∧
      s.tide.power ≠ .standby ∧ s.tokenHeld token = false ∧ (token, s.tide.number) ∉ s.bt.sightings ∧ s.tokenAt (a, stamp) =
      true ∧ s.linksAt a.toNat < 32 ∧ s.freeBerth = some n) ∧
    (∃ (s : State), s.bleRuns = true ∧ s.bleChain = true ∧ s.bleTaken = false ∧ s.tide.power = .standby ∧ s.wakePending =
      false ∧ s.timerElapsed s.tide.burstAt (sec s.burstPeriod) = true ∧ s.nb.testUntil ≤ s.now ∧ s.nb.held = [] ∧
      s.nb.tuner ≠ 2#2 ∧ s.nb.blePll = .locked) ∧
    (∃ (s : State), s.bleRuns = true ∧ s.bleChain = true ∧ s.bleTaken = false ∧ s.tide.power ≠ .standby ∧ s.tide.burstAt +
      ms 100 ≤ s.now ∧ s.nb.testUntil ≤ s.now ∧ (s.nb.held.any fun h => h.kind == 3#2) = false ∧ s.nb.tuner ≠ 2#2 ∧
      s.nb.blePll = .locked) ∧
    (∃ (s : State), s.bleRuns = true ∧ s.bleChain = true ∧ s.bleTaken = false ∧ s.tide.power ≠ .standby ∧ s.tide.burstAt +
      ms 100 ≤ s.now ∧ s.nb.testUntil ≤ s.now ∧ (s.nb.held.any fun h => h.kind == 3#2) = false ∧ s.nb.tuner ≠ 2#2 ∧
      (s.nb.blePll = .locking ∨ s.nb.blePll = .calibrating)) ∧
    (∃ (s : State) (c : BitVec 6) (d : BitVec 6), s.bleRuns = true ∧ s.bleChain = true ∧ s.bleTaken = false ∧ s.tide.power ≠
      .standby ∧ s.nb.scanUntil ≤ s.now ∧ (c, d) ∈ [(37#6, 38#6), (38#6, 39#6), (39#6, 37#6)] ∧ s.nb.scanChan = c) ∧
    (∃ (s : State) (c : BitVec 6) (d : BitVec 6), s.bleRuns = true ∧ s.bleChain = true ∧ s.bleTaken = false ∧ s.tide.power ≠
      .standby ∧ s.nb.scanUntil ≤ s.now ∧ (c, d) ∈ [(37#6, 38#6), (38#6, 39#6), (39#6, 37#6)] ∧ s.nb.scanChan = c) ∧
    (∃ (s : State) (k : Nat), s.bleRuns = true ∧ s.tide.power ≠ .standby ∧ k < s.nb.links.length ∧ (s.nb.links.getD k
      Link.reset).anchor = s.cfg.anchor ∧ s.bleChain = true ∧ s.soundsOver (s.nb.links.getD k Link.reset) = false ∧
      s.nb.testUntil ≤ s.now ∧ (s.nb.held.any fun h => h.kind == 3#2) = false ∧ s.nb.tuner ≠ 2#2 ∧ s.nb.blePll = .locked) ∧
    (∃ (s : State) (k : Nat), s.bleRuns = true ∧ s.tide.power ≠ .standby ∧ k < s.nb.links.length ∧ (s.nb.links.getD k
      Link.reset).anchor ≠ s.cfg.anchor ∧ s.soundsOver (s.nb.links.getD k Link.reset) = false) ∧
    (∃ (s : State) (k : Nat), s.bleRuns = true ∧ s.tide.power ≠ .standby ∧ k < s.nb.links.length ∧ (s.nb.links.getD k
      Link.reset).anchor = s.cfg.anchor ∧ s.bleChain = true ∧ s.soundsOver (s.nb.links.getD k Link.reset) = true ∧ s.now +
      us (1250 * (s.nb.links.getD k Link.reset).interval.toNat) < (s.nb.links.getD k Link.reset).supervision + sec 2) ∧
    (∃ (s : State) (k : Nat), s.bleRuns = true ∧ s.tide.power ≠ .standby ∧ k < s.nb.links.length ∧ (s.nb.links.getD k
      Link.reset).anchor = s.cfg.anchor ∧ s.bleChain = true ∧ s.soundsOver (s.nb.links.getD k Link.reset) = false ∧
      (s.nb.links.getD k Link.reset).periph = true ∧ s.nb.testUntil ≤ s.now ∧ (s.nb.held.any fun h => h.kind == 3#2) = false
      ∧ s.nb.blePll = .locking) ∧
    (∃ (s : State), s.bleRuns = true ∧ s.bleChain = true ∧ s.tide.power ≠ .standby ∧ (s.berthsRun = true ∨ s.isTender =
      true) ∧ s.linksAt s.cfg.anchor < 32 ∧ s.nb.csRunning = [] ∧ s.nb.testUntil ≤ s.now ∧ (s.nb.held.any fun h => h.kind ==
      3#2) = false ∧ s.nb.tuner ≠ 2#2 ∧ s.nb.blePll = .locked) ∧
    (∃ (s : State) (k : Nat) (l : Link), s.nb.links[k]? = some l ∧ l.periph = true ∧ l.hello = false ∧ l.openAt + ms 100 ≤
      s.now) ∧
    (∃ (s : State) (n : BitVec 8) (k : Nat), s.linkOf n.toNat = some k) :=
  ⟨⟨car, 0xFFFF#16, 0xA0#8, 0#32, by decide +kernel⟩,
    ⟨(carIn .standby), by decide +kernel⟩,
    ⟨(car.upNb fun b => { b with scanUntil := 6 }), 5#64, 0#6, 5, 0, by decide +kernel⟩,
    ⟨(carIn .standby), by decide +kernel⟩,
    ⟨car, by decide +kernel⟩,
    ⟨(car.upNb fun b => { b with blePll := .locking }), by decide +kernel⟩,
    ⟨car, 37#6, 38#6, by decide +kernel⟩,
    ⟨(car.upNb fun b => { b with scanChan := 39#6 }), 39#6, 37#6, by decide +kernel⟩,
    ⟨(linked .moored), 0, by decide +kernel⟩,
    ⟨(car.upNb fun b => { b with links := [{ Link.reset with anchor := 5 }] }), 0, by decide +kernel⟩,
    ⟨(((linked .moored).modLink 0 fun l => { l with supervision := 64000000000 }).upNb fun b =>
      { b with links := b.links ++ [{ Link.reset with berth := some 1 }], csRunning := [(1, 100#32)] }), 0,
      by decide +kernel⟩,
    ⟨(car.upNb fun b => { b with blePll := .locking, links := [{ Link.reset with periph := true }] }), 0, by decide +kernel⟩,
    ⟨car, by decide +kernel⟩,
    ⟨(car.upNb fun b => { b with links := [{ Link.reset with periph := true }] }), 0, { Link.reset with periph := true },
      by decide +kernel⟩,
    ⟨(linked .moored), 0#8, 0, by decide +kernel⟩⟩

/-- Witnesses for `Obligations.BleFrames`. -/
theorem test_meets_BleFrames :
    (∃ (s : State) (k : Nat) (n : Nat) (l : Link), s.berthsRun = true ∧ s.moored 5 = true ∧ s.nb.links[k]? = some l ∧
      l.frames = 0 ∧ l.berth = some n ∧ (s.berth n).id.st = .sighted) ∧
    (∃ (s : State) (n : BitVec 8) (k : Nat) (mac : BitVec 128), s.berthsRun = true ∧ s.moored 5 = true ∧ s.linkOf n.toNat =
      some k ∧ (s.berth n.toNat).id.st = .hailed ∧ (s.berth n.toNat).id.kind = 0#3 ∧ (s.berth n.toNat).se.challengeSent =
      true ∧ s.keysServe = true ∧ s.useAdmits (.auth n.toNat) 4#4 true 1 = true ∧ cmac (s.berth n.toNat).se.authKey
      ((s.berth n.toNat).se.nonce ++ le 8 (s.berth n.toNat).se.token.toNat ++ le 8 (s.berth n.toNat).id.cred.toNat ++
      [(s.berth n.toNat).id.gen]) = be 16 mac.toNat) ∧
    (∃ (s : State) (n : BitVec 8) (k : Nat) (mac : BitVec 128), s.berthsRun = true ∧ s.moored 5 = true ∧ s.linkOf n.toNat =
      some k ∧ (s.berth n.toNat).id.st = .hailed ∧ (s.berth n.toNat).id.kind = 0#3 ∧ (s.berth n.toNat).se.challengeSent =
      true ∧ s.keysServe = true ∧ s.useAdmits (.auth n.toNat) 4#4 true 1 = true ∧ cmac (s.berth n.toNat).se.authKey
      ((s.berth n.toNat).se.nonce ++ le 8 (s.berth n.toNat).se.token.toNat ++ le 8 (s.berth n.toNat).id.cred.toNat ++
      [(s.berth n.toNat).id.gen]) ≠ be 16 mac.toNat) :=
  ⟨⟨(linked .sighted), 0, 0, { Link.reset with berth := some 0 }, by decide +kernel⟩,
    ⟨(linked .hailed), 0#8, 0, 664613997892457936956306688405667840#128, by decide +kernel⟩,
    ⟨(linked .hailed), 0#8, 0, 0#128, by decide +kernel⟩⟩

/-- Witnesses for `Obligations.BleFrames`. -/
theorem test_meets_BleFrames_2 :
    (∃ (s : State) (n : BitVec 8) (k : Nat), s.berthsRun = true ∧ s.moored 5 = true ∧ s.linkOf n.toNat = some k ∧ (s.berth
      n.toNat).id.st = .hailed ∧ (s.berth n.toNat).id.kind = 0#3 ∧ (s.berth n.toNat).se.challengeSent = true ∧ s.keysServe =
      true ∧ s.useAdmits (.auth n.toNat) 4#4 true 1 = false) ∧
    (∃ (s : State) (n : BitVec 8), s.berthsRun = true ∧ s.moored 5 = true ∧ (s.berth n.toNat).id.kind = 0#3 ∧ (s.berth
      n.toNat).id.st.moored? = true ∧ (s.berth n.toNat).se.encrypted = true) ∧
    (∃ (s : State) (n : BitVec 8) (k : Nat) (j : Nat) (mac : BitVec 64), s.berthsRun = true ∧ s.moored 5 = true ∧ s.linkOf
      n.toNat = some k ∧ (s.berth n.toNat).se.sessionSent = true ∧ ((s.berth n.toNat).id.st = .moored ∨ ((s.berth
      n.toNat).id.st = .ranged ∧ (s.berth n.toNat).se.readyOk = false)) ∧ (s.berth n.toNat).se.sid = some j ∧ s.keysServe =
      true ∧ s.useAdmits (.mac j) 4#4 true 1 = true ∧ macOf (s.cellKey (.mac j)) 8 (le 4 (s.sidOf j).toNat) = be 8
      mac.toNat) :=
  ⟨⟨((linked .hailed).modSe 0 fun b => { b with authKey := [] }), 0#8, 0, by decide +kernel⟩,
    ⟨(linked .moored), 0#8, by decide +kernel⟩,
    ⟨((linked .ranged).modSe 0 fun b => { b with sessionSent := true }), 0#8, 0, 0, 2147483648#64, by decide +kernel⟩⟩

/-- Witnesses for `Obligations.BleFrames`. -/
theorem test_meets_BleFrames_3 :
    (∃ (s : State) (n : BitVec 8) (k : Nat) (j : Nat) (seq : BitVec 8) (a : BitVec 8) (field : Bytes) (mac : BitVec 32),
      s.berthsRun = true ∧ s.moored 5 = true ∧ s.linkOf n.toNat = some k ∧ (s.berth n.toNat).id.st.moored? = true ∧ (s.berth
      n.toNat).lf.polled = true ∧ field.length = 3 * a.toNat ∧ (s.berth n.toNat).se.sid = some j ∧ seq.toNat < 4 ∧ (s.berth
      n.toNat).lf.pollCount.setWidth 2 = seq.setWidth 2 ∧ s.keysServe = true ∧ s.useAdmits (.mac j) 4#4 true 1 = true ∧
      macOf (s.cellKey (.mac j)) 4 (le 4 (s.sidOf j).toNat ++ (le 2 (s.berth n.toNat).se.hailTag.toNat ++ [seq, a] ++
      field)) = be 4 mac.toNat) ∧
    (∃ (s : State) (n : BitVec 8) (k : Nat), s.berthsRun = true ∧ s.moored 5 = true ∧ s.linkOf n.toNat = some k ∧ (s.berth
      n.toNat).id.st.live = true) ∧
    (∃ (s : State) (k : Nat) (typ : BitVec 8), s.berthsRun = true ∧ s.moored 5 = true ∧ k < s.nb.links.length ∧ (typ = 0#8 ∨
      8 ≤ typ.toNat ∨ ((s.nb.links.getD k Link.reset).berth = none ∧ typ ≠ 1#8))) :=
  ⟨⟨((linked .ranged).modBlf 0 fun l => { l with polled := true, pollCount := 3#16 }), 0#8, 0, 0, 3#8, 1#8, [1#8, 2#8,
      3#8], 0#32, by decide +kernel⟩,
    ⟨(linked .sighted), 0#8, 0, by decide +kernel⟩,
    ⟨(linked .moored), 0, 8#8, by decide +kernel⟩⟩

/-- Witnesses for `Obligations.SynthAndSounding`. -/
theorem test_meets_SynthAndSounding :
    (∃ (s : State), s.hostReady = true) ∧
    (∃ (s : State) (w : BitVec 2), s.mainUp = true ∧ s.tide.power ≠ .deep ∧ s.nb.calDue.getLsbD w.toNat = true ∧ s.nb.pll
      w.toNat ≠ .calibrating ∧ (if w.toNat = 0 then s.bleAirNear (us 400) else s.uhfAir (us 400)) = false) ∧
    (∃ (s : State) (w : BitVec 2), s.mainUp = true ∧ w.toNat < 3 ∧ s.nb.pll w.toNat = .calibrating ∧ (w.toNat ≠ 0 ∨
      s.nb.held = [])) ∧
    (∃ (s : State) (w : BitVec 2), s.mainUp = true ∧ w.toNat < 3 ∧ s.nb.pll w.toNat = .calibrating ∧ (w.toNat ≠ 0 ∨
      s.nb.held = [])) ∧
    (∃ (s : State) (w : BitVec 2) (v : _), s.mainUp = true ∧ w.toNat < 3 ∧ s.nb.pll w.toNat = .calibrating ∧ (w.toNat ≠ 0 ∨
      s.nb.held = []) ∧ v < 3 ∧ v ≠ w.toNat) ∧
    (∃ (s : State) (w : BitVec 2), s.mainUp = true ∧ w.toNat < 3 ∧ s.nb.pll w.toNat = .calibrating ∧ (w.toNat ≠ 0 ∨
      s.nb.held = [])) ∧
    (∃ (s : State) (w : BitVec 2), s.mainUp = true ∧ w.toNat < 3 ∧ s.nb.pll w.toNat = .calibrating ∧ (w.toNat ≠ 0 ∨
      s.nb.held = [])) ∧
    (∃ (s : State), s.mainUp = true ∧ s.nb.blePll = .locking ∧ s.nb.held = []) ∧
    (∃ (s : State) (h : HeldTx), s.mainUp = true ∧ s.nb.blePll = .locking ∧ s.nb.held = [h] ∧ h.planned + h.tol ≤ s.now + us
      2) ∧
    (∃ (s : State) (w : BitVec 2) (v : _), s.mainUp = true ∧ w.toNat < 3 ∧ s.nb.pll w.toNat = .locked ∧ v < 3 ∧ v ≠ w.toNat) ∧
    (∃ (s : State) (n : BitVec 8), s.canSound n.toNat = true ∧ s.soundFits = true ∧ n.toNat ∈ s.nb.csWait ∧ s.inAir = false
      ∧ s.cfg.role ≠ .tender ∧ s.linkAnchor n.toNat = s.cfg.anchor ∧ s.chainSounds s.cfg.anchor = false ∧ s.nb.testUntil ≤
      s.now ∧ (s.nb.held.any fun h => h.kind == 3#2) = false ∧ s.nb.tuner ≠ 2#2 ∧ s.nb.blePll = .locked) ∧
    (∃ (s : State) (n : BitVec 8) (chains : List (List CsTone)) (k : BitVec 32) (x : Nat × Nat), s.mainUp = true ∧
      s.cfg.role ≠ .tender ∧ tableGet s.nb.csRunning n.toNat = some k ∧ (s.berth n.toNat).id.st.moored? = true ∧
      s.linkAnchor n.toNat = s.cfg.anchor ∧ phaseRange ((validChains (s.nb.links.getD ((s.linkOf n.toNat).getD 0)
      Link.reset).chanMap chains).filter fun x => s.sounds x.1) = some x) ∧
    (∃ (s : State) (n : BitVec 8) (chains : List (List CsTone)) (k : BitVec 32), s.mainUp = true ∧ s.cfg.role ≠ .tender ∧
      tableGet s.nb.csRunning n.toNat = some k ∧ (s.berth n.toNat).id.st.moored? = true ∧ s.linkAnchor n.toNat =
      s.cfg.anchor ∧ ((validChains (s.nb.links.getD ((s.linkOf n.toNat).getD 0) Link.reset).chanMap chains).filter fun x =>
      s.sounds x.1).length < 2) ∧
    (∃ (s : State) (n : BitVec 8) (chains : List (List CsTone)) (k : BitVec 32), s.mainUp = true ∧ s.cfg.role ≠ .tender ∧
      tableGet s.nb.csRunning n.toNat = some k ∧ (s.berth n.toNat).id.st.moored? = true ∧ s.linkAnchor n.toNat =
      s.cfg.anchor ∧ (csSet k ((validChains (s.nb.links.getD ((s.linkOf n.toNat).getD 0) Link.reset).chanMap chains).filter
      fun x => s.sounds x.1)).dist ≠ 0xFFFF#16) ∧
    (∃ (s : State) (n : BitVec 8) (chains : List (List CsTone)) (k : BitVec 32), s.mainUp = true ∧ s.cfg.role ≠ .tender ∧
      tableGet s.nb.csRunning n.toNat = some k ∧ (s.berth n.toNat).id.st.moored? = true ∧ s.linkAnchor n.toNat =
      s.cfg.anchor ∧ (csSet k ((validChains (s.nb.links.getD ((s.linkOf n.toNat).getD 0) Link.reset).chanMap chains).filter
      fun x => s.sounds x.1)).dist = 0xFFFF#16) ∧
    (∃ (s : State), s.hostReady = true) ∧
    (∃ (s : State) (v : BitVec 32), s.hostReady = true ∧ fieldN v 13 8 ≤ 39 ∧ 1 ≤ fieldN v 31 24 ∧ s.nb.csRunning = [] ∧
      s.nb.held = [] ∧ s.nb.linkUntil ≤ s.now ∧ s.tide.life ≠ .returned ∧ s.moored 25 = true ∧ s.nb.tuner ≠ 2#2 ∧
      s.nb.blePll = .locked) ∧
    (∃ (s : State) (v : BitVec 32), s.hostReady = true ∧ fieldN v 13 8 ≤ 39 ∧ 1 ≤ fieldN v 31 24 ∧ (s.nb.csRunning ≠ [] ∨
      s.nb.held ≠ [] ∨ s.now < s.nb.linkUntil ∨ s.tide.life = .returned ∨ s.moored 25 = false)) ∧
    (∃ (s : State) (w : BitVec 2), s.mainUp = true ∧ w.toNat < 3 ∧ s.nb.pll w.toNat = .locked ∧ w = 0#2) :=
  ⟨⟨car, by decide +kernel⟩,
    ⟨(car.upNb fun b => { b with calDue := 4#3 }), 2#2, by decide +kernel⟩,
    ⟨((car.upNb fun b => (b.setPll 2 .calibrating))), 2#2, by decide +kernel⟩,
    ⟨((car.upNb fun b => (b.setPll 2 .calibrating))), 2#2, by decide +kernel⟩,
    ⟨((car.upNb fun b => (b.setPll 2 .calibrating))), 2#2, 0, by decide +kernel⟩,
    ⟨((car.upNb fun b => (b.setPll 2 .calibrating))), 2#2, by decide +kernel⟩,
    ⟨((car.upNb fun b => (b.setPll 2 .calibrating))), 2#2, by decide +kernel⟩,
    ⟨(car.upNb fun b => { b with blePll := .locking }), by decide +kernel⟩,
    ⟨(car.upNb fun b => { b with blePll := .locking, held := [{ HeldTx.reset with planned := 64000000000, tol := 128 }] }),
      { HeldTx.reset with planned := 64000000000, tol := 128 }, by decide +kernel⟩,
    ⟨((car.upNb fun b => (b.setPll 2 .locked))), 2#2, 0, by decide +kernel⟩,
    ⟨((linked .ranged).upNb fun b => { b with csWait := [0] }), 0#8, by decide +kernel⟩,
    ⟨((linked .ranged).upNb fun b => { b with csRunning := [(0, 100#32)] }), 0#8, (List.replicate 2 ((List.range 30).map fun
      i => ({ channel := BitVec.ofNat 7 (i + 2), init := -1049 * (i : Int), refl := 0, high := true, reflHigh := true } :
      CsTone))), 100#32, (2399, 0), by decide +kernel⟩,
    ⟨((linked .ranged).upNb fun b => { b with csRunning := [(0, 100#32)] }), 0#8, [], 100#32, by decide +kernel⟩,
    ⟨((linked .ranged).upNb fun b => { b with csRunning := [(0, 100#32)] }), 0#8, (List.replicate 2 ((List.range 30).map fun
      i => ({ channel := BitVec.ofNat 7 (i + 2), init := -1049 * (i : Int), refl := 0, high := true, reflHigh := true } :
      CsTone))), 100#32, by decide +kernel⟩,
    ⟨((linked .ranged).upNb fun b => { b with csRunning := [(0, 100#32)] }), 0#8, [], 100#32, by decide +kernel⟩,
    ⟨car, by decide +kernel⟩,
    ⟨car, 0x01002700#32, by decide +kernel⟩,
    ⟨((linked .ranged).upNb fun b => { b with csRunning := [(0, 100#32)] }), 0xFF000000#32, by decide +kernel⟩,
    ⟨(car.upNb fun b => { b with csRunning := [(0, 100#32)] }), 0#2, by decide +kernel⟩⟩

/-- Witnesses for `Obligations.UwbControl`. -/
theorem test_meets_UwbControl :
    (∃ (s : State), s.hostReady = true) ∧
    (∃ (s : State), s.uwb.pll = .calibrating ∧ s.mainUp = true ∧ s.uwb.held = none) ∧
    (∃ (s : State) (r : Round), s.uwb.schedule = [r] ∧ r.phase = .prepared ∧ r.start ≤ s.now ∧ us 550 ≤ s.tideEnd ∧ s.now +
      (r.airEnd - r.start) + us 550 ≤ s.tideEnd) ∧
    (∃ (s : State) (r : Round), s.uwb.schedule = [r] ∧ r.phase = .prepared ∧ r.start ≤ s.now ∧ us 550 ≤ s.tideEnd ∧
      s.tideEnd < s.now + (r.airEnd - r.start) + us 550) ∧
    (∃ (s : State), s.uwb.pll = .calibrating ∧ s.mainUp = true ∧ s.uwb.calTries < 2) ∧
    (∃ (s : State), s.uwb.pll = .calibrating ∧ s.mainUp = true ∧ 2 ≤ s.uwb.calTries ∧ s.uwb.held = none) ∧
    (∃ (s : State) (h : HeldTx), s.uwb.pll = .calibrating ∧ s.mainUp = true ∧ 2 ≤ s.uwb.calTries ∧ s.uwb.held = some h ∧
      h.kind = 0#2) ∧
    (∃ (s : State), s.uwb.pll = .locking ∧ s.mainUp = true ∧ s.uwb.held = none) ∧
    (∃ (s : State) (h : HeldTx), s.uwb.pll = .locking ∧ s.mainUp = true ∧ s.uwb.held = some h ∧ h.kind = 0#2 ∧ s.now + us 2
      < h.planned + h.tol) ∧
    (∃ (s : State) (h : HeldTx), s.uwb.pll = .locking ∧ s.mainUp = true ∧ s.uwb.held = some h ∧ h.kind = 0#2 ∧ h.planned +
      h.tol ≤ s.now + us 2) ∧
    (∃ (s : State), s.uwb.pll = .locked ∧ s.mainUp = true ∧ s.inAir = true ∧ s.now < s.uwb.txUntil) ∧
    (∃ (s : State), s.uwb.pll = .locked ∧ s.mainUp = true ∧ s.uwb.txUntil ≤ s.now ∧ s.uwb.testUntil ≤ s.now ∧ s.uwb.calDue =
      false) ∧
    (∃ (s : State) (f : UwbFormat), s.mainUp = true ∧ (s.tide.power = .service ∨ s.tide.power = .drive) ∧ uwbSupports f =
      false) ∧
    (∃ (s : State) (f : UwbFormat), s.mainUp = true ∧ (s.tide.power = .service ∨ s.tide.power = .drive) ∧ uwbSupports f =
      true) ∧
    (∃ (s : State) (v : BitVec 32), s.hostReady = true ∧ fieldN v 13 8 ≤ 32) ∧
    (∃ (s : State) (v : BitVec 32) (b : Bytes) (old : Bool), s.hostReady = true ∧ s.uwb.cirRing[fieldN v 15 0]? = some (b,
      old)) ∧
    (∃ (s : State) (v : BitVec 32), s.hostReady = true ∧ fieldN v 17 8 ≤ 1000 ∧ 1 ≤ fieldN v 31 24 ∧ s.chainRanges = false ∧
      s.uwb.held = none ∧ s.uwb.testUntil ≤ s.now ∧ s.tide.life ≠ .returned ∧ s.moored 25 = true ∧ s.uwb.pll = .locked ∧ 2 <
      fieldN v 17 8) ∧
    (∃ (s : State) (v : BitVec 32), s.hostReady = true ∧ fieldN v 17 8 ≤ 1000 ∧ 1 ≤ fieldN v 31 24 ∧ s.chainRanges = false ∧
      s.uwb.held = none ∧ s.uwb.testUntil ≤ s.now ∧ s.tide.life ≠ .returned ∧ s.moored 25 = true ∧ s.uwb.pll = .locked ∧
      fieldN v 17 8 ≤ 2) ∧
    (∃ (s : State) (v : BitVec 32), s.hostReady = true ∧ fieldN v 17 8 ≤ 1000 ∧ 1 ≤ fieldN v 31 24 ∧ (s.chainRanges = true ∨
      s.uwb.held ≠ none ∨ s.now < s.uwb.testUntil ∨ s.tide.life = .returned ∨ s.moored 25 = false)) :=
  ⟨⟨car, by decide +kernel⟩,
    ⟨(car.upUwb fun u => { u with pll := .calibrating }), by decide +kernel⟩,
    ⟨(ranging { round .prepared with start := 63999360000, ctrlAt := 63999360000 }),
      { round .prepared with start := 63999360000, ctrlAt := 63999360000 }, by decide +kernel⟩,
    ⟨(ranging { round .prepared with airEnd := 3456001 }), { round .prepared with airEnd := 3456001 }, by decide +kernel⟩,
    ⟨(car.upUwb fun u => { u with pll := .calibrating, calTries := 1 }), by decide +kernel⟩,
    ⟨(car.upUwb fun u => { u with pll := .calibrating, calTries := 2 }), by decide +kernel⟩,
    ⟨(car.upUwb fun u =>
      { u with pll := .calibrating, calTries := 2, held := some { kind := 0#2, planned := 64000000001, tol := 128, ref := 0 } }),
      { kind := 0#2, planned := 64000000001, tol := 128, ref := 0 }, by decide +kernel⟩,
    ⟨(car.upUwb fun u => { u with pll := .locking }), by decide +kernel⟩,
    ⟨(car.upUwb fun u =>
      { u with pll := .locking, held := some { kind := 0#2, planned := 64000000001, tol := 128, ref := 0 } }),
      { kind := 0#2, planned := 64000000001, tol := 128, ref := 0 }, by decide +kernel⟩,
    ⟨(car.upUwb fun u =>
      { u with pll := .locking, held := some { kind := 0#2, planned := 64000000000, tol := 128, ref := 0 } }),
      { kind := 0#2, planned := 64000000000, tol := 128, ref := 0 }, by decide +kernel⟩,
    ⟨((ranging (round .air)).upUwb fun u => { u with txUntil := 64000000001 }), by decide +kernel⟩,
    ⟨car, by decide +kernel⟩,
    ⟨car,
      { mode := 2#2, rate := 0#2, channel := 9#4, code := 9#6, sync := 64#13, sfd := 8#8, sts := 1#2, segments := (1#3, 64#9), access := true },
      by decide +kernel⟩,
    ⟨car,
      { mode := 0#2, rate := 0#2, channel := 9#4, code := 9#6, sync := 64#13, sfd := 8#8, sts := 1#2, segments := (1#3, 64#9), access := true },
      by decide +kernel⟩,
    ⟨car, 0x20FF#32, by decide +kernel⟩,
    ⟨(car.upUwb fun u => { u with cirRing := [([1#8], false)] }), 0#32, [1#8], false, by decide +kernel⟩,
    ⟨car, 0x0103E800#32, by decide +kernel⟩,
    ⟨car, 0xFF000200#32, by decide +kernel⟩,
    ⟨(car.upUwb fun u => { u with testUntil := 64000000001 }), 0xFF000000#32, by decide +kernel⟩⟩

/-- Witnesses for `Obligations.UwbRound`. -/
theorem test_meets_UwbRound :
    (∃ (s : State) (temp : BitVec 16) (r : Round) (x : _), s.uwb.schedule.find? (fun x => x.phase == .planned) = some r ∧
      s.mainUp = true ∧ r.start ≤ s.now + us 600 ∧ s.uwb.testUntil ≤ s.now ∧ s.uwb.held = none ∧ s.cry.jobs = [] ∧
      s.useAdmits (.sts r.sid) 4#4 true 1 = true ∧ (s.inAir = true ∨ (s.uwb.calDue || tempMoved s.uwb.tempCal temp) = false)
      ∧ s.slot r.sid = some x) ∧
    (∃ (s : State) (temp : BitVec 16) (r : Round) (x : _) (j : _), s.uwb.schedule.find? (fun x => x.phase == .planned) =
      some r ∧ s.mainUp = true ∧ r.start ≤ s.now + us 600 ∧ s.uwb.testUntil ≤ s.now ∧ s.uwb.held = none ∧ s.cry.jobs = [] ∧
      s.useAdmits (.sts r.sid) 4#4 true 1 = true ∧ (s.inAir = true ∨ (s.uwb.calDue || tempMoved s.uwb.tempCal temp) = false)
      ∧ s.slot r.sid = some x ∧ j < r.n + 3) ∧
    (∃ (s : State) (temp : BitVec 16) (r : Round), s.uwb.schedule.find? (fun x => x.phase == .planned) = some r ∧ s.mainUp =
      true ∧ r.start ≤ s.now + us 600 ∧ s.uwb.testUntil ≤ s.now ∧ s.uwb.held = none ∧ s.cry.jobs = [] ∧ s.useAdmits (.sts
      r.sid) 4#4 true 1 = true ∧ (s.inAir = true ∨ (s.uwb.calDue || tempMoved s.uwb.tempCal temp) = false)) ∧
    (∃ (s : State) (r : Round), s.uwb.schedule.find? (fun x => x.phase == .prepared) = some r ∧ s.mainUp = true ∧ r.start ≤
      s.now ∧ s.uwb.held = none ∧ s.stsDone r = true ∧ r.anchorOf 0 = some s.cfg.anchor ∧ s.uwb.pll = .locked ∧ s.now <
      r.start + us 20 ∧ s.keysServe = true ∧ s.useAdmits (.mac r.sid) 4#4 true 1 = true) ∧
    (∃ (s : State) (r : Round), s.uwb.schedule.find? (fun x => x.phase == .prepared) = some r ∧ s.mainUp = true ∧ r.start ≤
      s.now ∧ s.uwb.held = none ∧ s.stsDone r = true ∧ r.anchorOf 0 = some s.cfg.anchor ∧ s.uwb.pll = .locked ∧ s.now <
      r.start + us 20 ∧ s.useAdmits (.mac r.sid) 4#4 true 1 = false) ∧
    (∃ (s : State) (r : Round), s.uwb.schedule.find? (fun x => x.phase == .prepared) = some r ∧ s.mainUp = true ∧ r.start ≤
      s.now ∧ s.uwb.held = none ∧ s.stsDone r = true ∧ r.anchorOf 0 = some s.cfg.anchor ∧ s.uwb.pll = .locked ∧ r.start + us
      20 ≤ s.now) ∧
    (∃ (s : State) (r : Round), s.uwb.schedule.find? (fun x => x.phase == .prepared) = some r ∧ s.mainUp = true ∧ r.start ≤
      s.now ∧ s.uwb.held = none ∧ s.stsDone r = false ∧ s.uwb.pll ≠ .calibrating) ∧
    (∃ (s : State) (r : Round), s.uwb.schedule.find? (fun x => x.phase == .ctrl) = some r ∧ s.mainUp = true) :=
  ⟨⟨((ranging (round .planned)).upUwb fun u => { u with tempCal := 5#16 }), 5#16, (round .planned), sess,
      by decide +kernel⟩,
    ⟨((ranging (round .planned)).upUwb fun u => { u with tempCal := 5#16 }), 5#16, (round .planned), sess, 2,
      by decide +kernel⟩,
    ⟨((ranging (round .planned)).upUwb fun u => { u with tempCal := 5#16 }), 5#16, (round .planned), by decide +kernel⟩,
    ⟨(ranging { round .prepared with start := 64000000000, ctrlAt := 64000000000 }),
      { round .prepared with start := 64000000000, ctrlAt := 64000000000 }, by decide +kernel⟩,
    ⟨((ranging { round .prepared with start := 64000000000, ctrlAt := 64000000000 }).upKeys fun k =>
      { k with slots := [] }), { round .prepared with start := 64000000000, ctrlAt := 64000000000 }, by decide +kernel⟩,
    ⟨(ranging { round .prepared with start := 63999360000, ctrlAt := 63999360000 }),
      { round .prepared with start := 63999360000, ctrlAt := 63999360000 }, by decide +kernel⟩,
    ⟨(ranging { round .prepared with stsReady := false }), { round .prepared with stsReady := false }, by decide +kernel⟩,
    ⟨(ranging (round .ctrl)), (round .ctrl), by decide +kernel⟩⟩

/-- Witnesses for `Obligations.UwbRound`. -/
theorem test_meets_UwbRound_2 :
    (∃ (s : State) (r : Round) (x : UwbStamp) (m : UwbMeas), s.uwb.schedule = [r] ∧ r.phase = .ctrl ∧ s.mainUp = true ∧
      s.cfg.role ≠ .tender ∧ s.uwb.cirEnable = false ∧ s.hears r s.cfg.anchor = true ∧ s.measureUwb x = some m ∧ inSpan
      m.stamp (r.ctrlStamp + BitVec.ofNat 40 (unitsOf (39 * us (250 + r.tk)))) (-(39 * us 20 : Nat)) (39 * us 20 : Nat) =
      true) ∧
    (∃ (s : State) (r : Round) (x : UwbStamp) (m : UwbMeas) (a : _), s.uwb.schedule = [r] ∧ r.phase = .ctrl ∧ s.mainUp =
      true ∧ s.cfg.role ≠ .tender ∧ s.uwb.cirEnable = false ∧ s.hears r s.cfg.anchor = true ∧ s.measureUwb x = some m ∧
      inSpan m.stamp (r.ctrlStamp + BitVec.ofNat 40 (unitsOf (39 * us (250 + r.tk)))) (-(39 * us 20 : Nat)) (39 * us 20 :
      Nat) = true ∧ a ≠ m.anchor.toNat) ∧
    (∃ (s : State) (r : Round) (x : UwbStamp) (m : UwbMeas), s.uwb.schedule = [r] ∧ r.phase = .ctrl ∧ s.mainUp = true ∧
      s.uwb.cirEnable = false ∧ s.measureUwb x = some m ∧ inSpan m.stamp (r.ctrlStamp + BitVec.ofNat 40 (unitsOf (39 * us
      (250 + r.tk)))) (-(39 * us 20 : Nat)) (39 * us 20 : Nat) = false) ∧
    (∃ (s : State) (r : Round) (i : BitVec 4) (p : BitVec 40), s.uwb.schedule = [r] ∧ r.phase = .poll ∧ r.lost = false ∧
      r.anchorOf i.toNat = some s.cfg.anchor ∧ (r.rxOf s.cfg.anchor).poll = some p ∧ (r.rxOf s.cfg.anchor).resp = none ∧
      s.mainUp = true ∧ s.uwb.pll = .locked ∧ s.cfg.role ≠ .tender) ∧
    (∃ (s : State) (r : Round) (i : BitVec 4) (p : BitVec 40) (b : _), s.uwb.schedule = [r] ∧ r.phase = .poll ∧ r.lost =
      false ∧ r.anchorOf i.toNat = some s.cfg.anchor ∧ (r.rxOf s.cfg.anchor).poll = some p ∧ (r.rxOf s.cfg.anchor).resp =
      none ∧ s.mainUp = true ∧ s.uwb.pll = .locked ∧ s.cfg.role ≠ .tender ∧ b ≠ s.cfg.anchor) ∧
    (∃ (s : State) (r : Round) (i : BitVec 4) (p : BitVec 40), s.uwb.schedule = [r] ∧ r.phase = .poll ∧ r.lost = false ∧
      r.anchorOf i.toNat = some s.cfg.anchor ∧ (r.rxOf s.cfg.anchor).poll = some p ∧ (r.rxOf s.cfg.anchor).resp = none ∧
      s.mainUp = true ∧ s.uwb.pll ≠ .locked) ∧
    (∃ (s : State) (r : Round) (x : UwbStamp) (m : UwbMeas), s.uwb.schedule = [r] ∧ r.phase = .poll ∧ r.ds = true ∧ s.mainUp
      = true ∧ s.cfg.role ≠ .tender ∧ s.uwb.cirEnable = false ∧ s.hears r s.cfg.anchor = true ∧ s.measureUwb x = some m ∧
      inSpan m.stamp (s.lastPlan r) (-(39 * us 20 : Nat)) (39 * us 20 : Nat) = true) ∧
    (∃ (s : State) (r : Round) (x : UwbStamp) (m : UwbMeas) (a : _), s.uwb.schedule = [r] ∧ r.phase = .poll ∧ r.ds = true ∧
      s.mainUp = true ∧ s.cfg.role ≠ .tender ∧ s.uwb.cirEnable = false ∧ s.hears r s.cfg.anchor = true ∧ s.measureUwb x =
      some m ∧ inSpan m.stamp (s.lastPlan r) (-(39 * us 20 : Nat)) (39 * us 20 : Nat) = true ∧ a ≠ m.anchor.toNat) :=
  ⟨⟨(ranging (round .ctrl)), (round .ctrl),
      { cfo := 0, chains := [{ chain := 0#2, stamp := (round .ctrl).pollPlan, fp := 0, total := 0, phase := 0, exp := 0#8, pos := 0#16, taps := [] }] },
      { anchor := 0#6, stamp := (round .ctrl).pollPlan, cfo := 0, fp := 0, total := 0, az := none, el := none },
      by decide +kernel⟩,
    ⟨(ranging (round .ctrl)), (round .ctrl),
      { cfo := 0, chains := [{ chain := 0#2, stamp := (round .ctrl).pollPlan, fp := 0, total := 0, phase := 0, exp := 0#8, pos := 0#16, taps := [] }] },
      { anchor := 0#6, stamp := (round .ctrl).pollPlan, cfo := 0, fp := 0, total := 0, az := none, el := none }, 32,
      by decide +kernel⟩,
    ⟨(ranging (round .ctrl)), (round .ctrl),
      { cfo := 0, chains := [{ chain := 0#2, stamp := ((round .ctrl).pollPlan + 0x8000000000#40), fp := 0, total := 0, phase := 0, exp := 0#8, pos := 0#16, taps := [] }] },
      { anchor := 0#6, stamp := ((round .ctrl).pollPlan + 0x8000000000#40), cfo := 0, fp := 0, total := 0, az := none, el := none },
      by decide +kernel⟩,
    ⟨(ranging { round .poll with rx := [{ UwbRx.reset with poll := some 5 }] }),
      { round .poll with rx := [{ UwbRx.reset with poll := some 5 }] }, 0#4, 5, by decide +kernel⟩,
    ⟨(ranging { round .poll with rx := [{ UwbRx.reset with poll := some 5 }] }),
      { round .poll with rx := [{ UwbRx.reset with poll := some 5 }] }, 0#4, 5, 1, by decide +kernel⟩,
    ⟨((ranging { round .poll with rx := [{ UwbRx.reset with poll := some 5 }] }).upUwb fun u => { u with pll := .locking }),
      { round .poll with rx := [{ UwbRx.reset with poll := some 5 }] }, 0#4, 5, by decide +kernel⟩,
    ⟨(ranging { round .poll with ds := true }), { round .poll with ds := true },
      { cfo := 0, chains := [{ chain := 0#2, stamp := (car.lastPlan { round .poll with ds := true }), fp := 0, total := 0, phase := 0, exp := 0#8, pos := 0#16, taps := [] }] },
      { anchor := 0#6, stamp := (car.lastPlan { round .poll with ds := true }), cfo := 0, fp := 0, total := 0, az := none, el := none },
      by decide +kernel⟩,
    ⟨(ranging { round .poll with ds := true }), { round .poll with ds := true },
      { cfo := 0, chains := [{ chain := 0#2, stamp := (car.lastPlan { round .poll with ds := true }), fp := 0, total := 0, phase := 0, exp := 0#8, pos := 0#16, taps := [] }] },
      { anchor := 0#6, stamp := (car.lastPlan { round .poll with ds := true }), cfo := 0, fp := 0, total := 0, az := none, el := none },
      32, by decide +kernel⟩⟩

/-- Witnesses for `Obligations.UwbRound`. -/
theorem test_meets_UwbRound_3 :
    (∃ (s : State) (r : Round) (m : UwbRx) (u : BitVec 40) (d : Bytes) (p : BitVec 40) (x : BitVec 40), s.uwb.schedule = [r]
      ∧ (r.phase = .poll ∨ r.phase = .final) ∧ r.lost = false ∧ s.mainUp = true ∧ s.uwb.pll = .locked ∧ d.length = 20 + 4 *
      r.n ∧ inSpan (s.correctRx s.cfg.anchor u) (s.lastEnd r) (39 * us 8 : Nat) (39 * us 58 : Nat) = true ∧ s.keysServe =
      true ∧ s.useAdmits (.mac r.sid) 4#4 true 1 = true ∧ macOf (s.cellKey (.mac r.sid)) 8 (le 4 (s.sidOf r.sid).toNat ++
      d.take (0x0C + 4 * r.n)) = d.drop (0x0C + 4 * r.n) ∧ leAt d 0 4 = r.index.toNat ∧ r.rx = [m] ∧ r.anchorOf 0 = some
      m.anchor ∧ m.poll = some p ∧ m.resp = some x ∧ (d.getD 8 0#8).getLsbD 0 = true ∧ leAt d 0x0C 4 ≠ 0xFFFFFFFF ∧ r.ds =
      false) ∧
    (∃ (s : State) (r : Round) (m : UwbRx) (u : BitVec 40) (d : Bytes) (p : BitVec 40) (x : BitVec 40) (f : BitVec 40),
      s.uwb.schedule = [r] ∧ (r.phase = .poll ∨ r.phase = .final) ∧ r.lost = false ∧ s.mainUp = true ∧ s.uwb.pll = .locked ∧
      d.length = 20 + 4 * r.n ∧ inSpan (s.correctRx s.cfg.anchor u) (s.lastEnd r) (39 * us 8 : Nat) (39 * us 58 : Nat) =
      true ∧ s.keysServe = true ∧ s.useAdmits (.mac r.sid) 4#4 true 1 = true ∧ macOf (s.cellKey (.mac r.sid)) 8 (le 4
      (s.sidOf r.sid).toNat ++ d.take (0x0C + 4 * r.n)) = d.drop (0x0C + 4 * r.n) ∧ leAt d 0 4 = r.index.toNat ∧ r.rx = [m]
      ∧ r.anchorOf 0 = some m.anchor ∧ m.poll = some p ∧ m.resp = some x ∧ (d.getD 8 0#8).getLsbD 0 = true ∧ leAt d 0x0C 4 ≠
      0xFFFFFFFF ∧ r.ds = true ∧ m.final = some f) ∧
    (∃ (s : State) (r : Round) (u : BitVec 40) (d : Bytes), s.uwb.schedule = [r] ∧ (r.phase = .poll ∨ r.phase = .final) ∧
      s.mainUp = true ∧ s.uwb.pll = .locked ∧ d.length = 20 + 4 * r.n ∧ inSpan (s.correctRx s.cfg.anchor u) (s.lastEnd r)
      (39 * us 8 : Nat) (39 * us 58 : Nat) = true ∧ s.keysServe = true ∧ s.useAdmits (.mac r.sid) 4#4 true 1 = true ∧ macOf
      (s.cellKey (.mac r.sid)) 8 (le 4 (s.sidOf r.sid).toNat ++ d.take (0x0C + 4 * r.n)) ≠ d.drop (0x0C + 4 * r.n)) ∧
    (∃ (s : State) (r : Round), s.uwb.schedule.find? Round.airborne = some r ∧ s.mainUp = true ∧ r.airEnd ≤ s.now ∧
      s.cfg.role ≠ .tender ∧ s.canSound r.berth = false ∧ s.uwb.calDue = false) ∧
    (∃ (s : State) (r : Round), s.uwb.schedule = [r] ∧ r.phase = .ended ∧ s.mainUp = true ∧ s.cfg.role ≠ .tender ∧ r.isLost
      = true) ∧
    (∃ (s : State) (r : Round) (m : UwbRx), s.uwb.schedule = [r] ∧ r.phase = .ended ∧ s.mainUp = true ∧ s.cfg.role ≠ .tender
      ∧ r.rx = [m] ∧ r.isLost = false ∧ (s.berth r.berth).id.st.moored? = true ∧ s.anchorUp m.anchor = true) :=
  ⟨⟨(ranging { round .poll with n := 1, rx := [{ UwbRx.reset with poll := some 5, resp := some 9 }] }),
      { round .poll with n := 1, rx := [{ UwbRx.reset with poll := some 5, resp := some 9 }] },
      { UwbRx.reset with poll := some 5, resp := some 9 }, ((ranging
      { round .poll with n := 1, rx := [{ UwbRx.reset with poll := some 5, resp := some 9 }] }).lastEnd
      { round .poll with n := 1, rx := [{ UwbRx.reset with poll := some 5, resp := some 9 }] } + BitVec.ofNat 40 (unitsOf
      (39 * us 9))), ([0#8, 0#8, 0#8, 0#8, 0#8, 0#8, 0#8, 0#8, 1#8, 0#8, 0#8, 0#8, 9#8, 0#8, 0#8, 0#8] ++ [9#8, 0#8, 0#8,
      0#8, 128#8, 0#8, 0#8, 0#8]), 5, 9, by decide +kernel⟩,
    ⟨(ranging
      { round .poll with n := 1, rx := [{ UwbRx.reset with poll := some 5, resp := some 9, final := some 700 }], ds := true }),
      { round .poll with n := 1, rx := [{ UwbRx.reset with poll := some 5, resp := some 9, final := some 700 }], ds := true },
      { UwbRx.reset with poll := some 5, resp := some 9, final := some 700 }, ((ranging
      { round .poll with n := 1, rx := [{ UwbRx.reset with poll := some 5, resp := some 9, final := some 700 }], ds := true }).lastEnd
      { round .poll with n := 1, rx := [{ UwbRx.reset with poll := some 5, resp := some 9, final := some 700 }], ds := true }
      + BitVec.ofNat 40 (unitsOf (39 * us 9))), ([0#8, 0#8, 0#8, 0#8, 0#8, 0#8, 0#8, 0#8, 1#8, 0#8, 0#8, 0#8, 9#8, 0#8, 0#8,
      0#8] ++ [9#8, 0#8, 0#8, 0#8, 128#8, 0#8, 0#8, 0#8]), 5, 9, 700, by decide +kernel⟩,
    ⟨(ranging { round .poll with n := 1, rx := [{ UwbRx.reset with poll := some 5, resp := some 9 }] }),
      { round .poll with n := 1, rx := [{ UwbRx.reset with poll := some 5, resp := some 9 }] }, ((ranging
      { round .poll with n := 1, rx := [{ UwbRx.reset with poll := some 5, resp := some 9 }] }).lastEnd
      { round .poll with n := 1, rx := [{ UwbRx.reset with poll := some 5, resp := some 9 }] } + BitVec.ofNat 40 (unitsOf
      (39 * us 9))), (List.replicate 24 0#8), by decide +kernel⟩,
    ⟨(ranging (round .air)), (round .air), by decide +kernel⟩,
    ⟨(ranging { round .ended with lost := true }), { round .ended with lost := true }, by decide +kernel⟩,
    ⟨((seat car 0 (phone .ranged)).upUwb fun u =>
      { u with schedule := [{ round .ended with dataOk := true, rx := [{ UwbRx.reset with poll := some 5, resp := some 9 }] }] }),
      { round .ended with dataOk := true, rx := [{ UwbRx.reset with poll := some 5, resp := some 9 }] },
      { UwbRx.reset with poll := some 5, resp := some 9 }, by decide +kernel⟩⟩

/-- Witnesses for `Obligations.NfcReader`. -/
theorem test_meets_NfcReader :
    (∃ (s : State), s.readerRuns = true ∧ s.nfc.fieldBack = none ∧ s.nfc.cards.length < 4 ∧ (s.nfc.rescanDue = true ∨
      s.nfc.lastReqa + ms s.reqaPeriod ≤ s.now)) ∧
    (∃ (s : State) (uids : List (Bytes × Bool)) (u : Bytes) (k : Nat), s.readerRuns = true ∧ s.nfc.fieldBack = none ∧
      selectCard ((s.answering uids).map Prod.fst) = (some u, k) ∧ s.tide.power = .standby) ∧
    (∃ (s : State) (uids : List (Bytes × Bool)) (u : Bytes) (k : Nat), s.readerRuns = true ∧ s.nfc.fieldBack = none ∧
      selectCard ((s.answering uids).map Prod.fst) = (some u, k) ∧ s.tide.power ≠ .standby ∧ (u, true) ∉ s.answering uids) ∧
    (∃ (s : State) (uids : List (Bytes × Bool)) (u : Bytes) (k : Nat) (cid : _), s.readerRuns = true ∧ s.nfc.fieldBack =
      none ∧ selectCard ((s.answering uids).map Prod.fst) = (some u, k) ∧ s.tide.power ≠ .standby ∧ (u, true) ∈ s.answering
      uids ∧ freeCid s.nfc.cards = some cid) ∧
    (∃ (s : State) (uids : List (Bytes × Bool)) (u : Bytes) (k : Nat), s.readerRuns = true ∧ s.nfc.fieldBack = none ∧
      selectCard ((s.answering uids).map Prod.fst) = (some u, k) ∧ s.tide.power ≠ .standby ∧ (u, true) ∈ s.answering uids ∧
      freeCid s.nfc.cards = none) ∧
    (∃ (s : State) (cid : BitVec 4) (sw : BitVec 16) (c : Card), s.card cid = some c ∧ s.readerRuns = true ∧ c.berth = none
      ∧ c.access = false ∧ sw ≠ 0x9000#16) ∧
    (∃ (s : State) (cid : BitVec 4) (role : BitVec 8) (c : Card), s.card cid = some c ∧ s.readerRuns = true ∧ c.berth = none
      ∧ c.access = false ∧ role ≠ 0#8) ∧
    (∃ (s : State) (cid : BitVec 4) (c : Card) (n : _), s.card cid = some c ∧ s.readerRuns = true ∧ c.berth = none ∧
      c.access = false ∧ s.berthsRun = true ∧ s.freeBerth = some n) ∧
    (∃ (s : State) (cid : BitVec 4) (rb : Bytes) (mac : Bytes) (n : Nat) (g : Bool), s.cardBerth cid = some (n, g) ∧
      s.readerRuns = true ∧ (s.berth n).se.ra ≠ [] ∧ (s.berth n).se.rb = [] ∧ s.keysServe = true ∧ s.useAdmits (.auth n) 2#4
      true 1 = true ∧ accessMac 0x43#8 (s.berth n).se.authKey (s.berth n).se.ra rb (s.berth n).id.cred s.ident.device = mac) ∧
    (∃ (s : State) (cid : BitVec 4) (rb : Bytes) (mac : Bytes) (n : Nat) (g : Bool) (sw : _), s.cardBerth cid = some (n, g)
      ∧ s.readerRuns = true ∧ (s.berth n).se.ra ≠ [] ∧ (s.berth n).se.rb = [] ∧ s.keysServe = true ∧ s.useAdmits (.auth n)
      2#4 true 1 = true ∧ (sw ≠ 0x9000#16 ∨ accessMac 0x43#8 (s.berth n).se.authKey (s.berth n).se.ra rb (s.berth n).id.cred
      s.ident.device ≠ mac)) ∧
    (∃ (s : State) (cid : BitVec 4) (n : Nat) (g : Bool), s.cardBerth cid = some (n, g) ∧ s.readerRuns = true ∧ (s.berth
      n).se.ra ≠ [] ∧ (s.berth n).se.rb = [] ∧ s.keysServe = true ∧ s.useAdmits (.auth n) 2#4 true 1 = false) ∧
    (∃ (s : State) (cid : BitVec 4) (n : Nat) (g : Bool), s.cardBerth cid = some (n, g) ∧ s.readerRuns = true ∧ (s.berth
      n).se.challengeSent = true ∧ (s.berth n).se.rb ≠ [] ∧ g = false) ∧
    (∃ (s : State) (cid : BitVec 4) (n : Nat) (g : Bool), s.cardBerth cid = some (n, g) ∧ s.readerRuns = true ∧ (s.berth
      n).se.challengeSent = true ∧ (s.berth n).se.rb ≠ [] ∧ g = true) ∧
    (∃ (s : State) (cid : BitVec 4) (n : Nat) (g : Bool) (sw : _), s.cardBerth cid = some (n, g) ∧ s.readerRuns = true ∧
      (s.berth n).se.challengeSent = true ∧ (s.berth n).se.rb ≠ [] ∧ sw ≠ 0x9000#16) ∧
    (∃ (s : State) (cid : BitVec 4) (c : Card) (n : Nat), s.card cid = some c ∧ s.readerRuns = true ∧ s.nfc.fieldBack = none
      ∧ c.berth = some n) ∧
    (∃ (s : State) (t : Nat) (n : Nat) (c : Card), s.nfc.fieldBack = some t ∧ t ≤ s.now ∧ s.readerRuns = true ∧ s.nfc.cards
      = [c] ∧ c.berth = some n) ∧
    (∃ (s : State) (t : Nat) (n : Nat) (c : Card), s.nfc.fieldBack = some t ∧ t ≤ s.now ∧ s.readerRuns = true ∧ s.nfc.cards
      = [c] ∧ c.berth = some n ∧ (s.berth n).id.st = .hailed) ∧
    (∃ (s : State) (t : Nat) (n : Nat) (c : Card), s.nfc.fieldBack = some t ∧ t ≤ s.now ∧ s.readerRuns = true ∧ s.nfc.cards
      = [c] ∧ c.berth = some n ∧ (s.berth n).id.st = .moored) ∧
    (∃ (s : State), s.hostReady = true) ∧
    (∃ (s : State) (v : BitVec 32) (c : _), s.hostReady = true ∧ s.nfc.cards[fieldN v 1 0]? = some c) ∧
    (∃ (s : State) (v : BitVec 32), s.hostReady = true ∧ s.nfc.cards[fieldN v 1 0]? = none) :=
  ⟨⟨car, by decide +kernel⟩,
    ⟨(carIn .standby), [([1#8, 2#8, 3#8, 4#8], true)], [1#8, 2#8, 3#8, 4#8], 0, by decide +kernel⟩,
    ⟨car, [([1#8, 2#8, 3#8, 4#8], false)], [1#8, 2#8, 3#8, 4#8], 0, by decide +kernel⟩,
    ⟨car, [(List.replicate 10 1#8, true)], (List.replicate 10 1#8), 0, 1#4, by decide +kernel⟩,
    ⟨(car.upNfc fun c =>
      { c with cards := [{ Card.reset with cid := 1#4 }, { Card.reset with cid := 2#4 }, { Card.reset with cid := 3#4 }, { Card.reset with cid := 4#4 }] }),
      [(List.replicate 7 1#8, true)], (List.replicate 7 1#8), 0, by decide +kernel⟩,
    ⟨(car.upNfc fun c => { c with cards := [{ Card.reset with uid := [1#8, 2#8, 3#8, 4#8], cid := 1#4 }] }), 1#4, 0x6A82#16,
      { Card.reset with uid := [1#8, 2#8, 3#8, 4#8], cid := 1#4 }, by decide +kernel⟩,
    ⟨(car.upNfc fun c => { c with cards := [{ Card.reset with uid := [1#8, 2#8, 3#8, 4#8], cid := 1#4 }] }), 1#4, 1#8,
      { Card.reset with uid := [1#8, 2#8, 3#8, 4#8], cid := 1#4 }, by decide +kernel⟩,
    ⟨(car.upNfc fun c => { c with cards := [{ Card.reset with uid := [1#8, 2#8, 3#8, 4#8], cid := 1#4 }] }), 1#4,
      { Card.reset with uid := [1#8, 2#8, 3#8, 4#8], cid := 1#4 }, 0, by decide +kernel⟩,
    ⟨(carded .hailed), 1#4, [5#8], _, 0, false, by decide +kernel, by decide +kernel, by decide +kernel, by decide +kernel,
      by decide +kernel, by decide +kernel, rfl⟩,
    ⟨(carded .hailed), 1#4, [5#8], [], 0, false, 0x6300#16, by decide +kernel⟩,
    ⟨((carded .hailed).modSe 0 fun b => { b with authKey := [] }), 1#4, 0, false, by decide +kernel⟩,
    ⟨((carded .hailed).modSe 0 fun b => { b with challengeSent := true, rb := [5#8] }), 1#4, 0, false, by decide +kernel⟩,
    ⟨((seat (carded .moored) 0
      { Berth.reset with id := { BerthId.reset with st := .moored, kind := 3#3, cred := 7#64 }, se := { BerthSess.reset with challengeSent := true, rb := [5#8] } }).upNfc
      fun c =>
      { c with cards := [{ Card.reset with uid := [1#8, 2#8, 3#8, 4#8], cid := 1#4, access := true, berth := some 0, fresh := true }] }),
      1#4, 0, true, by decide +kernel⟩,
    ⟨((carded .hailed).modSe 0 fun b => { b with challengeSent := true, rb := [5#8] }), 1#4, 0, false, 0x6300#16,
      by decide +kernel⟩,
    ⟨(carded .moored), 1#4, { Card.reset with uid := [1#8, 2#8, 3#8, 4#8], cid := 1#4, access := true, berth := some 0 }, 0,
      by decide +kernel⟩,
    ⟨((carded .ranged).upNfc fun c => { c with fieldBack := some 64000000000 }), 64000000000, 0,
      { Card.reset with uid := [1#8, 2#8, 3#8, 4#8], cid := 1#4, access := true, berth := some 0 }, by decide +kernel⟩,
    ⟨((carded .hailed).upNfc fun c => { c with fieldBack := some 64000000000 }), 64000000000, 0,
      { Card.reset with uid := [1#8, 2#8, 3#8, 4#8], cid := 1#4, access := true, berth := some 0 }, by decide +kernel⟩,
    ⟨((carded .moored).upNfc fun c => { c with fieldBack := some 64000000000 }), 64000000000, 0,
      { Card.reset with uid := [1#8, 2#8, 3#8, 4#8], cid := 1#4, access := true, berth := some 0 }, by decide +kernel⟩,
    ⟨car, by decide +kernel⟩,
    ⟨(carded .moored), 0#32, { Card.reset with uid := [1#8, 2#8, 3#8, 4#8], cid := 1#4, access := true, berth := some 0 },
      by decide +kernel⟩,
    ⟨(carded .moored), 1#32, by decide +kernel⟩⟩

/-- Witnesses for `Obligations.NfcTag`. -/
theorem test_meets_NfcTag :
    (∃ (s : State), s.nfc.tagField = false ∧ s.tagPowered? = true) ∧
    (∃ (s : State), s.nfc.tagField = false ∧ s.tagPowered? = false) ∧
    (∃ (s : State), s.nfc.tagField = true ∧ s.nfc.delayUntil = none ∧ s.nfc.tagState = .field ∧ s.nfc.tagPowered = false) ∧
    (∃ (s : State) (n : _), s.nfc.tagField = true ∧ s.nfc.delayUntil = none ∧ s.nfc.tagState = .field ∧ s.nfc.tagPowered =
      true ∧ s.berthsRun = true ∧ s.nfc.tagBerth = none ∧ s.freeBerth = some n) ∧
    (∃ (s : State) (device : BitVec 64), s.nfc.tagField = true ∧ s.nfc.delayUntil = none ∧ device ≠ s.ident.device) ∧
    (∃ (s : State) (cred : BitVec 64) (k : _), s.nfc.tagField = true ∧ s.nfc.delayUntil = none ∧ s.nfc.tagState = .field ∧
      s.nfc.mirror.getLsbD 2 = true ∧ s.moored 10 = true ∧ s.nfc.tableKey cred = some k) ∧
    (∃ (s : State) (t : Nat), s.nfc.tagField = true ∧ s.nfc.delayUntil = some t) ∧
    (∃ (s : State) (t : Nat), s.nfc.tagField = true ∧ s.nfc.delayUntil = some t ∧ t ≤ s.now) ∧
    (∃ (s : State) (mac : Bytes), s.nfc.tagField = true ∧ s.nfc.delayUntil = none ∧ s.nfc.tagState = .pending1 ∧ accessMac
      0x52#8 s.nfc.tagKey s.nfc.tagRb s.nfc.tagRa s.nfc.tagCred s.ident.device = mac) ∧
    (∃ (s : State) (off : BitVec 16) (len : BitVec 8), s.nfc.tagField = true ∧ s.nfc.delayUntil = none ∧ s.nfc.tagState =
      .field ∧ 1 ≤ len.toNat ∧ len.toNat ≤ 240 ∧ off.toNat + len.toNat ≤ 0x400) ∧
    (∃ (s : State) (off : BitVec 16) (len : BitVec 8), s.nfc.tagField = true ∧ s.nfc.delayUntil = none ∧ s.nfc.tagState =
      .field ∧ 0x400 < off.toNat + len.toNat) ∧
    (∃ (s : State) (off : BitVec 16) (d : Bytes) (i : _), s.nfc.tagField = true ∧ s.nfc.delayUntil = none ∧ s.nfc.tagState =
      .secured0 ∧ 1 ≤ d.length ∧ d.length ≤ 240 ∧ 0x400 ≤ off.toNat ∧ off.toNat + d.length ≤ 0x1000 ∧ i < d.length) ∧
    (∃ (s : State) (off : BitVec 16) (d : Bytes) (a : _), s.nfc.tagField = true ∧ s.nfc.delayUntil = none ∧ s.nfc.tagState =
      .secured0 ∧ 1 ≤ d.length ∧ d.length ≤ 240 ∧ 0x400 ≤ off.toNat ∧ off.toNat + d.length ≤ 0x1000 ∧ (a < off.toNat ∨
      off.toNat + d.length ≤ a)) ∧
    (∃ (s : State), s.nfc.tagField = true ∧ s.nfc.delayUntil = none ∧ s.nfc.tagState = .field) ∧
    (∃ (s : State) (off : BitVec 16) (len : BitVec 8), s.nfc.tagField = true ∧ s.nfc.delayUntil = none ∧ 1 ≤ len.toNat ∧
      len.toNat ≤ 240 ∧ off.toNat + len.toNat ≤ 2836) ∧
    (∃ (s : State), s.nfc.tagField = true ∧ (s.nfc.harvOn = none ∨ s.nfc.harvRec ≠ none)) ∧
    (∃ (s : State) (t : Nat) (i : Nat), s.nfc.harvOn = some t ∧ s.nfc.harvRec = some i ∧ t + sec s.nfc.harvSeconds ≤ s.now) ∧
    (∃ (s : State) (ha : BitVec 20) (a : _), s.hostReady = true ∧ 0x5C008 ≤ 2 * ha.toNat ∧ 2 * ha.toNat < 0x5D000 ∧
      s.nfc.tagSession = false ∧ s.nfc.hostWrites = [] ∧ s.tend.harvHave = false ∧ s.nfc.tagFrameEnd ≤ s.now ∧ a ≠ 2 *
      ha.toNat - 0x5C000 ∧ a ≠ 2 * ha.toNat - 0x5C000 + 1) ∧
    (∃ (s : State) (ha : BitVec 20), s.hostReady = true ∧ 0x5C000 ≤ 2 * ha.toNat ∧ 2 * ha.toNat < 0x5E000 ∧
      s.nfc.tagFrameEnd ≤ s.now) :=
  ⟨⟨car, by decide +kernel⟩,
    ⟨(carIn .deep), by decide +kernel⟩,
    ⟨((tagged .field).upNfc fun c => { c with tagPowered := false }), by decide +kernel⟩,
    ⟨(tagged .field), 0, by decide +kernel⟩,
    ⟨(tagged .field), 0xFFFFFFFFFFFFFFFF#64, by decide +kernel⟩,
    ⟨keyed, 7#64, (List.replicate 16 0#8), by decide +kernel⟩,
    ⟨((tagged .field).upNfc fun c => { c with delayUntil := some 5 }), 5, by decide +kernel⟩,
    ⟨((tagged .field).upNfc fun c => { c with delayUntil := some 64000000000 }), 64000000000, by decide +kernel⟩,
    ⟨(tagged .pending1), _, by decide +kernel, by decide +kernel, by decide +kernel, rfl⟩,
    ⟨(tagged .field), 0x310#16, 240#8, by decide +kernel⟩,
    ⟨(tagged .field), 0x400#16, 1#8, by decide +kernel⟩,
    ⟨(tagged .secured0), 0xFFF#16, [5#8], 0, by decide +kernel⟩,
    ⟨(tagged .secured0), 0x400#16, [5#8], 0x401, by decide +kernel⟩,
    ⟨(tagged .field), by decide +kernel⟩,
    ⟨(tagged .secured1), 2596#16, 240#8, by decide +kernel⟩,
    ⟨(tagged .secured0), by decide +kernel⟩,
    ⟨(car.upNfc fun c => { c with harvOn := some 63936000000, harvRec := some 95 }), 63936000000, 95, by decide +kernel⟩,
    ⟨car, 0x2E7FF#20, 0, by decide +kernel⟩,
    ⟨car, 0x2EFFF#20, by decide +kernel⟩⟩

/-- Witnesses for `Obligations.RegisterImport`. -/
theorem test_meets_RegisterImport :
    (∃ (s : State), s.hostReady = true ∧ s.cfg.role ≠ .tender ∧ s.reg.state = .idle) ∧
    (∃ (s : State), s.hostReady = true ∧ s.cfg.role ≠ .tender ∧ s.reg.state ≠ .idle) ∧
    (∃ (s : State) (ha : BitVec 20), s.hostReady = true ∧ s.cfg.role ≠ .tender ∧ s.reg.state = .loading ∧ 0x81000 ≤ 2 *
      ha.toNat ∧ 2 * ha.toNat < 0x82000) ∧
    (∃ (s : State) (crc : BitVec 32) (i : _), s.hostReady = true ∧ s.cfg.role ≠ .tender ∧ s.reg.state = .loading ∧ crc32c
      (Mem.load s.reg.window 0 (min 4096 (s.reg.len - 4096 * (s.reg.block.toNat)))) = crc ∧ i < (Mem.load s.reg.window 0
      (min 4096 (s.reg.len - 4096 * (s.reg.block.toNat)))).length) ∧
    (∃ (s : State) (crc : BitVec 32) (a : _), s.hostReady = true ∧ s.cfg.role ≠ .tender ∧ s.reg.state = .loading ∧ crc32c
      (Mem.load s.reg.window 0 (min 4096 (s.reg.len - 4096 * (s.reg.block.toNat)))) = crc ∧ (a < 4096 * (s.reg.block.toNat)
      ∨ 4096 * (s.reg.block.toNat) + (Mem.load s.reg.window 0 (min 4096 (s.reg.len - 4096 * (s.reg.block.toNat)))).length ≤
      a)) ∧
    (∃ (s : State) (crc : BitVec 32) (c : _), s.hostReady = true ∧ s.cfg.role ≠ .tender ∧ s.reg.state = .loading ∧ crc32c
      (Mem.load s.reg.window 0 (min 4096 (s.reg.len - 4096 * (s.reg.block.toNat)))) = crc ∧ c ≠ (s.reg.block.toNat)) ∧
    (∃ (s : State) (crc : BitVec 32), s.hostReady = true ∧ s.cfg.role ≠ .tender ∧ s.reg.state = .loading ∧ crc32c (Mem.load
      s.reg.window 0 (min 4096 (s.reg.len - 4096 * (s.reg.block.toNat)))) ≠ crc) ∧
    (∃ (s : State), s.hostReady = true ∧ s.cfg.role ≠ .tender ∧ s.reg.state = .loading ∧ firstBad (blocks4k s.reg.len)
      s.reg.good = none) ∧
    (∃ (s : State) (b : _), s.hostReady = true ∧ s.cfg.role ≠ .tender ∧ s.reg.state = .loading ∧ firstBad (blocks4k
      s.reg.len) s.reg.good = some b) ∧
    (∃ (s : State), s.canVerify = true ∧ s.reg.state = .verifying) :=
  ⟨⟨car, by decide +kernel⟩,
    ⟨(car.upReg fun r => { r with state := .armed }), by decide +kernel⟩,
    ⟨(car.upReg fun r => { r with state := .loading }), 0x40FFF#20, by decide +kernel⟩,
    ⟨(car.upReg fun r => { r with state := .loading, len := 1 }), (crc32c [0#8]), 0, by decide +kernel⟩,
    ⟨(car.upReg fun r => { r with state := .loading, len := 1 }), (crc32c [0#8]), 1, by decide +kernel⟩,
    ⟨(car.upReg fun r => { r with state := .loading }), (crc32c []), 1, by decide +kernel⟩,
    ⟨(car.upReg fun r => { r with state := .loading }), 5#32, by decide +kernel⟩,
    ⟨(car.upReg fun r => { r with state := .loading }), by decide +kernel⟩,
    ⟨(car.upReg fun r => { r with state := .loading, len := 4097, good := [0] }), 1, by decide +kernel⟩,
    ⟨(car.upReg fun r => { r with state := .verifying }), by decide +kernel⟩⟩

/-- Witnesses for `Obligations.RegisterCommit`. -/
theorem test_meets_RegisterCommit :
    (∃ (s : State) (g : Staged), s.hostReady = true ∧ s.cfg.role ≠ .tender ∧ s.reg.state = .verified ∧ s.reg.staged = some
      g) ∧
    (∃ (s : State), s.reg.state = .staging) ∧
    (∃ (s : State), s.hostReady = true ∧ s.cfg.role ≠ .tender ∧ s.reg.state ≠ .idle ∧ s.reg.state ≠ .verifying) ∧
    (∃ (s : State), s.mainUp = true ∧ s.reg.health ≠ 2#2 ∧ s.reg.cur.journal ≠ 0#2) ∧
    (∃ (s : State), s.hostReady = true ∧ s.cfg.role ≠ .tender ∧ s.reg.mbBusy = false) ∧
    (∃ (s : State), s.hostReady = true ∧ s.cfg.role ≠ .tender ∧ s.reg.mbBusy = true) ∧
    (∃ (s : State) (n : Nat), s.reg.mbBusy = true ∧ s.reg.mbScrub = false ∧ s.reg.health = 1#2 ∧ (s.lookup s.reg.mbCred).1 =
      some n) ∧
    (∃ (s : State) (v : BitVec 32), s.hostReady = true ∧ s.cfg.role ≠ .tender ∧ s.reg.floorNow.toNat ≤ v.toNat) ∧
    (∃ (s : State) (v : BitVec 32), s.hostReady = true ∧ s.cfg.role ≠ .tender ∧ v.toNat < s.reg.floorNow.toNat) ∧
    (∃ (s : State), s.isTender = false ∧ s.reg.floorHour < s.now / sec 3600) ∧
    (∃ (req : BitVec 32), req = 0#32) ∧
    (∃ (req : BitVec 32) (now : BitVec 32), req ≠ 0#32 ∧ (req - (now + 2#32)).toNat < 2 ^ 31) ∧
    (∃ (req : BitVec 32) (now : BitVec 32), req ≠ 0#32 ∧ 2 ^ 31 ≤ (req - (now + 2#32)).toNat) :=
  ⟨⟨(car.upReg fun r => { r with state := .verified, staged := some { Staged.reset with seq := 5#32 } }),
      { Staged.reset with seq := 5#32 }, by decide +kernel⟩,
    ⟨(car.upReg fun r => { r with state := .staging }), by decide +kernel⟩,
    ⟨(car.upReg fun r => { r with state := .refused }), by decide +kernel⟩,
    ⟨(car.upReg fun r => { r with recA := { CommitRec.reset with journal := 2#2 } }), by decide +kernel⟩,
    ⟨car, by decide +kernel⟩,
    ⟨(car.upReg fun r => { r with mbBusy := true }), by decide +kernel⟩,
    ⟨listed, 919244, by decide +kernel⟩,
    ⟨(car.upReg fun r => { r with floor := 5#32 }), 5#32, by decide +kernel⟩,
    ⟨(car.upReg fun r => { r with floor := 5#32, floorCopy := 5#32 }), 4#32, by decide +kernel⟩,
    ⟨{ car with now := 230400000000 }, by decide +kernel⟩,
    ⟨0#32, by decide +kernel⟩,
    ⟨7#32, 5#32, by decide +kernel⟩,
    ⟨6#32, 5#32, by decide +kernel⟩⟩

/-- Witnesses for `Obligations.KeysRoots`. -/
theorem test_meets_KeysRoots :
    (∃ (s : State) (w : Bytes), s.keysReadyFor = true ∧ s.cfg.role = .standalone ∧ s.tide.life ≠ .returned ∧ s.wrapKey
      (byteAt (Mem.load s.keys.buf 0 0x50) 0) = some w ∧ s.canDerive = true) ∧
    (∃ (s : State), s.keysReadyFor = true ∧ s.cfg.role = .standalone ∧ s.tide.life = .provision) ∧
    (∃ (s : State), s.keysReadyFor = true ∧ s.cfg.role = .standalone ∧ s.tide.life = .provision) ∧
    (∃ (s : State), s.keysReadyFor = true) ∧
    (∃ (s : State), s.hostReady = true ∧ s.keys.busy = true) ∧
    (∃ (s : State) (old : Bytes), s.keys.vrPrev = some old ∧ s.keys.retag = true) ∧
    (∃ (s : State), s.keysReadyFor = true ∧ s.tide.life = .fleet ∧ s.cfg.role = .standalone ∧ (s.cfg.can.getD 7
      CanCfg.reset).owner = 2#8 ∧ s.keys.vr.valid = true ∧ s.canDerive = true) ∧
    (∃ (s : State), s.lk.alive = true ∧ s.lk.pairing = true ∧ s.lk.recPending = false ∧ s.lk.pairLeft = 10) ∧
    (∃ (s : State), s.lk.pairing = true ∧ s.lk.pairLeft < 10 ∧ s.lk.pairFrom + sec 1 ≤ s.lk.shadow ∧ s.keys.pairing = true) ∧
    (∃ (s : State), s.lk.pairing = true ∧ s.lk.pairLeft < 10 ∧ s.lk.pairFrom + sec 1 ≤ s.lk.shadow ∧ s.keys.pairing = false) :=
  ⟨⟨((carOf .provision).upKeys fun k => { k with seed := [1#8] }), _, by decide +kernel, by decide +kernel,
      by decide +kernel, rfl, by decide +kernel⟩,
    ⟨(carOf .provision), by decide +kernel⟩,
    ⟨((carOf .provision).upKeys fun k => { k with buf := [(0, 1#8)] }), by decide +kernel⟩,
    ⟨car, by decide +kernel⟩,
    ⟨(car.upKeys fun k => { k with busy := true }), by decide +kernel⟩,
    ⟨(car.upKeys fun k => { k with vrPrev := some [], retag := true }), [], by decide +kernel⟩,
    ⟨((car.upCfg fun c => { c with can := List.replicate 8 { CanCfg.reset with owner := 2#8 } }).upKeys fun k =>
      { k with vr := { Root.reset with valid := true } }), by decide +kernel⟩,
    ⟨(car.upLk fun k => { k with pairing := true, pairLeft := 10 }), by decide +kernel⟩,
    ⟨((car.upKeys fun k => { k with pairing := true, busy := true }).upLk fun k =>
      { k with pairing := true, pairLeft := 9, pairFrom := 63936000000 }), by decide +kernel⟩,
    ⟨(car.upLk fun k => { k with pairing := true, pairLeft := 9, pairFrom := 63936000000 }), by decide +kernel⟩⟩

/-- Witnesses for `Obligations.KeysCommands`. -/
theorem test_meets_KeysCommands :
    (∃ (s : State), s.keysReadyFor = true ∧ s.cfg.role = .standalone ∧ s.tide.life = .provision ∧ s.keysReady = 0x7F#7) ∧
    (∃ (s : State), s.keysReadyFor = true ∧ s.cfg.role = .standalone ∧ s.tide.life = .provision ∧ s.keysReady ≠ 0x7F#7) ∧
    (∃ (s : State), s.keysReadyFor = true ∧ s.cfg.role = .standalone ∧ s.tide.life = .fleet ∧ s.canVerify = true) ∧
    (∃ (s : State), s.keysReadyFor = true ∧ s.cfg.role = .standalone ∧ s.tide.life ≠ .fleet) ∧
    (∃ (s : State), s.keysReadyFor = true ∧ s.tide.life = .provision ∧ s.keys.xmss = 0#2) ∧
    (∃ (s : State), s.keys.xmss = 1#2 ∧ s.canVerify = true ∧ s.trng.held = []) ∧
    (∃ (s : State), s.keysReadyFor = true ∧ s.tide.life = .fleet ∧ s.keys.fr.valid = true ∧ s.canDerive = true) ∧
    (∃ (s : State) (n : Nat), s.keysReadyFor = true ∧ s.tide.life = .fleet ∧ s.keys.fr.valid = true ∧ s.canDerive = true ∧
      (s.lookup s.keys.cred).1 = some n ∧ (s.reg.member n).status = 1#8) ∧
    (∃ (s : State), s.keysReadyFor = true ∧ s.trng.serves = true ∧ s.trng.held = []) ∧
    (∃ (s : State), s.keysReadyFor = true ∧ s.tide.life = .provision) ∧
    (∃ (s : State), s.keysReadyFor = true ∧ s.tide.life = .fleet) ∧
    (∃ (s : State) (n : _), s.cfg.role = .standalone ∧ n < 256 ∧ (s.berth n).id.st.live = true ∧ n < s.bt.berths.length) ∧
    (∃ (s : State) (n : _), s.cfg.role = .standalone ∧ (s.berth n).id.st = .free) ∧
    (∃ (s : State) (m : _), s.cfg.role = .standalone ∧ m < 24 ∧ s.heldPins.getLsbD m = true) :=
  ⟨⟨readied, by decide +kernel⟩,
    ⟨(carOf .provision), by decide +kernel⟩,
    ⟨car, by decide +kernel⟩,
    ⟨(carOf .provision), by decide +kernel⟩,
    ⟨(carOf .provision), by decide +kernel⟩,
    ⟨(car.upKeys fun k => { k with xmss := 1#2 }), by decide +kernel⟩,
    ⟨(car.upKeys fun k => { k with fr := { Root.reset with valid := true } }), by decide +kernel⟩,
    ⟨listed, 919244, by decide +kernel⟩,
    ⟨car, by decide +kernel⟩,
    ⟨(carOf .provision), by decide +kernel⟩,
    ⟨car, by decide +kernel⟩,
    ⟨(seat car 255 (phone .ranged)), 255, by decide +kernel⟩,
    ⟨car, 5, by decide +kernel⟩,
    ⟨car, 0, by decide +kernel⟩⟩

/-- Witnesses for `Obligations.CryptoCommands`. -/
theorem test_meets_CryptoCommands :
    (∃ (s : State) (v : BitVec 32), s.hostReady = true ∧ v.getLsbD 0 = true ∧ fieldN v 5 4 < 3 ∧ s.cry.aesBusy = false ∧
      s.cry.jobs = []) ∧
    (∃ (s : State) (v : BitVec 32), s.hostReady = true ∧ v.getLsbD 0 = true ∧ fieldN v 5 4 < 3 ∧ s.cry.aesBusy = false ∧
      s.cry.jobs = []) ∧
    (∃ (s : State) (v : BitVec 32), s.hostReady = true ∧ v.getLsbD 0 = true ∧ fieldN v 5 4 < 3 ∧ s.cry.aesBusy = true) ∧
    (∃ (s : State) (j : AesJob), s.cry.jobs = [j] ∧ j.host = true ∧ j.suspended = false ∧ 1 ≤ j.left ∧ j.setup + j.left ≤ 25
      ∧ s.cry.selftest.getLsbD 0 = false) ∧
    (∃ (s : State) (h : AesJob) (level : BitVec 2), s.cry.jobs = [h] ∧ h.started = true ∧ h.suspended = false ∧
      h.level.toNat < level.toNat ∧ h.left ≠ 0 ∧ h.left % 28 = 0) ∧
    (∃ (s : State) (h : AesJob) (level : BitVec 2), s.cry.jobs = [h] ∧ h.started = true ∧ h.suspended = false ∧
      h.level.toNat < level.toNat ∧ h.left % 28 ≠ 0) ∧
    (∃ (s : State) (level : BitVec 2) (c : KeyCell) (m : BitVec 4) (f : Bool), s.cry.jobs = [] ∧ s.useAdmits c m f 1 = false
      ∧ level ≠ 3#2) ∧
    (∃ (s : State) (c : KeyCell) (m : BitVec 4) (f : Bool) (i : _), s.cry.jobs = [] ∧ s.useAdmits c m f 1 = false ∧ c = .sts
      i) ∧
    (∃ (s : State) (h : AesJob) (l : List AesJob), s.cry.jobs = h :: l ∧ h.suspended = true ∧ (h.cell = none ∨ (∃ c, h.cell
      = some c ∧ s.useAdmits c h.master h.fleet 1 = true))) ∧
    (∃ (s : State), s.cry.kjobs = [] ∧ s.canDerive = true) ∧
    (∃ (s : State), s.canDerive = false) ∧
    (∃ (s : State), s.hostReady = true ∧ s.cry.signState = 0#2 ∧ s.tide.life = .fleet ∧ s.keys.xmss = 2#2 ∧
      s.cry.signRec.next < 1048576 ∧ s.signWindow.1 < 3840 ∧ s.signWindow.2 < 3584 ∧ s.canVerify = true) ∧
    (∃ (s : State), s.hostReady = true ∧ s.cry.signState ≠ 0#2) ∧
    (∃ (s : State), s.cry.signState = 2#2 ∧ s.cry.signWhat = .attest) ∧
    (∃ (s : State), s.hostReady = true ∧ s.moored 24 = true) ∧
    (∃ (s : State), s.hostReady = true ∧ s.moored 24 = false) ∧
    (∃ (s : State), sec 900 ≤ s.activeTime) ∧
    (∃ (s : State) (v : BitVec 32) (r : _), s.hostReady = true ∧ s.log.tail.toNat ≤ v.toNat ∧ v.toNat ≤ s.log.head.toNat ∧
      s.log.ring.find? (fun r => r.seq == v) = some r) ∧
    (∃ (s : State) (v : BitVec 32), s.hostReady = true ∧ s.log.head.toNat < v.toNat) :=
  ⟨⟨car, 0x21#32, by decide +kernel⟩,
    ⟨car, 0x21#32, by decide +kernel⟩,
    ⟨(car.upCry fun c => { c with aesBusy := true }), 1#32, by decide +kernel⟩,
    ⟨(car.upCry fun c => { c with jobs := [{ AesJob.reset with host := true, left := 25, started := true }] }),
      { AesJob.reset with host := true, left := 25, started := true }, by decide +kernel⟩,
    ⟨(car.upCry fun c => { c with jobs := [{ AesJob.reset with level := 1#2, left := 56, started := true }] }),
      { AesJob.reset with level := 1#2, left := 56, started := true }, 2#2, by decide +kernel⟩,
    ⟨(car.upCry fun c => { c with jobs := [{ AesJob.reset with level := 1#2, left := 55, started := true }] }),
      { AesJob.reset with level := 1#2, left := 55, started := true }, 2#2, by decide +kernel⟩,
    ⟨car, 2#2, .sts 5, 8#4, true, by decide +kernel⟩,
    ⟨car, .sts 5, 8#4, true, 5, by decide +kernel⟩,
    ⟨(car.upCry fun c => { c with jobs := [{ AesJob.reset with suspended := true }] }),
      { AesJob.reset with suspended := true }, [], by decide +kernel⟩,
    ⟨car, by decide +kernel⟩,
    ⟨(car.upCry fun c => { c with selftest := 2#4 }), by decide +kernel⟩,
    ⟨((car.upCry fun c =>
      { c with recA := { SignRec.reset with next := 1048575, days := [(0, 3839, 3583)], crcOk := true } }).upKeys fun k =>
      { k with xmss := 2#2 }), by decide +kernel⟩,
    ⟨(car.upCry fun c => { c with signState := 1#2 }), by decide +kernel⟩,
    ⟨(car.upCry fun c => { c with signState := 2#2, signWhat := .attest }), by decide +kernel⟩,
    ⟨car, by decide +kernel⟩,
    ⟨(car.upMf fun m => { m with unmoored := 0x1000000#32 }), by decide +kernel⟩,
    ⟨car, by decide +kernel⟩,
    ⟨(car.upLog fun l => { l with ring := [{ LogRec.reset with seq := 3#32 }], head := 3#32, tail := 3#32 }), 3#32,
      { LogRec.reset with seq := 3#32 }, by decide +kernel⟩,
    ⟨(car.upLog fun l => { l with head := 3#32 }), 4#32, by decide +kernel⟩⟩

/-- Witnesses for `Obligations.RandomGenerator`. -/
theorem test_meets_RandomGenerator :
    (∃ (s : State), s.hostReady = true ∧ s.trng.hostHeld = false ∧ s.trng.serves = true ∧ s.trng.held = []) ∧
    (∃ (s : State), s.hostReady = true ∧ s.trng.hostHeld = false ∧ s.trng.serves = false ∧ s.trng.held.length < 64) ∧
    (∃ (s : State), s.hostReady = true ∧ s.trng.hostHeld = true) ∧
    (∃ (s : State), s.hostReady = true ∧ s.trng.hostHeld = false ∧ s.trng.held.length < 64) ∧
    (∃ (s : State), s.hostReady = true ∧ s.trng.hostHeld = false) ∧
    (∃ (s : State) (raw : BitVec 1024), s.trng.running = true ∧ s.keys.heldCmd = none ∧ s.keys.heldFwd = [] ∧ (∀ n, n < 256
      → (s.berth n).se.keyDue = false) ∧ (rctBlock raw s.trng.runBit s.trng.runLen).2.2 = false ∧ aptFails raw = false ∧
      s.trng.startup = true) ∧
    (∃ (s : State) (raw : BitVec 1024), s.trng.running = true ∧ s.keys.heldCmd = none ∧ s.keys.heldFwd = [] ∧ (∀ n, n < 256
      → (s.berth n).se.keyDue = false) ∧ (rctBlock raw s.trng.runBit s.trng.runLen).2.2 = false ∧ aptFails raw = false ∧
      s.trng.startup = false ∧ s.trng.inst = true ∧ s.trng.fatal = false ∧ s.trng.state = .reseeding ∧ s.trng.held = [] ∧
      s.cry.maskDue = false) ∧
    (∃ (s : State) (raw : BitVec 1024), s.trng.running = true ∧ s.keys.heldCmd = none ∧ s.keys.heldFwd = [] ∧ (∀ n, n < 256
      → (s.berth n).se.keyDue = false) ∧ s.trng.window = [] ∧ s.trng.afterFatal = 0 ∧ aptFails raw = true) ∧
    (∃ (s : State), s.trng.fatal = true ∧ s.trng.running = false ∧ s.trng.fatalAt + sec 1 ≤ s.now ∧ (s.tide.power.asleep =
      false ∨ s.trng.inst = false)) ∧
    (∃ (s : State), s.trng.inst = true ∧ s.tide.power.asleep = false ∧ s.trng.reseedDue = false ∧ s.trng.reseedAt + sec 1 ≤
      s.now) ∧
    (∃ (s : State) (since : Nat) (l : List Held), s.trng.held = { who := .hostGenerate, since := since } :: l ∧ since + ms
      10 ≤ s.now) ∧
    (∃ (s : State), 2 ^ 20 ≤ s.cry.blocksDone ∧ s.trng.serves = true) ∧
    (∃ (s : State), 2 ^ 20 ≤ s.cry.blocksDone ∧ s.trng.serves = false) ∧
    (∃ (s : State), s.mainUp = true ∧ s.bt.sidBase = none ∧ s.trng.held = [] ∧ s.bt.sidTryAt + ms 1 ≤ s.now ∧ s.trng.serves
      = true) :=
  ⟨⟨car, by decide +kernel⟩,
    ⟨(car.upTrng fun t => { t with state := .reseeding }), by decide +kernel⟩,
    ⟨(car.upTrng fun t => { t with hostHeld := true }), by decide +kernel⟩,
    ⟨car, by decide +kernel⟩,
    ⟨car, by decide +kernel⟩,
    ⟨(car.upTrng fun t => { t with startup := true }), (BitVec.ofNat 1024 ((2 ^ 1024 - 1) / 3)), by decide +kernel⟩,
    ⟨(car.upTrng fun t => { t with state := .reseeding }), (BitVec.ofNat 1024 ((2 ^ 1024 - 1) / 3)), by decide +kernel⟩,
    ⟨car, 0#1024, by decide +kernel⟩,
    ⟨(car.upTrng fun t => { t with fatal := true, running := false }), by decide +kernel⟩,
    ⟨car, by decide +kernel⟩,
    ⟨(car.upTrng fun t => { t with held := [{ who := .hostGenerate, since := 63999360000 }] }), 63999360000, [],
      by decide +kernel⟩,
    ⟨(car.upCry fun c => { c with blocksDone := 2 ^ 20 }), by decide +kernel⟩,
    ⟨((car.upTrng fun t => { t with state := .fatal }).upCry fun c => { c with blocksDone := 2 ^ 20 }), by decide +kernel⟩,
    ⟨car, by decide +kernel⟩⟩

/-- Witnesses for `Obligations.CanControllers`. -/
theorem test_meets_CanControllers :
    (∃ (s : State) (n : BitVec 3) (k : BitVec 7), s.hostReady = true ∧ (s.ctl n.toNat).owner = 1#8 ∧ ((s.ctl n.toNat).obj
      k.toNat).sends = true ∧ s.moored (11 + n.toNat) = true ∧ (((s.ctl n.toNat).obj k.toNat).st = .idle ∨ ((s.ctl
      n.toNat).obj k.toNat).st = .aground)) ∧
    (∃ (s : State) (n : BitVec 3) (k : BitVec 7), s.hostReady = true ∧ ((s.ctl n.toNat).obj k.toNat).sends = false) ∧
    (∃ (s : State) (n : BitVec 3) (k : BitVec 7), s.hostReady = true ∧ (s.ctl n.toNat).owner ≠ 2#8 ∧ ((s.ctl n.toNat).obj
      k.toNat).sends = true ∧ ((s.ctl n.toNat).obj k.toNat).st = .idle) ∧
    (∃ (s : State) (n : BitVec 3), s.hostReady = true ∧ (s.ctl n.toNat).owner ≠ 2#8) ∧
    (∃ (s : State) (n : BitVec 3), s.hostReady = true ∧ (s.ctl n.toNat).owner = 2#8) ∧
    (∃ (s : State) (n : BitVec 3) (c : BitVec 32), s.hostReady = true ∧ (s.ctl n.toNat).owner ≠ 2#8 ∧ fieldN c 5 0 ≤ ((s.ctl
      n.toNat).obj (s.ctl n.toNat).rxsel.toNat).queue.length) ∧
    (∃ (s : State) (n : BitVec 3) (k : Nat), s.can.ok = true ∧ (s.ctl n.toNat).winner = some k ∧ s.canSends n.toNat = true ∧
      (s.ctl n.toNat).onBus = true ∧ (s.ctl n.toNat).onAir = none ∧ (s.ctl n.toNat).mode.force ≠ 1#2 ∧ s.inAir = false ∧
      ((s.ctl n.toNat).obj k).bit 6 = false ∧ k < (s.ctl n.toNat).objs.length) ∧
    (∃ (s : State) (n : BitVec 3) (k : Nat) (j : _), s.can.ok = true ∧ (s.ctl n.toNat).winner = some k ∧ s.canSends n.toNat
      = true ∧ (s.ctl n.toNat).onBus = true ∧ (s.ctl n.toNat).onAir = none ∧ (s.ctl n.toNat).mode.force ≠ 1#2 ∧ s.inAir =
      false ∧ ((s.ctl n.toNat).obj k).bit 6 = false ∧ j ≠ k) ∧
    (∃ (s : State) (n : BitVec 3) (k : Nat) (m : _), s.can.ok = true ∧ (s.ctl n.toNat).winner = some k ∧ s.canSends n.toNat
      = true ∧ (s.ctl n.toNat).onBus = true ∧ (s.ctl n.toNat).onAir = none ∧ (s.ctl n.toNat).mode.force ≠ 1#2 ∧ s.inAir =
      false ∧ ((s.ctl n.toNat).obj k).bit 6 = false ∧ m ≠ n.toNat) ∧
    (∃ (s : State) (n : BitVec 3) (k : Nat), s.can.ok = true ∧ (s.ctl n.toNat).owner ≠ 2#8 ∧ (s.ctl n.toNat).onAir = some k
      ∧ k < (s.ctl n.toNat).objs.length ∧ ((s.ctl n.toNat).obj k).bit 6 = false ∧ (s.ctl n.toNat).mode.force = 0#2 ∧ ((s.ctl
      n.toNat).obj k).gone = false) ∧
    (∃ (s : State) (n : BitVec 3) (k : Nat), s.can.ok = true ∧ (s.ctl n.toNat).owner ≠ 2#8 ∧ (s.ctl n.toNat).onAir = some k
      ∧ k < (s.ctl n.toNat).objs.length ∧ ((s.ctl n.toNat).obj k).bit 6 = false ∧ (s.ctl n.toNat).mode.force = 0#2 ∧ ((s.ctl
      n.toNat).obj k).gone = true) ∧
    (∃ (s : State) (n : BitVec 3) (k : Nat) (j : _), s.can.ok = true ∧ (s.ctl n.toNat).owner ≠ 2#8 ∧ (s.ctl n.toNat).onAir =
      some k ∧ k < (s.ctl n.toNat).objs.length ∧ ((s.ctl n.toNat).obj k).bit 6 = false ∧ (s.ctl n.toNat).mode.force = 0#2 ∧
      j ≠ k) ∧
    (∃ (s : State) (n : BitVec 3) (k : Nat) (m : _), s.can.ok = true ∧ (s.ctl n.toNat).owner ≠ 2#8 ∧ (s.ctl n.toNat).onAir =
      some k ∧ k < (s.ctl n.toNat).objs.length ∧ ((s.ctl n.toNat).obj k).bit 6 = false ∧ (s.ctl n.toNat).mode.force = 0#2 ∧
      m ≠ n.toNat) ∧
    (∃ (s : State) (n : BitVec 3) (k : Nat), s.can.ok = true ∧ (s.ctl n.toNat).owner ≠ 2#8 ∧ (s.ctl n.toNat).onAir = some k
      ∧ k < (s.ctl n.toNat).objs.length ∧ ((s.ctl n.toNat).obj k).cancel = false ∧ ((s.ctl n.toNat).obj k).gone = false) ∧
    (∃ (s : State) (n : BitVec 3), (s.ctl n.toNat).owner = 2#8 ∧ (s.ctl n.toNat).state = 3#2) ∧
    (∃ (s : State) (n : BitVec 3), (s.ctl n.toNat).owner ≠ 2#8 ∧ (s.ctl n.toNat).state = 3#2) ∧
    (∃ (s : State) (n : BitVec 3), s.canRuns n.toNat = true ∧ (s.ctl n.toNat).owner ≠ 2#8 ∧ (s.ctl n.toNat).state = 0#2) ∧
    (∃ (s : State) (n : BitVec 3), s.canRuns n.toNat = true ∧ (s.ctl n.toNat).owner ≠ 2#8 ∧ (s.ctl n.toNat).onBus = true) ∧
    (∃ (s : State) (n : BitVec 3) (f : CanFrame) (sof : Nat), s.can.ok = true ∧ s.canRuns n.toNat = true ∧ (s.ctl
      n.toNat).onBus = true ∧ (s.ctl n.toNat).owner ≠ 2#8 ∧ s.tide.startAt ≤ sof ∧ firstMatch (s.ctl n.toNat).active (s.ctl
      n.toNat).activeLen.toNat f = none) ∧
    (∃ (s : State) (n : BitVec 3) (f : CanFrame) (sof : Nat) (i : _), s.can.ok = true ∧ s.canRuns n.toNat = true ∧ (s.ctl
      n.toNat).onBus = true ∧ (s.ctl n.toNat).owner ≠ 2#8 ∧ s.tide.startAt ≤ sof ∧ firstMatch (s.ctl n.toNat).active (s.ctl
      n.toNat).activeLen.toNat f = some i ∧ (Mem.num (s.ctl n.toNat).active (16 * i + 8) 4) / 2 ^ 8 % 2 = 0 ∧ ((s.ctl
      n.toNat).obj ((Mem.num (s.ctl n.toNat).active (16 * i + 8) 4) % 128)).receives = true ∧ ((s.ctl n.toNat).obj ((Mem.num
      (s.ctl n.toNat).active (16 * i + 8) 4) % 128)).bit 7 = false ∧ (s.ctl n.toNat).askers ((Mem.num (s.ctl n.toNat).active
      (16 * i + 8) 4) % 128) = [] ∧ ((s.ctl n.toNat).obj ((Mem.num (s.ctl n.toNat).active (16 * i + 8) 4) %
      128)).queue.length < cfgDepth ((s.ctl n.toNat).obj ((Mem.num (s.ctl n.toNat).active (16 * i + 8) 4) % 128)).cfgForce ∧
      (Mem.num (s.ctl n.toNat).active (16 * i + 8) 4) % 128 < (s.ctl n.toNat).objs.length) ∧
    (∃ (s : State) (n : BitVec 3) (f : CanFrame) (sof : Nat) (i : _) (j : _), s.can.ok = true ∧ s.canRuns n.toNat = true ∧
      (s.ctl n.toNat).onBus = true ∧ (s.ctl n.toNat).owner ≠ 2#8 ∧ s.tide.startAt ≤ sof ∧ firstMatch (s.ctl n.toNat).active
      (s.ctl n.toNat).activeLen.toNat f = some i ∧ (Mem.num (s.ctl n.toNat).active (16 * i + 8) 4) / 2 ^ 8 % 2 = 0 ∧ ((s.ctl
      n.toNat).obj ((Mem.num (s.ctl n.toNat).active (16 * i + 8) 4) % 128)).receives = true ∧ ((s.ctl n.toNat).obj ((Mem.num
      (s.ctl n.toNat).active (16 * i + 8) 4) % 128)).bit 7 = false ∧ (s.ctl n.toNat).askers ((Mem.num (s.ctl n.toNat).active
      (16 * i + 8) 4) % 128) = [] ∧ ((s.ctl n.toNat).obj ((Mem.num (s.ctl n.toNat).active (16 * i + 8) 4) %
      128)).queue.length < cfgDepth ((s.ctl n.toNat).obj ((Mem.num (s.ctl n.toNat).active (16 * i + 8) 4) % 128)).cfgForce ∧
      (Mem.num (s.ctl n.toNat).active (16 * i + 8) 4) % 128 < (s.ctl n.toNat).objs.length ∧ j ≠ (Mem.num (s.ctl
      n.toNat).active (16 * i + 8) 4) % 128) ∧
    (∃ (s : State) (n : BitVec 3) (f : CanFrame) (sof : Nat) (i : _) (m : _), s.can.ok = true ∧ s.canRuns n.toNat = true ∧
      (s.ctl n.toNat).onBus = true ∧ (s.ctl n.toNat).owner ≠ 2#8 ∧ s.tide.startAt ≤ sof ∧ firstMatch (s.ctl n.toNat).active
      (s.ctl n.toNat).activeLen.toNat f = some i ∧ (Mem.num (s.ctl n.toNat).active (16 * i + 8) 4) / 2 ^ 8 % 2 = 0 ∧ ((s.ctl
      n.toNat).obj ((Mem.num (s.ctl n.toNat).active (16 * i + 8) 4) % 128)).receives = true ∧ ((s.ctl n.toNat).obj ((Mem.num
      (s.ctl n.toNat).active (16 * i + 8) 4) % 128)).bit 7 = false ∧ (s.ctl n.toNat).askers ((Mem.num (s.ctl n.toNat).active
      (16 * i + 8) 4) % 128) = [] ∧ ((s.ctl n.toNat).obj ((Mem.num (s.ctl n.toNat).active (16 * i + 8) 4) %
      128)).queue.length < cfgDepth ((s.ctl n.toNat).obj ((Mem.num (s.ctl n.toNat).active (16 * i + 8) 4) % 128)).cfgForce ∧
      (Mem.num (s.ctl n.toNat).active (16 * i + 8) 4) % 128 < (s.ctl n.toNat).objs.length ∧ m ≠ n.toNat) ∧
    (∃ (s : State) (n : BitVec 3) (k : BitVec 7) (tag : BitVec 8), (∃ x ∈ ((s.ctl n.toNat).obj k.toNat).txns, x.tag = tag ∧
      cfgTimeout ((s.ctl n.toNat).obj k.toNat).cfgForce ≤ (s.tide.number - x.tide).toNat)) :=
  ⟨⟨bused, 0#3, 0#7, by decide +kernel⟩,
    ⟨car, 7#3, 127#7, by decide +kernel⟩,
    ⟨bused, 0#3, 0#7, by decide +kernel⟩,
    ⟨car, 7#3, by decide +kernel⟩,
    ⟨(car.modCtl 7 fun c => { c with owner := 2#8 }), 7#3, by decide +kernel⟩,
    ⟨bused, 0#3, 0#32, by decide +kernel⟩,
    ⟨(bused.modObj 0 0 fun o => { o with st := .pending }), 0#3, 0, by decide +kernel⟩,
    ⟨(bused.modObj 0 0 fun o => { o with st := .pending }), 0#3, 0, 127, by decide +kernel⟩,
    ⟨(bused.modObj 0 0 fun o => { o with st := .pending }), 0#3, 0, 7, by decide +kernel⟩,
    ⟨((bused.modCtl 0 fun c => { c with onAir := some 0 })), 0#3, 0, by decide +kernel⟩,
    ⟨(((bused.modCtl 0 fun c => { c with onAir := some 0 })).modObj 0 0 fun o => { o with gone := true }), 0#3, 0,
      by decide +kernel⟩,
    ⟨((bused.modCtl 0 fun c => { c with onAir := some 0 })), 0#3, 0, 127, by decide +kernel⟩,
    ⟨((bused.modCtl 0 fun c => { c with onAir := some 0 })), 0#3, 0, 7, by decide +kernel⟩,
    ⟨((bused.modCtl 0 fun c => { c with onAir := some 0 })), 0#3, 0, by decide +kernel⟩,
    ⟨(car.modCtl 7 fun c => { c with owner := 2#8, state := 3#2 }), 7#3, by decide +kernel⟩,
    ⟨(car.modCtl 7 fun c => { c with state := 3#2 }), 7#3, by decide +kernel⟩,
    ⟨(bused.modCtl 0 fun c => { c with state := 0#2 }), 0#3, by decide +kernel⟩,
    ⟨bused, 0#3, by decide +kernel⟩,
    ⟨bused, 0#3, { ext := false, ident := 5#29, fdf := false, brs := false, esi := false, rtr := false, data := [] },
      63999360000, by decide +kernel⟩,
    ⟨(bused.modCtl 0 fun c =>
      { c with active := Mem.store [] 0 ([0#8, 0#8, 0#8, 0x40#8, 7#8, 0#8, 0#8, 0#8, 1#8] ++ List.replicate 7 0#8), activeLen := 1#7 }),
      0#3, { ext := false, ident := 5#29, fdf := false, brs := false, esi := false, rtr := false, data := [] }, 63999360000,
      0, by decide +kernel⟩,
    ⟨(bused.modCtl 0 fun c =>
      { c with active := Mem.store [] 0 ([0#8, 0#8, 0#8, 0x40#8, 7#8, 0#8, 0#8, 0#8, 1#8] ++ List.replicate 7 0#8), activeLen := 1#7 }),
      0#3, { ext := false, ident := 5#29, fdf := false, brs := false, esi := false, rtr := false, data := [] }, 63999360000,
      0, 0, by decide +kernel⟩,
    ⟨(bused.modCtl 0 fun c =>
      { c with active := Mem.store [] 0 ([0#8, 0#8, 0#8, 0x40#8, 7#8, 0#8, 0#8, 0#8, 1#8] ++ List.replicate 7 0#8), activeLen := 1#7 }),
      0#3, { ext := false, ident := 5#29, fdf := false, brs := false, esi := false, rtr := false, data := [] }, 63999360000,
      0, 7, by decide +kernel⟩,
    ⟨((bused.modObj 0 0 fun o => { o with txns := [{ tag := 5#8, epoch := 0#4, tide := 92#32 }] })), 0#3, 0#7, 5#8,
      by decide +kernel⟩⟩

/-- Witnesses for `Obligations.PierLinks`. -/
theorem test_meets_PierLinks :
    (∃ (s : State) (n : BitVec 5) (m : _), s.pier.ok = true ∧ s.mainUp = true ∧ s.portWanted n.toNat = true ∧ (s.link
      n.toNat).st = .disabled ∧ m ≠ n.toNat) ∧
    (∃ (s : State) (n : BitVec 5) (m : _), s.pier.ok = true ∧ s.mainUp = true ∧ s.portWanted n.toNat = true ∧ (s.link
      n.toNat).st = .adrift ∧ (s.link n.toNat).since + (if (s.link n.toNat).firstRetry then ms 100 else ms 1) ≤ s.now ∧ m ≠
      n.toNat) ∧
    (∃ (s : State) (n : BitVec 5) (m : _), s.pier.ok = true ∧ s.mainUp = true ∧ s.portWanted n.toNat = true ∧ (s.link
      n.toNat).st = .down ∧ (s.link n.toNat).since + ms 100 ≤ s.now ∧ m ≠ n.toNat) ∧
    (∃ (s : State) (n : BitVec 5) (m : _), s.pier.ok = true ∧ s.mainUp = true ∧ (s.link n.toNat).st = .training ∧ (s.link
      n.toNat).since + ms 2 ≤ s.now ∧ m ≠ n.toNat) ∧
    (∃ (s : State) (n : BitVec 5) (m : _), s.pier.ok = true ∧ s.mainUp = true ∧ (s.link n.toNat).st = .training ∧ s.cfg.role
      = .harbourmaster ∧ (s.pier.started = false ∨ s.pier.next ≠ 63#6) ∧ m ≠ n.toNat) ∧
    (∃ (s : State) (n : BitVec 5), s.pier.ok = true ∧ s.mainUp = true ∧ (s.link n.toNat).st = .training ∧ s.cfg.role =
      .harbourmaster ∧ (s.pier.started = false ∨ s.pier.next ≠ 63#6) ∧ s.pier.started = true) ∧
    (∃ (s : State) (n : BitVec 5), s.pier.ok = true ∧ s.mainUp = true ∧ (s.link n.toNat).st = .training ∧ s.cfg.role =
      .harbourmaster ∧ s.pier.started = true ∧ s.pier.next = 63#6 ∧ s.pier.order = []) ∧
    (∃ (s : State) (n : BitVec 5) (m : _), s.pier.ok = true ∧ s.mainUp = true ∧ (s.link n.toNat).st = .training ∧ s.cfg.role
      ≠ .harbourmaster ∧ m ≠ n.toNat ∧ m < 32) ∧
    (∃ (s : State), s.pier.ok = true ∧ s.bt.ok = true) ∧
    (∃ (s : State) (n : BitVec 5) (k : _), s.pier.ok = true ∧ s.bt.ok = true ∧ s.cfg.role = .harbourmaster ∧ k < 256 ∧
      (s.berth k).id.st.held = true ∧ (s.berth k).id.anchor.toNat = n.toNat + 1) ∧
    (∃ (s : State), s.pier.ok = true ∧ s.bt.ok = true ∧ s.cfg.role ≠ .harbourmaster) ∧
    (∃ (s : State) (n : BitVec 5) (cause : BitVec 4), s.mainUp = true ∧ ((s.link n.toNat).st = .active ∨ (s.link n.toNat).st
      = .slack) ∧ (cause = 2#4 ∨ cause = 3#4 ∨ cause = 4#4)) ∧
    (∃ (s : State) (n : BitVec 5), s.hostReady = true ∧ (s.link n.toNat).st ≠ .disabled) ∧
    (∃ (s : State) (n : BitVec 5), s.hostReady = true ∧ (s.link n.toNat).st = .disabled) ∧
    (∃ (s : State) (n : BitVec 5) (m : _), s.pier.ok = true ∧ s.mainUp = true ∧ (s.link n.toNat).st = .active ∧ m ≠ n.toNat) ∧
    (∃ (s : State) (n : BitVec 5) (q : BitVec 4) (crcOk : Bool) (codeOk : Bool), s.pier.ok = true ∧ s.mainUp = true ∧
      (s.link n.toNat).st = .active ∧ crcOk = true ∧ codeOk = true ∧ q = (s.link n.toNat).rxSeq) ∧
    (∃ (s : State) (n : BitVec 5) (q : BitVec 4) (crcOk : Bool) (codeOk : Bool), s.pier.ok = true ∧ s.mainUp = true ∧
      (s.link n.toNat).st = .active ∧ (crcOk = false ∨ codeOk = false ∨ q ≠ (s.link n.toNat).rxSeq)) ∧
    (∃ (s : State) (n : BitVec 5) (m : _), s.pier.ok = true ∧ s.mainUp = true ∧ (s.link n.toNat).st = .active ∧ m ≠ n.toNat) ∧
    (∃ (s : State) (n : BitVec 5) (q : BitVec 4) (i : _), s.pier.ok = true ∧ s.mainUp = true ∧ (s.link n.toNat).st = .active
      ∧ (s.link n.toNat).place q = some i ∧ (s.link n.toNat).msgs = []) ∧
    (∃ (s : State) (n : BitVec 5) (q : BitVec 4), s.pier.ok = true ∧ s.mainUp = true ∧ (s.link n.toNat).st = .active ∧
      (s.link n.toNat).place q = none) ∧
    (∃ (s : State) (n : BitVec 5) (q : BitVec 4), s.mainUp = true ∧ (s.link n.toNat).st = .active ∧ (s.link n.toNat).place q
      = none) ∧
    (∃ (s : State) (n : BitVec 5) (q : BitVec 4) (i : _), s.mainUp = true ∧ (s.link n.toNat).st = .active ∧ (s.link
      n.toNat).place q = some i ∧ (∀ w ∈ (s.link n.toNat).window.drop i, w.1 < 7)) ∧
    (∃ (s : State) (n : BitVec 5) (q : BitVec 4) (i : _), s.mainUp = true ∧ (s.link n.toNat).st = .active ∧ (s.link
      n.toNat).place q = some i ∧ (∃ w ∈ (s.link n.toNat).window.drop i, 7 ≤ w.1)) ∧
    (∃ (s : State) (n : BitVec 5), s.mainUp = true ∧ (s.link n.toNat).st = .active ∧ (s.link n.toNat).window ≠ [] ∧ (s.link
      n.toNat).ackFrom + us 16 ≤ s.now ∧ (∀ w ∈ (s.link n.toNat).window, w.1 < 7)) ∧
    (∃ (s : State) (n : BitVec 5), s.mainUp = true ∧ (s.link n.toNat).st = .active ∧ (s.link n.toNat).window ≠ [] ∧ (s.link
      n.toNat).ackFrom + us 16 ≤ s.now ∧ (∃ w ∈ (s.link n.toNat).window, 7 ≤ w.1)) :=
  ⟨⟨(host .disabled), 0#5, 31, by decide +kernel⟩,
    ⟨(host .adrift), 0#5, 31, by decide +kernel⟩,
    ⟨(host .down), 0#5, 31, by decide +kernel⟩,
    ⟨(host .training), 0#5, 31, by decide +kernel⟩,
    ⟨(host .training), 0#5, 31, by decide +kernel⟩,
    ⟨((host .training).upPier fun p => { p with started := true, next := 5#6 }), 0#5, by decide +kernel⟩,
    ⟨((host .training).upPier fun p => { p with started := true, next := 63#6 }), 0#5, by decide +kernel⟩,
    ⟨(mate.modPier 0 fun l => { l with st := .training }), 0#5, 31, by decide +kernel⟩,
    ⟨(host .active), by decide +kernel⟩,
    ⟨((seat (host .active) 255 (phone .moored)).modId 255 fun b => { b with anchor := 1#6 }), 0#5, 255, by decide +kernel⟩,
    ⟨mate, by decide +kernel⟩,
    ⟨(host .slack), 0#5, 4#4, by decide +kernel⟩,
    ⟨(host .adrift), 0#5, by decide +kernel⟩,
    ⟨(host .active), 31#5, by decide +kernel⟩,
    ⟨(host .active), 0#5, 31, by decide +kernel⟩,
    ⟨(host .active), 0#5, 0#4, true, true, by decide +kernel⟩,
    ⟨(host .active), 0#5, 15#4, true, true, by decide +kernel⟩,
    ⟨((host .active).modPier 0 fun l => { l with window := [(6, []), (7, [])], txSeq := 2#4 }), 0#5, 31, by decide +kernel⟩,
    ⟨((host .active).modPier 0 fun l => { l with window := [(6, []), (7, [])], txSeq := 2#4 }), 0#5, 1#4, 1,
      by decide +kernel⟩,
    ⟨((host .active).modPier 0 fun l => { l with window := [(6, []), (7, [])], txSeq := 2#4 }), 0#5, 2#4, by decide +kernel⟩,
    ⟨((host .active).modPier 0 fun l => { l with window := [(6, []), (7, [])], txSeq := 2#4 }), 0#5, 2#4, by decide +kernel⟩,
    ⟨((host .active).modPier 0 fun l => { l with window := [(7, []), (6, [])], txSeq := 2#4 }), 0#5, 1#4, 1,
      by decide +kernel⟩,
    ⟨((host .active).modPier 0 fun l => { l with window := [(6, []), (7, [])], txSeq := 2#4 }), 0#5, 0#4, 0,
      by decide +kernel⟩,
    ⟨((host .active).modPier 0 fun l => { l with window := [(6, [])] }), 0#5, by decide +kernel⟩,
    ⟨((host .active).modPier 0 fun l => { l with window := [(6, []), (7, [])], txSeq := 2#4 }), 0#5, by decide +kernel⟩⟩

/-- Witnesses for `Obligations.PierHost`. -/
theorem test_meets_PierHost :
    (∃ (s : State), s.mainUp = true ∧ s.cfg.role = .harbourmaster ∧ s.sys.verdictsFrom = true ∧ s.pier.started = false) ∧
    (∃ (s : State) (n : BitVec 5) (typ : BitVec 8) (tag : BitVec 8) (ep : BitVec 4), s.mainUp = true ∧ s.cfg.role =
      .harbourmaster ∧ ((s.link n.toNat).st = .active ∨ (s.link n.toNat).st = .slack) ∧ (∀ r ∈ (s.link n.toNat).reqs, r.tag
      ≠ tag ∨ r.epoch ≠ ep ∨ r.typ + 0x80#8 ≠ typ)) ∧
    (∃ (s : State) (n : BitVec 5) (r : _), s.mainUp = true ∧ s.cfg.role = .harbourmaster ∧ ((s.link n.toNat).st = .active ∨
      (s.link n.toNat).st = .slack) ∧ (s.link n.toNat).reqs = [r] ∧ (s.link n.toNat).waiting = [] ∧ r.typ = 0x30#8 ∧
      (s.tide.number - r.tide).toNat < 4) ∧
    (∃ (s : State) (n : BitVec 5) (r : PierReq), s.mainUp = true ∧ (s.link n.toNat).reqs = [r] ∧ (s.link n.toNat).waiting =
      [] ∧ r.typ = 0x30#8 ∧ 4 ≤ (s.tide.number - r.tide).toNat) ∧
    (∃ (s : State) (n : BitVec 5), s.mainUp = true ∧ (s.link n.toNat).st = .active ∧ s.cfg.role = .harbourmaster ∧
      s.tide.power.asleep = true ∧ s.anyArmed = false ∧ (s.link n.toNat).slackAsked = true ∧ (∀ r ∈ (s.link n.toNat).reqs,
      r.typ ≠ 0x09#8)) ∧
    (∃ (s : State) (n : BitVec 5), s.mainUp = true ∧ (s.link n.toNat).st = .active ∧ s.cfg.role = .tender ∧ s.pier.upstream
      = some n) ∧
    (∃ (s : State) (n : BitVec 5), s.mainUp = true ∧ (s.link n.toNat).st = .slack ∧ s.cfg.role = .harbourmaster) ∧
    (∃ (s : State) (n : BitVec 5), s.mainUp = true ∧ (s.link n.toNat).st = .slack ∧ s.cfg.role ≠ .harbourmaster) ∧
    (∃ (s : State) (n : BitVec 5) (x : Round) (r : TenderResult), s.mainUp = true ∧ s.cfg.role = .harbourmaster ∧
      s.pier.serving.getLsbD n.toNat = true ∧ r.rx.anchor.toNat = n.toNat + 1 ∧ s.tide.startAt ≤ s.tickOf (BitVec.ofNat 48
      r.tick) ∧ s.uwb.schedule.find? (fun x => x.berth == r.berth.toNat && x.airborne) = some x ∧ s.hears x
      r.rx.anchor.toNat = true ∧ s.exported (n.toNat + 1) [0, 1, 2, 3] = true ∧ r.kind = 0#3) :=
  ⟨⟨(host .active), by decide +kernel⟩,
    ⟨(host .active), 0#5, 0xB0#8, 5#8, 1#4, by decide +kernel⟩,
    ⟨((host .slack).modPier 0 fun l =>
      { l with reqs := [{ PierReq.reset with tag := 5#8, epoch := 1#4, typ := 0x30#8, tide := 97#32 }] }), 0#5,
      { PierReq.reset with tag := 5#8, epoch := 1#4, typ := 0x30#8, tide := 97#32 }, by decide +kernel⟩,
    ⟨((host .active).modPier 0 fun l =>
      { l with reqs := [{ PierReq.reset with tag := 5#8, epoch := 1#4, typ := 0x30#8, tide := 96#32 }] }), 0#5,
      { PierReq.reset with tag := 5#8, epoch := 1#4, typ := 0x30#8, tide := 96#32 }, by decide +kernel⟩,
    ⟨((host .active).upTide fun t => { t with power := .standby }).modPier 0 fun l => { l with slackAsked := true }, 0#5,
      by decide +kernel⟩,
    ⟨mate, 0#5, by decide +kernel⟩,
    ⟨(host .slack), 0#5, by decide +kernel⟩,
    ⟨(mate.modPier 0 fun l => { l with st := .slack }), 0#5, by decide +kernel⟩,
    ⟨((((host .active).upPier fun p => { p with serving := 1#32 }).upCfg fun c =>
      { c with anchors := [site, { site with outs := 0x3FF#10 }] }).upUwb fun u =>
      { u with schedule := [{ round .ctrl with berth := 255, slots := [1] }] }), 0#5,
      { round .ctrl with berth := 255, slots := [1] },
      { kind := 0#3, berth := 255#8, tick := 63999360000, rx := { anchor := 1#6, stamp := 5, cfo := 0, fp := 0, total := 0, az := none, el := none }, drivers := [], cs := (0#16, 0#16, 0#4, 0#7), cir := [] },
      by decide +kernel⟩⟩

/-- Witnesses for `Obligations.PierHost`. -/
theorem test_meets_PierHost_2 :
    (∃ (s : State) (n : BitVec 5) (x : Round) (r : TenderResult), s.mainUp = true ∧ s.cfg.role = .harbourmaster ∧
      s.pier.serving.getLsbD n.toNat = true ∧ r.rx.anchor.toNat = n.toNat + 1 ∧ s.tide.startAt ≤ s.tickOf (BitVec.ofNat 48
      r.tick) ∧ s.uwb.schedule.find? (fun x => x.berth == r.berth.toNat && x.airborne) = some x ∧ s.hears x
      r.rx.anchor.toNat = true ∧ s.exported (n.toNat + 1) [0, 1, 2, 3] = true ∧ r.kind = 1#3 ∧ r.rx.anchor.toNat ∈ x.slots) ∧
    (∃ (s : State) (n : BitVec 5) (x : Round) (r : TenderResult), s.mainUp = true ∧ s.cfg.role = .harbourmaster ∧
      s.pier.serving.getLsbD n.toNat = true ∧ r.rx.anchor.toNat = n.toNat + 1 ∧ s.tide.startAt ≤ s.tickOf (BitVec.ofNat 48
      r.tick) ∧ s.uwb.schedule.find? (fun x => x.berth == r.berth.toNat && x.airborne) = some x ∧ s.hears x
      r.rx.anchor.toNat = true ∧ s.exported (n.toNat + 1) [0, 1, 2, 3] = true ∧ r.kind = 2#3) ∧
    (∃ (s : State) (n : BitVec 5) (r : TenderResult), s.mainUp = true ∧ s.cfg.role = .harbourmaster ∧ s.pier.serving.getLsbD
      n.toNat = true ∧ r.kind.toNat < 3 ∧ s.exported (n.toNat + 1) [0, 1, 2, 3] = false) ∧
    (∃ (s : State) (n : BitVec 5) (r : TenderResult), s.mainUp = true ∧ s.cfg.role = .harbourmaster ∧ s.pier.serving.getLsbD
      n.toNat = true ∧ r.kind = 3#3 ∧ s.exported (n.toNat + 1) [4, 5, 6, 7] = false) ∧
    (∃ (s : State) (n : BitVec 5) (r : TenderResult), s.mainUp = true ∧ s.cfg.role = .harbourmaster ∧ s.pier.serving.getLsbD
      n.toNat = true ∧ r.kind = 3#3 ∧ s.exported (n.toNat + 1) [4, 5, 6, 7] = true ∧ (s.berth r.berth.toNat).id.st.moored? =
      true ∧ s.linkAnchor r.berth.toNat = n.toNat + 1) ∧
    (∃ (s : State) (n : BitVec 5) (r : TenderResult) (a : _), s.mainUp = true ∧ s.cfg.role = .harbourmaster ∧
      s.pier.serving.getLsbD n.toNat = true ∧ (r.kind = 4#3 ∨ r.kind = 6#3) ∧ a < 16 ∧ (∀ d ∈ r.drivers, d.1.toNat ≠ a)) ∧
    (∃ (s : State) (n : BitVec 5) (r : TenderResult) (a : _), s.mainUp = true ∧ s.cfg.role = .harbourmaster ∧
      s.pier.serving.getLsbD n.toNat = true ∧ (r.kind = 4#3 ∨ r.kind = 6#3) ∧ a < 16 ∧ (∃ d ∈ r.drivers, d.1.toNat = a ∧
      d.2.2 = true)) ∧
    (∃ (s : State) (n : BitVec 5) (r : TenderResult) (a : _), s.mainUp = true ∧ s.cfg.role = .harbourmaster ∧
      s.pier.serving.getLsbD n.toNat = true ∧ (r.kind = 4#3 ∨ r.kind = 6#3) ∧ a < 16 ∧ (∃ d ∈ r.drivers, d.1.toNat = a) ∧ (∀
      d ∈ r.drivers, d.1.toNat = a → d.2.2 = false)) ∧
    (∃ (s : State) (n : BitVec 5) (r : TenderResult), s.mainUp = true ∧ s.cfg.role = .harbourmaster ∧ s.pier.serving.getLsbD
      n.toNat = true ∧ (r.kind = 4#3 ∨ r.kind = 6#3) ∧ r.kind = 6#3) :=
  ⟨⟨((((host .active).upPier fun p => { p with serving := 1#32 }).upCfg fun c =>
      { c with anchors := [site, { site with outs := 0x3FF#10 }] }).upUwb fun u =>
      { u with schedule := [{ round .ctrl with berth := 255, slots := [1] }] }), 0#5,
      { round .ctrl with berth := 255, slots := [1] },
      { kind := 1#3, berth := 255#8, tick := 63999360000, rx := { anchor := 1#6, stamp := 5, cfo := 0, fp := 0, total := 0, az := none, el := none }, drivers := [], cs := (0#16, 0#16, 0#4, 0#7), cir := [] },
      by decide +kernel⟩,
    ⟨((((host .active).upPier fun p => { p with serving := 1#32 }).upCfg fun c =>
      { c with anchors := [site, { site with outs := 0x3FF#10 }] }).upUwb fun u =>
      { u with schedule := [{ round .ctrl with berth := 255, slots := [1] }] }), 0#5,
      { round .ctrl with berth := 255, slots := [1] },
      { kind := 2#3, berth := 255#8, tick := 63999360000, rx := { anchor := 1#6, stamp := 5, cfo := 0, fp := 0, total := 0, az := none, el := none }, drivers := [], cs := (0#16, 0#16, 0#4, 0#7), cir := [] },
      by decide +kernel⟩,
    ⟨(((host .active).upPier fun p => { p with serving := 1#32 }).upCfg fun c => { c with anchors := [site, site] }), 0#5,
      { kind := 2#3, berth := 255#8, tick := 63999360000, rx := { anchor := 1#6, stamp := 5, cfo := 0, fp := 0, total := 0, az := none, el := none }, drivers := [], cs := (0#16, 0#16, 0#4, 0#7), cir := [] },
      by decide +kernel⟩,
    ⟨(((host .active).upPier fun p => { p with serving := 1#32 }).upCfg fun c => { c with anchors := [site, site] }), 0#5,
      { kind := 3#3, berth := 255#8, tick := 63999360000, rx := { anchor := 1#6, stamp := 5, cfo := 0, fp := 0, total := 0, az := none, el := none }, drivers := [], cs := (0#16, 0#16, 0#4, 0#7), cir := [] },
      by decide +kernel⟩,
    ⟨(((seat (((host .active).upPier fun p => { p with serving := 1#32 }).upCfg fun c =>
      { c with anchors := [site, { site with outs := 0x3FF#10 }] }) 255 (phone .ranged)).upNb fun b =>
      { b with links := [{ Link.reset with berth := some 255, anchor := 1 }] })), 0#5,
      { kind := 3#3, berth := 255#8, tick := 63999360000, rx := { anchor := 1#6, stamp := 5, cfo := 0, fp := 0, total := 0, az := none, el := none }, drivers := [], cs := (0#16, 0#16, 0#4, 0#7), cir := [] },
      by decide +kernel⟩,
    ⟨(((host .active).upPier fun p => { p with serving := 1#32 }).upCfg fun c => { c with anchors := [site, site] }), 0#5,
      { kind := 4#3, berth := 255#8, tick := 63999360000, rx := { anchor := 1#6, stamp := 5, cfo := 0, fp := 0, total := 0, az := none, el := none }, drivers := [], cs := (0#16, 0#16, 0#4, 0#7), cir := [] },
      15, by decide +kernel, by decide +kernel, by decide +kernel, by decide +kernel, by decide +kernel, by simp⟩,
    ⟨(((host .active).upPier fun p => { p with serving := 1#32 }).upCfg fun c => { c with anchors := [site, site] }), 0#5,
      { kind := 4#3, berth := 255#8, tick := 63999360000, rx := { anchor := 1#6, stamp := 5, cfo := 0, fp := 0, total := 0, az := none, el := none }, drivers := [(5#4, 0#11, true), (6#4, 0#11, false)], cs := (0#16, 0#16, 0#4, 0#7), cir := [] },
      5, by decide +kernel⟩,
    ⟨(((host .active).upPier fun p => { p with serving := 1#32 }).upCfg fun c => { c with anchors := [site, site] }), 0#5,
      { kind := 6#3, berth := 255#8, tick := 63999360000, rx := { anchor := 1#6, stamp := 5, cfo := 0, fp := 0, total := 0, az := none, el := none }, drivers := [(6#4, 0#11, false)], cs := (0#16, 0#16, 0#4, 0#7), cir := [] },
      6, by decide +kernel, by decide +kernel, by decide +kernel, by decide +kernel, by decide +kernel, by decide +kernel,
      by simp⟩,
    ⟨(((host .active).upPier fun p => { p with serving := 1#32 }).upCfg fun c => { c with anchors := [site, site] }), 0#5,
      { kind := 6#3, berth := 255#8, tick := 63999360000, rx := { anchor := 1#6, stamp := 5, cfo := 0, fp := 0, total := 0, az := none, el := none }, drivers := [(5#4, 0#11, true), (6#4, 0#11, false)], cs := (0#16, 0#16, 0#4, 0#7), cir := [] },
      by decide +kernel⟩⟩

/-- Witnesses for `Obligations.PierHost`. -/
theorem test_meets_PierHost_3 :
    (∃ (s : State) (n : BitVec 5) (arg : BitVec 32), s.mainUp = true ∧ s.cfg.role = .harbourmaster ∧ (s.link
      n.toNat).admission = .admitted ∧ s.tide.beacon = false ∧ arg.toNat < 9) ∧
    (∃ (s : State) (n : BitVec 5) (arg : BitVec 32), s.mainUp = true ∧ s.cfg.role = .harbourmaster ∧ (s.link
      n.toNat).admission = .admitted ∧ s.tide.beacon = true ∧ arg.toNat < 9) ∧
    (∃ (s : State) (n : BitVec 5), s.hostReady = true ∧ s.cfg.role = .harbourmaster ∧ (s.link n.toNat).rbusy = false ∧
      (s.link n.toNat).admission = .admitted) ∧
    (∃ (s : State) (n : BitVec 5), s.hostReady = true ∧ s.cfg.role = .harbourmaster ∧ (s.link n.toNat).rbusy = true) ∧
    (∃ (s : State) (n : BitVec 5), s.hostReady = true ∧ s.cfg.role = .harbourmaster ∧ (s.link n.toNat).rbusy = false ∧
      (s.link n.toNat).admission ≠ .admitted) :=
  ⟨⟨(host .active), 0#5, 8#32, by decide +kernel⟩,
    ⟨((host .active).upTide fun t => { t with beacon := true }), 0#5, 8#32, by decide +kernel⟩,
    ⟨(host .active), 0#5, by decide +kernel⟩,
    ⟨((host .active).modPier 0 fun l => { l with rbusy := true }), 0#5, by decide +kernel⟩,
    ⟨(host .active), 31#5, by decide +kernel⟩⟩

/-- Witnesses for `Obligations.PierTender`. -/
theorem test_meets_PierTender :
    (∃ (s : State), s.upActive = true) ∧
    (∃ (s : State), s.upActive = true ∧ s.keys.vr.valid = true) ∧
    (∃ (s : State) (mac : Bytes), s.upActive = true ∧ (s.link s.up).nt ≠ [] ∧ s.canDerive = true ∧ mac = (s.bindKeys
      s.hostLink (s.link s.up).nh (s.link s.up).nt s.ident.device s.tend.hostDev).2.2) ∧
    (∃ (s : State) (mac : Bytes), s.upActive = true ∧ (s.link s.up).nt ≠ [] ∧ (s.canDerive = false ∨ mac ≠ (s.bindKeys
      s.hostLink (s.link s.up).nh (s.link s.up).nt s.ident.device s.tend.hostDev).2.2)) ∧
    (∃ (s : State), s.upServed = true) ∧
    (∃ (s : State) (p : Push) (off : BitVec 32), s.upServed = true ∧ s.tend.push = some p ∧ p.bad = false ∧ off.toNat =
      p.got) ∧
    (∃ (s : State) (p : Push) (off : BitVec 32), s.upServed = true ∧ s.tend.push = some p ∧ p.bad = false ∧ off.toNat ≠
      p.got) ∧
    (∃ (s : State) (p : Push), s.upServed = true ∧ s.tend.push = some p ∧ (p.bad = true ∨ p.got ≠ p.len)) ∧
    (∃ (s : State) (p : Push), s.upServed = true ∧ s.tend.push = some p ∧ p.bad = false ∧ p.got = p.len ∧ p.fw = false) ∧
    (∃ (s : State) (p : Push), s.upServed = true ∧ s.tend.push = some p ∧ p.bad = false ∧ p.got = p.len ∧ p.fw = true) ∧
    (∃ (s : State) (p : Push) (rq : ReqId), s.mainUp = true ∧ s.tend.writing = true ∧ s.tend.own = none ∧ s.tend.pushRq =
      some rq ∧ s.tend.push = some p) ∧
    (∃ (s : State) (p : Push), s.mainUp = true ∧ s.tend.writing = true ∧ s.tend.own = some p) ∧
    (∃ (s : State) (tide : BitVec 32), s.upServed = true ∧ tide ≠ 0#32) ∧
    (∃ (s : State), s.upServed = true ∧ s.trng.inst = true ∧ s.keys.busy = false ∧ s.tide.life = .provision) ∧
    (∃ (s : State) (header : Bytes) (body : Bytes) (b : _) (u : _), s.upServed = true ∧ s.pierOpen s.up header body = (some
      b, u)) ∧
    (∃ (s : State), s.upServed = true ∧ (s.link s.up).bound = false) ∧
    (∃ (s : State) (at_ : Nat) (d : Bytes), s.upServed = true ∧ s.now + us 100 ≤ at_ ∧ byteAt d 0 = 1 ∧ byteAt d 1 ≠ 6) ∧
    (∃ (s : State) (at_ : Nat) (d : Bytes), s.upServed = true ∧ s.now + us 100 ≤ at_ ∧ byteAt d 0 = 2) ∧
    (∃ (s : State) (at_ : Nat) (d : Bytes) (w : _), s.upServed = true ∧ s.now + us 100 ≤ at_ ∧ byteAt d 0 = 1 ∧ byteAt d 1 =
      6 ∧ s.lf.onAir = some w ∧ w.kind = .pollPattern) ∧
    (∃ (s : State) (at_ : Nat), s.upServed = true ∧ at_ < s.now + us 100) ∧
    (∃ (s : State), s.upActive = true) :=
  ⟨⟨mate, by decide +kernel⟩,
    ⟨(mate.upKeys fun k => { k with vr := { Root.reset with valid := true } }), by decide +kernel⟩,
    ⟨mate, _, by decide +kernel, by decide +kernel, by decide +kernel, rfl⟩,
    ⟨(mate.upCry fun c => { c with selftest := 2#4 }), [], by decide +kernel⟩,
    ⟨mate, by decide +kernel⟩,
    ⟨(mate.upTend fun t => { t with push := some Push.reset }), Push.reset, 0#32, by decide +kernel⟩,
    ⟨(mate.upTend fun t => { t with push := some Push.reset }), Push.reset, 1#32, by decide +kernel⟩,
    ⟨(mate.upTend fun t => { t with push := some { Push.reset with len := 5 } }), { Push.reset with len := 5 },
      by decide +kernel⟩,
    ⟨(mate.upTend fun t => { t with push := some { Push.reset with got := 5, len := 5 } }),
      { Push.reset with got := 5, len := 5 }, by decide +kernel⟩,
    ⟨(mate.upTend fun t => { t with push := some { Push.reset with fw := true, got := 5, len := 5 } }),
      { Push.reset with fw := true, got := 5, len := 5 }, by decide +kernel⟩,
    ⟨(mate.upTend fun t => { t with push := some Push.reset, writing := true, pushRq := some (5#8, 1#4) }), Push.reset,
      (5#8, 1#4), by decide +kernel⟩,
    ⟨(mate.upTend fun t => { t with own := some Push.reset, writing := true }), Push.reset, by decide +kernel⟩,
    ⟨mate, 1#32, by decide +kernel⟩,
    ⟨(mate.upTide fun t => { t with life := .provision }), by decide +kernel⟩,
    ⟨mate, [], (le 8 0 ++ 56#8 :: List.replicate 15 0#8), _, _, by decide +kernel, Prod.ext (by decide +kernel) rfl⟩,
    ⟨((mate.upTide fun t => { t with life := .provision }).modPier 0 fun l => { l with bound := false }), by decide +kernel⟩,
    ⟨mate, 64000006400, [1#8], by decide +kernel⟩,
    ⟨mate, 64000006400, [2#8], by decide +kernel⟩,
    ⟨(mate.upLf fun l => { l with onAir := some { LfWork.reset with kind := .pollPattern } }), 64000006400, [1#8, 6#8],
      { LfWork.reset with kind := .pollPattern }, by decide +kernel⟩,
    ⟨mate, 64000006399, by decide +kernel⟩,
    ⟨mate, by decide +kernel⟩⟩

end Sys2Proof.Tests
end

section
/-! SUPPORT. The berth that a sighting opens (R27, R28, R30). -/

namespace Sys2Proof.Machine

/-- What a sighting opens (R27, R30): a berth SIGHTED with its kind, anchor, tide and stamp, all else at reset. -/
def State.sightedBerth (s : State) (kind : Nat) (anchor : BitVec 6) (stamp : Nat) : Berth :=
  { Berth.reset with id := { BerthId.reset with
      st := .sighted, kind := BitVec.ofNat 3 kind, anchor := anchor
      sightTide := s.tideOf stamp, sightAt := s.now, sightStamp := stamp, quietFrom := s.now } }

theorem State.berth_modBerth_same {s : State} {n : Nat} (f : Berth → Berth) (h : n < s.bt.berths.length) :
    (s.modBerth n f).berth n = f (s.berth n) := by
  simp [State.berth, State.modBerth, h]

theorem State.berth_modBerth_ne {s : State} {m n : Nat} (f : Berth → Berth) (h : m ≠ n) :
    (s.modBerth n f).berth m = s.berth m := by
  simp [State.berth, State.modBerth, h.symm]

/-- R27, R23, R106: the berth that opens is one of COUNT and of the table, and every berth below it is in use. -/
theorem State.freeBerth_eq_some {s : State} {n : Nat} (h : s.freeBerth = some n) :
    n < s.cfg.count ∧ n < 256 ∧ ∀ m, m < n → (s.berth m).id.st ≠ .free := by
  obtain ⟨-, hmem, hlow⟩ := List.find?_range_eq_some.mp h
  have hn : n < s.cfg.count ∧ n < 256 := by simpa using hmem
  exact ⟨hn.1, hn.2, fun m hm => by simpa [State.berthIs] using hlow m hm⟩

/-- R131, R133: only the tide changes, and only in WATCH. -/
theorem State.sightDwell_eq (s : State) :
    s.sightDwell = { s with tide := if s.tide.power = .watch then { s.tide with dwellOut := false, dwellFrom := s.now }
                                    else s.tide } := by
  unfold State.sightDwell
  split <;> rfl

/-- A sighting with a FREE berth `n` (R27): berth `n` is replaced, source 4 latches, and the dwell of WATCH starts again;
nothing else changes. -/
theorem State.sight_of_freeBerth {s : State} {n : Nat} (kind : Nat) (anchor : BitVec 6) (stamp : Nat)
    (h : s.freeBerth = some n) :
    s.sight kind anchor stamp =
      ({ s.modBerth n fun _ => s.sightedBerth kind anchor stamp with
          intc := s.intc.event 4
          tide := if s.tide.power = .watch then { s.tide with dwellOut := false, dwellFrom := s.now } else s.tide },
        some n) := by
  simp only [State.sight, h, State.sightDwell_eq]
  rfl

/-- A sighting with no FREE berth (R28): it is dropped and counted in FULL, and source 11 latches. -/
theorem State.sight_of_no_freeBerth {s : State} (kind : Nat) (anchor : BitVec 6) (stamp : Nat)
    (h : s.freeBerth = none) :
    s.sight kind anchor stamp = ((s.upBt fun b => { b with full := satInc b.full }).latch 11, none) := by
  simp only [State.sight, h]

/-- Settles O27: `sight` is written out once for each answer of `freeBerth`, and every clause is read off. -/
theorem sightingOpensLowest : Obligations.SightingOpensLowest := by
  intro s kind anchor stamp hlen
  refine ⟨fun n hfree => ?_, fun hnone => ?_⟩
  · obtain ⟨hcount, hn, hlow⟩ := State.freeBerth_eq_some hfree
    rw [State.sight_of_freeBerth kind anchor stamp hfree]
    exact ⟨hlow, hcount, rfl, State.berth_modBerth_same _ (hlen ▸ hn),
      fun m hm => State.berth_modBerth_ne _ hm, rfl, rfl⟩
  · rw [State.sight_of_no_freeBerth kind anchor stamp hnone]
    exact ⟨rfl, rfl⟩

end Sys2Proof.Machine
end

section
/-! SUPPORT. The winner of a start request as the least qualifying berth in one linear order (R55). -/

namespace Sys2Proof.Machine

/-- Berth `n` holds the booking in force (R55, R64): a BOOKING of 0 is none. -/
def State.holdsBooking (s : State) (n : Nat) : Bool :=
  s.bt.booking.force != 0#64 && (s.berth n).id.cred == s.bt.booking.force

/-- The rank of a berth for a start request, the least wins (R55): the booking's holder, T_MOOR, the number. -/
def State.startRank (s : State) (n : Nat) : Bool ×ₗ Nat ×ₗ Nat :=
  toLex (!s.holdsBooking n, toLex ((s.berth n).id.tMoor.toNat, n))

theorem State.holdsBooking_iff (s : State) (n : Nat) :
    s.holdsBooking n = true ↔ s.bt.booking.force ≠ 0#64 ∧ (s.berth n).id.cred = s.bt.booking.force := by
  simp [State.holdsBooking]

/-- The order of the ranks is R55's: the holder of the booking, else the earlier T_MOOR, else the lower number. -/
theorem State.startRank_lt_iff (s : State) (a b : Nat) :
    s.startRank a < s.startRank b ↔
      (s.holdsBooking a = true ∧ ¬ s.holdsBooking b = true) ∨
      ((s.holdsBooking a = true ↔ s.holdsBooking b = true) ∧
        ((s.berth a).id.tMoor < (s.berth b).id.tMoor ∨ (s.berth a).id.tMoor = (s.berth b).id.tMoor ∧ a < b)) := by
  simp only [State.startRank, Prod.Lex.toLex_lt_toLex, BitVec.lt_def, BitVec.toNat_inj]
  cases s.holdsBooking a <;> cases s.holdsBooking b <;> simp

theorem State.startRank_injective (s : State) : Function.Injective s.startRank := fun a b h => by
  simp only [State.startRank, toLex_inj, Prod.mk.injEq] at h
  exact h.2.2

/-- The model's comparison, by what each berth holds of the booking. -/
theorem State.startBefore_eq_ite (s : State) (a b : Nat) :
    s.startBefore a b =
      if s.holdsBooking a != s.holdsBooking b then s.holdsBooking a
      else if (s.berth a).id.tMoor != (s.berth b).id.tMoor then
        decide ((s.berth a).id.tMoor.toNat < (s.berth b).id.tMoor.toNat)
      else decide (a < b) := rfl

theorem State.startBefore_iff (s : State) (a b : Nat) :
    s.startBefore a b = true ↔ s.startRank a < s.startRank b := by
  rw [State.startBefore_eq_ite, State.startRank_lt_iff]
  by_cases hbook : s.holdsBooking a = s.holdsBooking b
  · by_cases hmoor : (s.berth a).id.tMoor = (s.berth b).id.tMoor
    · simp [hbook, hmoor]
    · simp [hbook, hmoor, BitVec.lt_def]
  · have hb : s.holdsBooking b = !s.holdsBooking a := Bool.eq_not.mpr (Ne.symm hbook)
    simp [hb]

/-- The scan over the berths finds the qualifying berth of least rank. -/
theorem State.startWinner_eq_argmin (s : State) :
    s.startWinner = (berthNos.filter s.qualifies).argmin s.startRank := by
  unfold State.startWinner List.argmin
  congr 1
  funext w n
  cases w with
  | none => rfl
  | some m => simp only [List.argAux, State.startBefore_iff]

theorem State.mem_qualifying_iff (s : State) (n : Nat) :
    n ∈ berthNos.filter s.qualifies ↔ n < 256 ∧ s.qualifies n = true := by
  simp [berthNos]

/-- R55: the winner qualifies, and ranks before every other qualifying berth. -/
theorem State.startWinner_eq_some {s : State} {n : Nat} (h : s.startWinner = some n) :
    (n < 256 ∧ s.qualifies n = true) ∧
      ∀ m, m < 256 → s.qualifies m = true → m = n ∨ s.startRank n < s.startRank m := by
  rw [State.startWinner_eq_argmin] at h
  refine ⟨(State.mem_qualifying_iff s n).mp (List.argmin_mem h), fun m hm hq => ?_⟩
  have hle : s.startRank n ≤ s.startRank m :=
    List.le_of_mem_argmin ((State.mem_qualifying_iff s m).mpr ⟨hm, hq⟩) h
  exact hle.eq_or_lt.imp_left fun heq => (s.startRank_injective heq).symm

theorem State.startWinner_eq_none_iff (s : State) :
    s.startWinner = none ↔ ∀ m, m < 256 → s.qualifies m = false := by
  rw [State.startWinner_eq_argmin, List.argmin_eq_none, List.filter_eq_nil_iff]
  simp [berthNos]

/-- Settles O31: the scan's winner is the least in rank, and the ranks are ordered as R55 says. -/
theorem startWinner : Obligations.StartWinner := by
  intro s
  refine ⟨fun n hwin => ?_, s.startWinner_eq_none_iff⟩
  obtain ⟨⟨hn, hq⟩, hleast⟩ := State.startWinner_eq_some hwin
  refine ⟨hn, hq, fun m hm hqm => (hleast m hm hqm).imp_right fun hlt => ?_⟩
  simpa only [State.startRank_lt_iff, State.holdsBooking_iff] using hlt

end Sys2Proof.Machine
end

section
/-! SUPPORT. Where the controller delivers an event of a source: the first enabled target in round-robin order (R669 to R675). -/

namespace Sys2Proof.Machine

theorem Intc.last_lt (i : Intc) (n : Nat) : i.last n < 3 := by
  unfold Intc.last
  split
  · decide
  · split <;> decide

/-- The search of R671 looks at the targets by their distance `k` behind the target of the previous delivery. -/
theorem Intc.choose_eq_map (i : Intc) (n : Nat) :
    i.choose n = ((List.range 3).find? fun k => (i.enables ((i.last n + 1 + k) % 3)).getLsbD n).map
      fun k => (i.last n + 1 + k) % 3 :=
  List.find?_map

/-- R671: the chosen target has the source enabled, and no target between the previous delivery's and it has. -/
theorem Intc.choose_eq_some {i : Intc} {n t : Nat} (h : i.choose n = some t) :
    t < 3 ∧ (i.enables t).getLsbD n = true ∧
      ∀ k, k < (t + 2 - i.last n) % 3 → (i.enables ((i.last n + 1 + k) % 3)).getLsbD n = false := by
  rw [Intc.choose_eq_map] at h
  obtain ⟨k, hfind, rfl⟩ := Option.map_eq_some_iff.mp h
  obtain ⟨hen, hk, hbefore⟩ := List.find?_range_eq_some.mp hfind
  have hk3 : k < 3 := List.mem_range.mp hk
  have hlast := i.last_lt n
  have hdist : ((i.last n + 1 + k) % 3 + 2 - i.last n) % 3 = k := by omega
  refine ⟨Nat.mod_lt _ (by decide), hen, fun j hj => ?_⟩
  simpa using hbefore j (hdist ▸ hj)

/-- The search reaches every target, so it finds none only where none has the source enabled (R671). -/
theorem Intc.choose_eq_none {i : Intc} {n t : Nat} (h : i.choose n = none) (ht : t < 3) :
    (i.enables t).getLsbD n = false := by
  rw [Intc.choose_eq_map, Option.map_eq_none_iff, List.find?_range_eq_none] at h
  have hlast := i.last_lt n
  have hreach : (i.last n + 1 + (t + 2 - i.last n) % 3) % 3 = t := by omega
  simpa [hreach] using h ((t + 2 - i.last n) % 3) (Nat.mod_lt _ (by decide))

theorem Intc.assigned_of_free {i : Intc} {n : Nat} (h : i.free n = true) (t : Nat) :
    (i.assigned t).getLsbD n = false := by
  simp only [Intc.free, Bool.not_eq_true', Bool.or_eq_false_iff] at h
  obtain ⟨⟨⟨⟨⟨hH, hA⟩, hB⟩, -⟩, -⟩, -⟩ := h
  unfold Intc.assigned
  split
  · exact hH
  · exact hA
  · exact hB

/-- Assigning source `n` to target `u` sets its bit at `u` alone. -/
theorem Intc.assigned_assignTo (i : Intc) (n : Nat) {t u : Nat} (ht : t < 3) (hu : u < 3) :
    (i.assignTo n u).assigned t = if t = u then setBit (i.assigned t) n true else i.assigned t := by
  interval_cases t <;> interval_cases u <;> rfl

@[simp] theorem Intc.pending_assignTo (i : Intc) (n u : Nat) : (i.assignTo n u).pending = i.pending := by
  unfold Intc.assignTo
  split <;> rfl

@[simp] theorem Intc.active_assignTo (i : Intc) (n u : Nat) : (i.assignTo n u).active = i.active := by
  unfold Intc.assignTo
  split <;> rfl

@[simp] theorem Intc.enables_assignTo (i : Intc) (n u : Nat) : (i.assignTo n u).enables = i.enables := by
  unfold Intc.assignTo
  split <;> rfl

/-- The controller with the pending bit of source `n` set, before the source is assigned (R669). -/
def Intc.pend (i : Intc) (n : Nat) : Intc := { i with pending := setBit i.pending n true }

@[simp] theorem Intc.assigned_pend (i : Intc) (n : Nat) : (i.pend n).assigned = i.assigned := rfl

@[simp] theorem Intc.active_pend (i : Intc) (n : Nat) : (i.pend n).active = i.active := rfl

@[simp] theorem Intc.enables_pend (i : Intc) (n : Nat) : (i.pend n).enables = i.enables := rfl

@[simp] theorem Intc.free_pend (i : Intc) (n : Nat) : (i.pend n).free = i.free := rfl

@[simp] theorem Intc.choose_pend (i : Intc) (n : Nat) : (i.pend n).choose = i.choose := rfl

/-- R669, R671, R675: beside its pending bit, an event assigns a free source to the target chosen for it, and nothing where
the source is not free or no target has it enabled. -/
theorem Intc.event_cases (i : Intc) {n : Nat} (hn : n < 64) :
    (i.free n = false ∧ i.event n = i.pend n) ∨
      (i.free n = true ∧ i.choose n = none ∧ i.event n = i.pend n) ∨
      ∃ u, i.free n = true ∧ i.choose n = some u ∧ i.event n = (i.pend n).assignTo n u := by
  have hpending : (i.pend n).pending.getLsbD n = true := setBit_here _ n true hn
  have hevent : i.event n = (i.pend n).settle n := rfl
  rw [hevent, Intc.settle, hpending, Intc.free_pend, Intc.choose_pend]
  cases i.free n with
  | false => exact .inl ⟨rfl, rfl⟩
  | true =>
    cases i.choose n with
    | none => exact .inr (.inl ⟨rfl, rfl, rfl⟩)
    | some u => exact .inr (.inr ⟨u, rfl, rfl, rfl⟩)

/-- What an event of source `n` leaves of the controller whether it is assigned or not (R669). -/
theorem Intc.event_frame (i : Intc) {n : Nat} (hn : n < 64) :
    (i.event n).pending = (i.pend n).pending ∧ (i.event n).active = i.active ∧ (i.event n).enables = i.enables := by
  obtain ⟨-, he⟩ | ⟨-, -, he⟩ | ⟨u, -, -, he⟩ := i.event_cases hn <;> simp [he]

/-- An event of a source that is assigned or active leaves it where it is (R672, R675). -/
theorem Intc.assigned_event_of_not_free {i : Intc} {n : Nat} (hn : n < 64) (h : i.free n = false) :
    (i.event n).assigned = i.assigned := by
  obtain ⟨-, he⟩ | ⟨hfree, -⟩ | ⟨u, hfree, -⟩ := i.event_cases hn
  · rw [he, Intc.assigned_pend]
  · simp [h] at hfree
  · simp [h] at hfree

/-- After an event a free source is assigned to the chosen target and to no other (R671). -/
theorem Intc.assigned_event_iff {i : Intc} {n t : Nat} (hn : n < 64) (h : i.free n = true) (ht : t < 3) :
    ((i.event n).assigned t).getLsbD n = true ↔ i.choose n = some t := by
  have hbefore := Intc.assigned_of_free h t
  obtain ⟨hfree, -⟩ | ⟨-, hnone, he⟩ | ⟨u, -, hsome, he⟩ := i.event_cases hn
  · simp [h] at hfree
  · simp [he, hnone, hbefore]
  · have hu : u < 3 := (Intc.choose_eq_some hsome).1
    rw [he, Intc.assigned_assignTo _ n ht hu, Intc.assigned_pend, hsome, Option.some_inj]
    by_cases htu : t = u
    · simp [htu, setBit_here _ n true hn]
    · simp [htu, Ne.symm htu, hbefore]

/-- An event of source `n` assigns no other source. -/
theorem Intc.assigned_event_other (i : Intc) {n m t : Nat} (hn : n < 64) (ht : t < 3) (hm : m ≠ n) :
    ((i.event n).assigned t).getLsbD m = (i.assigned t).getLsbD m := by
  obtain ⟨-, he⟩ | ⟨-, -, he⟩ | ⟨u, -, hsome, he⟩ := i.event_cases hn
  · rw [he, Intc.assigned_pend]
  · rw [he, Intc.assigned_pend]
  · have hu : u < 3 := (Intc.choose_eq_some hsome).1
    rw [he, Intc.assigned_assignTo _ n ht hu, Intc.assigned_pend]
    split
    · exact setBit_other _ true hm
    · rfl

/-- Settles O8: an event makes its source pending, and a free source goes where `choose` says. -/
theorem eventIsDelivered : Obligations.EventIsDelivered := by
  intro i n hn
  obtain ⟨hpending, hactive, henables⟩ := i.event_frame hn
  refine ⟨hpending ▸ setBit_here _ n true hn, fun m hm => hpending ▸ setBit_other _ true hm,
    fun t ht m hm => i.assigned_event_other hn ht hm, fun t _ => ⟨congrFun hactive t, congrFun henables t⟩,
    fun hfree t _ => congrFun (Intc.assigned_event_of_not_free hn hfree) t, fun hfree t ht hasg => ?_,
    fun hfree ⟨t, ht, hen⟩ => ?_⟩
  · exact (Intc.choose_eq_some ((Intc.assigned_event_iff hn hfree ht).mp hasg)).2
  · cases hchoose : i.choose n with
    | none => simp [Intc.choose_eq_none hchoose ht] at hen
    | some u =>
      have hu : u < 3 := (Intc.choose_eq_some hchoose).1
      exact ⟨u, hu, (Intc.assigned_event_iff hn hfree hu).mpr hchoose⟩

end Sys2Proof.Machine
end

section
/-! SUPPORT. What every command leaves alone, by its kind: the promises about the step, the invariant, the tide and the start
lock are read off one case split over the commands. -/

namespace Sys2Proof.Machine

/-- What a command may change besides what every other command may. -/
inductive CommandKind where
  /-- a boundary, a start or a message of the harbourmaster: the time and the tide (R122, R123, R131, R137) -/
  | movesTide
  /-- a STATUS: whether a release is held (R428) -/
  | mayRelease
  /-- any other command: neither -/
  | plain

def commandKind (c : Instr) : CommandKind :=
  match c with
  | .tideBoundary _ | .wakeBoundary _ | .pierMark _ | .tideMessage .. | .mainStart .. | .powerOnReset => .movesTide
  | .lkStatus .. => .mayRelease
  | _ => .plain

/-- The outcome `o` of a command of a kind, in state `s`, is a next state, which keeps what the kind lets alone. -/
def CommandKind.Leaves (k : CommandKind) (s : State) (o : Host.Outcome State Fault Refusal) : Prop :=
  match k with
  | .movesTide => EndsKept s o
  | .mayRelease => EndsClocked s o
  | .plain => Ends s o

/-- Every command, in any state, ends in a next state and leaves alone what its kind leaves alone. -/
theorem exec_leaves (c : Instr) (s : State) : (commandKind c).Leaves s (exec c s) :=
  match c with
  | .tideBoundary env => ends_TideBoundary env (kept_refl s)
  | .wakeBoundary env => ends_WakeBoundary env (kept_refl s)
  | .watchDwellExpiry => ends_WatchDwellExpiry (keeps_refl s)
  | .serviceDwellExpiry => ends_ServiceDwellExpiry (keeps_refl s)
  | .powerReqWrite v => ends_PowerReqWrite v (keeps_refl s)
  | .registerWrite ha hi => ends_RegisterWrite ha hi (keeps_refl s)
  | .lowHalfWrite ha lo => ends_LowHalfWrite ha lo (keeps_refl s)
  | .undefinedCommandCode ha hi => ends_UndefinedCommandCode ha hi (keeps_refl s)
  | .portLowHalfRead ha => ends_PortLowHalfRead ha (keeps_refl s)
  | .farAccessComplete => ends_FarAccessComplete (keeps_refl s)
  | .busProtocolError => ends_BusProtocolError (keeps_refl s)
  | .unmappedAccess ha d => ends_UnmappedAccess ha d (keeps_refl s)
  | .bulkWindowWrite ha d => ends_BulkWindowWrite ha d (keeps_refl s)
  | .portStartAfterPor => ends_PortStartAfterPor (keeps_refl s)
  | .hostReset v => ends_HostReset v (keeps_refl s)
  | .bleAdvertisement company typ fleet token heard => ends_BleAdvertisement company typ fleet token heard (keeps_refl s)
  | .advertisingBurst x => ends_AdvertisingBurst x (keeps_refl s)
  | .advertisingEvent x => ends_AdvertisingEvent x (keeps_refl s)
  | .scanWindow => ends_ScanWindow (keeps_refl s)
  | .connectionEvent link returnLoss peer => ends_ConnectionEvent link returnLoss peer (keeps_refl s)
  | .hello link token cred gen caps tk => ends_Hello link token cred gen caps tk (keeps_refl s)
  | .helloTimeout link => ends_HelloTimeout link (keeps_refl s)
  | .bleResponse n mac => ends_BleResponse n mac (keeps_refl s)
  | .encryptionRefused n => ends_EncryptionRefused n (keeps_refl s)
  | .ready n sid mac => ends_Ready n sid mac (keeps_refl s)
  | .fieldFrame n hailTag seq a field mac => ends_FieldFrame n hailTag seq a field mac (keeps_refl s)
  | .close n reason => ends_Close n reason (keeps_refl s)
  | .accessFrameForeign link typ len => ends_AccessFrameForeign link typ len (keeps_refl s)
  | .bleDisconnection n => ends_BleDisconnection n (keeps_refl s)
  | .hailTimeout n => ends_HailTimeout n (keeps_refl s)
  | .quietTimeout n => ends_QuietTimeout n (keeps_refl s)
  | .farTimeout n => ends_FarTimeout n (keeps_refl s)
  | .berthCast n v => ends_BerthCast n v (keeps_refl s)
  | .bookingLoWrite v => ends_BookingLoWrite v (keeps_refl s)
  | .bookingHiWrite v => ends_BookingHiWrite v (keeps_refl s)
  | .startButtonPress mfp => ends_StartButtonPress mfp (keeps_refl s)
  | .startDebounceEnd mfp => ends_StartDebounceEnd mfp (keeps_refl s)
  | .verdictPublication => ends_VerdictPublication (keeps_refl s)
  | .latchPulseEnd mfp => ends_LatchPulseEnd mfp (keeps_refl s)
  | .ovrVerify => ends_OvrVerify (keeps_refl s)
  | .ovrVerifyDone => ends_OvrVerifyDone (keeps_refl s)
  | .fireRule rule => ends_FireRule rule (keeps_refl s)
  | .fireStart => ends_FireStart (keeps_refl s)
  | .ovrCancel => ends_OvrCancel (keeps_refl s)
  | .ovrNewNonce => ends_OvrNewNonce (keeps_refl s)
  | .ovrWindowEnd => ends_OvrWindowEnd (keeps_refl s)
  | .vselWrite v => ends_VselWrite v (keeps_refl s)
  | .handleTouch mfp => ends_HandleTouch mfp (keeps_refl s)
  | .lfFrameStart => ends_LfFrameStart (keeps_refl s)
  | .lfPatternEnd senses => ends_LfPatternEnd senses (keeps_refl s)
  | .answerWindowClose air => ends_AnswerWindowClose air (keeps_refl s)
  | .slottedRoundClose air => ends_SlottedRoundClose air (keeps_refl s)
  | .lfPollingPattern => ends_LfPollingPattern (keeps_refl s)
  | .uhfSniff => ends_UhfSniff (keeps_refl s)
  | .wakeAnswer rx flags fob idle => ends_WakeAnswer rx flags fob idle (keeps_refl s)
  | .challengeResponse rx flags fob counter mac => ends_ChallengeResponse rx flags fob counter mac (keeps_refl s)
  | .buttonTelegram rx command fob counter idle mac => ends_ButtonTelegram rx command fob counter idle mac (keeps_refl s)
  | .pollReport rx flags hailTag seq resv field mac => ends_PollReport rx flags hailTag seq resv field mac (keeps_refl s)
  | .fieldFit n => ends_FieldFit n (keeps_refl s)
  | .lfCal => ends_LfCal (keeps_refl s)
  | .lfCalibrationDone results => ends_LfCalibrationDone results (keeps_refl s)
  | .clrIdle => ends_ClrIdle (keeps_refl s)
  | .driverTrip d => ends_DriverTrip d (keeps_refl s)
  | .vlfLow mv => ends_VlfLow mv (keeps_refl s)
  | .uwbCal => ends_UwbCal (keeps_refl s)
  | .pllUCalDone ok temp => ends_PllUCalDone ok temp (keeps_refl s)
  | .pllULock => ends_PllULock (keeps_refl s)
  | .pllULossOfLock => ends_PllULossOfLock (keeps_refl s)
  | .roundPreparation temp => ends_RoundPreparation temp (keeps_refl s)
  | .uwbCtrlTransmit => ends_UwbCtrlTransmit (keeps_refl s)
  | .uwbPoll rx => ends_UwbPoll rx (keeps_refl s)
  | .uwbResponseTransmit slot => ends_UwbResponseTransmit slot (keeps_refl s)
  | .uwbFinal rx => ends_UwbFinal rx (keeps_refl s)
  | .uwbFinalData begin_ payload => ends_UwbFinalData begin_ payload (keeps_refl s)
  | .uwbRoundEnd => ends_UwbRoundEnd (keeps_refl s)
  | .roundResults => ends_RoundResults (keeps_refl s)
  | .foreignUwbFrame f => ends_ForeignUwbFrame f (keeps_refl s)
  | .uwbTestGo v => ends_UwbTestGo v (keeps_refl s)
  | .resSelWrite v => ends_ResSelWrite v (keeps_refl s)
  | .cirSelWrite v => ends_CirSelWrite v (keeps_refl s)
  | .nbradioCal => ends_NbradioCal (keeps_refl s)
  | .synthCalibration which => ends_SynthCalibration which (keeps_refl s)
  | .synthCalDone which ok temp irr => ends_SynthCalDone which ok temp irr (keeps_refl s)
  | .synthLock => ends_SynthLock (keeps_refl s)
  | .synthLossOfLock which => ends_SynthLossOfLock which (keeps_refl s)
  | .csProcedure n => ends_CsProcedure n (keeps_refl s)
  | .csResults n chains => ends_CsResults n chains (keeps_refl s)
  | .csSelWrite v => ends_CsSelWrite v (keeps_refl s)
  | .nbradioTestGo v => ends_NbradioTestGo v (keeps_refl s)
  | .reqaPoll => ends_ReqaPoll (keeps_refl s)
  | .cardActivation uids => ends_CardActivation uids (keeps_refl s)
  | .cardSelect cid sw role cred => ends_CardSelect cid sw role cred (keeps_refl s)
  | .cardAuthBeginResponse cid rb macC sw => ends_CardAuthBeginResponse cid rb macC sw (keeps_refl s)
  | .cardAuthEndResponse cid sw => ends_CardAuthEndResponse cid sw (keeps_refl s)
  | .cardLeftField cid => ends_CardLeftField cid (keeps_refl s)
  | .readerFieldReturn present => ends_ReaderFieldReturn present (keeps_refl s)
  | .nfcRescan => ends_NfcRescan (keeps_refl s)
  | .cardSelWrite v => ends_CardSelWrite v (keeps_refl s)
  | .tagFieldOn => ends_TagFieldOn (keeps_refl s)
  | .tagSelect => ends_TagSelect (keeps_refl s)
  | .tagAuthBegin kind cred device ra noise => ends_TagAuthBegin kind cred device ra noise (keeps_refl s)
  | .tagWtx => ends_TagWtx (keeps_refl s)
  | .harvestDelayEnd noise => ends_HarvestDelayEnd noise (keeps_refl s)
  | .tagAuthEnd macR => ends_TagAuthEnd macR (keeps_refl s)
  | .tagRead off len => ends_TagRead off len (keeps_refl s)
  | .tagWrite off data => ends_TagWrite off data (keeps_refl s)
  | .tagReadOrig off len => ends_TagReadOrig off len (keeps_refl s)
  | .tagDeactivation cut => ends_TagDeactivation cut (keeps_refl s)
  | .harvTimeout => ends_HarvTimeout (keeps_refl s)
  | .tagMemHostAccess ha d => ends_TagMemHostAccess ha d (keeps_refl s)
  | .registerOpen => ends_RegisterOpen (keeps_refl s)
  | .registerBlockCrc crc => ends_RegisterBlockCrc crc (keeps_refl s)
  | .importWindowWrite ha d => ends_ImportWindowWrite ha d (keeps_refl s)
  | .registerVerify => ends_RegisterVerify (keeps_refl s)
  | .registerVerifyDone => ends_RegisterVerifyDone (keeps_refl s)
  | .registerCommit => ends_RegisterCommit (keeps_refl s)
  | .stagingDone ok => ends_StagingDone ok (keeps_refl s)
  | .registerAbort => ends_RegisterAbort (keeps_refl s)
  | .journalApply => ends_JournalApply (keeps_refl s)
  | .mbLookup => ends_MbLookup (keeps_refl s)
  | .mbScrub => ends_MbScrub (keeps_refl s)
  | .mailboxDone => ends_MailboxDone (keeps_refl s)
  | .clockWrite v => ends_ClockWrite v (keeps_refl s)
  | .clockFloorHour => ends_ClockFloorHour (keeps_refl s)
  | .installRoot => ends_InstallRoot (keeps_refl s)
  | .installPub => ends_InstallPub (keeps_refl s)
  | .setFleetId => ends_SetFleetId (keeps_refl s)
  | .pair => ends_Pair (keeps_refl s)
  | .genXmss => ends_GenXmss (keeps_refl s)
  | .genXmssDone => ends_GenXmssDone (keeps_refl s)
  | .advance => ends_Advance (keeps_refl s)
  | .keysReturn => ends_KeysReturn (keeps_refl s)
  | .respond => ends_Respond (keeps_refl s)
  | .exportHarvest => ends_ExportHarvest (keeps_refl s)
  | .keysNewNonce => ends_KeysNewNonce (keeps_refl s)
  | .destroy vehicle => ends_Destroy vehicle (keeps_refl s)
  | .keysAbort => ends_KeysAbort (keeps_refl s)
  | .rootRetagDone => ends_RootRetagDone (keeps_refl s)
  | .pairingFrame => ends_PairingFrame (keeps_refl s)
  | .pairingTimeout => ends_PairingTimeout (keeps_refl s)
  | .tamperLineRise source => ends_TamperLineRise source (keeps_refl s)
  | .aesGo v => ends_AesGo v (keeps_refl s)
  | .aesBlockDone => ends_AesBlockDone (keeps_refl s)
  | .aesJobArrival level cell master fleet blocks feature dir => ends_AesJobArrival level cell master fleet blocks feature dir (keeps_refl s)
  | .aesJobResume => ends_AesJobResume (keeps_refl s)
  | .keccakJobArrival level verify permutations feature => ends_KeccakJobArrival level verify permutations feature (keeps_refl s)
  | .attest => ends_Attest (keeps_refl s)
  | .signRelease ok => ends_SignRelease ok (keeps_refl s)
  | .trngGenerate => ends_TrngGenerate (keeps_refl s)
  | .trngReseed => ends_TrngReseed (keeps_refl s)
  | .setPers => ends_SetPers (keeps_refl s)
  | .noiseBlockDone raw => ends_NoiseBlockDone raw (keeps_refl s)
  | .fatalRestart => ends_FatalRestart (keeps_refl s)
  | .drbgReseedTimer => ends_DrbgReseedTimer (keeps_refl s)
  | .entropyRequestTimeout => ends_EntropyRequestTimeout (keeps_refl s)
  | .maskGeneratorReseed => ends_MaskGeneratorReseed (keeps_refl s)
  | .ticketDelivery => ends_TicketDelivery (keeps_refl s)
  | .requestTimerExpiry => ends_RequestTimerExpiry (keeps_refl s)
  | .lkChallenge reqCtr epoch nonce answerUs => ends_LkChallenge reqCtr epoch nonce answerUs (keeps_refl s)
  | .lkStatus engine verdict epoch seq mac => ends_LkStatus engine verdict epoch seq mac (keeps_refl s).clocked
  | .ticketWindowEnd => ends_TicketWindowEnd (keeps_refl s)
  | .crankWindowEnd => ends_CrankWindowEnd (keeps_refl s)
  | .ecuSilent => ends_EcuSilent (keeps_refl s)
  | .stenReadback agrees => ends_StenReadback agrees (keeps_refl s)
  | .lkBusOff => ends_LkBusOff (keeps_refl s)
  | .islandSupplyTrip => ends_IslandSupplyTrip (keeps_refl s)
  | .islandPowerUp testsOk => ends_IslandPowerUp testsOk (keeps_refl s)
  | .islandSelftestRetry testsOk => ends_IslandSelftestRetry testsOk (keeps_refl s)
  | .canFrameReceived n frame sof => ends_CanFrameReceived n frame sof (keeps_refl s)
  | .canTxRequest n k => ends_CanTxRequest n k (keeps_refl s)
  | .canLoad n k => ends_CanLoad n k (keeps_refl s)
  | .canCancel n k => ends_CanCancel n k (keeps_refl s)
  | .canArbitrationStart n => ends_CanArbitrationStart n (keeps_refl s)
  | .canTxSuccess n => ends_CanTxSuccess n (keeps_refl s)
  | .canTxAttemptFailed n kind => ends_CanTxAttemptFailed n kind (keeps_refl s)
  | .canBusOffRecovery n => ends_CanBusOffRecovery n (keeps_refl s)
  | .canBusIntegration n => ends_CanBusIntegration n (keeps_refl s)
  | .canProtocolException n => ends_CanProtocolException n (keeps_refl s)
  | .canRxAck n c => ends_CanRxAck n c (keeps_refl s)
  | .canTransactTimeout n k tag => ends_CanTransactTimeout n k tag (keeps_refl s)
  | .pierPortEnable n => ends_PierPortEnable n (keeps_refl s)
  | .pierTrainingComplete n latency => ends_PierTrainingComplete n latency (keeps_refl s)
  | .pierTrainingTimeout n => ends_PierTrainingTimeout n (keeps_refl s)
  | .pierRetrainTimer n => ends_PierRetrainTimer n (keeps_refl s)
  | .pierAdrift n cause => ends_PierAdrift n cause (keeps_refl s)
  | .pierRetrain n => ends_PierRetrain n (keeps_refl s)
  | .pierBlockReceived n seq crcOk codeOk => ends_PierBlockReceived n seq crcOk codeOk (keeps_refl s)
  | .pierAck n sq => ends_PierAck n sq (keeps_refl s)
  | .pierNak n sq => ends_PierNak n sq (keeps_refl s)
  | .pierResendTimeout n => ends_PierResendTimeout n (keeps_refl s)
  | .pierMark env => ends_PierMark env (kept_refl s)
  | .tideMessage number stamp length power life => ends_TideMessage number stamp length power life (kept_refl s)
  | .enumerationStart => ends_EnumerationStart (keeps_refl s)
  | .enum rq host anchor => ends_Enum rq host anchor (keeps_refl s)
  | .bind rq nh => ends_Bind rq nh (keeps_refl s)
  | .bindFinish rq macH => ends_BindFinish rq macH (keeps_refl s)
  | .pierResponse n typ tag epoch arg body => ends_PierResponse n typ tag epoch arg body (keeps_refl s)
  | .pierRequestTimeout n tag => ends_PierRequestTimeout n tag (keeps_refl s)
  | .slack n rq => ends_Slack n rq (keeps_refl s)
  | .wakeBeacon n => ends_WakeBeacon n (keeps_refl s)
  | .pushBegin rq fw adopt serial len => ends_PushBegin rq fw adopt serial len (keeps_refl s)
  | .pushData offset data last => ends_PushData offset data last (keeps_refl s)
  | .pushEnd rq => ends_PushEnd rq (keeps_refl s)
  | .commitAt rq fw tide => ends_CommitAt rq fw tide (keeps_refl s)
  | .keyFwd rq code body => ends_KeyFwd rq code body (keeps_refl s)
  | .sessionSet header body => ends_SessionSet header body (keeps_refl s)
  | .harvestTable header body => ends_HarvestTable header body (keeps_refl s)
  | .schedule tide work => ends_Schedule tide work (keeps_refl s)
  | .resultMessage n results => ends_ResultMessage n results (keeps_refl s)
  | .eventMessage n kind arg stamp body => ends_EventMessage n kind arg stamp body (keeps_refl s)
  | .tamperMessage => ends_TamperMessage (keeps_refl s)
  | .remoteRead n => ends_RemoteRead n (keeps_refl s)
  | .remoteWrite n => ends_RemoteWrite n (keeps_refl s)
  | .manifestOpen => ends_ManifestOpen (keeps_refl s)
  | .manifestBlockCrc crc => ends_ManifestBlockCrc crc (keeps_refl s)
  | .manifestVerify => ends_ManifestVerify (keeps_refl s)
  | .manifestVerifyDone => ends_ManifestVerifyDone (keeps_refl s)
  | .manifestCommit => ends_ManifestCommit (keeps_refl s)
  | .manifestWriteDone ok => ends_ManifestWriteDone ok (keeps_refl s)
  | .manifestAbort => ends_ManifestAbort (keeps_refl s)
  | .claim => ends_Claim (keeps_refl s)
  | .complete v => ends_Complete v (keeps_refl s)
  | .pendingClear hi v => ends_PendingClear hi v (keeps_refl s)
  | .enableHWrite hi v => ends_EnableHWrite hi v (keeps_refl s)
  | .pairEnableWrite pairB mask => ends_PairEnableWrite pairB mask (keeps_refl s)
  | .trigger v => ends_Trigger v (keeps_refl s)
  | .powerOnReset => ends_PowerOnReset (kept_refl s)
  | .brownOut supplies => ends_BrownOut supplies (keeps_refl s)
  | .supplyWarning bit below => ends_SupplyWarning bit below (keeps_refl s)
  | .vioBrownOut bank => ends_VioBrownOut bank (keeps_refl s)
  | .watchdogExpiry => ends_WatchdogExpiry (keeps_refl s)
  | .lockstepFault pairB => ends_LockstepFault pairB (keeps_refl s)
  | .pairRejoin pairB => ends_PairRejoin pairB (keeps_refl s)
  | .mainStart env kat cells => ends_MainStart env kat cells (kept_refl s)
  | .crystalChangeover => ends_CrystalChangeover (keeps_refl s)
  | .fwOpen => ends_FwOpen (keeps_refl s)
  | .fwBlockCrc crc => ends_FwBlockCrc crc (keeps_refl s)
  | .fwVerify => ends_FwVerify (keeps_refl s)
  | .fwVerifyDone => ends_FwVerifyDone (keeps_refl s)
  | .fwActivate => ends_FwActivate (keeps_refl s)
  | .fwDistributionDone ok => ends_FwDistributionDone ok (keeps_refl s)
  | .fwAbort => ends_FwAbort (keeps_refl s)
  | .fwHandoverDone => ends_FwHandoverDone (keeps_refl s)
  | .fwTrialEnd => ends_FwTrialEnd (keeps_refl s)
  | .checkpoint => ends_Checkpoint (keeps_refl s)
  | .checkpointDue => ends_CheckpointDue (keeps_refl s)
  | .logbookSelWrite v => ends_LogbookSelWrite v (keeps_refl s)
  | .pairClaim pairB => ends_PairClaim pairB (keeps_refl s)
  | .pairComplete pairB source => ends_PairComplete pairB source (keeps_refl s)
  | .windowWrite ha d => ends_WindowWrite ha d (keeps_refl s)
  | .canReceiveError n inc => ends_CanReceiveError n inc (keeps_refl s)
  | .vioBankRelease bank => ends_VioBankRelease bank (keeps_refl s)
  | .coreClockStop => ends_CoreClockStop (keeps_refl s)
  | .sessionIdBaseRetry => ends_SessionIdBaseRetry (keeps_refl s)
  | .tenderBankWriteDone ok => ends_TenderBankWriteDone ok (keeps_refl s)

@[simp] theorem State.lkLatch_lk (s : State) (n : Nat) : (s.lkLatch n).lk = s.lk :=
  State.latchIf_lk ..

theorem CommandKind.Leaves.next {k : CommandKind} {s : State} {o : Host.Outcome State Fault Refusal} (h : k.Leaves s o) :
    ∃ t, o = .next t ∧ t.pending = s.pending ∧ t.ident = s.ident ∧ (s.sound = true → t.sound = true) := by
  cases k <;> exact h.imp fun _ ⟨e, k⟩ => ⟨e, k.pending, k.ident, k.sound⟩

/-- A step in any state, on an empty queue or with a command at its front, ends in a next state. -/
theorem step_next (s : State) :
    ∃ t, step s = .next t ∧ t.pending = s.pending.tail ∧ t.ident = s.ident ∧ (s.sound = true → t.sound = true) := by
  unfold step
  cases hq : s.pending with
  | nil =>
    have k := kept_tick (kept_refl s)
    exact ⟨_, rfl, k.pending.trans hq, k.ident, k.sound⟩
  | cons c rest => exact (exec_leaves c { s with pending := rest }).next

/-- Settles O3: a step is a tick or a command, and either ends in a next state. -/
theorem everyStepGoesOn : Obligations.EveryStepGoesOn := fun s =>
  (step_next s).imp fun _ ⟨e, hp, hi, _⟩ => ⟨e, hp, hi⟩

/-- Settles O5: the next state of a step is the one that `step_next` gives, which is sound where the step began in a sound one. -/
theorem stepKeepsSound : Obligations.StepKeepsSound := by
  intro s t hs ht
  obtain ⟨u, hu, -, -, hsound⟩ := step_next s
  cases ht.symm.trans hu
  exact hsound hs

theorem CommandKind.Leaves.clock {k : CommandKind} {s t : State} (h : k.Leaves s (.next t)) (hk : k ≠ .movesTide) :
    t.now = s.now ∧ t.tide.clock = s.tide.clock := by
  cases k with
  | movesTide => exact absurd rfl hk
  | mayRelease | plain =>
    obtain ⟨_, ⟨⟩, k⟩ := h
    exact ⟨k.now, k.clock⟩

theorem CommandKind.Leaves.starts {k : CommandKind} {s t : State} (h : k.Leaves s (.next t)) (hk : k ≠ .mayRelease) :
    t.lk.state.released? = true → s.lk.state.released? = true := by
  cases k with
  | mayRelease => exact absurd rfl hk
  | movesTide | plain =>
    obtain ⟨_, ⟨⟩, k⟩ := h
    exact k.starts

theorem commandKind_eq_mayRelease {c : Instr} (h : commandKind c = .mayRelease) :
    ∃ e v ep sq mac, c = .lkStatus e v ep sq mac := by
  cases c
  case lkStatus => exact ⟨_, _, _, _, _, rfl⟩
  all_goals cases h

/-- Settles O15: of the commands that move no tide each leaves the tide's clock, and with it each of its parts. -/
theorem onlyBoundariesChangeTide : Obligations.OnlyBoundariesChangeTide := by
  intro c s t ht htide hwake hmark hmessage hstart hpor
  have hc : commandKind c ≠ .movesTide := by
    intro h
    cases c
    case tideBoundary => exact htide _ rfl
    case wakeBoundary => exact hwake _ rfl
    case pierMark => exact hmark _ rfl
    case tideMessage => exact hmessage _ _ _ _ _ rfl
    case mainStart => exact hstart _ _ _ rfl
    case powerOnReset => exact hpor rfl
    all_goals cases h
  obtain ⟨hnow, hclock⟩ := CommandKind.Leaves.clock (ht ▸ exec_leaves c s) hc
  simp only [Tide.clock, Prod.mk.injEq] at hclock
  obtain ⟨hnumber, hstart, hboundary, hlength, hpower, hlife, -⟩ := hclock
  exact ⟨hnow, hnumber, hstart, hboundary, hlength, hpower, hlife⟩

/-- Without a release, a valid STATUS begins one only where it accepts the handshake in ANSWERED (R430). -/
theorem keeps_statusAct {s : State} (engine verdict : BitVec 2) (epoch : BitVec 8) (hr : s.lk.state.released? = false)
    (ha : ¬ (s.lk.state = .answered ∧ verdict = 1#2)) : Keeps s (s.statusAct engine verdict epoch) := by
  have hcount : Keeps s (if verdict = 2#2 then (s.upLk fun k => { k with rejects := k.rejects + 1#16 }).lkLatch 59 else s) :=
    keeps_ite (keeps_lkLatch _ (keeps_upLk (keeps_refl s) (fun _ h => h) fun _ h => h)) (keeps_refl s)
  have hstate : (if verdict = 2#2 then (s.upLk fun k => { k with rejects := k.rejects + 1#16 }).lkLatch 59 else s).lk.state
      = s.lk.state := by
    split
    · rw [State.lkLatch_lk, State.upLk_lk]
    · rfl
  unfold State.statusAct
  dsimp only
  generalize (if verdict = 2#2 then (s.upLk fun k => { k with rejects := k.rejects + 1#16 }).lkLatch 59 else s) = u
    at hcount hstate ⊢
  rw [← hstate] at hr ha
  split
  · next hanswered =>
    rw [if_neg fun hv => ha ⟨hanswered, hv⟩]
    exact keeps_ite (keeps_lkLatch _ (keeps_dropTicket (by rw [hanswered]; rfl) hcount)) hcount
  · next hreleased => simp [hreleased, LkState.released?] at hr
  · next hrunning => simp [hrunning, LkState.released?] at hr
  · exact keeps_ite (keeps_pairDone _ (keeps_upLk hcount (fun _ h => h) fun _ h => h)) hcount
  · exact hcount

/-- A STATUS that begins a release is served, valid, and accepts the handshake in ANSWERED (R422, R428, R430). -/
theorem status_of_starts {s t : State} {e v : BitVec 2} {ep sq : BitVec 8} {mac : BitVec 32}
    (ht : exec (.lkStatus e v ep sq mac) s = .next t) (hs : s.lk.state.released? = false) (hr : t.lk.state.released? = true) :
    s.lk.alive = true ∧ s.lk.ownsCan = true ∧ s.lk.state = .answered ∧ v = 1#2 ∧ s.statusValid e v ep sq mac = true := by
  change s.whenDo (s.lk.alive && s.lk.ownsCan) (s.status e v ep sq mac) = .next t at ht
  have hkeeps : ¬ Keeps s t := fun k => by simpa [hs] using k.starts hr
  unfold State.whenDo at ht
  split at ht
  case isFalse => cases ht; exact absurd (keeps_refl s) hkeeps
  case isTrue hserved =>
    obtain ⟨halive, howns⟩ : s.lk.alive = true ∧ s.lk.ownsCan = true := by simpa using hserved
    cases ht
    unfold State.status at hkeeps
    split at hkeeps
    case isFalse => exact (hkeeps (keeps_upLk (keeps_refl s) (fun _ h => h) fun _ h => h)).elim
    case isTrue hvalid =>
      by_cases ha : s.lk.state = .answered ∧ v = 1#2
      · exact ⟨halive, howns, ha.1, ha.2, hvalid⟩
      · refine (hkeeps (Keeps.trans ?_ (keeps_statusAct _ _ _ hs ha))).elim
        exact keeps_upLk (keeps_refl s) (fun _ h => h) fun _ h => h

/-- Settles O36: a STATUS alone may begin a release, and `status_of_starts` says when it does. -/
theorem onlyStatusReleases : Obligations.OnlyStatusReleases := by
  intro c s t ht hs hr
  by_cases hc : commandKind c = .mayRelease
  · obtain ⟨e, v, ep, sq, mac, rfl⟩ := commandKind_eq_mayRelease hc
    obtain ⟨halive, howns, hstate, rfl, hvalid⟩ := status_of_starts ht hs hr
    exact ⟨e, ep, sq, mac, rfl, halive, howns, hstate, hvalid⟩
  · have := CommandKind.Leaves.starts (ht ▸ exec_leaves c s) hc hr
    simp [hs] at this

end Sys2Proof.Machine
end

section
/-! SUPPORT. One tick on an empty queue, and what stands right after reset. -/

namespace Sys2Proof.Machine

/-- What the AES and Keccak engines leave alone while they run: the time, the tide, the table, the lock keeper and what
decides whether a CAN controller receives. -/
structure EngineFrame (s t : State) : Prop where
  now : t.now = s.now
  lk : t.lk = s.lk
  tide : t.tide = s.tide
  bt : t.bt = s.bt
  receives : t.canReceives = s.canReceives

theorem EngineFrame.refl (s : State) : EngineFrame s s := ⟨rfl, rfl, rfl, rfl, rfl⟩

theorem EngineFrame.trans {s t u : State} (h : EngineFrame s t) (k : EngineFrame t u) : EngineFrame s u :=
  ⟨k.now.trans h.now, k.lk.trans h.lk, k.tide.trans h.tide, k.bt.trans h.bt, k.receives.trans h.receives⟩

theorem engineFrame_upCry (s : State) (f : Crypto → Crypto) : EngineFrame s (s.upCry f) := ⟨rfl, rfl, rfl, rfl, rfl⟩

theorem engineFrame_jobAborted (s : State) (j : AesJob) : EngineFrame s (s.jobAborted j) := by
  unfold State.jobAborted
  split
  · split
    · exact ⟨rfl, rfl, rfl, rfl, rfl⟩
    · exact .refl s
  · exact .refl s

/-- A refused job is a violation, and its round may lose its STS (R494). -/
theorem engineFrame_refused (s : State) (m : BitVec 4) (j : AesJob) (f : Crypto → Crypto) :
    EngineFrame s (((s.upCry f).violation m).jobAborted j) :=
  .trans (t := (s.upCry f).violation m) ⟨rfl, rfl, rfl, rfl, rfl⟩ (engineFrame_jobAborted _ j)

theorem engineFrame_startJobs (fuel : Nat) (s : State) : EngineFrame s (s.startJobs fuel) := by
  induction fuel generalizing s with
  | zero => exact .refl s
  | succ fuel ih =>
    unfold State.startJobs
    split
    · exact .refl s
    · split
      · exact .refl s
      · split
        · exact ⟨rfl, rfl, rfl, rfl, rfl⟩
        · exact (engineFrame_refused ..).trans (ih _)

theorem engineFrame_yieldHead (s : State) : EngineFrame s s.yieldHead := by
  unfold State.yieldHead
  split
  · exact .refl s
  · dsimp only
    split
    · exact (engineFrame_upCry s _).trans (engineFrame_startJobs ..)
    · exact .refl s

theorem engineFrame_advanceHead (s : State) (h : Nat) : EngineFrame s (s.advanceHead h) := by
  unfold State.advanceHead
  split
  · exact .refl s
  · exact engineFrame_upCry s _

theorem engineFrame_aesRun (fuel h : Nat) (s : State) : EngineFrame s (s.aesRun fuel h) := by
  induction fuel generalizing s h with
  | zero => exact .refl s
  | succ fuel ih =>
    unfold State.aesRun
    split
    · exact .refl s
    · extract_lets above goal advanced next
      split
      · exact .refl s
      · split
        · exact engineFrame_advanceHead ..
        · refine .trans (engineFrame_advanceHead s goal) (.trans (t := next) ?_ (ih ..))
          unfold next
          split
          · exact (engineFrame_upCry ..).trans (engineFrame_startJobs ..)
          · exact engineFrame_yieldHead _

theorem engineFrame_ticks (s : State) : EngineFrame s s.aesTick.kecTick := by
  refine .trans (t := s.aesTick) ?_ ?_
  · unfold State.aesTick
    split
    · exact .refl s
    · exact engineFrame_aesRun ..
  · unfold State.kecTick
    split
    · exact .refl _
    · exact engineFrame_upCry ..

/-- With no job neither engine does anything. -/
theorem ticks_of_no_jobs {s : State} (ha : s.cry.jobs = []) (hk : s.cry.kjobs = []) : s.aesTick.kecTick = s := by
  have haes : s.aesTick = s := by
    unfold State.aesTick
    split
    · rfl
    · rw [ha]; unfold State.aesRun; rw [ha]
  rw [haes]
  unfold State.kecTick
  split
  · rfl
  · have hidle : ∀ fuel, kecRun fuel 25 [] = [] := fun fuel => by cases fuel <;> rfl
    simp only [State.upCry, hk, hidle]
    rw [← hk]

/-- Settles O1: with a command at the front `step` is its second equation. -/
theorem stepRunsFront : Obligations.StepRunsFront := by
  intro c s rest h
  simp only [step, h]

/-- Queued bulk writes reach staging within the port alone (R662). -/
theorem State.drainBulk_eq (s : State) : ∃ p, s.drainBulk = { s with port := p } ∧ (s.port.bulkQueue = [] → p = s.port) :=
  ⟨_, rfl, fun h => by simp only [h]; rw [List.foldl_nil, ← h]⟩

/-- Settles O2: a tick is the engines' work, framed by `EngineFrame`, between the clock and the bulk queue. -/
theorem idleStepTicks : Obligations.IdleStepTicks := by
  intro s h
  have hstep : step s = .next (tick s) := by simp only [step, h]
  refine ⟨_, hstep, ?_⟩
  unfold tick
  dsimp only
  generalize hb : ((s.atTick (s.now + 1)).upLk fun k => { k with shadow :=
    if (s.atTick (s.now + 1)).now % 4 = 0 then k.shadow + 4 else k.shadow }) = b
  have hf := engineFrame_ticks b
  have hnone : b.cry.jobs = [] → b.cry.kjobs = [] → b.aesTick.kecTick = b := ticks_of_no_jobs
  generalize b.aesTick.kecTick = u at hf hnone
  have hbs : b.now = s.now + 1 ∧ b.tide = s.tide ∧ b.bt = s.bt ∧ b.cry = s.cry ∧ b.port = s.port ∧ b.canReceives = s.canReceives ∧
      b.lk = { s.lk with shadow := if (s.now + 1) % 4 = 0 then s.lk.shadow + 4 else s.lk.shadow } ∧
      b = { s with now := s.now + 1, lk := b.lk } := by subst hb; exact ⟨rfl, rfl, rfl, rfl, rfl, rfl, rfl, rfl⟩
  obtain ⟨hnow, htide, hbt, hcry, hport, hrec, hlk, hall⟩ := hbs
  clear hb
  have hcond : (u.tide.power == .standby && !u.canReceives) = decide (s.tide.power = .standby ∧ s.canReceives = false) := by
    rw [hf.tide, hf.receives, htide, hrec]
    cases s.canReceives <;> simp [Bool.beq_eq_decide_eq]
  have hv : ∃ v, (if (u.tide.power == .standby && !u.canReceives) = true then u.upTide fun t => { t with tbOff := t.tbOff + 1 } else u) = v ∧
      v = { u with tide := if s.tide.power = .standby ∧ s.canReceives = false then { s.tide with tbOff := s.tide.tbOff + 1 } else s.tide } := by
    refine ⟨_, rfl, ?_⟩
    rw [hcond, ← hf.tide.trans htide]
    by_cases hc : u.tide.power = .standby ∧ s.canReceives = false
    · rw [if_pos (decide_eq_true hc), if_pos hc]; rfl
    · rw [if_neg (by simpa using hc), if_neg hc]
  obtain ⟨v, hve, hv⟩ := hv
  rw [hve]
  obtain ⟨p, hdrain, hp⟩ := v.drainBulk_eq
  have hw : ∃ q, (if (v.tide.power.asleep && !v.port.coreClk) = true then v else v.drainBulk) = { v with port := q } ∧
      (v.port.bulkQueue = [] → q = v.port) := by
    split
    · exact ⟨v.port, rfl, fun _ => rfl⟩
    · exact ⟨p, hdrain, hp⟩
  obtain ⟨q, hw, hq⟩ := hw
  rw [hw]
  subst hv
  refine ⟨hf.now.trans hnow, hf.lk.trans hlk, rfl, hf.bt.trans hbt, fun hj hk hbulk => ?_⟩
  have hu : u = b := hnone (hcry ▸ hj) (hcry ▸ hk)
  subst hu
  rw [hq (hport ▸ hbulk), hall]

/-- Settles O4: each part of the invariant is evaluated at reset. -/
theorem resetIsSound : Obligations.ResetIsSound := by
  exact (sound_iff _).2 ⟨by decide, by decide, beq_iff_eq.mpr List.length_replicate, by decide, by decide, by decide⟩

/-- Settles O6: every berth of the table, and every number beyond it, is a berth right after reset. -/
theorem resetValues : Obligations.ResetValues := by
  refine ⟨rfl, rfl, rfl, fun n => ?_, rfl⟩
  have hberth : State.reset.berth n = Berth.reset := by
    change (List.replicate 256 Berth.reset).getD n Berth.reset = Berth.reset
    rw [List.getD_eq_getElem?_getD, List.getElem?_replicate]
    split <;> rfl
  rw [hberth]
  rfl

end Sys2Proof.Machine
end

section
/-! SUPPORT. The interrupt controller's registers at the host and at the pairs: claims, clears and enables (R670 to R682). -/

namespace Sys2Proof.Machine

/-- A write to a block that a main-domain reset leaves accessible reaches its register (R655, R667). -/
theorem State.farWrite_alwaysServed {s : State} (h : s.portUp = true) {a : Nat} (ha : alwaysServed a = true)
    (eff : State → State) : s.farWrite a eff = eff (s.reached a) :=
  s.farWrite_served a eff h (.inr ha)

/-- A read of such a block gives its value on HD and captures its high half (R658, R667). -/
theorem State.farRead_alwaysServed {s : State} (h : s.portUp = true) {a : Nat} (ha : alwaysServed a = true)
    (get : State → BitVec 32 × State) :
    s.farRead a get = (get (s.beginFar none)).2.upPort fun p => { p with
      far := some (some (loHalf (get (s.beginFar none)).1))
      capture := some (BitVec.ofNat 21 a, hiHalf (get (s.beginFar none)).1) } := by
  simp [State.farRead, h, ha]

theorem mem_bitsOf {w : Nat} {v : BitVec w} {n : Nat} : n ∈ bitsOf v ↔ n < w ∧ v.getLsbD n = true := by
  simp [bitsOf]

/-- Settles O7: the claim takes the last of the pending sources in ascending order. -/
theorem claimTakesHighest : Obligations.ClaimTakesHighest := by
  intro i t
  have hmem : ∀ n, n ∈ bitsOf (i.assigned t &&& i.pending) ↔
      n < 64 ∧ (i.assigned t).getLsbD n = true ∧ i.pending.getLsbD n = true := by
    simp [mem_bitsOf]
  have hsorted : (bitsOf (i.assigned t &&& i.pending)).Pairwise (· < ·) := List.pairwise_lt_range.filter _
  refine ⟨fun n hn => ?_, fun hn m => ?_⟩
  · obtain ⟨init, hinit⟩ := List.getLast?_eq_some_iff.mp hn
    obtain ⟨hn64, hasg, hpend⟩ := (hmem n).mp (List.mem_of_getLast? hn)
    refine ⟨hn64, hasg, hpend, fun m hm => Bool.eq_false_iff.mpr fun hm' => ?_⟩
    obtain ⟨hasg', hpend'⟩ := Bool.and_eq_true_iff.mp hm'
    have hlisted : m ∈ bitsOf (i.assigned t &&& i.pending) := (hmem m).mpr ⟨BitVec.lt_of_getLsbD hpend', hasg', hpend'⟩
    rw [hinit] at hlisted hsorted
    rcases List.mem_append.mp hlisted with hbefore | hlast
    · exact absurd ((List.pairwise_append.mp hsorted).2.2 m hbefore n (List.mem_singleton_self n)) (by omega)
    · exact absurd (List.mem_singleton.mp hlast) (by omega)
  · refine Bool.eq_false_iff.mpr fun hm => ?_
    obtain ⟨hasg, hpend⟩ := Bool.and_eq_true_iff.mp hm
    have := (hmem m).mpr ⟨BitVec.lt_of_getLsbD hpend, hasg, hpend⟩
    simp [List.getLast?_eq_none_iff.mp hn] at this

/-! Clearing pending sources (R681). -/

/-- Where no pair holds one of the listed sources, a clear takes exactly these from `pending` and from the host. -/
theorem Intc.foldl_clearBit (l : List Nat) (i : Intc)
    (h : ∀ n ∈ l, i.asgA.getLsbD n = false ∧ i.asgB.getLsbD n = false) :
    ∃ p a : BitVec 64, l.foldl Intc.clearBit i = { i with pending := p, asgH := a } ∧
      ∀ m, p.getLsbD m = (i.pending.getLsbD m && decide (m ∉ l)) ∧ a.getLsbD m = (i.asgH.getLsbD m && decide (m ∉ l)) := by
  induction l generalizing i with
  | nil => exact ⟨i.pending, i.asgH, rfl, by simp⟩
  | cons n l ih =>
    obtain ⟨hA, hB⟩ := h n (List.mem_cons_self ..)
    have hclear : i.clearBit n = { i with pending := setBit i.pending n false, asgH := setBit i.asgH n false } := by
      simp [Intc.clearBit, hA, hB]
    obtain ⟨p, a, hfold, hbits⟩ := ih (i.clearBit n) fun m hm => by
      rw [hclear]; exact h m (List.mem_cons_of_mem _ hm)
    refine ⟨p, a, ?_, fun m => ?_⟩
    · rw [List.foldl_cons, hfold, hclear]
    · have hbit : ∀ v : BitVec 64, (setBit v n false).getLsbD m = (v.getLsbD m && decide (m ≠ n)) := fun v => by
        by_cases hmn : m = n
        · by_cases hm : m < 64
          · simp [hmn, setBit_here _ _ _ (hmn ▸ hm)]
          · simp [hmn, fun x : BitVec 64 => BitVec.getLsbD_of_ge x n (by omega)]
        · simp [hmn, setBit_other _ _ hmn]
      obtain ⟨hp, ha⟩ := hbits m
      rw [hclear] at hp ha
      simp only [hbit] at hp ha
      rw [hp, ha]
      simp [List.mem_cons, Bool.and_assoc]

/-- The half `hi` of a pair of registers names source `n` by bit `n` (R681), and no source of the other half. -/
theorem mem_sourcesOf {hi : Bool} {v : BitVec 32} {n : Nat} (hn : n < 32) :
    ((if hi then n + 32 else n) ∈ sourcesOf hi v ↔ v.getLsbD n = true) ∧ (if hi then n else n + 32) ∉ sourcesOf hi v := by
  cases hi
  · simp [sourcesOf, mem_bitsOf, hn]
  · simp only [sourcesOf, if_true, List.mem_map, mem_bitsOf]
    exact ⟨⟨fun ⟨k, hk, e⟩ => by obtain rfl : k = n := by omega
                                 exact hk.2, fun h => ⟨n, ⟨hn, h⟩, rfl⟩⟩, fun ⟨k, _, e⟩ => by omega⟩

/-! Enables (R670, R672, R673). -/

theorem Intc.enables_setEnables (i : Intc) (v : BitVec 64) (t : Nat) : (i.setEnables v t).enables t = v := by
  rcases t with _ | _ | t <;> rfl

@[simp] theorem Intc.enables_settle (i : Intc) (n : Nat) : (i.settle n).enables = i.enables := by
  unfold Intc.settle
  split
  · split
    · exact Intc.enables_assignTo ..
    · rfl
  · rfl

/-- What an assignment of a source changes besides its enables: who waits, and the round robin (R671). -/
def Intc.EnableFrame (i j : Intc) : Prop :=
  j = { i with
    enH := j.enH, enA := j.enA, enB := j.enB, asgH := j.asgH, asgA := j.asgA, asgB := j.asgB, lastH := j.lastH, lastA := j.lastA }

theorem Intc.EnableFrame.trans {i j k : Intc} (h : i.EnableFrame j) (h' : j.EnableFrame k) : i.EnableFrame k := by
  refine Eq.trans h' ?_
  rw [h]

theorem Intc.EnableFrame.pending {i j : Intc} (h : i.EnableFrame j) : j.pending = i.pending := by
  unfold Intc.EnableFrame at h
  exact (congrArg Intc.pending h).trans rfl

theorem Intc.enableFrame_settle (i : Intc) (n : Nat) : i.EnableFrame (i.settle n) := by
  unfold Intc.settle
  split
  · split
    · unfold Intc.assignTo
      split <;> rfl
    · rfl
  · rfl

theorem Intc.enableFrame_setEnables (i : Intc) (v : BitVec 64) (t : Nat) : i.EnableFrame (i.setEnables v t) := by
  rcases t with _ | _ | t <;> rfl

theorem Intc.enableFrame_setAssigned (i : Intc) (v : BitVec 64) (t : Nat) : i.EnableFrame (i.setAssigned v t) := by
  rcases t with _ | _ | t <;> rfl

theorem Intc.enables_setAssigned (i : Intc) (v : BitVec 64) (t : Nat) : (i.setAssigned v t).enables = i.enables := by
  rcases t with _ | _ | t <;> rfl

/-- Source `n` loses its enable at target `t`, whether it waited for `t` or not (R672). -/
theorem Intc.release_enables (i : Intc) (t n : Nat) :
    (i.release t n).enables = (i.setEnables (setBit (i.enables t) n false) t).enables ∧ i.EnableFrame (i.release t n) := by
  unfold Intc.release
  dsimp only
  split
  · exact ⟨(Intc.enables_settle ..).trans (Intc.enables_setAssigned ..), (Intc.enableFrame_setEnables ..).trans
      ((Intc.enableFrame_setAssigned ..).trans (Intc.enableFrame_settle ..))⟩
  · exact ⟨rfl, Intc.enableFrame_setEnables ..⟩

/-- Enabling or disabling source `n` at target `t` writes that one enable. -/
theorem Intc.enable_enables (i : Intc) (t : Nat) (on : Bool) (n : Nat) :
    (i.enable t on n).enables = (i.setEnables (setBit (i.enables t) n on) t).enables ∧ i.EnableFrame (i.enable t on n) := by
  unfold Intc.enable
  cases on with
  | true => exact ⟨Intc.enables_settle .., (Intc.enableFrame_setEnables ..).trans (Intc.enableFrame_settle ..)⟩
  | false =>
    simp only [Bool.false_eq_true, if_false]
    split
    · exact i.release_enables t n
    · next hoff =>
      have hsame : setBit (i.enables t) n false = i.enables t := by
        refine BitVec.eq_of_getLsbD_eq fun m hm => ?_
        by_cases hmn : m = n
        · subst hmn; rw [setBit_here _ m false hm]; simpa using hoff
        · exact setBit_other _ false hmn
      rw [hsame]
      refine ⟨?_, rfl⟩
      rcases t with _ | _ | t <;> rfl

theorem getLsbD_setBit_lt {w : Nat} (v : BitVec w) {n : Nat} (hn : n < w) (m : Nat) (b : Bool) :
    (setBit v n b).getLsbD m = if m = n then b else v.getLsbD m := by
  by_cases h : m = n
  · subst h; rw [if_pos rfl, setBit_here _ _ _ hn]
  · rw [if_neg h, setBit_other _ _ h]

/-- The host's enable of source `n` is written, and a pair loses it where the host gets it (R673). -/
theorem Intc.enableHost_bits (i : Intc) (on : Bool) {n : Nat} (hn : n < 64) :
    i.EnableFrame (i.enableHost on n) ∧ ∀ m,
      (i.enableHost on n).enH.getLsbD m = (if m = n then on else i.enH.getLsbD m) ∧
      (i.enableHost on n).enA.getLsbD m = (if m = n ∧ on = true then false else i.enA.getLsbD m) ∧
      (i.enableHost on n).enB.getLsbD m = (if m = n ∧ on = true then false else i.enB.getLsbD m) := by
  unfold Intc.enableHost
  dsimp only
  generalize hj : (if on = true then { i with enA := setBit i.enA n false, enB := setBit i.enB n false } else i) = j
  have hframe : i.EnableFrame j := by subst hj; split <;> rfl
  obtain ⟨hen, hfr⟩ := j.enable_enables 0 on n
  refine ⟨hframe.trans hfr, fun m => ?_⟩
  have hH : (j.enable 0 on n).enH = setBit i.enH n on := by
    refine (congrFun hen 0).trans ?_
    subst hj; cases on <;> rfl
  have hA : (j.enable 0 on n).enA = j.enA := congrFun hen 1
  have hB : (j.enable 0 on n).enB = j.enB := congrFun hen 2
  rw [hH, hA, hB, getLsbD_setBit_lt _ hn]
  subst hj
  cases on <;> simp [getLsbD_setBit_lt, hn]

/-- The host's enables of the listed sources are written (R672, R673). -/
theorem Intc.foldl_enableHost (on : Nat → Bool) (l : List Nat) (hl : ∀ n ∈ l, n < 64) (i : Intc) :
    i.EnableFrame (l.foldl (fun i n => i.enableHost (on n) n) i) ∧ ∀ m,
      (l.foldl (fun i n => i.enableHost (on n) n) i).enH.getLsbD m = (if m ∈ l then on m else i.enH.getLsbD m) ∧
      (m ∈ l → on m = true → (l.foldl (fun i n => i.enableHost (on n) n) i).enA.getLsbD m = false ∧
        (l.foldl (fun i n => i.enableHost (on n) n) i).enB.getLsbD m = false) := by
  induction l using List.reverseRecOn with
  | nil => exact ⟨rfl, by simp⟩
  | append_singleton l n ih =>
    obtain ⟨hframe, hbits⟩ := ih fun m hm => hl m (List.mem_append_left _ hm)
    rw [List.foldl_concat]
    generalize l.foldl (fun i n => i.enableHost (on n) n) i = j at hframe hbits
    obtain ⟨hframe', hbits'⟩ := j.enableHost_bits (on n) (hl n (by simp))
    refine ⟨hframe.trans hframe', fun m => ?_⟩
    obtain ⟨hH, hAB⟩ := hbits m
    obtain ⟨hH', hA', hB'⟩ := hbits' m
    rw [hH', hA', hB', hH]
    by_cases hmn : m = n
    · subst hmn; simp_all
    · simp_all

/-- Enabling at a pair leaves the host's enables and writes the pair's. -/
theorem Intc.foldl_enablePair {t : Nat} (ht : t = 1 ∨ t = 2) (mask : BitVec 64) (l : List Nat) (hl : ∀ n ∈ l, n < 64) (i : Intc) :
    let j := l.foldl (fun i n => i.enable t (mask.getLsbD n && !i.enH.getLsbD n) n) i
    i.EnableFrame j ∧ j.enH = i.enH ∧
      ∀ m ∈ l, (j.enables t).getLsbD m = (mask.getLsbD m && !i.enH.getLsbD m) := by
  induction l using List.reverseRecOn with
  | nil => exact ⟨rfl, rfl, by simp⟩
  | append_singleton l n ih =>
    obtain ⟨hframe, hH, hbits⟩ := ih fun m hm => hl m (List.mem_append_left _ hm)
    simp only [List.foldl_concat]
    generalize l.foldl (fun i n => i.enable t (mask.getLsbD n && !i.enH.getLsbD n) n) i = j at hframe hH hbits
    rw [hH]
    obtain ⟨hen, hframe'⟩ := j.enable_enables t (mask.getLsbD n && !i.enH.getLsbD n) n
    refine ⟨hframe.trans hframe', ?_, fun m hm => ?_⟩
    · refine (congrFun hen 0).trans (Eq.trans ?_ hH)
      rcases ht with rfl | rfl <;> rfl
    · rw [hen, Intc.enables_setEnables, getLsbD_setBit_lt _ (hl n (by simp))]
      split
      · next hmn => rw [hmn]
      · next hmn => exact hbits m ((List.mem_append.mp hm).resolve_right (by simpa using hmn))

/-- The sources of the half `hi` of a pair of enable registers. -/
def halfNos (hi : Bool) : List Nat := (List.range 32).map fun n => if hi then n + 32 else n

theorem mem_halfNos {hi : Bool} {m : Nat} : m ∈ halfNos hi ↔ m / 32 = if hi then 1 else 0 := by
  simp only [halfNos, List.mem_map, List.mem_range]
  refine ⟨fun ⟨k, hk, e⟩ => ?_, fun h => ⟨m % 32, by omega, ?_⟩⟩
  · subst e; split <;> omega
  · cases hi <;> simp only [Bool.false_eq_true, if_true, if_false] at h ⊢ <;> omega

/-- A write of ENABLE_H goes through the sources of its half, each with its bit (R672). -/
theorem State.enableHost_eq (s : State) (hi : Bool) (v : BitVec 32) :
    s.enableHost hi v =
      s.upIntc fun i => (halfNos hi).foldl (fun i n => i.enableHost (v.getLsbD (n % 32)) n) i := by
  simp only [State.enableHost, State.upIntc, halfNos, List.foldl_map]
  congr 1
  refine List.foldl_ext _ _ _ fun i n hn => ?_
  have hmod : (if hi then n + 32 else n) % 32 = n := by have := List.mem_range.mp hn; split <;> omega
  rw [hmod]

theorem State.claimHost_eq (s : State) (n : Option Nat) (i : Intc) (h : s.intc.claim 0 = (n, i)) :
    s.claimHost = ((n.elim 0x8000#16 (BitVec.ofNat 16)).setWidth 32,
      s.upIntc fun _ => { i with claimed := n.elim 0x8000#16 (BitVec.ofNat 16) }) := by
  simp only [State.claimHost, h]
  cases n <;> rfl

theorem loHalf_setWidth (v : BitVec 16) : loHalf (v.setWidth 32) = v := by
  refine BitVec.eq_of_toNat_eq ?_
  simp only [loHalf, BitVec.toNat_ofNat, BitVec.toNat_setWidth]
  omega

theorem hiHalf_setWidth (v : BitVec 16) : hiHalf (v.setWidth 32) = 0#16 := by
  refine BitVec.eq_of_toNat_eq ?_
  simp only [hiHalf, BitVec.toNat_ofNat, BitVec.toNat_setWidth]
  omega

/-- What the host's claim gives, by what the controller has for it (R658, R674). -/
theorem exec_claim {s : State} {n : Option Nat} {i : Intc} (hp : s.portUp = true) (h : s.intc.claim 0 = (n, i)) :
    exec .claim s = .next { s.beginFar none with
      intc := { i with claimed := n.elim 0x8000#16 (BitVec.ofNat 16) }
      port := { (s.beginFar none).port with
        far := some (some (n.elim 0x8000#16 (BitVec.ofNat 16))), capture := some (0x1030#21, 0#16) } } := by
  refine congrArg Host.Outcome.next ?_
  rw [State.farRead_alwaysServed hp rfl, State.claimHost_eq _ n i (by exact h), loHalf_setWidth, hiHalf_setWidth]
  rfl

theorem exec_complete {s : State} (v : BitVec 32) (hp : s.portUp = true) :
    exec (.complete v) s = .next ((s.reached 0x1034).upIntc fun i => i.complete 0 (fieldN v 5 0)) :=
  congrArg Host.Outcome.next (State.farWrite_alwaysServed hp rfl _)

theorem Intc.complete_of_active {i : Intc} {t n : Nat} (h : (i.active t).getLsbD n = true) :
    i.complete t n = (i.setActive (setBit (i.active t) n false) t).settle n := if_pos h

theorem Intc.complete_of_inactive {i : Intc} {t n : Nat} (h : (i.active t).getLsbD n = false) :
    i.complete t n = { i with strayCount := satInc i.strayCount, straySource := BitVec.ofNat 6 n
                              strayTarget := BitVec.ofNat 2 t } := if_neg (by simp [h])

theorem Intc.claim_of_top {i : Intc} {t n : Nat} (h : i.top t = some n) :
    i.claim t = (some n, (({ i with pending := setBit i.pending n false }).setAssigned
      (setBit (i.assigned t) n false) t).setActive (setBit (i.active t) n true) t) := by
  simp only [Intc.claim, h]

theorem Intc.claim_of_no_top {i : Intc} {t : Nat} (h : i.top t = none) : i.claim t = (none, i) := by
  simp only [Intc.claim, h]

/-- Settles O9: a claim is `Intc.claim` at target 0, and a completion `Intc.complete`. -/
theorem hostClaimAndComplete : Obligations.HostClaimAndComplete := by
  refine ⟨fun s n hp htop => ?_, fun s hp htop => ?_, fun s v hp hact => ?_, fun s v hp hact => ?_⟩
  · exact ⟨_, exec_claim hp (Intc.claim_of_top htop), rfl, rfl, rfl⟩
  · exact ⟨_, exec_claim hp (Intc.claim_of_no_top htop), rfl, rfl, rfl⟩
  · rw [exec_complete v hp, State.upIntc, State.reached_intc, Intc.complete_of_active (t := 0) hact]
    rfl
  · rw [exec_complete v hp, State.upIntc, State.reached_intc, Intc.complete_of_inactive (t := 0) hact]
    rfl

/-- Settles O11: a pair's commands are `Intc.claim`, `Intc.complete` and `Intc.enablePair` at its target. -/
theorem pairInterruptCommands : Obligations.PairInterruptCommands := by
  refine ⟨fun s b n hup htop => ?_, fun s b n hup hact => ?_, fun s b mask hup => ?_⟩
  · refine (State.whenDo_of _ _ hup).trans (congrArg Host.Outcome.next ?_)
    rw [State.upIntc, Intc.claim_of_top htop]
    rfl
  · refine (State.whenDo_of _ _ hup).trans (congrArg Host.Outcome.next ?_)
    rw [State.upIntc, Intc.complete_of_active hact]
    rfl
  · have hb : pairTarget b = 1 ∨ pairTarget b = 2 := by cases b <;> decide
    obtain ⟨hframe, hH, hbits⟩ := Intc.foldl_enablePair hb mask (List.range 64) (by simp) s.intc
    exact ⟨_, State.whenDo_of _ _ hup, rfl, hH, hframe.pending, fun n hn => hbits n (List.mem_range.mpr hn)⟩

/-- Settles O10: each write is a fold over the named sources, which the lemmas on clears and enables describe bit by bit. -/
theorem hostInterruptWrites : Obligations.HostInterruptWrites := by
  refine ⟨fun s hi v h hheld => ?_, fun s v h hgo hlife => ?_, fun s v h hgo hlife => ?_, fun s hi v h => ?_⟩
  · have hserved : alwaysServed (if hi then 0x1004 else 0x1000) = true := by cases hi <;> rfl
    have hex : exec (.pendingClear hi v) s = .next ((s.reached (if hi then 0x1004 else 0x1000)).pendingWrite hi v) :=
      congrArg Host.Outcome.next (State.farWrite_alwaysServed h hserved _)
    have hfree : ∀ n ∈ sourcesOf hi v, s.intc.asgA.getLsbD n = false ∧ s.intc.asgB.getLsbD n = false := by
      intro n hn
      obtain ⟨k, hk, rfl⟩ := List.mem_map.mp hn
      obtain ⟨hk32, hbit⟩ := mem_bitsOf.mp hk
      exact hheld k hk32 hbit
    obtain ⟨p, a, hfold, hbits⟩ := Intc.foldl_clearBit (sourcesOf hi v) s.intc hfree
    have hnone : ((sourcesOf hi v).any fun n => s.intc.asgA.getLsbD n || s.intc.asgB.getLsbD n) = false := by
      simpa using hfree
    have hwrite : (s.reached (if hi then 0x1004 else 0x1000)).pendingWrite hi v =
        { s.reached (if hi then 0x1004 else 0x1000) with intc := { s.intc with pending := p, asgH := a } } := by
      simp only [State.pendingWrite, State.reached_intc, hnone, State.noticeIf, Bool.false_eq_true, if_false, ← hfold]
      rfl
    refine ⟨_, hex, ?_⟩
    rw [hwrite]
    refine ⟨fun n hn => ?_, rfl, rfl⟩
    obtain ⟨hin, hout⟩ := mem_sourcesOf (hi := hi) (v := v) hn
    simp [hbits, hin, hout]
  · refine (congrArg Host.Outcome.next (State.farWrite_alwaysServed h rfl _)).trans (congrArg Host.Outcome.next ?_)
    simp only [State.triggerWrite, hgo, if_true, State.reached_tide, hlife]
  · refine (congrArg Host.Outcome.next (State.farWrite_alwaysServed h rfl _)).trans (congrArg Host.Outcome.next ?_)
    have : ¬(s.tide.life = .manufacture ∨ s.tide.life = .provision) := by
      rcases hlife with hl | hl <;> simp [hl]
    simp only [State.triggerWrite, hgo, if_true, State.reached_tide, this, if_false]
  · have hserved : alwaysServed (if hi then 0x100C else 0x1008) = true := by cases hi <;> rfl
    have hfold : (s.reached (if hi then 0x100C else 0x1008)).enableHost hi v = (s.reached (if hi then 0x100C else 0x1008)).upIntc
        fun i => (halfNos hi).foldl (fun i n => i.enableHost (v.getLsbD (n % 32)) n) i :=
      State.enableHost_eq ..
    have hex : exec (.enableHWrite hi v) s = .next _ :=
      congrArg Host.Outcome.next ((State.farWrite_alwaysServed h hserved _).trans hfold)
    obtain ⟨hframe, hbits⟩ := Intc.foldl_enableHost (fun n => v.getLsbD (n % 32)) (halfNos hi)
      (fun n hn => by have := mem_halfNos.mp hn; split at this <;> omega) s.intc
    refine ⟨_, hex, fun n hn => ?_, hframe, rfl⟩
    have hin : (if hi then n + 32 else n) ∈ halfNos hi := by rw [mem_halfNos]; split <;> omega
    have hout : (if hi then n else n + 32) ∉ halfNos hi := by rw [mem_halfNos]; split <;> omega
    have hmod : (if hi then n + 32 else n) % 32 = n := by split <;> omega
    obtain ⟨hH, hAB⟩ := hbits (if hi then n + 32 else n)
    rw [if_pos hin, hmod] at hH
    rw [hmod] at hAB
    exact ⟨hH, ((hbits _).1.trans (if_neg hout)), hAB hin⟩

end Sys2Proof.Machine
end

section
/-! SUPPORT. The host port at single registers and windows (R645 to R663, R746). -/

namespace Sys2Proof.Machine

/-- A near write, which no main-domain reset hinders, reaches its register (R649, R655). -/
theorem State.nearWrite_up {s : State} (h : s.portUp = true) (a : Nat) (eff : State → State) :
    s.nearWrite a eff = eff (s.upPort fun p => p.unlatch a) := if_pos h

/-- Settles O12: each event is its one guarded effect. -/
theorem portEvents : Obligations.PortEvents := by
  refine ⟨fun s d hfar hwait => ?_, fun s hp => State.whenDo_of _ _ hp, fun s hs => State.whenDo_of _ _ (by simp [hs]),
    fun s hsleep hclk hlast => State.whenDo_of _ _ (by simp [hsleep, hclk, State.elapsed, ms, hlast]),
    fun s ha d hp hwin hreg hfar => ?_, fun s ha hp hwin hreg hfar => ?_⟩
  · change (match s.port.far with | none => _ | some d => _) = _
    simp only [hfar]
    exact State.whenDo_of _ _ (by simp [hwait])
  · refine (State.whenDo_of _ _ (by simp [hwin, hreg])).trans (congrArg Host.Outcome.next ?_)
    simp [State.unmapped, hp, Nat.not_lt.mpr hfar]
  · refine (State.whenDo_of _ _ (by simp [hwin, hreg])).trans (congrArg Host.Outcome.next ?_)
    simp [State.unmapped, hp, Nat.not_lt.mpr hfar]

/-- A high half commits to a near register (R649, R655). -/
theorem State.commitHigh_near {s : State} {a : Nat} (ha : a < 0x1000) (hi : BitVec 16) (hp : s.portUp = true) :
    s.commitHigh a hi = (s.upPort fun p => p.unlatch a).writeReg a (s.commitValue a hi) := by
  simp only [State.commitHigh, ha, if_true, State.nearWrite_up hp]

/-- A high half commits to a far register of a served host (R655). -/
theorem State.commitHigh_far {s : State} {a : Nat} (ha : 0x1000 ≤ a) (hi : BitVec 16) (h : s.hostReady = true) :
    s.commitHigh a hi = (s.reached a).writeReg a (s.commitValue a hi) := by
  simp only [State.commitHigh, Nat.not_lt.mpr ha, if_false, State.farWrite_ready h]

/-- The commit of a high half to SCRATCH, a near register, with the low half that the latch holds for it (R655). -/
theorem State.commitHigh_scratch {s : State} {lo : BitVec 16} (hi : BitVec 16) (hp : s.portUp = true)
    (hl : s.port.latch = some (0x20#21, lo)) :
    s.commitHigh 0x20 hi = s.upPort fun p => { p with latch := none, scratch := joinHalves hi lo } := by
  have hv : s.commitValue 0x20 hi = joinHalves hi lo := by simp [State.commitValue, hl]
  have hun : s.port.unlatch 0x20 = { s.port with latch := none } := by simp [Port.unlatch, hl]
  rw [State.commitHigh_near (by decide) hi hp, hv, State.upPort, hun]
  rfl

/-- Settles O13: SCRATCH is a near register, so each access is its effect behind the latch. -/
theorem portHalves : Obligations.PortHalves := by
  have hlow : ∀ (s : State) (lo : BitVec 16), s.portUp = true →
      exec (.lowHalfWrite 0x10#20 lo) s = .next (s.latchLow 0x20 lo) := fun s lo hp =>
    (State.whenDo_of s _ rfl).trans (congrArg Host.Outcome.next (if_pos hp))
  refine ⟨fun s lo hp hl => ?_, fun s lo old hp hl => ?_, fun s lo hi hp hl => ?_, fun s hp => ?_, fun s h hp hc => ?_⟩
  · rw [hlow s lo hp, State.latchLow, hl]
  · rw [hlow s lo hp, State.latchLow, hl]; rfl
  · exact (State.whenDo_of s _ rfl).trans (congrArg Host.Outcome.next (State.commitHigh_scratch hi hp hl))
  · refine (State.whenDo_of s _ rfl).trans (congrArg Host.Outcome.next ((if_pos hp).trans ?_))
    exact if_pos hp
  · refine (State.whenDo_of s _ rfl).trans (congrArg Host.Outcome.next ?_)
    change s.highRead 0x20 = _
    rw [State.highRead, hc]
    exact if_pos hp

theorem within_of_mem {a lo hi : Nat} (h : lo ≤ a ∧ a ≤ hi) : within a lo hi = true := by simp [within, h]

theorem within_of_above {a lo hi : Nat} (h : hi < a) : within a lo hi = false := by simp [within, h]

/-- A half word written into the PERS window, which reaches from 0x70200 to 0x7022F (R660). -/
theorem State.writeWindow_pers (s : State) {o : Nat} (ho : o < 24) (d : BitVec 16) :
    s.writeWindow (0x70200 + 2 * o) d = s.upTrng fun t => { t with pers := Mem.setHalf t.pers (2 * o) d } := by
  have hin : within (0x70200 + 2 * o) 0x70200 0x7022F = true := within_of_mem (by omega)
  have hout : ∀ lo hi, hi < 0x70200 → within (0x70200 + 2 * o) lo hi = false := fun lo hi h => within_of_above (by omega)
  simp [State.writeWindow, hin, hout]

theorem State.trngCmdWrite_undefined (s : State) {v : BitVec 32} (h : undefinedCode 0x70000 v = true) :
    s.trngCmdWrite v = s.notice 2 0x70000 := by
  have hcode : fieldN v 1 0 = 0 := by simpa [undefinedCode] using h
  simp only [State.trngCmdWrite, hcode]
  rfl

/-- Settles O14: the bulk window queues by the import's length, the others are single writes of a served host. -/
theorem portWindowsAndCodes : Obligations.PortWindowsAndCodes := by
  have hbulk : ∀ (s : State) (ha : BitVec 20) (d : BitVec 16), s.portUp = true → 0x80000 ≤ ha.toNat →
      exec (.bulkWindowWrite ha d) s = .next (s.bulkWrite (2 * ha.toNat - 0x100000) d) := fun s ha d hp hha =>
    State.whenDo_of _ _ (by simp [hp, hha])
  refine ⟨fun s hi hready hcode => ?_, fun s ha d n hp hlen hha hn hq => ?_, fun s ha d hp hlen hha => ?_,
    fun s ha d n hp hlen hha hn => ?_, fun s o d hready ho => ?_⟩
  · have hcommit : s.commitHigh 0x70000 hi = (s.reached 0x70000).trngCmdWrite (s.commitValue 0x70000 hi) :=
      State.commitHigh_far (by decide) hi hready
    refine (State.whenDo_of s _ ?_).trans (congrArg Host.Outcome.next (hcommit.trans (State.trngCmdWrite_undefined _ hcode)))
    exact hcode
  · rw [hbulk s ha d hp hha]
    simp [State.bulkWrite, hlen, hn, Nat.not_le.mpr hq]
  · rw [hbulk s ha d hp hha]
    simp [State.bulkWrite, hlen]
  · rw [hbulk s ha d hp hha]
    simp [State.bulkWrite, hlen, Nat.not_lt.mpr hn]
  · have ha : byteOf (BitVec.ofNat 20 (0x38100 + o)) = 0x70200 + 2 * o := by
      simp only [byteOf, BitVec.toNat_ofNat]; omega
    have hwin : isWindow (0x70200 + 2 * o) = true := by
      simp [isWindow, within_of_mem (show 0x70200 ≤ 0x70200 + 2 * o ∧ 0x70200 + 2 * o ≤ 0x7022F by omega)]
    change s.whenDo _ _ = _
    rw [ha]
    refine (State.whenDo_of s _ hwin).trans (congrArg Host.Outcome.next ((if_neg (by omega)).trans ?_))
    rw [State.windowAccess_ready hready]
    exact State.writeWindow_pers _ ho d

end Sys2Proof.Machine
end

section
/-! SUPPORT. What boundaries, dwells and writes of POWER_REQ make of the tide (R117 to R134, R159). -/

namespace Sys2Proof.Machine

/-- R130: an ordinary boundary never begins DEEP in FLEET. -/
theorem State.ordinaryPower_ne_deep {s : State} (h : s.tide.life = .fleet) : s.ordinaryPower ≠ .deep := by
  unfold State.ordinaryPower
  split
  · decide
  · cases s.tide.power with
    | deep => simp
    | standby => simp [h]
    | watch => simp only; split <;> decide
    | service =>
      simp only
      split
      · decide
      · split <;> decide
    | drive => simp only; split <;> decide

/-- R131: the power state that an ordinary boundary begins is STANDBY or one that the order of power states admits. -/
theorem State.ordinaryPower_order {s : State} (h : s.ordinaryPower ≠ .standby) :
    match s.tide.power with
    | .deep => s.ordinaryPower = .deep
    | .standby => s.ordinaryPower = .deep
    | .watch => s.ordinaryPower = .watch
    | .service => s.ordinaryPower = .service ∨ s.ordinaryPower = .drive ∨ s.ordinaryPower = .watch
    | .drive => s.ordinaryPower = .drive ∨ s.ordinaryPower = .service := by
  unfold State.ordinaryPower at h ⊢
  split at h
  · exact absurd rfl h
  · next hlink =>
    simp only [hlink, if_false]
    cases hp : s.tide.power <;> simp only [hp] at h ⊢ <;> split <;> simp_all
    split <;> simp_all

/-- Settles O16: a boundary that is due is `State.boundary` with the ordinary power state. -/
theorem tideBoundary : Obligations.TideBoundary := by
  intro s env hdue
  obtain ⟨u, hup, hnow, hnumber, hstart, hstamp, hpower, hlife⟩ := s.boundary_tide env State.ordinaryPower none 1024
  refine ⟨_, State.whenDo_of _ _ hdue, hnumber, hstart, hstamp, hnow, fun hl => ?_, fun hstandby => ?_⟩
  · rw [hpower]
    exact State.ordinaryPower_ne_deep (hlife ▸ hl)
  · rw [hpower, ← hup] at *
    exact State.ordinaryPower_order hstandby

theorem State.wakePower_order (s : State) (b : BitVec 4) :
    match s.tide.power with
    | .deep => s.wakePower b = .standby
    | .standby => s.wakePower b = .watch
    | .watch => s.wakePower b = .watch ∨ s.wakePower b = .service
    | .service => s.wakePower b = .service
    | .drive => s.wakePower b = .drive := by
  unfold State.wakePower
  cases hp : s.tide.power <;> simp only
  split
  · exact .inr rfl
  · exact .inl rfl

/-- No wake boundary is due in a power state that no wake event can end (R124). -/
theorem State.wakeDue_of_high {s : State} (h : s.tide.power.low = false) : s.wakeDue = false := by
  simp [State.wakeDue, h]

/-- Settles O17: a wake boundary that is due is `State.boundary` with the power state of its event. -/
theorem wakeBoundary : Obligations.WakeBoundary := by
  refine ⟨fun s env at_ b hfirst hup hmirror hrole htick hlow => ?_, fun s env hp => ?_⟩
  · have hdue : s.wakeDue = true := by simp [State.wakeDue, hup, hmirror, hrole, hlow, hfirst, htick]
    have hex : exec (.wakeBoundary env) s =
        .next ((s.upTide fun x => { x with dwellOut := false }).boundary env (fun s => s.wakePower b) (some b)) := by
      change execWakeBoundary env s = _
      simp only [execWakeBoundary, hfirst]
      exact State.whenDo_of _ _ hdue
    obtain ⟨u, hpu, hnow, hnumber, hstart, -, hpower, -⟩ :=
      (s.upTide fun x => { x with dwellOut := false }).boundary_tide env (fun s => s.wakePower b) (some b) 1024
    refine ⟨_, hex, hnumber, hstart, hnow, ?_⟩
    rw [hpower, ← show u.tide.power = s.tide.power from hpu]
    exact u.wakePower_order b
  · have hlow : s.tide.power.low = false := by rcases hp with h | h <;> rw [h] <;> rfl
    change execWakeBoundary env s = _
    unfold execWakeBoundary
    split
    · rfl
    · exact State.whenDo_not _ _ (State.wakeDue_of_high hlow)

/-- A write of POWER_REQ at a device that is no tender (R159). -/
theorem exec_powerReqWrite {s : State} (v : BitVec 32) (h : s.hostReady = true) :
    exec (.powerReqWrite v) s = .next ((s.reached 0x2008).powerReqWrite v) :=
  congrArg Host.Outcome.next (State.farWrite_ready h _ _)

theorem fieldN_req_lt (v : BitVec 32) : fieldN v 2 0 < 8 := Nat.mod_lt _ (by decide)

/-- The value of REQ that a write stores is the one written, but 0 where the write is clamped (R159). -/
def State.reqClamped (s : State) (v : BitVec 32) : Bool :=
  decide (3 < fieldN v 2 0) || (decide (fieldN v 2 0 = 3) && s.tide.life == .fleet)

/-- In a state that reqs cannot raise, a write of POWER_REQ is stored and has no other effect but a clamp's notice (R159). -/
theorem State.powerReqWrite_eq {s : State} (v : BitVec 32) (ht : s.cfg.role ≠ .tender) :
    s.powerReqWrite v =
      let w : BitVec 3 := if s.reqClamped v then 0#3 else BitVec.ofNat 3 (fieldN v 2 0)
      let u := s.upTide fun t => { t with
        powerReq := t.powerReq.write s.now w, reqDue := t.reqDue || (s.boundaryDue || s.wakeDue) }
      (if (if (s.boundaryDue || s.wakeDue) = true then false
          else if s.tide.power = .deep then decide (w.toNat ≤ 2) else decide (s.tide.power.code < reqLevel w)) = true
        then u.wake 7 else u).noticeIf (s.reqClamped v) 1 0x2008 := by
  have hlt := fieldN_req_lt v
  have hr : (BitVec.ofNat 3 (fieldN v 2 0)).toNat = fieldN v 2 0 := by simp [Nat.mod_eq_of_lt hlt]
  have h3 : (BitVec.ofNat 3 (fieldN v 2 0) == 3#3) = decide (fieldN v 2 0 = 3) := by
    have hiff : BitVec.ofNat 3 (fieldN v 2 0) = 3#3 ↔ fieldN v 2 0 = 3 := by
      rw [← BitVec.toNat_inj, hr]; rfl
    simp [Bool.beq_eq_decide_eq, hiff]
  have hc : (decide (4 ≤ (BitVec.ofNat 3 (fieldN v 2 0)).toNat) || (BitVec.ofNat 3 (fieldN v 2 0) == 3#3 && s.tide.life == .fleet))
      = s.reqClamped v := by
    rw [h3, hr]; rfl
  simp only [State.powerReqWrite, ht, if_false, hc]
  rfl

/-- DRIVE is above every REQ, so a write there wakes nothing and is in no wake event's tide. -/
theorem State.wakeDue_of_drive {s : State} (h : s.tide.power = .drive) : s.wakeDue = false :=
  State.wakeDue_of_high (by rw [h]; rfl)

theorem reqLevel_le (req : BitVec 3) : reqLevel req ≤ 3 := by
  unfold reqLevel
  split
  · decide
  · split <;> decide

theorem State.powerReqWrite_drive {s : State} (v : BitVec 32) (ht : s.cfg.role ≠ .tender) (hp : s.tide.power = .drive) :
    s.powerReqWrite v = (s.upTide fun t => { t with
      powerReq := t.powerReq.write s.now (if s.reqClamped v then 0#3 else BitVec.ofNat 3 (fieldN v 2 0))
      reqDue := t.reqDue || s.boundaryDue }).noticeIf (s.reqClamped v) 1 0x2008 := by
  rw [State.powerReqWrite_eq v ht, State.wakeDue_of_drive hp]
  have hlevel : ∀ w, decide (Power.code .drive < reqLevel w) = false := fun w => by
    have := reqLevel_le w
    exact decide_eq_false (by show ¬ 4 < _; omega)
  simp only [hp, Bool.or_false, hlevel]
  simp

/-- Settles O18: the dwells are their guards, and a write of POWER_REQ is `State.powerReqWrite`. -/
theorem powerRequests : Obligations.PowerRequests := by
  refine ⟨fun s hup hp hlive hd => State.whenDo_of _ _ ?_, fun s hup hp hmoored hd => State.whenDo_of _ _ ?_,
    fun s hno => State.whenDo_not _ _ hno, fun s v h ht hp hreq => ?_, fun s v h ht hp hreq => ?_, fun s v h ht => ?_,
    fun s v h ht hp hreq hb hw => ?_, fun s v h ht hp hreq hdue => ?_⟩
  · simp [hup, State.watchOver, hp, hlive, State.elapsed, hd]
  · simp [hup, State.serviceOver, hp, hmoored, State.elapsed, hd]
  · have hc : (s.reached 0x2008).reqClamped v = false := by
      rcases hreq with h1 | ⟨h1, h2⟩
      · simp [State.reqClamped]; omega
      · simp [State.reqClamped, h1, h2]
    rw [exec_powerReqWrite v h, State.powerReqWrite_drive (s := s.reached 0x2008) v ht hp, hc]
    rfl
  · have hc : (s.reached 0x2008).reqClamped v = true := by
      rcases hreq with h1 | ⟨h1, h2⟩ <;> simp [State.reqClamped, *]
    rw [exec_powerReqWrite v h, State.powerReqWrite_drive (s := s.reached 0x2008) v ht hp, hc]
    rfl
  · rw [exec_powerReqWrite v h]
    exact congrArg Host.Outcome.next (if_pos ht)
  · have hc : (s.reached 0x2008).reqClamped v = false := by simp [State.reqClamped, hreq]
    rw [exec_powerReqWrite v h, State.powerReqWrite_eq (s := s.reached 0x2008) v ht, hc, hreq]
    have hd : ((s.reached 0x2008).boundaryDue || (s.reached 0x2008).wakeDue) = false := Bool.or_eq_false_iff.mpr ⟨hb, hw⟩
    simp [hd, hp, reqLevel, Power.code]
  · have hc : (s.reached 0x2008).reqClamped v = false := by simp [State.reqClamped, hreq]
    rw [exec_powerReqWrite v h, State.powerReqWrite_eq (s := s.reached 0x2008) v ht, hc, hreq]
    have hd : ((s.reached 0x2008).boundaryDue || (s.reached 0x2008).wakeDue) = true := (Bool.or_eq_true _ _).mpr hdue
    simp [hd]

end Sys2Proof.Machine
end

section
/-! SUPPORT. Supplies, resets and the start of the main domain (R683 to R697, R739). -/

namespace Sys2Proof.Machine

/-- Every record of the logbook takes the next SEQ (R712). -/
@[simp] theorem State.logRecord_head (s : State) (k : Nat) (d : Bytes) : (s.logRecord k d).log.head = s.log.head + 1#32 := by
  unfold State.logRecord
  rw [State.latchIf_log]
  rfl

/-- A hold-up's end of a signing write is the Keccak engine's alone (R506, R688). -/
theorem State.signCut_eq (s : State) : s.signCut = s.upCry fun _ => s.signCut.cry := by
  unfold State.signCut
  split <;> rfl

/-- A brown-out of a main domain that runs: the reset, then the hold-up record (R687, R688). -/
theorem State.brownOut_running {s : State} (v : BitVec 8) (h : s.mainUp = true) :
    ∃ d at_, s.brownOut v = (((s.lower (v &&& 0x1F#8)).signCut.mainReset (if (v &&& 0x1F#8).getLsbD 0 then 1#3 else 2#3)
      (v &&& 0x1F#8)).logRecord 0x21 d).upSys fun y =>
        { y with clean := true, brown := true, holdupDeep := false, brownAt := at_ } := by
  have hm : s.port.main = .running := by simpa [State.mainUp] using h
  have hrun : (s.port.main != .reset || (s.sys.low &&& 0x1F#7) == 0#7) = true := by simp [hm]
  exact ⟨_, _, if_pos hrun⟩

/-- Settles O19: `mainReset` and `powerOn` write out what they keep, and `brownOut_running` adds the hold-up record. -/
theorem resets : Obligations.Resets := by
  refine ⟨fun s => ⟨_, rfl, rfl, rfl, rfl, rfl, rfl, rfl, rfl, rfl, rfl, rfl, rfl, rfl⟩, fun s v hp hkey hbit => ?_, fun s v hp hno => ?_,
    fun s v hup hv => ?_, fun s hup hout => ?_⟩
  · have hex : exec (.hostReset v) s = .next ((s.upPort fun p => p.unlatch 0x2C).mainReset 5#3 0#8) :=
      congrArg Host.Outcome.next ((State.nearWrite_up hp _ _).trans (if_pos ⟨hkey, hbit⟩))
    refine ⟨_, hex, rfl, rfl, ?_, rfl, rfl, rfl, rfl, rfl, rfl⟩
    exact (Bool.and_eq_true_iff.mp hp).1
  · exact congrArg Host.Outcome.next ((State.nearWrite_up hp _ _).trans (if_neg hno))
  · obtain ⟨t, ht⟩ : ∃ t, t = s.brownOut v := ⟨_, rfl⟩
    refine ⟨t, ht ▸ State.whenDo_of s _ (by simpa using hv), ?_⟩
    obtain ⟨d, at_, hd⟩ := State.brownOut_running v hup
    rw [hd] at ht
    subst ht
    have hsame : (s.lower (v &&& 0x1F#8)).signCut.lk = s.lk ∧ (s.lower (v &&& 0x1F#8)).signCut.port = s.port ∧
        (s.lower (v &&& 0x1F#8)).signCut.log = s.log := by
      rw [State.signCut_eq]; simp [State.lower]
    obtain ⟨hlk, hport, hlog⟩ := hsame
    refine ⟨?_, rfl, ?_, ?_, ?_, ?_, ?_⟩
    · simp [State.mainReset, Port.mainReset]
    · simp [State.mainReset]
    · simp [State.mainReset]; rfl
    · simp [State.mainReset, hlog]; rfl
    · simp [State.mainReset, Port.mainReset, hport]
    · simp [State.mainReset, hlk]
  · exact ⟨_, State.whenDo_of s _ (by simp [hup, hout]), rfl, rfl, rfl, rfl, rfl⟩

/-- Settles O20: each event is its one guarded effect. -/
theorem supplyEvents : Obligations.SupplyEvents := by
  refine ⟨fun s b hb hlow => State.whenDo_of s _ (by simp [hb, hlow]), fun s b hb hlow hm => ?_, fun s hlow => ?_, fun s b hb hlow => ?_,
    fun s hlow => State.whenDo_of s _ ((Bool.true_and _).trans hlow), fun s b hb hlow => ?_, fun s h => State.whenDo_of s _ (by simp [h])⟩
  · refine (State.whenDo_of s _ (by simp [hb, hlow])).trans (congrArg Host.Outcome.next ?_)
    simp [State.supplyCross, hm]
  · exact State.whenDo_of s _ ((Bool.true_and _).trans (congrArg not hlow))
  · have hne : b ≠ 1#2 ∧ b ≠ 3#2 := by rcases hb with rfl | rfl <;> decide
    refine (State.whenDo_of s _ (by simp [hlow, hne])).trans (congrArg Host.Outcome.next ?_)
    exact if_neg hne.1
  · have hne : b ≠ 1#2 ∧ b ≠ 3#2 := by rcases hb with rfl | rfl <;> decide
    refine (State.whenDo_of s _ (by simp [hlow, hne])).trans (congrArg Host.Outcome.next ?_)
    exact if_neg hne.1

/-! A tender's mirror of the tide, and the start (R118, R626, R684). -/

theorem State.lifeTo_lengthMs (s : State) (l : LifeCycle) : (s.lifeTo l).tide.lengthMs = s.tide.lengthMs := by
  unfold State.lifeTo
  split
  · rfl
  · have hrest : ∀ x : State, Keeps (s.upTide fun t => { t with
        life := l, powerReq := if l = .fleet then t.powerReq.without 3#3 else t.powerReq }) x →
        x.tide.lengthMs = s.tide.lengthMs := fun _ k => k.tide.2.2.2.2.1
    dsimp only
    refine hrest _ (keeps_latch _ (keeps_ite (keeps_endLoopback ?_) ?_)) <;>
    exact keeps_ite (keeps_invalidateRoot _ (keeps_upVer (keeps_writeRecord _ (keeps_refl _))))
      (keeps_upVer (keeps_writeRecord _ (keeps_refl _)))

theorem State.setPower_lengthMs (s : State) (p : Power) : (s.setPower p).tide.lengthMs = s.tide.lengthMs := by
  unfold State.setPower
  dsimp only
  split
  · rfl
  · split
    · rfl
    · split
      · exact (congrArg Tide.lengthMs (State.wakeNoise_same _).2).trans rfl
      · rfl

/-- The life-cycle state of a code (R138). -/
def lifeOfCode : Nat → LifeCycle
  | 0 => .manufacture
  | 1 => .provision
  | 2 => .fleet
  | _ => .returned

theorem State.followLife_eq (s : State) (n : Nat) :
    s.followLife n = if s.mayFollow (lifeOfCode n) then s.lifeTo (lifeOfCode n) else s := rfl

/-- A followed life cycle changes no other part of the tide (R118, R137). -/
theorem State.followLife_tide (s : State) (n : Nat) :
    (s.followLife n).tide.number = s.tide.number ∧ (s.followLife n).tide.boundary = s.tide.boundary ∧
      (s.followLife n).tide.lengthMs = s.tide.lengthMs ∧
      (s.followLife n).tide.life = if s.mayFollow (lifeOfCode n) then lifeOfCode n else s.tide.life := by
  rw [State.followLife_eq]
  split
  · obtain ⟨-, hnumber, -, hboundary, -, hlife⟩ := s.lifeTo_tide (lifeOfCode n)
    exact ⟨hnumber, hboundary, s.lifeTo_lengthMs _, hlife⟩
  · exact ⟨rfl, rfl, rfl, rfl⟩

/-- A followed power state changes no other part of the tide; in FLEET it is never DEEP (R118, R130). -/
theorem State.followPower_tide (s : State) (p : Power) :
    (s.followPower p).tide.number = s.tide.number ∧ (s.followPower p).tide.boundary = s.tide.boundary ∧
      (s.followPower p).tide.lengthMs = s.tide.lengthMs ∧ (s.followPower p).tide.life = s.tide.life ∧
      (s.followPower p).tide.power = if p = .deep ∧ s.tide.life = .fleet then .standby else p := by
  unfold State.followPower
  dsimp only
  generalize (if p = .deep ∧ s.tide.life = .fleet then Power.standby else p) = q
  split
  · next h => exact ⟨rfl, rfl, rfl, rfl, h.symm⟩
  · obtain ⟨-, hnumber, -, hboundary, hpower, hlife⟩ := s.setPower_tide q
    obtain ⟨-, knumber, -, kboundary, klength, kpower, klife, -⟩ :=
      (keeps_canHeldBoundary (keeps_canRunBoundary (keeps_nfcBoundary (keeps_uwbPower
        (keeps_nbPower (keeps_refl (s.setPower q))))))).tide
    exact ⟨knumber.trans hnumber, kboundary.trans hboundary, klength.trans (s.setPower_lengthMs q), klife.trans hlife,
      kpower.trans hpower⟩

/-- What decides whether a tender may follow a life-cycle state (R137, R138, R487). -/
theorem State.mayFollow_congr {s t : State} (hkeys : t.keys = s.keys) (hlk : t.lk = s.lk) (hcfg : t.cfg = s.cfg)
    (hlife : t.tide.life = s.tide.life) : t.mayFollow = s.mayFollow := by
  funext l
  simp only [State.mayFollow, State.keysReady, hkeys, hlk, hcfg, hlife]

theorem State.tideSynced_same (s : State) :
    s.tideSynced.keys = s.keys ∧ s.tideSynced.lk = s.lk ∧ s.tideSynced.cfg = s.cfg ∧ s.tideSynced.tide = s.tide := by
  unfold State.tideSynced
  split
  · exact ⟨rfl, rfl, rfl, rfl⟩
  · unfold State.lateCommit
    split
    · exact ⟨rfl, rfl, rfl, rfl⟩
    · split <;> exact ⟨rfl, rfl, rfl, rfl⟩

/-- A TIDE takes number, stamp and length, and then follows life cycle and power state (R118, R626); with a MARK kept,
nothing of what decides the life-cycle step has changed before. -/
theorem State.tideIn_eq (s : State) (n : BitVec 32) (st : BitVec 48) (len p l : Nat) :
    ∃ w : State, s.tideIn n st len p l = (w.followLife l).followPower (Power.ofCode p) ∧ w.tide.number = n ∧ w.tide.boundary = st ∧
      w.tide.lengthMs = max 1 (min len 1024) ∧
      (s.tend.markAt ≠ none → w.mayFollow = s.mayFollow ∧ w.tide.life = s.tide.life) := by
  obtain ⟨hkeys, hlk, hcfg, htide⟩ := ((s.takeMark st).1.takeTide n st len (s.takeMark st).2).tideSynced_same
  refine ⟨_, rfl, by rw [htide]; rfl, by rw [htide]; rfl, by rw [htide]; rfl, fun hmark => ?_⟩
  obtain ⟨own, hown⟩ := Option.ne_none_iff_exists'.mp hmark
  have hmarked : (s.takeMark st).1 = s.upTend fun t => { t with markAt := none } := by simp only [State.takeMark, hown]
  rw [hmarked] at hkeys hlk hcfg htide
  have hlife : (((s.takeMark st).1.takeTide n st len (s.takeMark st).2).tideSynced).tide.life = s.tide.life := by
    rw [hmarked, htide]; rfl
  rw [hmarked] at hlife ⊢
  exact ⟨State.mayFollow_congr hkeys hlk hcfg hlife, hlife⟩

/-- The settings before the restart boundary of a main start leave time and tide alone (R697). -/
theorem State.mainStart_eq (s : State) (env : TideEnv) (kat : BitVec 4) (cells : BitVec 6) :
    ∃ u, Keeps s u ∧ s.mainStart env kat cells = u.restart env := by
  refine ⟨_, ?_, rfl⟩
  have hlog : Keeps s ((s.sysStart.cellStart cells).upLog Logbook.recover) :=
    keeps_upLog (keeps_cellStart _ (keeps_sysStart (keeps_refl s)))
  exact keeps_cfgStart (keeps_katStart _ (keeps_regStart (keeps_startRecords (keeps_mfPowerUp
    (keeps_ite (keeps_fwRevert hlog) hlog)))))

theorem State.restartPower_low (s : State) : s.restartPower = .standby ∨ s.restartPower = .drive := by
  unfold State.restartPower
  split
  · exact .inr rfl
  · exact .inl rfl

/-- Settles O21: MARK and MAIN_START are boundaries, and TIDE goes through mark, tide, life cycle and power state. -/
theorem mirrorAndStart : Obligations.MirrorAndStart := by
  refine ⟨fun s env hup hm => ?_, fun s n st len p l hup hm => ?_, fun s env kat cells hmain hlow hat => ?_⟩
  · obtain ⟨u, hpu, hnow, hnumber, hstart, -, hpower, -⟩ := s.boundary_tide env (fun s => s.tide.power) none 1024
    have hex : exec (.pierMark env) s =
        .next ((s.boundary env (fun s => s.tide.power) none).upTend fun t => { t with markAt := some s.now }) :=
      State.whenDo_of s _ (Bool.and_eq_true_iff.mpr ⟨hup, hm⟩)
    generalize s.boundary env (fun s => s.tide.power) none = b at hex hnow hnumber hstart hpower
    exact ⟨_, hex, hnumber, hstart, hpower.trans hpu, hnow, rfl⟩
  · refine ⟨_, State.whenDo_of s _ (Bool.and_eq_true_iff.mpr ⟨hup, hm⟩), ?_⟩
    obtain ⟨w, hw, wnumber, wboundary, wlength, wlife⟩ := s.tideIn_eq n st len.toNat p.toNat l.toNat
    obtain ⟨hnumber, hboundary, hlength, hlife⟩ := w.followLife_tide l.toNat
    obtain ⟨knumber, kboundary, klength, klife, kpower⟩ := (w.followLife l.toNat).followPower_tide (Power.ofCode p.toNat)
    rw [hw]
    refine ⟨knumber.trans (hnumber.trans wnumber), kboundary.trans (hboundary.trans wboundary),
      klength.trans (hlength.trans wlength), by rw [kpower, klife], fun hmark => ?_⟩
    obtain ⟨hmay, hsame⟩ := wlife hmark
    rw [klife, hlife, hmay, hsame]
    rfl
  · have hex : exec (.mainStart env kat cells) s = .next (s.mainStart env kat cells) :=
      State.whenDo_of s _ (by simp [hmain, hlow, hat])
    obtain ⟨u, hk, hu⟩ := s.mainStart_eq env kat cells
    obtain ⟨know, knumber, -⟩ := hk.tide
    obtain ⟨v, -, hnow, hnumber, hstart, -, hpower, -⟩ := u.boundary_tide env State.restartPower none 16
    have hrestart : u.restart env = (u.boundary env State.restartPower none 16).upSys fun y => { y with restartTide := true } := rfl
    rw [hu, hrestart] at hex
    generalize u.boundary env State.restartPower none 16 = b at hex hnow hnumber hstart hpower
    have hpow : b.tide.power = .standby ∨ b.tide.power = .drive := hpower ▸ v.restartPower_low
    exact ⟨_, hex, hnumber.trans (by rw [knumber]), hstart.trans know, hnow.trans know, hpow⟩

end Sys2Proof.Machine
end

section
/-! SUPPORT. Manifest and firmware imports, and faults of a service core pair (R65 to R100, R692, R700 to R706, R751). -/

namespace Sys2Proof.Machine

/-- A served far write, by what its register does in the state that reaches it. -/
theorem next_farWrite {s t : State} {a : Nat} {eff : State → State} (h : s.hostReady = true) (ht : eff (s.reached a) = t) :
    (.next (s.farWrite a eff) : Host.Outcome State Fault Refusal) = .next t := by
  rw [State.farWrite_ready h, ht]

/-- A near write, by what its register does in the state that reaches it. -/
theorem next_nearWrite {s t : State} {a : Nat} {eff : State → State} (h : s.portUp = true)
    (ht : eff (s.upPort fun p => p.unlatch a) = t) : (.next (s.nearWrite a eff) : Host.Outcome State Fault Refusal) = .next t := by
  rw [State.nearWrite_up h, ht]

/-- A command whose condition holds, by its effect. -/
theorem whenDo_next {s t u : State} {b : Bool} (h : b = true) (ht : t = u) : s.whenDo b t = .next u :=
  ht ▸ State.whenDo_of s t h

@[simp] theorem State.reached_bulk (s : State) (a : Nat) : (s.reached a).port.bulk = s.port.bulk := rfl

/-- The good blocks after a check of block `b` (R95, R703). -/
theorem mem_checked {b c : Nat} {l : List Nat} (ok : Bool) (h : c ≠ b) :
    (c ∈ if ok then b :: l.filter (· != b) else l.filter (· != b)) ↔ c ∈ l := by
  cases ok <;> simp [h]

/-- Settles O22: each command is its one branch in the state that reaches MANIFEST.CMD. -/
theorem manifestImport : Obligations.ManifestImport := by
  refine ⟨fun s h hst hbulk => next_farWrite h (if_neg ?_), fun s h hno => next_farWrite h (if_pos hno), fun s crc h hst => ?_,
    fun s h hst hmiss => next_farWrite h ?_, fun s b h hst hmiss => next_farWrite h ?_⟩
  · simpa [hst] using hbulk
  · have hex : exec (.manifestBlockCrc crc) s = .next _ := next_farWrite h (if_pos hst)
    refine ⟨_, hex, rfl, fun hcrc => ?_, fun hcrc => ?_, fun b hb => mem_checked _ hb⟩
    · have hok : (crc32c ((s.reached 0x400C).windowBlock s.mf.block.toNat s.mf.len) == crc) = true := beq_iff_eq.mpr hcrc
      simp [hok]
    · have hok : (crc32c ((s.reached 0x400C).windowBlock s.mf.block.toNat s.mf.len) == crc) = false := beq_eq_false_iff_ne.mpr hcrc
      simp [hok]
  · simp [State.mfVerify, hst, hmiss, mfCmdAddr]
  · simp [State.mfVerify, hst, hmiss, State.mfResult, mfCmdAddr]

/-- The end of a manifest's checks, by their outcome (R95, R751). -/
theorem State.mfVerifyEnd_cases (s : State) :
    s.mfVerifyEnd = { s with mf := s.mfVerifyEnd.mf, cry := s.mfVerifyEnd.cry, intc := s.intc.event 36 } ∧
      match (s.imageCheck s.mf.len (Mem.load s.port.staging 0 s.mf.len)).1 with
      | .ok _ => s.mfVerifyEnd.mf.state = .verified ∧ s.mfVerifyEnd.mf.result = 1#4
      | .error (r, d) => s.mfVerifyEnd.mf.state = .refused ∧ s.mfVerifyEnd.mf.result = BitVec.ofNat 4 r ∧
          s.mfVerifyEnd.mf.detail = BitVec.ofNat 8 d := by
  unfold State.mfVerifyEnd
  dsimp only
  generalize Mem.load s.port.staging 0 s.mf.len = image
  generalize s.imageCheck s.mf.len image = check
  obtain ⟨r, v⟩ := check
  cases r with
  | ok c =>
    refine ⟨?_, rfl, rfl⟩
    simp [State.mfResult, State.latch, State.countVerify, State.kecDone, State.upMf, State.upCry, State.upIntc]
  | error e =>
    refine ⟨?_, rfl, rfl, rfl⟩
    simp [State.mfResult, State.latch, State.countVerify, State.kecDone, State.upMf, State.upCry, State.upIntc]

theorem Manifest.bank_modBank (m : Manifest) (n : BitVec 1) (f : Bank → Bank) :
    (m.modBank n f).bank n = f (m.bank n) ∧ (m.modBank n f).bank (~~~n) = m.bank (~~~n) := by
  have hn : n = 0#1 ∨ n = 1#1 := by revert n; decide
  rcases hn with rfl | rfl <;> exact ⟨rfl, rfl⟩

/-- To no links nothing is sent. -/
theorem State.commitAll_none (s : State) (fw : Bool) (t : BitVec 32) : s.commitAll 0#32 fw t = s := rfl

theorem State.leaveSlack_of_not_host {s : State} (h : s.cfg.role ≠ .harbourmaster) : s.leaveSlack = s := if_neg h

theorem State.pushLinks_of_not_host {s : State} (h : s.cfg.role ≠ .harbourmaster) : s.pushLinks = 0#32 := if_neg h

/-- A commit or a distribution begins; with no links nothing is pushed. -/
theorem foldl_bitsOf_none {α : Type} (f : α → Nat → α) (a : α) : (bitsOf 0#32).foldl f a = a := rfl

theorem Manifest.modBank_state (m : Manifest) (n : BitVec 1) (f : Bank → Bank) :
    (m.modBank n f).state = m.state ∧ (m.modBank n f).pushSet = m.pushSet ∧ (m.modBank n f).pushAll = m.pushAll ∧
      (m.modBank n f).commitTide = m.commitTide := by
  unfold Manifest.modBank
  split <;> exact ⟨rfl, rfl, rfl, rfl⟩

/-- A bank that has been read back, with no tender to wait for, is armed for the commit tide (R95, R98). -/
theorem State.mfWritten_true {s : State} (hst : s.mf.state = .writing) (hset : s.mf.pushSet = 0#32) (hall : s.mf.pushAll = 0#32) :
    s.mfWritten true = s.upMf fun m => { m.modBank m.target fun _ =>
        { valid := true, image := s.port.staging, len := s.mf.len
          tag := bindingTag s.keys.vr.key (Mem.load s.port.staging 0 s.mf.len) } with
      ownRead := true, state := .armed, armed := (commitTideOf s.mf.commitTide s.tide.number).1
      late := (commitTideOf s.mf.commitTide s.tide.number).2 } := by
  obtain ⟨hstate, hpush, hlinks, htide⟩ := s.mf.modBank_state s.mf.target fun _ =>
    { valid := true, image := s.port.staging, len := s.mf.len
      tag := bindingTag s.keys.vr.key (Mem.load s.port.staging 0 s.mf.len) }
  simp [State.mfWritten, State.mfArm, State.writeBank, State.upMf, hstate, hpush, hlinks, htide, hst, hset, hall,
    State.commitAll_none]

/-- Settles O23: the commands are single branches, and a written bank arms the commit where no tender is waited for. -/
theorem manifestCommit : Obligations.ManifestCommit := by
  refine ⟨fun s hup hcan hst => ?_, fun s h hlife => next_farWrite h (if_neg ?_), fun s h hst hrole hlife => next_farWrite h ?_,
    fun s hup hst hown hall => whenDo_next ?_ ?_, fun s hup hst hown hset hall => ?_, fun s h hst => next_farWrite h ?_⟩
  · obtain ⟨hframe, hres⟩ := s.mfVerifyEnd_cases
    have hex : exec .manifestVerifyDone s = .next s.mfVerifyEnd := State.whenDo_of s _ (by simp [hup, hcan, hst])
    exact ⟨_, hex, by rw [hframe], by rw [hframe], hres⟩
  · simp [hlife]
  · have hne : (s.reached mfCmdAddr).cfg.role ≠ .harbourmaster := by simp [hrole]
    refine (if_pos ⟨hst, hlife⟩).trans ?_
    dsimp only
    rw [State.leaveSlack_of_not_host hne, State.pushLinks_of_not_host hne, foldl_bitsOf_none]
    rfl
  · simp [hup, hst, hown]
  · simp only [State.mfWritten, State.mfRefuse, hall]
    rfl
  · have hex : exec (.manifestWriteDone true) s = .next (s.mfWritten true) := State.whenDo_of s _ (by simp [hup, hst, hown])
    rw [State.mfWritten_true hst hset hall] at hex
    obtain ⟨hbank, hother⟩ := s.mf.bank_modBank s.mf.target fun _ =>
      { valid := true, image := s.port.staging, len := s.mf.len
        tag := bindingTag s.keys.vr.key (Mem.load s.port.staging 0 s.mf.len) }
    refine ⟨_, hex, rfl, rfl, rfl, congrArg Bank.valid hbank, congrArg Bank.image hbank, hother⟩
  · rcases hst with hst | hst | hst <;> simp only [State.mfAbort, hst, State.reached_mf] <;> rfl

/-! Firmware (R700 to R706). -/

theorem State.fwVerifyEnd_cases (s : State) :
    s.fwVerifyEnd = { s with fw := s.fwVerifyEnd.fw, cry := s.fwVerifyEnd.cry } ∧
      s.fwVerifyEnd.fw.result = BitVec.ofNat 4 (s.fwCheck s.fwImage).1 ∧
      s.fwVerifyEnd.fw.state = (if (s.fwCheck s.fwImage).1 = 1 then .verified else .refused) ∧
      s.fwVerifyEnd.fw.bankA = s.fw.bankA ∧ s.fwVerifyEnd.fw.bankB = s.fw.bankB := by
  unfold State.fwVerifyEnd
  dsimp only
  generalize s.fwImage = image
  obtain ⟨r, v⟩ := s.fwCheck image
  refine ⟨?_, rfl, rfl, rfl, rfl⟩
  simp [State.fwResult, State.countVerify, State.kecDone, State.upFw, State.upCry]

/-- The window passes from a firmware import that holds it (R663). -/
theorem State.fwRelease_of_held {s : State} (h : s.port.bulk = .firmware) :
    s.fwRelease = s.upPort fun p => { p with bulk := .none, bulkQueue := [] } := by
  simp [State.fwRelease, State.upPort, h]

theorem State.fwRelease_of_not_held {s : State} (h : s.port.bulk ≠ .firmware) : s.fwRelease = s := by
  simp [State.fwRelease, State.upPort, h]

/-- Settles O24: each command is its one branch in the state that reaches HOST.FW_CMD. -/
theorem firmwareImport : Obligations.FirmwareImport := by
  refine ⟨fun s hp hst hbulk => next_nearWrite hp ?_, fun s crc hp hst => ?_, fun s hp hst hmiss hbulk => next_nearWrite hp ?_,
    fun s hup hcan hst => ?_, fun s hp hst hrole => next_nearWrite hp ?_⟩
  · exact (if_neg (not_not.mpr hst)).trans (if_neg (not_not.mpr hbulk))
  · refine ⟨fun hcrc => next_nearWrite hp ((if_pos hst).trans (if_pos hcrc)),
      fun hcrc => next_nearWrite hp ((if_pos hst).trans (if_neg hcrc))⟩
  · have hnone : missingBlock (s.upPort fun p => p.unlatch fwCmdAddr).fw.len (s.upPort fun p => p.unlatch fwCmdAddr).fw.good =
        none := hmiss
    refine (if_pos hst).trans ?_
    rw [hnone]
    exact congrArg (State.verification · .firmware s.fw.len) (State.fwRelease_of_held hbulk)
  · have hex : exec .fwVerifyDone s = .next s.fwVerifyEnd := State.whenDo_of s _ (by simp [hup, hcan, hst])
    obtain ⟨hframe, hresult, hstate, hA, hB⟩ := s.fwVerifyEnd_cases
    exact ⟨_, hex, hframe, hresult, hstate, hA, hB⟩
  · have hne : (s.upPort fun p => p.unlatch fwCmdAddr).cfg.role ≠ .harbourmaster := by simp [hrole]
    refine (if_pos hst).trans ?_
    dsimp only
    rw [State.leaveSlack_of_not_host hne, State.pushLinks_of_not_host hne, foldl_bitsOf_none]
    rfl

/-- A logbook record changes the logbook, and the controller where it fills it (R712, R716). -/
theorem State.logRecord_eq (s : State) (k : Nat) (d : Bytes) :
    s.logRecord k d = { s with log := (s.logRecord k d).log, intc := (s.logRecord k d).intc } := by
  unfold State.logRecord
  dsimp only
  unfold State.latchIf
  split <;> rfl

/-- A record leaves every pending source pending (R716). -/
theorem State.logRecord_pending_source {s : State} {n : Nat} (k : Nat) (d : Bytes) (h : s.intc.pending.getLsbD n = true) :
    (s.logRecord k d).intc.pending.getLsbD n = true := by
  unfold State.logRecord
  dsimp only
  unfold State.latchIf
  split
  · change (s.intc.event 61).pending.getLsbD n = true
    rw [(s.intc.event_frame (n := 61) (by decide)).1]
    change (setBit s.intc.pending 61 true).getLsbD n = true
    by_cases hn : n = 61
    · subst hn; exact setBit_here _ _ _ (by decide)
    · rw [setBit_other _ _ hn, h]
  · exact h

/-- A record leaves every enable as it is (R716). -/
theorem State.logRecord_enables (s : State) (k : Nat) (d : Bytes) :
    (s.logRecord k d).intc.enables = s.intc.enables := by
  unfold State.logRecord
  dsimp only
  unfold State.latchIf
  split
  · exact (s.intc.event_frame (n := 61) (by decide)).2.2
  · rfl

/-- A target that stops has no enable left (R692, R745). -/
theorem Intc.enables_stopTarget (i : Intc) (t : Nat) : (i.stopTarget t).enables t = 0#64 := by
  have hfold : ∀ (l : List Nat) (i : Intc) (m : Nat), m < 64 →
      ((l.foldl (fun i n => i.release t n) i).enables t).getLsbD m = ((i.enables t).getLsbD m && decide (m ∉ l)) := by
    intro l
    induction l with
    | nil => simp
    | cons n l ih =>
      intro i m hm
      rw [List.foldl_cons, ih _ m hm, (i.release_enables t n).1, Intc.enables_setEnables, getLsbD_setBit]
      obtain rfl | hmn := eq_or_ne m n
      · simp [Nat.not_le_of_lt hm]
      · simp [hmn, hm]
  refine BitVec.eq_of_getLsbD_eq fun m hm => ?_
  rw [Intc.stopTarget, hfold _ _ m hm]
  simp [hm]

theorem Fw.modBank_state (f : Fw) (n : BitVec 1) (g : Bank → Bank) :
    (f.modBank n g).state = f.state ∧ (f.modBank n g).pushSet = f.pushSet ∧ (f.modBank n g).pushAll = f.pushAll ∧
      (f.modBank n g).switchTide = f.switchTide := by
  unfold Fw.modBank
  split <;> exact ⟨rfl, rfl, rfl, rfl⟩

/-- A new firmware record goes over one of the two copies (R65, R700). -/
theorem Fw.record_cases (f : Fw) (r : FwRecord) :
    f.record r = { f with recA := { r with seq := f.cur.seq + 1, crcOk := true } } ∨
      f.record r = { f with recB := { r with seq := f.cur.seq + 1, crcOk := true } } := by
  unfold Fw.record
  dsimp only
  split
  · exact .inl rfl
  · exact .inr rfl

/-- Settles O25: distribution, abort, handover and trial are single branches; a record goes over one of the two copies. -/
theorem firmwareActivation : Obligations.FirmwareActivation := by
  refine ⟨fun s hup hst hown hset hall => whenDo_next ?_ ?_, fun s hup hst hown hall => whenDo_next ?_ ?_,
    fun s hp hst hall hbulk => next_nearWrite hp ?_, fun s hup hst hA hB hpA hpB => ?_, fun s hup hst hleft => ?_⟩
  · simp [hup, hst, hown]
  · obtain ⟨hstate, hpush, hlinks, htide⟩ := s.fw.modBank_state s.fw.other fun k => { k with valid := true, len := s.fw.len }
    simp [State.fwReadBack, State.fwArm, State.upFw, hstate, hpush, hlinks, htide, hst, hset, hall, State.commitAll_none]
  · simp [hup, hst, hown]
  · simp only [State.fwReadBack, State.fwRefuse, hall]
    rfl
  · refine (if_pos (.inr (.inl hst))).trans ?_
    have hnone : (s.upPort fun p => p.unlatch fwCmdAddr).commitAll (s.upPort fun p => p.unlatch fwCmdAddr).fw.pushAll true 0#32 =
        s.upPort fun p => p.unlatch fwCmdAddr := by
      rw [State.upPort_fw, hall]; rfl
    rw [hnone]
    exact State.fwRelease_of_not_held hbulk
  · have hex : exec .fwHandoverDone s = .next s.fwHandover := State.whenDo_of s _ (by simp [hup, hst, hA, hB, hpA, hpB])
    refine ⟨_, hex, rfl, ?_⟩
    rcases s.fw.record_cases { (s.fw.cur.activate s.fw.other s.fw.stagedVer) with trial := true } with h | h
    · exact .inl (by simp only [State.fwHandover, State.upFw, h])
    · exact .inr (by simp only [State.fwHandover, State.upFw, h])
  · have hex : exec .fwTrialEnd s = .next s.fwConfirm := State.whenDo_of s _ (by simp [hup, hst, hleft])
    have hconfirm : ∃ d, s.fwConfirm = (s.upFw fun f =>
        { f.record { f.cur with trial := false, floor := f.stagedFloor } with state := .idle }).logRecord 0x25 d := ⟨_, rfl⟩
    obtain ⟨d, hd⟩ := hconfirm
    rw [hd] at hex
    refine ⟨_, hex, ?_, ?_, State.logRecord_head ..⟩
    · rw [State.logRecord_eq]; rfl
    · rw [State.logRecord_fw]
      rcases s.fw.record_cases { s.fw.cur with trial := false, floor := s.fw.stagedFloor } with h | h
      · exact .inl (by simp only [State.upFw, h])
      · exact .inr (by simp only [State.upFw, h])

/-- Settles O26. -/
theorem pairFaults : Obligations.PairFaults := by
  refine ⟨fun s b hup hpair hnone hst => ?_, fun s hup hpair hst => whenDo_next ?_ ?_, fun s hup hpair hst => whenDo_next ?_ ?_⟩
  · have hex : exec (.lockstepFault b) s = .next (s.lockstep b) := State.whenDo_of s _ (by simp [hup, hpair])
    have hlock : ∃ d, s.lockstep b = (((s.stopPair b).latch 63).logRecord 0x26 d).upSys fun y => { y with
        pairRestarts := y.pairRestarts + 1#16, pairFault := (b2n b, s.tide.number) :: y.pairFault.take 1 } := by
      refine ⟨[BitVec.ofNat 8 (b2n b)], ?_⟩
      cases b <;> simp [State.lockstep, State.stopPair, hnone, hst]
    obtain ⟨d, hd⟩ := hlock
    rw [hd] at hex
    have hpend : ((s.stopPair b).latch 63).intc.pending.getLsbD 63 = true := by
      change ((s.intc.stopTarget (pairTarget b)).event 63).pending.getLsbD 63 = true
      rw [(Intc.event_frame _ (n := 63) (by decide)).1]
      exact setBit_here _ _ _ (by decide)
    refine ⟨_, hex, ?_, ?_, ?_, ?_, ?_, ?_, State.logRecord_pending_source _ _ hpend, ?_⟩
    · cases b <;> simp [State.pairUp, State.stopPair]
    · cases b <;> simp [State.pairUp, State.stopPair]
    · cases b <;> simp [State.stopPair]
    · simp [State.stopPair]
    · simp [State.stopPair]
    · change (((s.stopPair b).latch 63).logRecord 0x26 d).intc.enables (pairTarget b) = 0#64
      rw [State.logRecord_enables]
      change ((s.intc.stopTarget (pairTarget b)).event 63).enables (pairTarget b) = 0#64
      rw [(Intc.event_frame _ (n := 63) (by decide)).2.2, Intc.enables_stopTarget]
    · rw [State.logRecord_eq]
      cases b <;> simp [State.stopPair, State.latch, State.upIntc, State.upSys]
  · simp [hup, hpair, State.pairUp]
  · simp [State.pairBack, hst]
  · simp [hup, hpair, State.pairUp]
  · simp [State.pairBack, hst]

end Sys2Proof.Machine
end

section
/-! SUPPORT. Berths: cast-offs, the berth timers, the booking and VSEL, the start request, and the publication of verdicts
(R30 to R64, R148, R289, R316, R351, R352). -/

namespace Sys2Proof.Machine

/-! Cast-offs and the registers of the berth table. -/

/-- A berth that is in use is one of the table. -/
theorem State.lt_of_held {s : State} {n : Nat} (h : (s.berth n).id.st.held = true) : n < s.bt.berths.length := by
  by_contra hn
  have hreset : s.berth n = Berth.reset := List.getD_eq_default _ _ (Nat.le_of_not_lt hn)
  simp [hreset, Berth.reset, BerthId.reset, BerthState.held] at h

theorem State.lt_of_moored {s : State} {n : Nat} (h : (s.berth n).id.st.moored? = true) : n < s.bt.berths.length := by
  refine State.lt_of_held ?_
  revert h
  cases (s.berth n).id.st <;> decide

/-- A frame waits at the berth's link, where it has one (R289). -/
theorem State.queueFrame_of_link {s : State} {n k : Nat} (typ : Nat) (body : Bytes) (h : s.linkOf n = some k) :
    s.queueFrame n typ body = s.modLink k fun l =>
      { l with queue := l.queue ++ [BitVec.ofNat 8 typ :: BitVec.ofNat 8 body.length :: body] } := by
  simp [State.queueFrame, h]

theorem State.queueFrame_of_no_link {s : State} {n : Nat} (typ : Nat) (body : Bytes) (h : s.linkOf n = none) :
    s.queueFrame n typ body = s := by
  simp [State.queueFrame, h]

/-- What a cast-off changes: the berth, its link and the dwell (R30, R38, R133, R289). -/
theorem State.castOff_of_held {s : State} {n : Nat} (cause : BitVec 8) (h : (s.berth n).id.st.held = true) :
    s.castOff n cause = { s with
      bt := (s.modId n fun b => { b with st := .castOff, cause := cause }).bt
      nb := (s.queueFrame n 7 [cause]).nb
      tide := { s.tide with
        dwellFrom := if (s.berth n).id.st.moored? && s.tide.power == .service then s.now else s.tide.dwellFrom } } := by
  have hlink : (s.modId n fun b => { b with st := .castOff, cause := cause }).linkOf n = s.linkOf n := rfl
  rw [State.castOff, if_pos h]
  dsimp only
  cases hk : s.linkOf n with
  | none =>
    rw [State.queueFrame_of_no_link _ _ (hlink.trans hk), State.queueFrame_of_no_link _ _ hk]
    unfold State.upTide
    dsimp only [State.modId_tide, State.modId_now]
    split <;> rfl
  | some k =>
    rw [State.queueFrame_of_link _ _ (hlink.trans hk), State.queueFrame_of_link _ _ hk]
    unfold State.upTide State.modLink State.upNb
    dsimp only [State.modId_tide, State.modId_now]
    split <;> rfl

theorem State.castOff_of_not_held {s : State} {n : Nat} (cause : BitVec 8) (h : (s.berth n).id.st.held = false) :
    s.castOff n cause = s := by
  simp [State.castOff, h]

/-- Settles O28: by what a cast-off changes, with and without a link of the berth. -/
theorem castOffBerth : Obligations.CastOffBerth := by
  refine fun s n cause => ⟨State.castOff_of_not_held cause, fun h => ?_⟩
  rw [State.castOff_of_held cause h]
  refine ⟨State.berth_modBerth_same _ (State.lt_of_held h), fun m hm => State.berth_modBerth_ne _ hm, fun hnone => ?_,
    fun k hk => ?_, rfl, rfl⟩
  · change (s.queueFrame n 7 [cause]).nb = s.nb
    rw [State.queueFrame_of_no_link 7 [cause] hnone]
  · change (s.queueFrame n 7 [cause]).nb = _
    rw [State.queueFrame_of_link 7 [cause] hk]
    rfl

/-- A write to the berth table or the register of a device that keeps them (R62). -/
theorem next_berthWrite {s t : State} {a : Nat} {eff : State → State} (h : s.hostReady = true) (hrole : s.cfg.role ≠ .tender)
    (ht : eff (s.reached a) = t) : (.next (s.berthWrite a eff) : Host.Outcome State Fault Refusal) = .next t := by
  subst ht
  refine next_farWrite h ?_
  have hten : (s.reached a).isTender = false := by simp [State.isTender, hrole]
  simp [hten]

/-- A tender ignores the write (R62). -/
theorem next_berthWrite_tender {s : State} {a : Nat} {eff : State → State} (h : s.hostReady = true)
    (hrole : s.cfg.role = .tender) :
    (.next (s.berthWrite a eff) : Host.Outcome State Fault Refusal) = .next (s.reached a) := by
  refine next_farWrite h ?_
  have hten : (s.reached a).isTender = true := by simp [State.isTender, hrole]
  simp [hten]

/-- Settles O29: each timer in turn; the write of CTRL by its bit and the state of the berth. -/
theorem berthTimers : Obligations.BerthTimers := by
  refine ⟨fun s n hst hon hel => whenDo_next ?_ rfl, fun s n hst hon hel => whenDo_next ?_ rfl,
    fun s n t hst hon hfar hlate => ?_, fun s n hoff => ⟨?_, ?_, ?_⟩, fun s n v h hrole hv hheld => ?_,
    fun s n v h hrole hv hheld => ?_, fun s n v h hrole => next_berthWrite_tender h hrole⟩
  · simp [hst, hon, hel]
  · simpa [hon, hel, BerthState.moored?] using hst
  · change execFarTimeout n s = _
    simp only [execFarTimeout, hfar]
    exact whenDo_next (by simp [hst, hon, hlate]) rfl
  · exact State.whenDo_not s _ (by simp [hoff])
  · exact State.whenDo_not s _ (by simp [hoff])
  · change execFarTimeout n s = _
    unfold execFarTimeout
    dsimp only
    split
    · rfl
    · exact State.whenDo_not s _ (by simp [hoff])
  · exact next_berthWrite h hrole ((if_pos hv).trans (if_pos hheld))
  · exact next_berthWrite h hrole ((if_pos hv).trans (if_neg (by simpa [State.berth] using hheld)))

/-- Settles O30: each write in turn. -/
theorem bookingAndView : Obligations.BookingAndView := by
  refine ⟨fun s v h hrole => next_berthWrite h hrole rfl, fun s v h hrole hfresh => next_berthWrite h hrole ?_,
    fun s v h hrole => next_berthWrite h hrole rfl⟩
  simp [State.bookHi, hfresh, State.upBt]

/-! The start request. -/

theorem State.wakeHere_of_not_tender {s : State} (bit : Nat) (h : s.cfg.role ≠ .tender) : s.wakeHere bit = s.wake bit :=
  if_neg h

/-- A ticket enters the lock keeper's queue; source 9 and a logbook record come with it (R56, R403). -/
theorem State.issueTicket_eq (s : State) (o : Bool) (b : BitVec 8) (c : BitVec 64) :
    s.issueTicket o b c = { s with
      lk := { s.lk with queue := some { override := o, berth := b, cred := c, issued := s.baseAt s.now } }
      log := (s.issueTicket o b c).log, intc := (s.issueTicket o b c).intc } := by
  conv_lhs => rw [State.issueTicket, State.logRecord_eq]
  rfl

/-- A device that runs its berth table is no tender (R23). -/
theorem State.role_of_berthsRun {s : State} (h : s.berthsRun = true) : s.cfg.role ≠ .tender := by
  intro hrole
  simp [State.berthsRun, State.keepsBerths, hrole] at h

/-- With a winner a start request that is evaluated is granted to it (R56). -/
theorem State.startRequest_of_winner {s : State} {n : Nat} (at' : Nat) (hrun : s.berthsRun = true)
    (hpow : s.tide.power ≠ .deep) (hbusy : s.startBusy = false) (hrel : s.lk.state.released? = false)
    (hout : s.ver.outAt = none) (hwin : s.startWinner = some n) :
    s.startRequest at' = (s.upBt fun b => { b with
      startTrig := true, winner := BitVec.ofNat 8 n, result := 2#3, reason := 0#4, startLeft := none
      startWait := false }).issueTicket false (BitVec.ofNat 8 n) (s.berth n).id.cred := by
  have hwin' : (s.upBt fun b => { b with startTrig := true }).startWinner = some n := hwin
  have heval : s.startRequest at' = (s.upBt fun b => { b with startTrig := true }).evalStart (4 - s.boundariesSince at') := by
    simp [State.startRequest, hrun, hpow, hbusy, hrel, hout]
  rw [heval, State.evalStart, hwin']
  rfl

/-- While a release is held a start request is answered HELD (R59). -/
theorem State.startRequest_of_released {s : State} (at' : Nat) (hrun : s.berthsRun = true)
    (hpow : s.tide.power = .service) (hbusy : s.startBusy = false) (hrel : s.lk.state.released? = true) :
    s.startRequest at' = s.upBt fun b => { b with result := 3#3, reason := 0#4 } := by
  have hpoll : (Power.service == Power.drive) = false := by decide
  simp [State.startRequest, hrun, hpow, hbusy, hrel, State.upLf, State.upBt, hpoll]

/-- The end of a debounce makes the request of its press (R53). -/
theorem exec_startDebounceEnd {s : State} {m : BitVec 5} {t : Nat} (hdeb : s.bt.debounce = [(m, t)])
    (hel : t + ms 2 ≤ s.now) (hrole : s.cfg.role ≠ .tender) :
    exec (.startDebounceEnd m) s = .next ((s.upBt fun b => { b with debounce := [] }).startRequest (t + ms 2)) := by
  have hfind : s.bt.debounce.find? (fun d => d.1 == m) = some (m, t) := by simp [hdeb]
  have hempty : s.bt.debounce.filter (fun d => d.1 != m) = [] := by simp [hdeb]
  change execStartDebounceEnd m s = _
  rw [execStartDebounceEnd, hfind]
  refine whenDo_next (by simp [State.elapsed, hel]) ?_
  rw [State.startInput]
  refine (if_neg hrole).trans ?_
  simp only [State.upBt, hempty]

/-- Settles O32: the press; the evaluation with a winner; the request while a release is held. -/
theorem startRequest : Obligations.StartRequest := by
  refine ⟨fun s m hpin hrole hdeb => whenDo_next ?_ ?_, fun s m t n hdeb hel hrun hpow hbusy hrel hout hwin => ?_,
    fun s m t hdeb hel hrun hpow hbusy hrel => ?_⟩
  · simp [hpin, hdeb]
  · rw [State.wakeHere_of_not_tender 6 hrole]
    simp [State.upBt, hdeb]
  · have hexec := exec_startDebounceEnd hdeb hel (State.role_of_berthsRun hrun)
    rw [State.startRequest_of_winner (s := s.upBt fun b => { b with debounce := [] }) _ hrun hpow hbusy hrel hout hwin,
      State.issueTicket_eq] at hexec
    exact ⟨_, hexec, rfl, rfl, rfl, rfl, rfl, rfl⟩
  · rw [exec_startDebounceEnd hdeb hel (State.role_of_berthsRun hrun),
      State.startRequest_of_released (s := s.upBt fun b => { b with debounce := [] }) _ hrun hpow hbusy hrel]
    rfl

/-! The publication of verdicts. -/

/-- What a publication's later work, its rules, commands, start request and background check, leaves as the verdicts made
it: every berth's identity and verdict, PUBLISH, and a pending source 7. -/
structure State.KeepsVerdicts (s t : State) : Prop where
  now : t.now = s.now
  tide : t.tide = s.tide
  ver : t.ver = s.ver
  source : s.intc.pending.getLsbD 7 = true → t.intc.pending.getLsbD 7 = true
  berth : ∀ n, (t.berth n).id = (s.berth n).id ∧
    ∃ m f, (t.berth n).fu = { (s.berth n).fu with met := m, nfcFirst := f }

namespace State.KeepsVerdicts

theorem refl (s : State) : s.KeepsVerdicts s := ⟨rfl, rfl, rfl, id, fun _ => ⟨rfl, _, _, rfl⟩⟩

theorem trans {s t u : State} (h : s.KeepsVerdicts t) (k : t.KeepsVerdicts u) : s.KeepsVerdicts u := by
  refine ⟨k.now.trans h.now, k.tide.trans h.tide, k.ver.trans h.ver, fun hs => k.source (h.source hs), fun n => ?_⟩
  obtain ⟨hid, m, f, hfu⟩ := h.berth n
  obtain ⟨kid, m', f', kfu⟩ := k.berth n
  exact ⟨kid.trans hid, m', f', by rw [kfu, hfu]⟩

theorem berth_of_eq {b c : Berth} (h : b = c) : b.id = c.id ∧ ∃ m f, b.fu = { c.fu with met := m, nfcFirst := f } :=
  ⟨congrArg Berth.id h, b.fu.met, b.fu.nfcFirst, h ▸ rfl⟩

/-- Work that leaves berth table and controller alone. -/
theorem of_frame {s t : State} (hnow : t.now = s.now) (htide : t.tide = s.tide) (hver : t.ver = s.ver)
    (hintc : t.intc = s.intc) (hbt : t.bt.berths = s.bt.berths) : s.KeepsVerdicts t :=
  ⟨hnow, htide, hver, fun h => hintc ▸ h, fun n => berth_of_eq (by simp only [State.berth, hbt])⟩

/-- Work over a list, each step of which keeps the verdicts. -/
theorem foldl {α : Type} {f : State → α → State} (h : ∀ (s : State) a, s.KeepsVerdicts (f s a)) (l : List α) (s : State) :
    s.KeepsVerdicts (l.foldl f s) := by
  induction l generalizing s with
  | nil => exact refl s
  | cons a l ih => exact (h s a).trans (ih (f s a))

theorem latch (s : State) (k : Nat) (hk : k < 64) : s.KeepsVerdicts (s.latch k) := by
  refine ⟨rfl, rfl, rfl, fun h => ?_, fun _ => ⟨rfl, _, _, rfl⟩⟩
  change (s.intc.event k).pending.getLsbD 7 = true
  rw [(s.intc.event_frame hk).1]
  change (setBit s.intc.pending k true).getLsbD 7 = true
  by_cases h7 : 7 = k
  · subst h7
    exact setBit_here _ _ _ (by decide)
  · rw [setBit_other _ _ h7, h]

theorem logRecord (s : State) (k : Nat) (d : Bytes) : s.KeepsVerdicts (s.logRecord k d) :=
  ⟨by simp, by simp, by simp, State.logRecord_pending_source k d, fun n =>
    berth_of_eq (by simp only [State.berth, State.logRecord_bt])⟩

/-- A source that latches, with its logbook record. -/
theorem latchLog {s t : State} (h : s.KeepsVerdicts t) {k : Nat} (hk : k < 64) (x : Nat) (d : Bytes) :
    s.KeepsVerdicts ((t.latch k).logRecord x d) :=
  (h.trans (latch t k hk)).trans (logRecord _ x d)

/-- A change of a berth that leaves its identity and its verdict. -/
theorem modBerth (s : State) (k : Nat) {f : Berth → Berth} (hid : ∀ b, (f b).id = b.id)
    (hfu : ∀ b, ∃ m x, (f b).fu = { b.fu with met := m, nfcFirst := x }) : s.KeepsVerdicts (s.modBerth k f) := by
  refine ⟨rfl, rfl, rfl, id, fun n => ?_⟩
  by_cases hn : n = k
  · subst hn
    by_cases hlt : n < s.bt.berths.length
    · rw [State.berth_modBerth_same f hlt]
      exact ⟨hid _, hfu _⟩
    · have hsame : (s.modBerth n f).berth n = s.berth n := by
        simp [State.berth, State.modBerth, hlt]
      exact berth_of_eq hsame
  · rw [State.berth_modBerth_ne f hn]
    exact ⟨rfl, _, _, rfl⟩

theorem modSe (s : State) (k : Nat) (f : BerthSess → BerthSess) : s.KeepsVerdicts (s.modSe k f) :=
  modBerth s k (fun _ => rfl) fun _ => ⟨_, _, rfl⟩

theorem modFu (s : State) (k : Nat) {f : BerthFuse → BerthFuse} (hfu : ∀ b, ∃ m x, f b = { b with met := m, nfcFirst := x }) :
    s.KeepsVerdicts (s.modFu k f) :=
  modBerth s k (fun _ => rfl) fun b => hfu b.fu

theorem act (s : State) (r : Rule) : s.KeepsVerdicts (s.act r) := by
  unfold State.act State.latchPulse State.canRequest
  dsimp only
  split
  · split <;> exact of_frame rfl rfl rfl rfl rfl
  · split
    · split <;> exact of_frame rfl rfl rfl rfl rfl
    · exact refl s

theorem upPins (s : State) (f : Pins → Pins) : s.KeepsVerdicts (s.upPins f) := of_frame rfl rfl rfl rfl rfl

theorem ruleAction (s : State) (r : Rule) (n : Nat) : s.KeepsVerdicts (s.ruleAction r n) := by
  have hpins : s.KeepsVerdicts (s.upPins fun p => { p with actions := p.actions ++ [(r.id, n)] }) :=
    of_frame rfl rfl rfl rfl rfl
  exact latchLog (hpins.trans (act _ r)) (by decide) _ _

theorem markRule (s : State) (r : Rule) (pub hits : List Nat) : s.KeepsVerdicts (s.markRule r pub hits) := by
  unfold State.markRule
  split
  · exact foldl (fun t n => modFu t n fun _ => ⟨_, _, rfl⟩) _ _
  · exact foldl (fun t n => modSe t n _) _ _

theorem evalRule (pub : List Nat) (s : State) (r : Rule) : s.KeepsVerdicts (State.evalRule pub s r) := by
  unfold State.evalRule
  dsimp only
  split
  · exact markRule s r _ _
  · exact (markRule s r _ _).trans (ruleAction _ r _)

theorem agedCommand (s : State) (n : Nat) (c : FobCmd) : s.KeepsVerdicts (s.agedCommand n c) := by
  unfold State.agedCommand
  dsimp only
  split
  · exact refl s
  · split
    · exact logRecord s _ _
    · exact modSe s n _

theorem ageCommands (s : State) (n : Nat) : s.KeepsVerdicts (s.ageCommands n) :=
  (modSe s n _).trans (foldl (fun t c => agedCommand t n c) _ _)

/-- A change of the table's own fields. -/
theorem upBt (s : State) {f : BerthTable → BerthTable} (h : (f s.bt).berths = s.bt.berths) : s.KeepsVerdicts (s.upBt f) :=
  of_frame rfl rfl rfl rfl h

theorem issueTicket (s : State) (o : Bool) (b : BitVec 8) (c : BitVec 64) : s.KeepsVerdicts (s.issueTicket o b c) :=
  latchLog (of_frame (s := s) (t := s.upLk _) rfl rfl rfl rfl rfl) (k := 9) (by decide) _ _

theorem evalStart (s : State) (left : Nat) : s.KeepsVerdicts (s.evalStart left) := by
  unfold State.evalStart
  dsimp only
  split
  · exact (upBt s rfl).trans (issueTicket _ _ _ _)
  · split
    · exact latchLog (upBt s rfl) (by decide) _ _
    · exact upBt s rfl

theorem startPublished (s : State) : s.KeepsVerdicts s.startPublished := by
  unfold State.startPublished
  split
  · exact evalStart s _
  · exact refl s

theorem kecAsk (s : State) (j : KecJob) : s.KeepsVerdicts (s.kecAsk j) := by
  unfold State.kecAsk
  split
  · exact of_frame rfl rfl rfl rfl rfl
  · exact refl s

theorem upReg (s : State) (f : MemberReg → MemberReg) : s.KeepsVerdicts (s.upReg f) := of_frame rfl rfl rfl rfl rfl

theorem touchPage (s : State) (k : Nat) : s.KeepsVerdicts (s.touchPage k) := by
  unfold State.touchPage
  dsimp only
  split
  · exact refl s
  · split
    · split
      · exact latchLog ((kecAsk s _).trans (upReg _ _)) (by decide) _ _
      · exact (kecAsk s _).trans (upReg _ _)
    · exact (kecAsk s _).trans (upReg _ _)

theorem regBackground (s : State) : s.KeepsVerdicts s.regBackground := by
  unfold State.regBackground
  dsimp only
  split
  · exact refl s
  · split
    · exact foldl touchPage _ _
    · split
      · exact (upReg s _).trans (foldl touchPage _ _)
      · split
        · exact upReg s _
        · exact refl s

end State.KeepsVerdicts

/-- The berth that verdict `o` leaves at a berth that is MOORED or RANGED shows it (R316). -/
structure VerdictOut.ShownAt (o : VerdictOut) (tide : BitVec 32) (b : Berth) : Prop where
  st : b.id.st = .ranged
  zone : b.fu.zone = o.zone
  conf : b.fu.conf = o.conf
  relay : b.fu.relay = o.relay
  range : b.fu.range = o.range
  az : b.fu.az = o.az
  age : b.fu.age = 0#8
  vtide : b.fu.vtide = tide

/-- The berth of a verdict that is stored (R316). -/
def VerdictOut.store (o : VerdictOut) (now : Nat) (tide : BitVec 32) (b : Berth) : Berth :=
  { b with
    id := { b.id with st := .ranged, farFrom := if o.zone = 0#3 then some (b.id.farFrom.getD now) else none }
    fu := { b.fu with zone := o.zone, conf := o.conf, relay := o.relay, range := o.range, az := o.az
                      age := 0#8, vtide := tide, view := o.view, streak := o.streak
                      history := o.history, held := o.held } }

theorem VerdictOut.shownAt_store (o : VerdictOut) (now : Nat) (tide : BitVec 32) (b : Berth) :
    o.ShownAt tide (o.store now tide b) := ⟨rfl, rfl, rfl, rfl, rfl, rfl, rfl, rfl⟩

/-- The relay flags of a verdict are counted, whatever its berth is (R351). -/
def State.seeVerdict (s : State) (o : VerdictOut) : State := s.upVer fun v => { v with
  seen := v.seen ||| o.relay, flagged := if o.relay = 0#8 then v.flagged else satInc v.flagged }

theorem State.storeVerdict_of_moored {s : State} {o : VerdictOut} (h : (s.berth o.berth).id.st.moored? = true) :
    s.storeVerdict o = (s.seeVerdict o).modBerth o.berth (o.store s.now s.tide.number) := if_pos h

theorem State.storeVerdict_of_not_moored {s : State} {o : VerdictOut} (h : (s.berth o.berth).id.st.moored? = false) :
    s.storeVerdict o = s.seeVerdict o := by
  refine if_neg ?_
  change ¬ (s.berth o.berth).id.st.moored? = true
  simp [h]

/-- A stored verdict changes at most the table's berths and the counts of relay flags. -/
theorem State.storeVerdict_eq (s : State) (o : VerdictOut) :
    s.storeVerdict o = { s with
      bt := { s.bt with berths := (s.storeVerdict o).bt.berths }
      ver := { s.ver with seen := (s.storeVerdict o).ver.seen, flagged := (s.storeVerdict o).ver.flagged } } := by
  cases h : (s.berth o.berth).id.st.moored? with
  | true => rw [State.storeVerdict_of_moored h]; rfl
  | false => rw [State.storeVerdict_of_not_moored h]; rfl

theorem State.berth_storeVerdict_same {s : State} {o : VerdictOut} (h : (s.berth o.berth).id.st.moored? = true) :
    (s.storeVerdict o).berth o.berth = o.store s.now s.tide.number (s.berth o.berth) := by
  rw [State.storeVerdict_of_moored h]
  exact State.berth_modBerth_same (s := s.seeVerdict o) _ (State.lt_of_moored h)

/-- A verdict changes no berth but its own, and that only where it is MOORED or RANGED (R316, R351). -/
theorem State.berth_storeVerdict_other {s : State} {o : VerdictOut} {n : Nat}
    (h : o.berth ≠ n ∨ (s.berth n).id.st.moored? = false) : (s.storeVerdict o).berth n = s.berth n := by
  cases hm : (s.berth o.berth).id.st.moored? with
  | false => rw [State.storeVerdict_of_not_moored hm]; rfl
  | true =>
    rw [State.storeVerdict_of_moored hm]
    refine State.berth_modBerth_ne (s := s.seeVerdict o) _ ?_
    rintro rfl
    simp [hm] at h

/-- A berth that is MOORED or RANGED stays so while verdicts are stored. -/
theorem State.moored_storeVerdict {s : State} (o : VerdictOut) {n : Nat} (h : (s.berth n).id.st.moored? = true) :
    ((s.storeVerdict o).berth n).id.st.moored? = true := by
  by_cases hn : o.berth = n
  · subst hn
    rw [State.berth_storeVerdict_same h]
    rfl
  · rwa [State.berth_storeVerdict_other (.inl hn)]

/-- What storing verdicts leaves alone. -/
theorem State.storeVerdicts_frame (outs : List VerdictOut) (s : State) :
    (outs.foldl State.storeVerdict s).now = s.now ∧ (outs.foldl State.storeVerdict s).tide = s.tide := by
  induction outs generalizing s with
  | nil => exact ⟨rfl, rfl⟩
  | cons o outs ih =>
    have hframe := s.storeVerdict_eq o
    obtain ⟨hnow, htide⟩ := ih (s.storeVerdict o)
    exact ⟨hnow.trans (by rw [hframe]), htide.trans (by rw [hframe])⟩

theorem State.moored_storeVerdicts (outs : List VerdictOut) {s : State} {n : Nat} (h : (s.berth n).id.st.moored? = true) :
    ((outs.foldl State.storeVerdict s).berth n).id.st.moored? = true := by
  induction outs generalizing s with
  | nil => exact h
  | cons o outs ih => exact ih (State.moored_storeVerdict o h)

/-- A berth without a verdict, or neither MOORED nor RANGED, stays as it is. -/
theorem State.berth_storeVerdicts_other {outs : List VerdictOut} {s : State} {n : Nat}
    (h : (∀ o ∈ outs, o.berth ≠ n) ∨ (s.berth n).id.st.moored? = false) :
    (outs.foldl State.storeVerdict s).berth n = s.berth n := by
  induction outs generalizing s with
  | nil => rfl
  | cons o outs ih =>
    have hone : (s.storeVerdict o).berth n = s.berth n :=
      State.berth_storeVerdict_other (h.imp_left fun hall => hall o List.mem_cons_self)
    refine (ih ?_).trans hone
    rw [hone]
    exact h.imp_left fun hall p hp => hall p (List.mem_cons_of_mem _ hp)

/-- The last verdict of a berth is the one that it shows. -/
theorem State.shownAt_storeVerdicts {before after : List VerdictOut} {o : VerdictOut} {s : State}
    (hlast : ∀ p ∈ after, p.berth ≠ o.berth) (h : (s.berth o.berth).id.st.moored? = true) :
    o.ShownAt s.tide.number (((before ++ o :: after).foldl State.storeVerdict s).berth o.berth) := by
  rw [List.foldl_append, List.foldl_cons, State.berth_storeVerdicts_other (.inl hlast),
    State.berth_storeVerdict_same (State.moored_storeVerdicts before h), (State.storeVerdicts_frame before s).2]
  exact o.shownAt_store _ _ _

/-- AGE counts a boundary at a berth in use whose boundary is due (R63, R315). -/
theorem State.berth_countAges (s : State) (p : Berth → Bool) (n : Nat) :
    (s.countAges p).berth n = (if (s.berth n).id.st ≠ .free ∧ p (s.berth n) then
      { s.berth n with fu := { (s.berth n).fu with age := satInc (s.berth n).fu.age, ageDue := false } } else s.berth n) := by
  by_cases hn : n < s.bt.berths.length
  · simp [State.berth, State.countAges, hn]
  · have hfree : Berth.reset.id.st = .free := rfl
    simp [hfree, State.berth, State.countAges, Nat.le_of_not_lt hn]

/-- Counting the ages moves no berth. -/
theorem State.id_countAges (s : State) (p : Berth → Bool) (n : Nat) : ((s.countAges p).berth n).id = (s.berth n).id := by
  rw [State.berth_countAges]
  split <;> rfl

/-- The verdicts that wait are stored, once the ages are counted (R316). -/
def State.stored (s : State) : State := s.ver.out.foldl State.storeVerdict (s.countAges (·.fu.ageDue))

/-- No verdict waits any more, PUBLISH gives the time since the boundary at `t`, and source 7 latches (R60, R316). -/
def State.entered (s : State) (t : Nat) : State :=
  (s.stored.upVer fun v => { v with
    out := [], outAt := none, publish := clampNat 10 (roundDiv (s.stored.now - t) 64) }).latchIf (!s.ver.out.isEmpty) 7

/-- What a publication does after the verdicts have been entered leaves them (R341, R375). -/
theorem State.publish_keeps {s : State} {t : Nat} (h : s.ver.outAt = some t) : (s.entered t).KeepsVerdicts s.publish := by
  unfold State.publish
  split
  next hnone => simp [hnone] at h
  next u hu =>
    obtain rfl : u = t := Option.some.inj (hu.symm.trans h)
    extract_lets outs pub stored published unacted ruled bound aged
    have hunacted : (s.entered u).KeepsVerdicts unacted := .upPins (s.entered u) _
    have hruled : (s.entered u).KeepsVerdicts ruled := hunacted.trans (.foldl (.evalRule pub) _ _)
    have hbound : (s.entered u).KeepsVerdicts bound :=
      hruled.trans (.foldl (fun _ _ => .modFu _ _ fun _ => ⟨_, _, rfl⟩) pub _)
    have haged : (s.entered u).KeepsVerdicts aged := hbound.trans (.foldl .ageCommands berthNos _)
    clear_value aged
    exact ((haged.trans (.upBt _ rfl)).trans (.startPublished _)).trans (.regBackground _)

/-- A verdict that a berth shows is shown while the verdicts are kept. -/
theorem VerdictOut.ShownAt.kept {o : VerdictOut} {tide : BitVec 32} {s t : State} {n : Nat} (h : o.ShownAt tide (s.berth n))
    (hk : s.KeepsVerdicts t) : o.ShownAt tide (t.berth n) := by
  obtain ⟨hid, m, f, hfu⟩ := hk.berth n
  exact ⟨hid ▸ h.st, by rw [hfu]; exact h.zone, by rw [hfu]; exact h.conf, by rw [hfu]; exact h.relay,
    by rw [hfu]; exact h.range, by rw [hfu]; exact h.az, by rw [hfu]; exact h.age, by rw [hfu]; exact h.vtide⟩

theorem State.entered_berth (s : State) (t n : Nat) : (s.entered t).berth n = s.stored.berth n := by
  simp [State.entered, State.berth]

/-- Source 7 is pending where a verdict waited (R316). -/
theorem State.entered_source {s : State} (t : Nat) (h : s.ver.out ≠ []) : (s.entered t).intc.pending.getLsbD 7 = true := by
  have hsome : (!s.ver.out.isEmpty) = true := by simp [h]
  rw [State.entered, hsome]
  change (s.stored.intc.event 7).pending.getLsbD 7 = true
  rw [(Intc.event_frame _ (n := 7) (by decide)).1]
  exact setBit_here _ _ _ (by decide)

/-- Settles O33: the verdicts are entered, and what a publication does afterwards leaves them. -/
theorem verdictPublished : Obligations.VerdictPublished := by
  refine ⟨fun s at_ hup hout => ?_, fun s o h => ?_, fun s o h => State.storeVerdict_of_not_moored h,
    fun s m t hmem hle => whenDo_next ?_ rfl, fun s pin h => ?_, fun s pin h hm hp => ?_⟩
  · have hkept := State.publish_keeps hout
    obtain ⟨hnow, htide⟩ := State.storeVerdicts_frame s.ver.out (s.countAges (·.fu.ageDue))
    have hpend : s.ver.out ≠ [] → s.publish.intc.pending.getLsbD 7 = true := fun h =>
      hkept.source (State.entered_source at_ h)
    have hver : s.publish.ver = _ := hkept.ver.trans (State.latchIf_ver _ _ _)
    refine ⟨s.publish, State.whenDo_of s _ (by simp [hup, hout]), ?_, ?_, ?_, ?_, ?_, ?_, hpend, ?_⟩
    · exact hkept.now.trans ((State.latchIf_now _ _ _).trans hnow)
    · exact congrArg Tide.number (hkept.tide.trans ((State.latchIf_tide _ _ _).trans htide))
    · rw [hver]; rfl
    · rw [hver]; rfl
    · rw [hver]
      exact congrArg (fun n => clampNat 10 (roundDiv (n - at_) 64)) hnow
    · intro o before after hsplit hlast hm
      have hm' : ((s.countAges (·.fu.ageDue)).berth o.berth).id.st.moored? = true := by rwa [State.id_countAges]
      have hshown : o.ShownAt s.tide.number ((s.entered at_).berth o.berth) := by
        rw [State.entered_berth, State.stored, hsplit]
        exact State.shownAt_storeVerdicts hlast hm'
      obtain ⟨hst, hzone, hconf, hrelay, hrange, haz, hage, hvtide⟩ := hshown.kept hkept
      exact ⟨hst, hzone, hconf, hrelay, hrange, haz, hage, hvtide, hpend (by simp [hsplit])⟩
    · intro n hn
      have hstored : (s.entered at_).berth n = (s.countAges (·.fu.ageDue)).berth n := by
        rw [State.entered_berth]
        exact State.berth_storeVerdicts_other (by rwa [State.id_countAges])
      obtain ⟨hid, m, f, hfu⟩ := hkept.berth n
      rw [hid, hfu, hstored, State.berth_countAges]
      dsimp only
      split <;> simp
  · obtain ⟨hst, hzone, hconf, hrelay, hrange, haz, hage, hvtide⟩ := o.shownAt_store s.now s.tide.number (s.berth o.berth)
    dsimp only
    rw [State.berth_storeVerdict_same h]
    exact ⟨hst, hzone, hconf, hrelay, hrange, haz, hage, hvtide, rfl,
      fun m hm => State.berth_storeVerdict_other (.inl (Ne.symm hm)), s.storeVerdict_eq o⟩
  · exact List.any_eq_true.mpr ⟨(m, t), hmem, by simp [hle]⟩
  · simp [State.latchPulse, h]
  · simp [State.latchPulse, h, hm, hp]

end Sys2Proof.Machine
end

section
/-! SUPPORT. Override tickets: VERIFY and its end, the FIRE commands, CANCEL, NEW_NONCE and the window (R344 to R350). -/

namespace Sys2Proof.Machine

/-- Between 1 and 16 uses, whatever the ticket says (R344). -/
theorem uses_bounds (n : Nat) :
    1 ≤ (BitVec.ofNat 5 (max 1 (min 16 n))).toNat ∧ (BitVec.ofNat 5 (max 1 (min 16 n))).toNat ≤ 16 := by
  rw [BitVec.toNat_ofNat]
  omega

/-- The ticket `b` is ACTIVE after its checks have passed (R346, R349). -/
def State.ovrActive (s : State) (b : Bytes) : State :=
  ((s.kecDone .ticket).upCry fun c => { c with verPass := satInc c.verPass }).upVer fun v => { v with
    ovrState := .active, ovrResult := 1#4, ovrSerial := BitVec.ofNat 32 (leAt b 0x18 4)
    ovrTicket := BitVec.ofNat 32 (leAt b 0x18 4)
    ovrUses := BitVec.ofNat 5 (max 1 (min 16 (byteAt b 0x2A)))
    ovrEnd := s.baseAt s.now + sec (max 10 (min 3600 (leAt b 0x28 2)))
    ovrGrant := BitVec.ofNat 8 (byteAt b 7), ovrRules := ticketRules b }

theorem State.ovrDone_of_pass {s : State} (h : s.ovrCheck (Mem.load s.ver.ovrBuf 0 0xC00) = 1) :
    s.ovrDone = (s.ovrActive (Mem.load s.ver.ovrBuf 0 0xC00)).logRecord 0x04
      (le 4 (BitVec.ofNat 32 (leAt (Mem.load s.ver.ovrBuf 0 0xC00) 0x18 4)).toNat ++ [1#8, 0#8]) := by
  unfold State.ovrDone
  generalize Mem.load s.ver.ovrBuf 0 0xC00 = b at h ⊢
  exact if_pos h

/-- A failed check counts a bad signature and returns to the state before VERIFY (R346). -/
theorem State.ovrDone_of_fail {s : State} (h : s.ovrCheck (Mem.load s.ver.ovrBuf 0 0xC00) ≠ 1) :
    s.ovrDone.ver = { s.ver with
      ovrState := s.ver.ovrPrev, ovrResult := BitVec.ofNat 4 (s.ovrCheck (Mem.load s.ver.ovrBuf 0 0xC00)) } ∧
    s.ovrDone = { s with
      ver := s.ovrDone.ver, cry := { s.cry with verFail := s.ovrDone.cry.verFail, kjobs := s.ovrDone.cry.kjobs } } := by
  unfold State.ovrDone
  generalize Mem.load s.ver.ovrBuf 0 0xC00 = b at h ⊢
  dsimp only
  rw [if_neg h]
  split <;> exact ⟨rfl, rfl⟩

/-- Settles O34: VERIFY by the state it meets; its end by the result of the checks. -/
theorem overrideVerify : Obligations.OverrideVerify := by
  refine ⟨fun s h hrole hst => next_berthWrite h hrole (if_neg hst), fun s h hrole hst => next_berthWrite h hrole (if_pos hst),
    fun s hup hst hcan => ⟨s.ovrDone, State.whenDo_of s _ (by simp [hst, hup, hcan]), ?_⟩⟩
  by_cases hr : s.ovrCheck (Mem.load s.ver.ovrBuf 0 0xC00) = 1
  · rw [if_pos hr, State.ovrDone_of_pass hr]
    generalize Mem.load s.ver.ovrBuf 0 0xC00 = b
    obtain ⟨hlow, hhigh⟩ := uses_bounds (byteAt b 0x2A)
    refine ⟨?_, ?_, ?_, ?_, ?_, ?_, ?_⟩
    · simp [State.ovrActive]
    · simp [State.ovrActive]
    · simp [State.ovrActive]
    · simpa [State.ovrActive] using hlow
    · simpa [State.ovrActive] using hhigh
    · simp [State.ovrActive, State.kecDone]
    · rw [State.logRecord_eq]
      simp [State.ovrActive, State.kecDone, State.upCry, State.upVer]
  · rw [if_neg hr]
    exact State.ovrDone_of_fail hr

/-! The FIRE commands. -/

theorem State.ovrFire_of_idle {s : State} (eff : State → State) (h : s.ver.ovrState = .idle) :
    s.ovrFire eff = s.ovrResult 10 := by
  simp [State.ovrFire, h]

theorem State.ovrFire_of_active {s : State} (eff : State → State) (h : s.ver.ovrState = .active) : s.ovrFire eff = eff s := by
  simp [State.ovrFire, h]

/-- FIRE_RULE of an ACTIVE ticket: the rule it names, where the ticket grants it (R346). -/
theorem State.fireRule_of_active {s : State} (r : BitVec 8) (h : s.ver.ovrState = .active) :
    s.fireRule r = match s.cfg.rules.find? fun q => q.id == r && s.ver.ovrGrant.getLsbD 0 && s.ver.ovrRules.contains r with
      | none => s.ovrResult 11
      | some x => ((s.act x).latch 8).ovrUse 2 r := State.ovrFire_of_active _ h

theorem State.fireRule_of_granted {s : State} {r : BitVec 8} {x : Rule} (h : s.ver.ovrState = .active)
    (hgrant : s.ver.ovrGrant.getLsbD 0 = true) (hmem : r ∈ s.ver.ovrRules)
    (hx : s.cfg.rules.find? (fun q => q.id == r) = some x) :
    s.fireRule r = ((s.act x).latch 8).ovrUse 2 r := by
  have hlists : s.ver.ovrRules.contains r = true := List.contains_iff_mem.mpr hmem
  rw [State.fireRule_of_active r h]
  simp only [hgrant, hlists, Bool.and_true, hx]

theorem State.fireRule_of_not_granted {s : State} {r : BitVec 8} (h : s.ver.ovrState = .active)
    (hno : s.ver.ovrGrant.getLsbD 0 = false ∨ r ∉ s.ver.ovrRules) : s.fireRule r = s.ovrResult 11 := by
  have hnone : s.cfg.rules.find? (fun q => q.id == r && s.ver.ovrGrant.getLsbD 0 && s.ver.ovrRules.contains r) = none := by
    refine List.find?_eq_none.mpr fun q _ => ?_
    rcases hno with hgrant | hmem
    · simp only [hgrant, Bool.and_false, Bool.false_and, Bool.false_eq_true, not_false_eq_true]
    · simp [hmem]
  rw [State.fireRule_of_active r h, hnone]

theorem State.fireStart_of_granted {s : State} (h : s.ver.ovrState = .active) (hgrant : s.ver.ovrGrant.getLsbD 1 = true)
    (hload : s.cfg.loaded = true) (hbusy : s.startBusy = false) (hrel : s.lk.state.released? = false) :
    s.fireStart = (s.issueTicket true 0xFF#8 0#64).ovrUse 3 0#8 := by
  rw [State.fireStart, State.ovrFire_of_active _ h]
  simp [hgrant, hload, hbusy, hrel]

/-- What a job at the AES engine leaves alone: all but the engine, the key store, the controller and the STS of the
prepared rounds (R491, R494). -/
def JobFrame (s t : State) : Prop := t = { s with cry := t.cry, keys := t.keys, intc := t.intc, uwb := t.uwb }

theorem JobFrame.refl (s : State) : JobFrame s s := rfl

theorem JobFrame.trans {s t u : State} (h : JobFrame s t) (k : JobFrame t u) : JobFrame s u := by
  unfold JobFrame at h k ⊢
  rw [k, h]

theorem jobFrame_jobAborted (s : State) (j : AesJob) : JobFrame s (s.jobAborted j) := by
  unfold State.jobAborted
  split
  · split <;> rfl
  · rfl

theorem jobFrame_startJobs (fuel : Nat) (s : State) : JobFrame s (s.startJobs fuel) := by
  induction fuel generalizing s with
  | zero => rfl
  | succ fuel ih =>
    unfold State.startJobs
    split
    · rfl
    · split
      · rfl
      · split
        · rfl
        · exact .trans (.trans (t := (s.upCry _).violation _) rfl (jobFrame_jobAborted _ _)) (ih _)

theorem jobFrame_yieldHead (s : State) : JobFrame s s.yieldHead := by
  unfold State.yieldHead
  split
  · rfl
  · dsimp only
    split
    · exact .trans (t := s.upCry _) rfl (jobFrame_startJobs _ _)
    · rfl

/-- A job that reaches the AES engine. -/
theorem jobFrame_addJob (s : State) (j : AesJob) : JobFrame s (s.addJob j) :=
  .trans (.trans (t := s.upCry _) rfl (jobFrame_startJobs _ _)) (jobFrame_yieldHead _)

/-- A draw changes the generator and queues its blocks' job (R491, R520). -/
theorem State.draw_eq (s : State) (n : Nat) : (s.draw n).2 = { s with
    cry := (s.draw n).2.cry, keys := (s.draw n).2.keys, intc := (s.draw n).2.intc, uwb := (s.draw n).2.uwb
    trng := (s.draw n).2.trng } := by
  have hjob : JobFrame s (s.drbgJob ((n + 15) / 16 + 3)) := jobFrame_addJob s _
  unfold JobFrame at hjob
  unfold State.draw
  dsimp only
  generalize s.drbgJob ((n + 15) / 16 + 3) = u at hjob ⊢
  rw [hjob]
  rfl

/-- A generator that delivers answers NEW_NONCE at once (R346, R522). -/
theorem State.request_ovrNonce {s : State} (hserves : s.trng.serves = true) (hheld : s.trng.held = []) :
    s.request .ovrNonce = (s.draw 8).2.upVer fun v =>
      { v with ovrNonce := BitVec.ofNat 64 (leAt (s.draw 8).1 0 8), ovrNonceAt := s.baseAt s.now } := by
  have hnow : (s.draw 8).2.baseAt (s.draw 8).2.now = s.baseAt s.now := by
    rw [State.draw_eq]
    rfl
  have hrequest : s.request .ovrNonce = s.deliver .ovrNonce := by simp [State.request, hserves, hheld]
  rw [hrequest, ← hnow]
  rfl

/-- Settles O35: each command by the state of the ticket and what it grants. -/
theorem overrideFire : Obligations.OverrideFire := by
  refine ⟨fun s r h hrole hst => ⟨next_berthWrite h hrole (State.ovrFire_of_idle _ hst), next_berthWrite h hrole (State.ovrFire_of_idle _ hst)⟩,
    fun s r x h hrole hst hgrant hmem hx => next_berthWrite h hrole (State.fireRule_of_granted hst hgrant hmem hx),
    fun s r h hrole hst hno => next_berthWrite h hrole (State.fireRule_of_not_granted hst hno),
    fun s h hrole hst hgrant hload hbusy hrel =>
      next_berthWrite h hrole (State.fireStart_of_granted hst hgrant hload hbusy hrel),
    fun s h hrole hst => next_berthWrite h hrole ?_, fun s hst hend => whenDo_next ?_ ?_,
    fun s h hrole hserves hheld => next_berthWrite h hrole (State.request_ovrNonce (s := s.reached 0x14100) hserves hheld)⟩
  · refine (if_pos hst).trans ?_
    simp [State.ovrDiscard, hst, State.upVer, ovrCtrlAddr]
  · simp [hst, hend]
  · simp [State.ovrDiscard, State.ovrResult, hst, State.upVer]

end Sys2Proof.Machine
end

section
/-! SUPPORT. The lock keeper: tickets, the handshake, its timers and its supply (R400 to R443). -/

namespace Sys2Proof.Machine

/-! Sources and records of the lock keeper. -/

/-- A source of the lock keeper changes the controller alone (R443). -/
theorem State.lkLatch_eq (s : State) (n : Nat) : s.lkLatch n = { s with intc := (s.lkLatch n).intc } := by
  unfold State.lkLatch State.latchIf
  split <;> rfl

/-- The controller and the lock keeper are apart. -/
theorem State.upLk_lkLatch (s : State) (n : Nat) (f : LockKeeper → LockKeeper) : (s.lkLatch n).upLk f = (s.upLk f).lkLatch n := by
  cases hmain : s.port.main != .reset with
  | true => simp [State.lkLatch, hmain, State.latchIf, State.latch, State.upLk, State.upIntc]
  | false => simp [State.lkLatch, hmain, State.latchIf, State.upLk]

theorem State.latchIf_eq (s : State) (b : Bool) (n : Nat) : s.latchIf b n = { s with intc := (s.latchIf b n).intc } := by
  unfold State.latchIf
  split <;> rfl

/-- A record of the lock keeper changes the logbook, and the controller where it fills it (R443). -/
theorem State.lkLog_eq (s : State) (k : Nat) (d : Bytes) :
    s.lkLog k d = { s with log := (s.lkLog k d).log, intc := (s.lkLog k d).intc } := by
  unfold State.lkLog
  split
  · rfl
  · exact State.logRecord_eq s k d

theorem State.lkLog_head (s : State) (k : Nat) (d : Bytes) :
    (s.lkLog k d).log.head = if s.port.main = .reset then s.log.head else s.log.head + 1#32 := by
  unfold State.lkLog
  split
  · rfl
  · exact State.logRecord_head s k d

/-! Tickets. -/

theorem exec_ticketDelivery {s : State} {k : Ticket} (halive : s.lk.alive = true) (hq : s.lk.queue = some k) :
    exec .ticketDelivery s = .next (s.ticketIn k) := by
  change execTicketDelivery s = _
  rw [execTicketDelivery, hq]
  exact whenDo_next halive rfl

/-- The frame of a REQUEST for ticket `t` (R418, R419). -/
def LockKeeper.requestFrame (k : LockKeeper) (t : Ticket) : Bytes :=
  le 4 k.record.lock.idRequest.toNat ++ padTo 8 [1#8, k.reqNext, k.record.epoch, if t.override then 1#8 else 0#8]

/-- A REQUEST takes the next REQ_CTR, waits at controller 7 and starts the request timer (R418, R419, R430). -/
theorem State.sendRequest_eq (s : State) (t : Ticket) : s.sendRequest t = s.upLk fun k => { k with
    tx := (k.requestFrame t :: k.tx).take 16, waiting := k.waiting ++ [k.requestFrame t]
    reqCtr := k.reqNext, reqNext := k.reqNext + 1#8, timerFrom := k.shadow, state := .requested } := rfl

theorem State.ticketIn_of_locked {s : State} {k : Ticket} (hst : s.lk.state = .locked) (hbus : s.lk.busOff = false)
    (hwin : s.lk.windowOpen k = true) :
    s.ticketIn k = ((s.upLk fun x => { x with queue := none, ticket := some k }).sendRequest k).lkLatch 56 :=
  if_pos ⟨hst, by simpa using hbus, hwin⟩

/-- A ticket that is refused is counted and logged, and its start request ends (R427). -/
theorem State.ticketIn_of_not_locked {s : State} {k : Ticket} (hst : s.lk.state ≠ .locked) (hmain : s.port.main ≠ .reset) :
    s.ticketIn k = (((((s.upBt fun b => { b with result := 4#3, reason := 4#4 }).upLk fun x =>
      { x with queue := none, refused := x.refused + 1#16 }).lkLatch 56).lkLog 0x03 ([k.berth] ++ le 8 k.cred.toNat ++ [4#8])
      ).latchIf (s.port.main != .reset && !k.override) 10) := by
  have hlocked : ¬ (s.lk.state = .locked ∧ ¬ s.lk.busOff ∧ s.lk.windowOpen k) := fun h => hst h.1
  refine (if_neg hlocked).trans ?_
  simp [hmain, State.upBt, State.upLk, State.lkLatch]

/-- Settles O37: acceptance and refusal of the ticket, the end of its window, and the request timer. -/
theorem ticketHandling : Obligations.TicketHandling := by
  refine ⟨fun s k halive hq hst hbus hwin => ⟨_, exec_ticketDelivery halive hq, ?_⟩,
    fun s k halive hq hst hmain => ⟨_, exec_ticketDelivery halive hq, ?_⟩,
    fun s k hk hst hend => ?_, fun s k hk hst htimer hwin => ?_⟩
  · rw [State.ticketIn_of_locked hst hbus hwin, State.lkLatch_eq, State.sendRequest_eq]
    simp [State.upLk, LockKeeper.shown, LockKeeper.requestFrame]
  · rw [State.ticketIn_of_not_locked hst hmain, State.latchIf_eq, State.lkLog_eq, State.lkLatch_eq]
    simp [State.lkLog_head, hmain, State.upLk, State.upBt]
  · change execTicketWindowEnd s = _
    rw [execTicketWindowEnd, hk]
    refine whenDo_next ?_ rfl
    simpa [LkState.asking, hend] using hst
  · have hex : exec .requestTimerExpiry s = .next ((s.upLk fun x => { x with resends := x.resends + 1#16 }).sendRequest k) := by
      change execRequestTimerExpiry s = _
      rw [execRequestTimerExpiry, hk]
      refine whenDo_next ?_ ?_
      · simp [LkState.asking, hst, htimer, hwin]
      · simp [State.upLk, hst]
    rw [State.sendRequest_eq] at hex
    refine ⟨_, hex, ?_⟩
    simp [State.upLk, hk]

/-! The handshake. -/

/-- The frame of an ANSWER with RESULT `r` (R418). -/
def LockKeeper.answerFrame (k : LockKeeper) (r : Nat) (ctr : BitVec 8) (mac : Bytes) : Bytes :=
  le 4 k.record.lock.idAnswer.toNat ++ padTo 8 ([BitVec.ofNat 8 r, ctr] ++ padTo 6 mac)

theorem State.sendAnswer_eq (s : State) (r : Nat) (ctr : BitVec 8) (mac : Bytes) :
    s.sendAnswer r ctr mac = s.upLk fun k => { k with
      tx := (k.answerFrame r ctr mac :: k.tx).take 16, waiting := k.waiting ++ [k.answerFrame r ctr mac] } := rfl

/-- The answer under an epoch whose key is held (R420). -/
theorem State.answer_of_key {s : State} {ep : BitVec 8} {key : Bytes} (ctr : BitVec 8) (nonce : BitVec 48)
    (h : s.lk.keyOf ep = some key) :
    s.answer ctr ep nonce = (s.sendAnswer 0 ctr ((cmac key
      (le 6 nonce.toNat ++ [ctr, ep] ++ le 8 s.ident.device.toNat)).take 6)).upLk fun k => { k with epochUnknown := false } := by
  simp [State.answer, h]

theorem exec_lkStatus {s : State} {e v : BitVec 2} {ep sq : BitVec 8} {mac : BitVec 32} (halive : s.lk.alive = true)
    (howns : s.lk.ownsCan = true) : exec (.lkStatus e v ep sq mac) s = .next (s.status e v ep sq mac) :=
  whenDo_next (by simp [halive, howns]) rfl

/-- A valid STATUS is taken and acts (R422, R424). -/
theorem State.status_of_valid {s : State} {e v : BitVec 2} {ep sq : BitVec 8} {mac : BitVec 32}
    (h : s.statusValid e v ep sq mac = true) :
    s.status e v ep sq mac = (s.upLk fun k => { k with
      engine := e, seq := sq, seqSeen := true, statusFrom := k.shadow, ecuSilent := false }).statusAct e v ep := if_pos h

/-- The lock keeper's report to the tide unit changes the tide and the controller (R438). -/
theorem State.reportRunning_eq (s : State) : s.reportRunning = { s with
    tide := { s.tide with engineRunning := true, ignitionOff := false }, intc := s.reportRunning.intc } := by
  conv_lhs => rw [State.reportRunning, State.lkLatch_eq]
  rfl

/-- The log record of a release changes the logbook and the controller (R713). -/
theorem State.logRelease_eq (s : State) :
    s.logRelease = { s with log := s.logRelease.log, intc := s.logRelease.intc } := State.lkLog_eq s _ _

theorem State.logRelease_head (s : State) :
    s.logRelease.log.head = if s.port.main = .reset then s.log.head else s.log.head + 1#32 := State.lkLog_head s _ _

/-- The lock keeper that begins a release (R413, R428, R430, R433). -/
def LockKeeper.begun (k : LockKeeper) (e : BitVec 2) (ep : BitVec 8) : LockKeeper :=
  let drop (r : LkRecord) := if ep = r.epoch then { r with prevKey := [], prevEpoch := 0#8 } else r
  { k with
    ticket := none, viewTicket := k.shown, accepted := k.accepted + 1#16, toggling := true
    crankFrom := k.shadow, releaseAt := BitVec.ofNat 48 k.shadow, tamperSeen := false
    record := drop k.record, mram := drop k.mram
    state := if e = 3#2 then .running else .released }

/-- The release, with its sources and its record (R443, R713). -/
def State.releaseLogged (s : State) (e : BitVec 2) (ep : BitVec 8) : State :=
  (((s.upLk fun k => k.begun e ep).lkLatch 56).lkLatch 57).logRelease

theorem State.release_eq (s : State) (e : BitVec 2) (ep : BitVec 8) :
    s.release e ep = if e = 3#2 then (s.releaseLogged e ep).reportRunning else s.releaseLogged e ep := rfl

theorem State.releaseLogged_eq (s : State) (e : BitVec 2) (ep : BitVec 8) : s.releaseLogged e ep = { s with
    lk := s.lk.begun e ep, log := (s.releaseLogged e ep).log, intc := (s.releaseLogged e ep).intc } := by
  refine (State.logRelease_eq _).trans ?_
  simp [State.releaseLogged, State.lkLatch]

theorem State.releaseLogged_head (s : State) (e : BitVec 2) (ep : BitVec 8) :
    (s.releaseLogged e ep).log.head = if s.port.main = .reset then s.log.head else s.log.head + 1#32 := by
  rw [State.releaseLogged, State.logRelease_head, State.lkLatch_eq, State.lkLatch_eq]
  rfl

/-- What a release that begins changes: the lock keeper, the logbook, the controller, and the tide where the engine runs
(R438). -/
theorem State.release_frame (s : State) (e : BitVec 2) (ep : BitVec 8) : s.release e ep = { s with
    lk := s.lk.begun e ep, log := (s.releaseLogged e ep).log, intc := (s.release e ep).intc
    tide := if e = 3#2 then { s.tide with engineRunning := true, ignitionOff := false } else s.tide } := by
  by_cases he : e = 3#2
  · rw [State.release_eq, if_pos he, if_pos he]
    refine (State.reportRunning_eq _).trans ?_
    rw [State.releaseLogged_eq]
  · rw [State.release_eq, if_neg he, if_neg he]
    exact s.releaseLogged_eq e ep

/-- A REJECT of the handshake under way is counted, and the ticket goes (R430, R441, R444). -/
theorem State.statusAct_of_reject {s : State} {e : BitVec 2} (ep : BitVec 8) (h : s.lk.state = .answered) :
    s.statusAct e 2#2 ep = (((s.upLk fun k => { k with rejects := k.rejects + 1#16 }).lkLatch 59).dropTicket).lkLatch 56 := by
  unfold State.statusAct
  rw [if_pos rfl]
  simp [h]

/-- Settles O38: a CHALLENGE by the state it meets, a STATUS by its validity and verdict. -/
theorem handshake : Obligations.Handshake := by
  refine ⟨fun s ctr ep nonce us_ key halive howns hst hctr hkey => whenDo_next (by simp [halive, howns]) ?_,
    fun s ctr ep nonce us_ halive howns hst => whenDo_next (by simp [halive, howns]) ?_,
    fun s e ep sq mac k halive howns hst hk hv => ?_, fun s e ep sq mac halive howns hst hv => ?_,
    fun s e v ep sq mac halive howns hv => (exec_lkStatus halive howns).trans (congrArg Host.Outcome.next (if_neg (by simp [hv])))⟩
  · have hkey' : (s.upLk fun k => { k with nonce := nonce }).lk.keyOf ep = some key := hkey
    simp only [State.challenge, State.upLk_lk, hst, hctr, if_true, State.answer_of_key (s := s.upLk fun k => { k with nonce := nonce }) _ _ hkey']
    rw [State.sendAnswer_eq]
    simp [State.upLk, LockKeeper.answerFrame, padTo]
  · simp only [State.challenge, State.upLk_lk, hst]
    rw [State.sendAnswer_eq]
    simp [State.upLk, LockKeeper.answerFrame]
  · let t := s.upLk fun k => { k with engine := e, seq := sq, seqSeen := true, statusFrom := k.shadow, ecuSilent := false }
    have hact : t.statusAct e 1#2 ep = t.release e ep := by simp [t, State.statusAct, hst]
    have hshown : t.lk.shown = k := by simp [t, LockKeeper.shown, hk]
    have hhead := t.releaseLogged_head e ep
    refine ⟨_, (exec_lkStatus halive howns).trans (congrArg Host.Outcome.next ((State.status_of_valid hv).trans hact)), ?_⟩
    rw [State.release_frame]
    exact ⟨rfl, rfl, rfl, hshown, rfl, rfl, hhead, rfl, rfl⟩
  · refine (exec_lkStatus halive howns).trans (congrArg Host.Outcome.next ((State.status_of_valid hv).trans ?_))
    refine (State.statusAct_of_reject ep (by exact hst)).trans ?_
    rw [State.dropTicket, State.upLk_lkLatch]
    rfl

/-! The timers and the pins. -/

/-- A release that ends: static pins, LOCKED, and a record unless the main domain is in reset (R430, R436, R443). -/
theorem State.endRelease_eq (s : State) : s.endRelease = { s with
    lk := { s.lk with toggling := false, state := .locked }, log := s.endRelease.log, intc := s.endRelease.intc } := by
  refine (State.logRelease_eq _).trans ?_
  simp [State.endRelease, State.lkLatch]

theorem State.endRelease_head (s : State) :
    s.endRelease.log.head = if s.port.main = .reset then s.log.head else s.log.head + 1#32 := by
  rw [State.endRelease, State.logRelease_head, State.lkLatch_eq]
  rfl

/-- Settles O39: each timer in turn; the readings by how many have disagreed; the bus-off. -/
theorem lockTimers : Obligations.LockTimers := by
  refine ⟨fun s hst hend => ⟨s.endRelease, State.whenDo_of s _ (by simp [hst, hend]), ?_, s.endRelease_head, ?_⟩,
    fun s halive hquiet hlate => whenDo_next (by simp [halive, hquiet, hlate]) rfl,
    fun s halive hfault hbad => whenDo_next halive ?_, fun s halive hfault hbad => whenDo_next halive ?_,
    fun s halive howns hoff => whenDo_next ?_ ?_, fun s => ?_⟩
  · rw [State.endRelease_eq]
  · rw [State.endRelease_eq]
  · have hfew : ¬ 3 ≤ s.lk.stenBad + 1 := by omega
    simp [State.readback, hfault, hfew, State.upLk]
  · simp [State.readback, hfault, hbad, State.upLk]
  · simp [halive, LockKeeper.ownsCan, howns, hoff]
  · have herr : ∀ r, errState 256 r = 3#2 := fun r => if_pos (Nat.le_refl 256)
    simp [State.lkErrors, hoff, herr]
  · unfold State.lkLatch State.latchIf
    by_cases h : s.port.main = .reset
    · simp [h]
    · simp [h, State.latch]

/-! The supply of the island. -/

/-- A PAIR that waits ends with RESULT 14 (R466). -/
theorem State.pairDone_eq (s : State) (r : BitVec 5) : s.pairDone r = { s with
    lk := { s.lk with pairing := false, pairLeft := 0 }
    keys := if s.keys.pairing then { s.keys with busy := false, pairing := false, result := r } else s.keys
    intc := if s.keys.pairing then s.intc.event 44 else s.intc } := by
  cases hp : s.keys.pairing with
  | true => simp [State.pairDone, hp, State.latch, State.upKeys, State.upLk, State.upIntc]
  | false => simp [State.pairDone, hp, State.upLk]

/-- The island's lock keeper after a power-up, before its sequence (R407, R442). -/
def State.islandWoken (s : State) : LockKeeper := { LockKeeper.reset with
  alive := true, mram := s.lk.mram, record := s.lk.record, paired := s.lk.paired, recPending := s.lk.record != s.lk.mram
  shadow := s.baseAt s.now, statusFrom := s.baseAt s.now, upFrom := s.lk.upFrom }

theorem LkRecord.stateOf_not_released (r : LkRecord) : r.stateOf.1.released? = false := by
  unfold LkRecord.stateOf
  repeat' split
  all_goals rfl

/-- With the tests passed the record is adopted, and controller 7 configured where it is the lock keeper's (R407, R414). -/
theorem State.islandSequence_true (s : State) : s.islandSequence true = { s with
    lk := s.lk.adopt
    can := if s.lk.adopt.ownsCan then (s.modCtl 7 fun c =>
      { c with owner := 2#8, state := 1#2, tecN := 0, recN := 0, protoExc := false }).can else s.can } := by
  cases h : s.lk.adopt.ownsCan with
  | true => simp [State.islandSequence, State.islandCan, h, State.modCtl, State.upLk, State.upCan]
  | false => simp [State.islandSequence, State.islandCan, h, State.upLk]

theorem State.islandUp_true (s : State) : s.islandUp true = { s with
    lk := s.islandWoken.adopt
    can := if s.lk.mram.can.owner = 2#8 then (s.modCtl 7 fun c =>
      { c with owner := 2#8, state := 1#2, tecN := 0, recN := 0, protoExc := false }).can else s.can } := by
  have howns : s.islandWoken.adopt.ownsCan = (s.lk.mram.can.owner == 2#8) := rfl
  refine (State.islandSequence_true _).trans ?_
  change { s with lk := s.islandWoken.adopt, can := if s.islandWoken.adopt.ownsCan = true then _ else _ } = _
  rw [howns]
  by_cases h : s.lk.mram.can.owner = 2#8
  · rw [if_pos (by simpa using h), if_pos h]
    rfl
  · rw [if_neg (by simpa using h), if_neg h]
    rfl

/-- The pins of an island that is up are static while no release is held (R434). -/
theorem State.sten_of_static {s : State} (halive : s.lk.alive = true) (htog : s.lk.toggling = false) :
    s.sten = some (false, true) := by
  simp [State.sten, State.stenHiZ, halive, htog]

/-- Settles O40: the trip, the power-up by its tests, and the retry. -/
theorem islandSupply : Obligations.IslandSupply := by
  refine ⟨fun s => ⟨s.islandTrip.deepHoldup, rfl, ?_⟩,
    fun s hdead => ⟨s.islandUp true, State.whenDo_of s _ (by simp [hdead]), ?_⟩,
    fun s hdead => ⟨s.islandUp false, State.whenDo_of s _ (by simp [hdead]), ?_⟩,
    fun s halive hst hcause hlate => ⟨s.islandSequence true, State.whenDo_of s _ (by simp [halive, hst, hcause, hlate]), ?_⟩⟩
  · rw [State.islandTrip, State.pairDone_eq]
    exact ⟨rfl, rfl, rfl, rfl, rfl, rfl, rfl, rfl, rfl, rfl, rfl⟩
  · rw [State.islandUp_true]
    exact ⟨rfl, rfl, rfl, rfl, rfl, LkRecord.stateOf_not_released _, State.sten_of_static rfl rfl, rfl, rfl⟩
  · exact ⟨rfl, rfl, rfl, State.sten_of_static rfl rfl, rfl⟩
  · rw [State.islandSequence_true]
    exact ⟨rfl, rfl, rfl⟩

end Sys2Proof.Machine
end

section
/-! SUPPORT. The low-frequency field block: frames, answer windows, touches, patterns, and its drivers (R160 to R199). -/

namespace Sys2Proof.Machine

/-! Messages at the links leave their states. -/

/-- What a message that is queued or sent leaves alone: all but the links, and each link's state (R611, R616). -/
structure PierSends (s t : State) : Prop where
  frame : t = { s with pier := { s.pier with links := t.pier.links } }
  st : ∀ n, (t.link n).st = (s.link n).st

theorem PierSends.refl (s : State) : PierSends s s := ⟨rfl, fun _ => rfl⟩

theorem PierSends.trans {s t u : State} (h : PierSends s t) (k : PierSends t u) : PierSends s u := by
  refine ⟨?_, fun n => (k.st n).trans (h.st n)⟩
  rw [k.frame, h.frame]

theorem State.link_modPier_same {s : State} {n : Nat} (f : Pier → Pier) (h : n < s.pier.links.length) :
    (s.modPier n f).link n = f (s.link n) := by
  simp [State.link, State.modPier, h]

theorem State.link_modPier_ne {s : State} {m n : Nat} (f : Pier → Pier) (h : m ≠ n) : (s.modPier n f).link m = s.link m := by
  simp [State.link, State.modPier, h.symm]

/-- A change of a link that leaves its state. -/
theorem pierSends_modPier (s : State) (n : Nat) {f : Pier → Pier} (hf : ∀ l, (f l).st = l.st) : PierSends s (s.modPier n f) := by
  refine ⟨rfl, fun m => ?_⟩
  by_cases hm : m = n
  · subst hm
    by_cases hlt : m < s.pier.links.length
    · rw [State.link_modPier_same f hlt, hf]
    · simp [State.link, State.modPier, hlt]
  · rw [State.link_modPier_ne f hm]

/-- Blocks that go out leave the link's state. -/
theorem Pier.pump_st (t fuel : Nat) (l : Pier) : (l.pump t fuel).st = l.st := by
  induction fuel generalizing l with
  | zero => rfl
  | succ fuel ih =>
    unfold Pier.pump
    dsimp only
    split
    · rfl
    · split
      · rfl
      · exact ih _

theorem pierSends_pierSend (s : State) (n : Nat) (m : PierMsg) : PierSends s (s.pierSend n m) := by
  refine pierSends_modPier s n fun l => ?_
  dsimp only
  split
  · exact Pier.pump_st _ _ _
  · rfl

theorem pierSends_postSchedule (s : State) (n : Nat) (work : List (Nat × Bytes)) : PierSends s (s.postSchedule n work) := by
  unfold State.postSchedule
  split
  · exact .refl s
  · exact pierSends_pierSend s n _

theorem pierSends_foldl {f : State → Nat → State} (h : ∀ s n, PierSends s (f s n)) (l : List Nat) (s : State) :
    PierSends s (l.foldl f s) := by
  induction l generalizing s with
  | nil => exact .refl s
  | cons n l ih => exact (h s n).trans (ih _)

theorem pierSends_cutTenders (s : State) (m : BitVec 16) : PierSends s (s.cutTenders m) := by
  unfold State.cutTenders
  split
  · exact pierSends_foldl (fun _ _ => pierSends_postSchedule _ _ _) _ _
  · exact .refl s

/-! Frames. -/

/-- A frame that is due and valid goes on the air (R196). -/
theorem State.lfStart_of_valid {s : State} {w : LfWork} (hvlf : s.lf.vlfLow = false) (hw : s.lfValid w = true) :
    s.lfStart w = (s.lfTake w).lfSend w := by
  have hlow : (s.lfTake w).lf.vlfLow = false := hvlf
  have hvalid : (s.lfTake w).lfValid w = true := hw
  simp [State.lfStart, hlow, hvalid]

/-- What a frame says that starts now: a poll of this device says what is due now (R181, R203). -/
def State.frameData (s : State) (w : LfWork) : Bytes :=
  if w.kind = .poll ∧ s.cfg.role ≠ .tender then s.pollData w.berth s.now else w.data

/-- The state in which a frame starts: a poll counts as sent, and the wake before it opens an answer window (R195, R203). -/
def State.frameBefore (s : State) (w : LfWork) : State :=
  let own : Bool := w.kind == .poll && s.cfg.role != .tender
  let t := if own then s.pollSent w.berth else s
  if own && byteAt (s.frameData w) 1 == 1 then t.openWindow (ofBits 16 (s.cappedMask w.mask)) (s.now + us 3250) else t

theorem State.lfSend_eq (s : State) (w : LfWork) : s.lfSend w = (s.frameBefore w).upLf fun l => { l with
    busy := true, frame := s.frameOf (s.cappedMask w.mask) (s.frameData w), touchCut := false
    onAir := some { w with
      mask := ofBits 16 (s.cappedMask w.mask)
      notBefore := s.now + slotTicks (s.frameOf (s.cappedMask w.mask) (s.frameData w)), data := s.frameData w } } := by
  unfold State.lfSend State.frameBefore State.frameData
  by_cases h : w.kind = .poll ∧ s.cfg.role ≠ .tender
  · have hown : (w.kind == .poll && s.cfg.role != .tender) = true := by simpa using h
    simp only [if_pos h, hown, if_true, Bool.true_and]
    split <;> rfl
  · have hown : (w.kind == .poll && s.cfg.role != .tender) = false := by simpa using h
    simp only [hown, h, if_false, Bool.false_and, Bool.false_eq_true]

/-- Before a frame only the table and the fallbacks change, and those for a poll alone. -/
theorem State.frameBefore_frame (s : State) (w : LfWork) :
    s.frameBefore w = { s with
      bt := (s.frameBefore w).bt
      lf := { s.lf with fallbacks := (s.frameBefore w).lf.fallbacks, fallbackNo := (s.frameBefore w).lf.fallbackNo } } := by
  unfold State.frameBefore
  dsimp only
  split <;> split <;> rfl

theorem State.frameBefore_of_not_poll {s : State} {w : LfWork} (h : w.kind ≠ .poll) : s.frameBefore w = s := by
  simp [State.frameBefore, h]

/-! The end of a frame. -/

/-- What the end of a frame on the air leaves of the drivers' part: the sensed currents (R163, R170). -/
theorem State.modDrivers_eq (s : State) (f : Nat → LfDriver → LfDriver) : s.modDrivers f = { s with
    lf := { s.lf with drivers := s.lf.drivers.mapIdx fun i d => d.flagged (f i) }, intc := (s.modDrivers f).intc } := by
  refine (State.latchIf_eq _ _ _).trans ?_
  rfl

theorem State.bankSwitch_eq (s : State) :
    s.bankSwitch = { s with lf := { s.lf with drivers := s.bankSwitch.lf.drivers } } := rfl

theorem State.bankSwitch_length (s : State) : s.bankSwitch.lf.drivers.length = s.lf.drivers.length := by
  simp [State.bankSwitch]

/-- A calibration that is due begins (R166, R168). -/
theorem State.lfCalStart_eq (s : State) : s.lfCalStart = { s with lf := { s.lf with
    calib := s.lfCalStart.lf.calib, calDue := s.lfCalStart.lf.calDue, calAt := s.lfCalStart.lf.calAt } } := by
  unfold State.lfCalStart
  split <;> rfl

/-- The state once the frame has ended, before what follows it. -/
def State.frameOver (s : State) (l : List LfSense) : State :=
  (s.senseDrivers (slotAntennas s.lf.frame) l).upLf fun l => { l with busy := false, onAir := none }

theorem State.frameOver_eq (s : State) (l : List LfSense) : s.frameOver l = { s with
    lf := { s.lf with busy := false, onAir := none, drivers := (s.frameOver l).lf.drivers }, intc := (s.frameOver l).intc } := by
  unfold State.frameOver State.senseDrivers
  dsimp only
  rw [State.modDrivers_eq]
  rfl

theorem State.frameOver_length (s : State) (l : List LfSense) : (s.frameOver l).lf.drivers.length = s.lf.drivers.length := by
  unfold State.frameOver State.senseDrivers
  dsimp only
  rw [State.modDrivers_eq]
  simp

/-- What follows a frame changes the table and the fallbacks alone (R189, R195, R203). -/
theorem State.frameAfter_eq (s : State) (w : LfWork) (l : List LfSense) : s.frameAfter w l = { s with
    bt := (s.frameAfter w l).bt
    lf := { s.lf with fallbacks := (s.frameAfter w l).lf.fallbacks, fallbackNo := (s.frameAfter w l).lf.fallbackNo } } := by
  unfold State.frameAfter
  split <;> rfl

/-- After a frame the banks switch and a calibration that is due begins (R162, R166). -/
theorem State.bankSwitch_lfCalStart_eq (s : State) : s.bankSwitch.lfCalStart = { s with lf := { s.lf with
    drivers := s.bankSwitch.lf.drivers, calib := s.bankSwitch.lfCalStart.lf.calib
    calDue := s.bankSwitch.lfCalStart.lf.calDue, calAt := s.bankSwitch.lfCalStart.lf.calAt } } := by
  refine (State.lfCalStart_eq _).trans ?_
  rfl

/-- An answer window opens after a wake, a touch or a polling pattern (R195). -/
theorem State.frameAfter_of_wake {s : State} {w : LfWork} (l : List LfSense)
    (h : w.kind = .wake ∨ w.kind = .handle ∨ w.kind = .pollPattern) : s.frameAfter w l = s.openWindow w.mask s.now := by
  rcases h with h | h | h <;> simp [State.frameAfter, h]

theorem exec_lfPatternEnd {s : State} {w : LfWork} (l : List LfSense) (hair : s.lf.onAir = some w) (hup : s.mainUp = true)
    (hend : w.notBefore ≤ s.now) :
    exec (.lfPatternEnd l) s = .next ((if s.lf.touchCut then s.frameOver l
      else if !s.plansPolling then (s.frameOver l).tenderAfter w l else (s.frameOver l).frameAfter w l
      ).bankSwitch.lfCalStart) := by
  change execLfPatternEnd l s = _
  rw [execLfPatternEnd, hair]
  exact whenDo_next (by simp [hup, hend]) rfl

/-! Answer windows. -/

/-- A window that closes without another round (R195). -/
theorem State.closeWindow_none (s : State) (f : Fallback) : s.closeWindow f none =
    State.deliverAnswers f.mask [] f.answers (s.upLf fun l => { l with
      closed := ((f.windowAt + us 50, f.windowAt + f.span, f.mask) :: l.closed).take 4
      fallbacks := l.fallbacks.filter fun g => g.no != f.no }) := rfl

/-- A window that closes with round `k` to follow (R195). -/
theorem State.closeWindow_some (s : State) (f : Fallback) (k : Nat) : s.closeWindow f (some k) =
    (State.deliverAnswers f.mask [] f.answers (s.upLf fun l => { l with
      closed := ((f.windowAt + us 50, f.windowAt + f.span, f.mask) :: l.closed).take 4
      fallbacks := l.fallbacks.map fun g =>
        if g.no = f.no then { g with state := .slotted, k := k, seedDue := true, answers := [], bad := false } else g
      })).request .lfSeed := rfl

theorem exec_answerWindowClose {s : State} {f : Fallback} (air : AirHeard)
    (hf : s.lf.fallbacks.find? (fun g => g.state == .window && s.elapsed g.windowAt (us 1250)) = some f) (hup : s.mainUp = true) :
    exec (.answerWindowClose air) s = .next (if f.collided air then
      ((s.upLf fun l => { l with collisions := satInc l.collisions }).latch 21).closeWindow f (some 1)
    else s.closeWindow f none) := by
  change execAnswerWindowClose air s = _
  rw [execAnswerWindowClose, hf]
  exact whenDo_next hup rfl

theorem exec_slottedRoundClose {s : State} {f : Fallback} (air : AirHeard)
    (hf : s.lf.fallbacks.find? (fun g => g.state == .round && s.elapsed g.windowAt (us (100 + 1250 * 2 ^ (g.k + 2)))) = some f)
    (hup : s.mainUp = true) :
    exec (.slottedRoundClose air) s = .next (
      let t := s.upLf fun l => { l with collisions := if f.collided air then satInc l.collisions else l.collisions }
      if !f.collided air then t.closeWindow f none
      else if f.k < 4 then t.closeWindow f (some (f.k + 1))
      else ((t.upLf fun l => { l with unresolved := satInc l.unresolved }).latch 23).closeWindow f none) := by
  have hspan : (fun g : Fallback => g.state == .round && s.elapsed g.windowAt g.span) =
      fun g => g.state == .round && s.elapsed g.windowAt (us (100 + 1250 * 2 ^ (g.k + 2))) := by
    funext g
    by_cases hg : g.state = .round
    · simp [Fallback.span, hg]
    · have hnot : (g.state == .round) = false := beq_eq_false_iff_ne.mpr hg
      simp [hnot]
  change execSlottedRoundClose air s = _
  rw [execSlottedRoundClose, hspan, hf]
  exact whenDo_next hup rfl

/-! Touches. -/

theorem State.presentOf_congr {s t : State} (hcfg : t.cfg = s.cfg) (hserving : t.pier.serving = s.pier.serving)
    (hst : ∀ n, (t.link n).st = (s.link n).st) (hdrivers : t.lf.drivers = s.lf.drivers) (hoff : t.lf.farOff = s.lf.farOff)
    (m : BitVec 16) : t.presentOf m = s.presentOf m := by
  unfold State.presentOf State.antennaPresent State.anchorCfg State.anchorUp
  simp only [hcfg, hserving, hst, hdrivers, hoff]

/-- What a polling pattern that a touch cuts leaves alone (R196). -/
structure CutFrame (s t : State) : Prop where
  frame : t = { s with
    lf := { s.lf with touchCut := t.lf.touchCut, frame := t.lf.frame, onAir := t.lf.onAir }
    pier := { s.pier with links := t.pier.links } }
  st : ∀ n, (t.link n).st = (s.link n).st

theorem cutFrame_cutAt (s : State) (t : Nat) : CutFrame s (s.cutAt t) := by
  unfold State.cutAt
  split
  · exact ⟨rfl, fun _ => rfl⟩
  · dsimp only
    split <;> exact ⟨rfl, fun _ => rfl⟩

theorem cutFrame_cutPattern (s : State) : CutFrame s s.cutPattern := by
  unfold State.cutPattern
  split
  next w _ =>
    split
    · have hcut := cutFrame_cutAt s s.now
      have hsend := pierSends_cutTenders (s.cutAt s.now) w.mask
      refine ⟨?_, fun n => (hsend.st n).trans (hcut.st n)⟩
      rw [hsend.frame, hcut.frame]
    · exact ⟨rfl, fun _ => rfl⟩
  · exact ⟨rfl, fun _ => rfl⟩

/-- A frame joins the LF work at the end of the queue, not before its own instant; tenders are told (R196, R630). -/
theorem State.lfQueue_frame (s : State) (w : LfWork) : ∃ at_, s.lfQueue w = { s with
    lf := { s.lf with queue := s.lf.queue ++ [{ w with notBefore := at_ }] }
    pier := { s.pier with links := (s.lfQueue w).pier.links } } := by
  unfold State.lfQueue
  extract_lets links v t
  have hsend : PierSends s t := pierSends_foldl (fun _ _ => pierSends_postSchedule _ _ _) _ _
  have hv : ∃ at_, v = { w with notBefore := at_ } := by
    by_cases hlinks : links.isEmpty
    · exact ⟨w.notBefore, if_pos hlinks⟩
    · exact ⟨_, if_neg hlinks⟩
  obtain ⟨at_, hv⟩ := hv
  refine ⟨at_, ?_⟩
  rw [hv]
  clear_value t
  rw [hsend.frame]
  rfl

/-- A touch asks for a frame where an antenna is present and the device is not in DRIVE, else it is recorded (R197). -/
theorem State.handleFrame_of_frame {s : State} {zone : Nat} {l : List Nat}
    (hl : s.presentOf ((s.cfg.chart.handles[zone]?.map (·.mask)).getD 0#16) = l) (hne : l ≠ []) (hpow : s.tide.power ≠ .drive) :
    s.handleFrame zone = s.lfQueue { LfWork.reset with kind := .handle, mask := ofBits 16 l } := by
  simp [State.handleFrame, hl, hne, hpow]

theorem State.handleFrame_of_record {s : State} {zone : Nat} {l : List Nat}
    (hl : s.presentOf ((s.cfg.chart.handles[zone]?.map (·.mask)).getD 0#16) = l) (h : l = [] ∨ s.tide.power = .drive) :
    s.handleFrame zone = s.logTouch zone := by
  simp [State.handleFrame, hl, h]

theorem Tide.noteWake_power (t : Tide) (now : Nat) (bit : BitVec 4) : (t.noteWake now bit).power = t.power := by
  unfold Tide.noteWake
  split
  · rfl
  · split <;> rfl

theorem State.wake_power (s : State) (b : Nat) : (s.wake b).tide.power = s.tide.power := by
  unfold State.wake
  split
  · rfl
  · exact Tide.noteWake_power _ _ _

/-- Settles O41: each event of the block by the branch of its own that the hypotheses choose. -/
theorem lfFrames : Obligations.LfFrames := by
  refine ⟨fun s w hdue hready hvlf hw => ?_, fun s w l hair hup hend hcut hrole => ?_,
    fun s w l hair hup hend hcut => ⟨_, exec_lfPatternEnd l hair hup hend, ?_⟩,
    fun s f air hf hup => ⟨fun hc => ?_, fun hc => ?_⟩,
    fun s f air hf hup => ⟨fun hc => ?_, fun hc hk => ?_, fun hc hk => ?_⟩,
    fun s m hfunc hup hseen hm hpow hrole => ?_,
    fun s p hp hup hload hm hplans hel hwake hmask hpolls hvlf => ?_, fun s hup hpow hm hel => whenDo_next ?_ rfl⟩
  · have hex : exec .lfFrameStart s = .next ((s.lfTake w).lfSend w) := by
      change execLfFrameStart s = _
      rw [execLfFrameStart, hdue]
      exact whenDo_next hready (State.lfStart_of_valid hvlf hw)
    refine ⟨_, hex, ?_⟩
    rw [State.lfSend_eq, State.frameBefore_frame]
    refine ⟨rfl, rfl, ⟨rfl, rfl⟩, rfl, fun hk => ?_, rfl⟩
    rw [State.frameBefore_of_not_poll hk]
    exact ⟨rfl, rfl⟩
  · have hplans : s.plansPolling = true := by simp [State.plansPolling, hrole]
    have hex := exec_lfPatternEnd l hair hup hend
    rw [if_neg (by simp [hcut]), if_neg (by simp [hplans])] at hex
    have hover := s.frameOver_eq l
    have hafter := (s.frameOver l).frameAfter_eq w l
    have hset := ((s.frameOver l).frameAfter w l).bankSwitch_lfCalStart_eq
    have hlen : ((s.frameOver l).frameAfter w l).bankSwitch.lf.drivers.length = s.lf.drivers.length := by
      rw [State.bankSwitch_length, hafter, s.frameOver_length]
    refine ⟨_, hex, ?_, ?_, fun hk => ?_, fun hk => ?_, ?_, ?_⟩
    · rw [hset, hafter, hover]
    · rw [hset, hafter, hover]
    · rw [hset]
      simp only [State.frameAfter, hk]
      rw [hover]
      rfl
    · rw [hset]
      simp only [State.frameAfter_of_wake l hk]
      rw [hover]
      rfl
    · rw [hset]
      exact hlen
    · rw [hset, hafter, hover]
  · rw [if_pos hcut, State.bankSwitch_lfCalStart_eq, State.frameOver_eq]
    exact ⟨rfl, rfl, rfl, rfl⟩
  · rw [exec_answerWindowClose air hf hup, if_neg (by simp [hc]), State.closeWindow_none]
  · rw [exec_answerWindowClose air hf hup, if_pos hc, State.closeWindow_some]
  · rw [exec_slottedRoundClose air hf hup]
    simp [hc, State.closeWindow_none, State.upLf]
  · rw [exec_slottedRoundClose air hf hup]
    simp [hc, hk, State.closeWindow_some, State.upLf]
  · rw [exec_slottedRoundClose air hf hup]
    simp [hc, Nat.not_lt.mpr hk, State.closeWindow_none, State.upLf]
  · extract_lets zone on
    have hex : exec (.handleTouch m) s = .next (s.touched zone) := by
      refine whenDo_next ?_ (if_neg hrole)
      rw [hfunc, hup, hseen, hm]
      simp [hpow]
    have hcut := cutFrame_cutPattern (s.wake 0)
    have hon : (s.wake 0).cutPattern.presentOf
        (((s.wake 0).cutPattern.cfg.chart.handles[zone]?.map (·.mask)).getD 0#16) = on := by
      rw [State.presentOf_congr (s := s.wake 0) (by rw [hcut.frame]) (by rw [hcut.frame]) hcut.st (by rw [hcut.frame])
        (by rw [hcut.frame])]
      rw [hcut.frame]
      simp [on]
    have hpower : (s.wake 0).cutPattern.tide.power = s.tide.power := by
      rw [hcut.frame]
      exact s.wake_power 0
    refine ⟨_, hex, ?_⟩
    by_cases hsend : on ≠ [] ∧ s.tide.power ≠ .drive
    · obtain ⟨hne, hdrive⟩ := hsend
      obtain ⟨at_, hq⟩ := (s.wake 0).cutPattern.lfQueue_frame { LfWork.reset with kind := .handle, mask := ofBits 16 on }
      rw [State.touched, State.handleFrame_of_frame hon hne (hpower ▸ hdrive), hq, hcut.frame]
      refine ⟨rfl, by simp, by simp, fun _ _ => ⟨at_, ?_⟩, fun h => ?_⟩
      · change (s.wake 0).lf.queue ++ _ = _
        rw [State.wake_lf]
      · exact absurd h (by simp [hne, hdrive])
    · have hrecord : on = [] ∨ s.tide.power = .drive := by
        by_contra h
        exact hsend (not_or.mp h)
      rw [State.touched, State.handleFrame_of_record hon (hpower ▸ hrecord), State.logTouch]
      rw [hcut.frame]
      exact ⟨by simp, by simp, by simp, fun hne hdrive => absurd ⟨hne, hdrive⟩ hsend, fun _ => ⟨by simp, by simp⟩⟩
  · change execLfPollingPattern s = _
    rw [execLfPollingPattern, hp]
    refine whenDo_next ?_ ?_
    · simp [hup, hload, hm, hplans, hel, hwake]
    · simp [hmask, hpolls, hvlf, State.upTide]
  · simp [hup, hpow, hm, hel]

end Sys2Proof.Machine
end

section
/-! SUPPORT. The drivers of the low-frequency field block: calibration, trips and their supply (R162 to R173, R187). -/

namespace Sys2Proof.Machine

/-- A driver that is left as it is shows no rise. -/
theorem LfDriver.flagged_id (d : LfDriver) : d.flagged (fun x => x) = d := by
  have hrise : d.latch ||| (d.bits &&& ~~~d.bits) = d.latch := by simp
  simp only [LfDriver.flagged, hrise]

theorem State.driver_modDrivers (s : State) (f : Nat → LfDriver → LfDriver) {i : Nat} (h : i < s.lf.drivers.length) :
    (s.modDrivers f).driver i = (s.driver i).flagged (f i) := by
  rw [State.modDrivers_eq]
  simp [State.driver, h]

/-- A driver that the change leaves as it is stays so. -/
theorem State.driver_modDrivers_same (s : State) (f : Nat → LfDriver → LfDriver) {i : Nat} (h : f i = fun x => x) :
    (s.modDrivers f).driver i = s.driver i := by
  by_cases hi : i < s.lf.drivers.length
  · rw [State.driver_modDrivers s f hi, h, LfDriver.flagged_id]
  · rw [State.modDrivers_eq]
    simp [State.driver, hi]

/-- A bank switch sets codes alone, and that only of a driver that an override holds (R162, R169). -/
theorem State.driver_bankSwitch (s : State) (i : Nat) :
    s.bankSwitch.driver i = { s.driver i with code := (s.bankSwitch.driver i).code } ∧
    ((s.driver i).ovr.force.getLsbD 6 = false → s.bankSwitch.driver i = s.driver i) := by
  by_cases hi : i < s.lf.drivers.length
  · have hset : s.bankSwitch.driver i =
        if (s.driver i).ovr.force.getLsbD 6 && !s.driversBusy.contains i then
          { s.driver i with code := (s.driver i).ovr.force.setWidth 6 } else s.driver i := by
      simp only [State.driver, State.bankSwitch, State.upLf, List.getD_eq_getElem?_getD, List.getElem?_mapIdx,
        List.getElem?_eq_getElem hi, Option.map_some, Option.getD_some]
    rw [hset]
    refine ⟨?_, fun h => ?_⟩
    · split <;> rfl
    · rw [if_neg (by simp only [h, Bool.false_and]; decide)]
  · have hsame : s.bankSwitch.driver i = s.driver i := by simp [State.driver, State.bankSwitch, hi]
    rw [hsame]
    exact ⟨rfl, fun _ => rfl⟩

theorem State.reportDrivers_of_not_tender {s : State} (n : Option Nat) (l : List LfSense) (h : s.cfg.role ≠ .tender) :
    s.reportDrivers n l = s := by
  unfold State.reportDrivers
  split
  · rfl
  · simp [h]

theorem State.lfCalStart_of_not_due {s : State} (h : s.lf.calDue = false) : s.lfCalStart = s := by
  simp [State.lfCalStart, h]

/-- A report of a tender's drivers changes the links alone. -/
theorem State.reportDrivers_eq (s : State) (n : Option Nat) (l : List LfSense) :
    s.reportDrivers n l = { s with pier := (s.reportDrivers n l).pier } := by
  unfold State.reportDrivers
  split
  · rfl
  · split <;> rfl

/-- What the results of a calibration do to driver `i` (R167, R171). -/
def State.calibrates (s : State) (results : List LfCal) (i : Nat) (d : LfDriver) : LfDriver :=
  if s.cfg.radio.lfEnable.getLsbD i then
    match results.find? fun r => r.driver.toNat == i with
    | some r => d.calibrated (calCode r.phases) r.ok
    | none => d
  else d

/-- The drivers with the results of their calibration, which is over. -/
def State.calibrationOver (s : State) (results : List LfCal) : State :=
  (s.modDrivers (s.calibrates results)).upLf fun l => { l with calib := false }

theorem State.calibrationOver_eq (s : State) (results : List LfCal) : s.calibrationOver results = { s with
    lf := { s.lf with drivers := (s.calibrationOver results).lf.drivers, calib := false }
    intc := (s.calibrationOver results).intc } := by
  unfold State.calibrationOver
  rw [State.modDrivers_eq]
  rfl

theorem State.driver_calibrationOver (s : State) (results : List LfCal) (i : Nat) :
    (s.calibrationOver results).driver i = (s.modDrivers (s.calibrates results)).driver i := rfl

/-- A device that is no tender and has no calibration due ends one with the banks' switch (R162, R166). -/
theorem exec_lfCalibrationDone {s : State} (results : List LfCal) (hcal : s.lf.calib = true) (hup : s.mainUp = true)
    (hlate : s.lf.calAt + s.calTicks ≤ s.now) (hrole : s.cfg.role ≠ .tender) (hdue : s.lf.calDue = false) :
    exec (.lfCalibrationDone results) s = .next (s.calibrationOver results).bankSwitch := by
  have hover := s.calibrationOver_eq results
  refine whenDo_next (by simp [hcal, hup, State.elapsed, hlate]) ?_
  change ((s.calibrationOver results).reportDrivers none []).bankSwitch.lfCalStart = _
  have hrole' : (s.calibrationOver results).cfg.role ≠ .tender := by
    rw [hover]
    exact hrole
  have hdue' : (s.calibrationOver results).bankSwitch.lf.calDue = false := by
    change (s.calibrationOver results).lf.calDue = false
    rw [hover]
    exact hdue
  rw [State.reportDrivers_of_not_tender none [] hrole', State.lfCalStart_of_not_due hdue']

theorem LfDriver.calibrated_of_free {d : LfDriver} (code : BitVec 6) (h : d.ovr.force.getLsbD 6 = false) :
    d.calibrated code true = { d with code := code, offRun := 0, opn := false, short := false, disabled := false } := by
  unfold LfDriver.calibrated
  rw [h]
  rfl

theorem State.calibrates_single {s : State} {i : BitVec 4} (phases : List Int) (h : s.cfg.radio.lfEnable.getLsbD i.toNat = true) :
    s.calibrates [{ driver := i, phases := phases, ok := true }] i.toNat = fun d => d.calibrated (calCode phases) true := by
  funext d
  unfold State.calibrates
  rw [if_pos h]
  simp

theorem State.calibrates_other {s : State} {i : BitVec 4} {j : Nat} (phases : List Int) (h : j ≠ i.toNat) :
    s.calibrates [{ driver := i, phases := phases, ok := true }] j = fun d => d := by
  funext d
  unfold State.calibrates
  simp [h.symm]

/-- SHORT, and the driver disabled (R164, R170). -/
def LfDriver.tripped (d : LfDriver) : LfDriver := { d with short := true, disabled := true }

/-- The flags of a driver that trips change, unless it was SHORT and disabled already (R173). -/
theorem LfDriver.differs_tripped (d : LfDriver) :
    d.differs (d.flagged LfDriver.tripped) = !(d.short && d.disabled) := by
  obtain ⟨_, _, _, _, opn, short, detuned, disabled, _, _, _, _⟩ := d
  revert opn short detuned disabled
  simp [LfDriver.differs, LfDriver.flagged, LfDriver.tripped, LfDriver.bits, b2n]

/-- A driver that is left as it is shows no change. -/
theorem LfDriver.differs_self (d : LfDriver) : d.differs d = false := by simp [LfDriver.differs]

/-- Driver `k` trips; the others stay as they are. -/
def tripAt (k : Nat) (i : Nat) (d : LfDriver) : LfDriver := if i = k then d.tripped else d

theorem tripAt_same (k : Nat) : tripAt k k = LfDriver.tripped := by
  funext d
  exact if_pos rfl

theorem tripAt_other {k i : Nat} (h : i ≠ k) : tripAt k i = fun d => d := by
  funext d
  exact if_neg h

/-- A trip latches source 22 unless the driver was SHORT and disabled already (R173). -/
theorem State.intc_trip (s : State) {k : Nat} (hk : k < s.lf.drivers.length) :
    (s.modDrivers (tripAt k)).intc =
      if (s.driver k).short = true ∧ (s.driver k).disabled = true then s.intc else s.intc.event 22 := by
  have hchange : ((s.lf.drivers.zip (s.lf.drivers.mapIdx fun i d => d.flagged (tripAt k i))).any fun p => p.1.differs p.2) =
      !((s.driver k).short && (s.driver k).disabled) := by
    have hdriver : s.lf.drivers[k] = s.driver k := by simp [State.driver, hk]
    rw [← hdriver, ← LfDriver.differs_tripped, Bool.eq_iff_iff, List.any_eq_true]
    constructor
    · rintro ⟨p, hp, hdiff⟩
      obtain ⟨i, hi, rfl⟩ := List.mem_iff_getElem.mp hp
      simp only [List.getElem_zip, List.getElem_mapIdx] at hdiff
      by_cases hik : i = k
      · subst hik
        rwa [tripAt_same] at hdiff
      · rw [tripAt_other hik, LfDriver.flagged_id, LfDriver.differs_self] at hdiff
        exact absurd hdiff (by decide)
    · intro hdiff
      refine ⟨(s.lf.drivers[k], s.lf.drivers[k].flagged LfDriver.tripped), ?_, hdiff⟩
      refine List.mem_iff_getElem.mpr ⟨k, by simpa using hk, ?_⟩
      simp [tripAt_same]
  unfold State.modDrivers
  dsimp only
  rw [hchange]
  cases (s.driver k).short <;> cases (s.driver k).disabled <;> rfl

theorem exec_driverTrip {s : State} {d : BitVec 4} (hup : s.mainUp = true) (hdrives : d.toNat ∈ s.driving) :
    exec (.driverTrip d) s = .next ((s.modDrivers (tripAt d.toNat)).reportDrivers none []) :=
  whenDo_next (by simp [hup, hdrives]) rfl

/-- Settles O42: CAL and CLR_IDLE by the written bits, a calibration and a trip by what becomes of each driver. -/
theorem lfDrivers : Obligations.LfDrivers := by
  refine ⟨fun s h => ⟨next_farWrite h ?_, next_farWrite h ?_⟩, fun s i phases hok hcal hup hrole hlate hdue hen hov => ?_,
    fun s d hok hup hdrives => ?_, fun s v hup hv => whenDo_next (by simp [hup, hv]) (if_pos hv)⟩
  · simp [State.lfCtrl]
  · simp [State.lfCtrl]
  · have hi : i.toNat < s.lf.drivers.length := by
      have hlen : s.lf.drivers.length = 16 := by simpa [Lf.ok] using hok
      omega
    refine ⟨_, exec_lfCalibrationDone [{ driver := i, phases := phases, ok := true }] hcal hup hlate hrole hdue, ?_⟩
    have hown : (s.calibrationOver [{ driver := i, phases := phases, ok := true }]).driver i.toNat =
        (s.driver i.toNat).flagged fun d => d.calibrated (calCode phases) true := by
      rw [State.driver_calibrationOver, State.driver_modDrivers _ _ hi, State.calibrates_single phases hen]
    simp only [LfDriver.flagged, LfDriver.calibrated_of_free _ hov] at hown
    have hother : ∀ j, j ≠ i.toNat → (s.calibrationOver [{ driver := i, phases := phases, ok := true }]).driver j = s.driver j :=
      fun j hj => State.driver_modDrivers_same s _ (State.calibrates_other phases hj)
    have hframe := s.calibrationOver_eq [{ driver := i, phases := phases, ok := true }]
    generalize s.calibrationOver [{ driver := i, phases := phases, ok := true }] = t at hown hother hframe ⊢
    have hbank : t.bankSwitch.driver i.toNat = t.driver i.toNat := by
      refine (t.driver_bankSwitch i.toNat).2 ?_
      rw [hown]
      exact hov
    rw [hbank, hown]
    refine ⟨by rw [t.bankSwitch_eq, hframe], rfl, rfl, rfl, rfl, fun j hj => ?_, ?_⟩
    · obtain ⟨hcode, hsame⟩ := t.driver_bankSwitch j
      rw [hother j hj] at hcode hsame
      exact ⟨hcode, fun hfree => by rw [hsame hfree]⟩
    · rw [t.bankSwitch_eq, hframe]
  · have hd : d.toNat < s.lf.drivers.length := by
      have hlen : s.lf.drivers.length = 16 := by simpa [Lf.ok] using hok
      omega
    refine ⟨_, exec_driverTrip hup hdrives, ?_⟩
    have hintc := s.intc_trip hd
    have hmod := s.modDrivers_eq (tripAt d.toNat)
    have hown := s.driver_modDrivers (tripAt d.toNat) hd
    rw [tripAt_same] at hown
    have hother : ∀ j, j ≠ d.toNat → (s.modDrivers (tripAt d.toNat)).driver j = s.driver j :=
      fun j hj => s.driver_modDrivers_same _ (tripAt_other hj)
    have hpier : s.cfg.role ≠ .tender → ((s.modDrivers (tripAt d.toNat)).reportDrivers none []).pier = s.pier := by
      intro hrole
      rw [State.reportDrivers_of_not_tender none [] (by rw [hmod]; exact hrole), hmod]
    have hreport := (s.modDrivers (tripAt d.toNat)).reportDrivers_eq none []
    have hdriver : ∀ j, ((s.modDrivers (tripAt d.toNat)).reportDrivers none []).driver j =
        (s.modDrivers (tripAt d.toNat)).driver j := by
      intro j
      rw [hreport]
      rfl
    rw [hdriver, hown]
    refine ⟨rfl, rfl, rfl, fun j hj => (hdriver j).trans (hother j hj), ?_, hpier, ?_⟩
    · rw [hreport]
      exact hintc
    · rw [hreport, hmod]

end Sys2Proof.Machine
end

section
/-! SUPPORT. Byte strings: numbers in bytes and the parts of a frame (R20, R182). -/

namespace Sys2Proof.Machine

@[simp] theorem le_length (n v : Nat) : (le n v).length = n := by simp [le]

@[simp] theorem be_length (n v : Nat) : (be n v).length = n := by simp [be]

theorem le_succ (n v : Nat) : le (n + 1) v = BitVec.ofNat 8 v :: le n (v / 256) := by
  simp only [le, List.range_succ_eq_map, List.map_cons, List.map_map]
  congr 1
  · simp
  · refine List.map_congr_left fun i _ => ?_
    simp [Nat.pow_succ', Nat.div_div_eq_div_mul]

/-- Bytes give back the number that they hold (R20). -/
theorem ofLe_le {n v : Nat} (h : v < 256 ^ n) : ofLe (le n v) = v := by
  induction n generalizing v with
  | zero =>
    have : v = 0 := by simpa using h
    subst this
    rfl
  | succ n ih =>
    have hdiv : v / 256 < 256 ^ n := by
      rw [Nat.div_lt_iff_lt_mul (by decide), ← Nat.pow_succ]
      exact h
    rw [le_succ]
    change (BitVec.ofNat 8 v).toNat + 256 * ofLe (le n (v / 256)) = v
    rw [ih hdiv, BitVec.toNat_ofNat]
    omega

theorem ofBe_be {n v : Nat} (h : v < 256 ^ n) : ofBe (be n v) = v := by
  rw [ofBe, be, List.reverse_reverse, ofLe_le h]

theorem slice_cons (x : Byte) (l : Bytes) (off n : Nat) : slice (x :: l) (off + 1) n = slice l off n := rfl

/-- The first bytes of a frame are its first part. -/
theorem slice_append_left {a : Bytes} (b : Bytes) {n : Nat} (h : a.length = n) : slice (a ++ b) 0 n = a := by
  simp [slice, h]

/-- A later part of a frame is one of what follows its first part. -/
theorem slice_append_right {a : Bytes} (b : Bytes) {k : Nat} (off n : Nat) (h : a.length = k) :
    slice (a ++ b) (k + off) n = slice b off n := by
  subst h
  simp [slice, List.drop_append, List.drop_eq_nil_of_le (Nat.le_add_right a.length off)]

theorem slice_second {a b : Bytes} (c : Bytes) {k n : Nat} (ha : a.length = k) (hb : b.length = n) :
    slice (a ++ (b ++ c)) k n = b := (slice_append_right _ 0 n ha).trans (slice_append_left c hb)

theorem slice_self {a : Bytes} {n : Nat} (h : a.length = n) : slice a 0 n = a := by
  simp [slice, ← h]

@[simp] theorem byteAt_zero (x : Byte) (l : Bytes) : byteAt (x :: l) 0 = x.toNat := rfl

end Sys2Proof.Machine
end

section
/-! SUPPORT. What fobs send on UHF, and the fit of a report (R30, R182 to R206). -/

namespace Sys2Proof.Machine

/-- The identifier stands after the first byte of a frame (R182). -/
theorem frameFob_cons (x : Byte) (fob : BitVec 64) (rest : Bytes) : frameFob (x :: (be 8 fob.toNat ++ rest)) = fob := by
  unfold frameFob
  rw [show (1 : Nat) = 0 + 1 from rfl, slice_cons, slice_append_left _ (be_length _ _), ofBe_be fob.isLt, BitVec.ofNat_toNat,
    BitVec.setWidth_eq]

/-- The counter stands after the identifier (R182). -/
theorem counter_cons (x : Byte) (fob : BitVec 64) (c : BitVec 32) (rest : Bytes) :
    BitVec.ofNat 32 (ofBe (slice (x :: (be 8 fob.toNat ++ (be 4 c.toNat ++ rest))) 9 4)) = c := by
  rw [show (9 : Nat) = 8 + 1 from rfl, slice_cons, slice_second _ (be_length _ _) (be_length _ _), ofBe_be c.isLt, BitVec.ofNat_toNat, BitVec.setWidth_eq]

/-- A frame that this device hears is judged by its TYPE (R182, R295). -/
theorem State.uhfReceive_of_hears {s : State} {rx : UhfRx} {b : Bytes} (h : s.hearsUhf rx b = true) :
    s.uhfReceive rx b = (s.heardUhf rx b).uhfFrame rx.anchor rx.stamp b := by
  simp only [State.hearsUhf, Bool.and_eq_true] at h
  obtain ⟨⟨⟨⟨⟨⟨⟨-, hrun⟩, hgood⟩, hown⟩, hrole⟩, hchain⟩, hhears⟩, hseen⟩ := h
  have hempty : s.nb.uhfSeen = [] := by simpa using hseen
  have hcount : (s.uhfCount rx b).nb.uhfSeen = [] := by simp [State.uhfCount, hgood, hempty]
  have hrole' : (s.uhfCount rx b).cfg.role ≠ .tender := by simpa [State.uhfCount] using hrole
  have hrun' : (s.heardUhf rx b).berthsRun = true := hrun
  unfold State.uhfReceive
  simp only [hown, hchain, hhears, hgood, Bool.and_self, if_true]
  unfold State.uhfDeliver
  rw [hcount]
  refine (if_neg (by simp)).trans ((if_neg hrole').trans ((if_pos hrun').trans ?_))
  simp [State.heardUhf, hcount, State.upNb]

theorem State.uhfRuns_of_hears {s : State} {rx : UhfRx} {b : Bytes} (h : s.hearsUhf rx b = true) : s.uhfRuns = true := by
  simp only [State.hearsUhf, Bool.and_eq_true] at h
  exact h.1.1.1.1.1.1.1

theorem exec_of_hears {s t : State} {rx : UhfRx} {b : Bytes} (h : s.hearsUhf rx b = true)
    (ht : (s.heardUhf rx b).uhfFrame rx.anchor rx.stamp b = t) : s.whenDo s.uhfRuns (s.uhfReceive rx b) = .next t :=
  whenDo_next (State.uhfRuns_of_hears h) ((State.uhfReceive_of_hears h).trans ht)

/-- TYPE stands in the upper half of the first byte (R182). -/
theorem type_of_first {k : Nat} (f : BitVec 4) (hk : k < 16) : (BitVec.ofNat 8 (16 * k + f.toNat)).toNat / 16 = k := by
  have hf := f.isLt
  rw [BitVec.toNat_ofNat]
  omega

theorem low_of_first (k : Nat) (f : BitVec 4) : (BitVec.ofNat 8 (16 * k + f.toNat)).setWidth 4 = f := by
  have hf := f.isLt
  refine BitVec.eq_of_toNat_eq ?_
  rw [BitVec.toNat_setWidth, BitVec.toNat_ofNat]
  omega

theorem State.uhfFrame_wakeAnswer (s : State) (a : BitVec 6) (t : Nat) (flags : BitVec 4) (fob : BitVec 64) (idle : BitVec 8) :
    s.uhfFrame a t (wakeAnswerBytes flags fob idle) = s.answerHeard false a t (wakeAnswerBytes flags fob idle) := by
  have htype : byteAt (wakeAnswerBytes flags fob idle) 0 / 16 = 1 := type_of_first flags (k := 1) (by decide)
  simp [State.uhfFrame, htype]

theorem State.uhfFrame_response (s : State) (a : BitVec 6) (t : Nat) (flags : BitVec 4) (fob : BitVec 64) (c : BitVec 32)
    (mac : BitVec 64) : s.uhfFrame a t (responseBytes flags fob c mac) = s.responded (responseBytes flags fob c mac) := by
  have htype : byteAt (responseBytes flags fob c mac) 0 / 16 = 2 := type_of_first flags (k := 2) (by decide)
  simp [State.uhfFrame, htype]

theorem State.uhfFrame_report (s : State) (a : BitVec 6) (t : Nat) (flags : BitVec 4) (tag : BitVec 16) (seq : BitVec 2)
    (resv : BitVec 6) (field : Bytes) (mac : BitVec 32) :
    s.uhfFrame a t (reportBytes flags tag seq resv field mac) = s.reported (reportBytes flags tag seq resv field mac) := by
  have htype : byteAt (reportBytes flags tag seq resv field mac) 0 / 16 = 3 := type_of_first flags (k := 3) (by decide)
  simp [State.uhfFrame, htype]

theorem State.uhfFrame_telegram (s : State) (a : BitVec 6) (t : Nat) (cmd : BitVec 4) (fob : BitVec 64) (c : BitVec 32)
    (idle : BitVec 8) (mac : BitVec 64) :
    s.uhfFrame a t (telegramBytes cmd fob c idle mac) = s.telegram a t (telegramBytes cmd fob c idle mac) := by
  have htype : byteAt (telegramBytes cmd fob c idle mac) 0 / 16 = 4 := type_of_first cmd (k := 4) (by decide)
  simp [State.uhfFrame, htype]

theorem frameFob_wakeAnswer (flags : BitVec 4) (fob : BitVec 64) (idle : BitVec 8) :
    frameFob (wakeAnswerBytes flags fob idle) = fob := frameFob_cons _ fob _

/-- The parts of a challenge response (R182, R183). -/
theorem response_parts (flags : BitVec 4) (fob : BitVec 64) (c : BitVec 32) (mac : BitVec 64) :
    frameFob (responseBytes flags fob c mac) = fob ∧
    BitVec.ofNat 32 (ofBe (slice (responseBytes flags fob c mac) 9 4)) = c ∧
    slice (responseBytes flags fob c mac) 1 12 = be 8 fob.toNat ++ be 4 c.toNat ∧
    slice (responseBytes flags fob c mac) 13 8 = be 8 mac.toNat := by
  have hbytes : responseBytes flags fob c mac =
      BitVec.ofNat 8 (32 + flags.toNat) :: (be 8 fob.toNat ++ (be 4 c.toNat ++ be 8 mac.toNat)) := by
    simp [responseBytes]
  rw [hbytes]
  refine ⟨frameFob_cons _ _ _, counter_cons _ _ _ _, ?_, ?_⟩
  · rw [← List.append_assoc]
    exact slice_append_left _ (by simp)
  · rw [← List.append_assoc]
    exact (slice_append_right (k := 12) _ 0 8 (by simp)).trans (slice_self (be_length _ _))

/-- A use of a key that the store admits (R452, R491). -/
theorem State.withKey_of_admits {s : State} {c : KeyCell} {m : BitVec 4} (level : BitVec 2) (feature : BitVec 5) (len : Nat)
    (eff : Bytes → State → State) (hserve : s.keysServe = true) (h : s.useAdmits c m true 1 = true) :
    s.withKey c level m feature len eff = eff (s.cellKey c) (s.keyJob c level m feature len) := by
  simp [State.withKey, hserve, h]

/-- A use of a key that the store refuses is counted, and comes to nothing (R452). -/
theorem State.withKey_of_refuses {s : State} {c : KeyCell} {m : BitVec 4} (level : BitVec 2) (feature : BitVec 5) (len : Nat)
    (eff : Bytes → State → State) (hserve : s.keysServe = true) (h : s.useAdmits c m true 1 = false) :
    s.withKey c level m feature len eff = s.violation m := by
  simp [State.withKey, hserve, h]

/-- The check of a challenge response of a HAILED berth (R30, R183). -/
theorem State.responded_of_hailed {s : State} {n : Nat} (flags : BitVec 4) {fob : BitVec 64} (c : BitVec 32) (mac : BitVec 64)
    (hn : s.berthOf fob = some n) (hst : (s.berth n).id.st = .hailed) (hfob : (s.berth n).isFob = true)
    (hsent : (s.berth n).se.challengeSent = true) :
    s.responded (responseBytes flags fob c mac) = s.withKey (.auth n) 3#2 4#4 7#5 17 fun key t =>
      if macOf key 8 ((s.berth n).nonce5 ++ be 8 fob.toNat ++ be 4 c.toNat) == be 8 mac.toNat then t.responseValid n fob c
      else t.castOff n 5#8 := by
  obtain ⟨hid, hcounter, hmsg, hmac⟩ := response_parts flags fob c mac
  unfold State.responded
  dsimp only
  rw [hid, hn]
  simp [hst, hfob, hsent, hcounter, hmsg, hmac]

/-- A wake answer's idle time and its motion flag (R182, R186). -/
theorem wakeAnswer_idle (flags : BitVec 4) (fob : BitVec 64) (idle : BitVec 8) :
    byteAt (wakeAnswerBytes flags fob idle) 9 = idle.toNat ∧
    ((wakeAnswerBytes flags fob idle).getD 0 0#8).getLsbD 0 = flags.getLsbD 0 := by
  constructor
  · simp [byteAt, wakeAnswerBytes]
  · change (BitVec.ofNat 8 (16 + flags.toNat)).getLsbD 0 = flags.getLsbD 0
    rw [BitVec.getLsbD_ofNat]
    simp [BitVec.getLsbD, Nat.testBit_zero, Nat.add_mod]

theorem State.wakeAnswered_of_free {s : State} (m : BitVec 16) (anchor : BitVec 6) (stamp : Nat) {flags : BitVec 4}
    {fob : BitVec 64} {idle : BitVec 8} (hn : s.berthOf fob = none) (hidle : s.lf.idleList.contains fob = false) :
    s.wakeAnswered m anchor stamp (wakeAnswerBytes flags fob idle) =
      (if 60 < idle.toNat ∧ flags.getLsbD 0 = false then s else s.upLf fun l =>
        { l with idleList := l.idleList.filter (· != fob) }).sightAnswer m anchor stamp fob
          (decide (60 < idle.toNat) && !flags.getLsbD 0 && !s.pressedLately fob) := by
  obtain ⟨hbyte, hflag⟩ := wakeAnswer_idle flags fob idle
  unfold State.wakeAnswered
  dsimp only
  rw [frameFob_wakeAnswer, hbyte, hflag]
  by_cases h : 60 < idle.toNat ∧ flags.getLsbD 0 = false
  · obtain ⟨hlong, hstill⟩ := h
    simp only [hlong, hstill, decide_true, Bool.not_false, Bool.and_self, if_true, hn, hidle, Bool.false_eq_true, if_false, and_self,
      Bool.true_and]
  · have hidle' : (decide (60 < idle.toNat) && !flags.getLsbD 0) = false := by simpa using h
    have hn' : (s.upLf fun l => { l with idleList := l.idleList.filter (· != fob) }).berthOf fob = none := hn
    have hnot : (s.upLf fun l => { l with idleList := l.idleList.filter (· != fob) }).lf.idleList.contains fob = false := by simp
    simp only [hidle', h, Bool.false_eq_true, if_false, hn', hnot, Bool.false_and]

/-- A key job leaves the table and the field block alone (R491). -/
@[simp] theorem State.keyJob_bt (s : State) (c : KeyCell) (l : BitVec 2) (m : BitVec 4) (f : BitVec 5) (n : Nat) :
    (s.keyJob c l m f n).bt = s.bt := by
  have h : JobFrame s (s.keyJob c l m f n) := jobFrame_addJob s _
  rw [h]

@[simp] theorem State.keyJob_lf (s : State) (c : KeyCell) (l : BitVec 2) (m : BitVec 4) (f : BitVec 5) (n : Nat) :
    (s.keyJob c l m f n).lf = s.lf := by
  have h : JobFrame s (s.keyJob c l m f n) := jobFrame_addJob s _
  rw [h]

@[simp] theorem State.keyJob_now (s : State) (c : KeyCell) (l : BitVec 2) (m : BitVec 4) (f : BitVec 5) (n : Nat) :
    (s.keyJob c l m f n).now = s.now := by
  have h : JobFrame s (s.keyJob c l m f n) := jobFrame_addJob s _
  rw [h]

/-- Berths are read from the table. -/
theorem State.berth_congr {s t : State} (h : t.bt = s.bt) (n : Nat) : t.berth n = s.berth n := by simp only [State.berth, h]

theorem State.responseValid_of_none {s : State} {n : Nat} (fob : BitVec 64) (c : BitVec 32) (h : (s.berth n).se.kept = none) :
    s.responseValid n fob c = ((s.cacheCounter fob c).modSe n fun b => { b with counter := c, kept := none }).moor n := by
  simp [State.responseValid, h]

/-! Telegrams and reports. -/

/-- The parts of a button telegram (R182, R190). -/
theorem telegram_parts (cmd : BitVec 4) (fob : BitVec 64) (c : BitVec 32) (idle : BitVec 8) (mac : BitVec 64) :
    frameFob (telegramBytes cmd fob c idle mac) = fob ∧
    BitVec.ofNat 32 (ofBe (slice (telegramBytes cmd fob c idle mac) 9 4)) = c ∧
    slice (telegramBytes cmd fob c idle mac) 0 14 =
      BitVec.ofNat 8 (64 + cmd.toNat) :: (be 8 fob.toNat ++ be 4 c.toNat ++ [idle]) ∧
    slice (telegramBytes cmd fob c idle mac) 14 8 = be 8 mac.toNat ∧
    ((telegramBytes cmd fob c idle mac).getD 0 0#8).setWidth 4 = cmd := by
  have hbytes : telegramBytes cmd fob c idle mac =
      BitVec.ofNat 8 (64 + cmd.toNat) :: (be 8 fob.toNat ++ (be 4 c.toNat ++ ([idle] ++ be 8 mac.toNat))) := by
    simp [telegramBytes]
  have hsplit : telegramBytes cmd fob c idle mac =
      (BitVec.ofNat 8 (64 + cmd.toNat) :: (be 8 fob.toNat ++ be 4 c.toNat ++ [idle])) ++ be 8 mac.toNat := by
    simp [telegramBytes]
  refine ⟨?_, ?_, ?_, ?_, low_of_first 4 cmd⟩
  · rw [hbytes]
    exact frameFob_cons _ _ _
  · rw [hbytes]
    exact counter_cons _ _ _ _
  · rw [hsplit]
    exact slice_append_left _ (by simp)
  · rw [hsplit]
    exact (slice_append_right _ 0 8 (by simp)).trans (slice_self (be_length _ _))

/-- What the judgement of a frame's key reads of a berth stays: its keys, its state and its kind. -/
structure SameHolder (s t : State) (n : Nat) : Prop where
  frame : t = { s with bt := { s.bt with berths := t.bt.berths } }
  se : (t.berth n).se = (s.berth n).se
  st : (t.berth n).id.st = (s.berth n).id.st
  kind : (t.berth n).id.kind = (s.berth n).id.kind

theorem SameHolder.trans {s t u : State} {n : Nat} (h : SameHolder s t n) (k : SameHolder t u n) : SameHolder s u n := by
  refine ⟨?_, k.se.trans h.se, k.st.trans h.st, k.kind.trans h.kind⟩
  rw [k.frame, h.frame]

theorem sameHolder_modId (s : State) (n : Nat) {f : BerthId → BerthId} (hst : ∀ b, (f b).st = b.st)
    (hkind : ∀ b, (f b).kind = b.kind) : SameHolder s (s.modId n f) n := by
  by_cases hn : n < s.bt.berths.length
  · have hb : (s.modId n f).berth n = { s.berth n with id := f (s.berth n).id } := State.berth_modBerth_same _ hn
    exact ⟨rfl, by rw [hb], by rw [hb]; exact hst _, by rw [hb]; exact hkind _⟩
  · have hb : (s.modId n f).berth n = s.berth n := by simp [State.berth, State.modId, State.modBerth, hn]
    exact ⟨rfl, by rw [hb], by rw [hb], by rw [hb]⟩

theorem sameHolder_betterSighting (s : State) (n : Nat) (a : BitVec 6) (t : Nat) : SameHolder s (s.betterSighting n a t) n := by
  unfold State.betterSighting
  dsimp only
  split
  · exact sameHolder_modId s n (fun _ => rfl) fun _ => rfl
  · exact ⟨rfl, rfl, rfl, rfl⟩

/-- A telegram's wake event, and the better sighting that it may be (R26, R34, R124). -/
def State.telegramSeen (s : State) (n : Nat) (a : BitVec 6) (t : Nat) : State :=
  (((s.wake 1).unquiet n).betterSighting n a t)

theorem sameHolder_telegramSeen (s : State) (n : Nat) (a : BitVec 6) (t : Nat) :
    SameHolder (s.wake 1) (s.telegramSeen n a t) n :=
  .trans (t := (s.wake 1).unquiet n) (sameHolder_modId _ n (fun _ => rfl) fun _ => rfl) (sameHolder_betterSighting _ n a t)

/-- The store admits a use of a berth's authentication key by its key, its holder, the life cycle and the root (R452). -/
theorem State.useAdmits_auth_congr {s t : State} {n : Nat} (m : BitVec 4) (hse : (t.berth n).se = (s.berth n).se)
    (hst : (t.berth n).id.st = (s.berth n).id.st) (hkind : (t.berth n).id.kind = (s.berth n).id.kind)
    (hlife : t.tide.life = s.tide.life) (hkeys : t.keys = s.keys) (hcfg : t.cfg = s.cfg) :
    t.useAdmits (.auth n) m true 1 = s.useAdmits (.auth n) m true 1 := by
  have hattr : t.cellAttr (.auth n) = s.cellAttr (.auth n) := by
    change (if (t.berth n).se.authKey.isEmpty then _ else (t.authTree n).attr (t.berth n).se.parentGen) = _
    unfold State.authTree
    rw [hse, hkind]
    rfl
  have hgen : t.cellGen (.auth n) = s.cellGen (.auth n) := by simp only [State.cellGen, hkeys]
  have hlive : t.cellLive (.auth n) = s.cellLive (.auth n) := by simp only [State.cellLive, State.isTender, hst, hcfg]
  simp only [State.useAdmits, hattr, hgen, hlive, hlife]

/-- A frame that is heard changes the radio block alone (R295, R310). -/
theorem State.heardUhf_eq (s : State) (rx : UhfRx) (b : Bytes) : ∃ x, s.heardUhf rx b = { s with nb := x } := ⟨_, rfl⟩

theorem State.berthOf_congr {s t : State} (h : t.bt = s.bt) (fob : BitVec 64) :
    t.berthOf fob = s.berthOf fob := by
  simp only [State.berthOf, State.liveBerths, State.berth, h]

/-- A telegram of a moored fob, before its check (R190). -/
theorem State.telegram_of_moored {s : State} {n : Nat} (a : BitVec 6) (t : Nat) {cmd : BitVec 4} {fob : BitVec 64}
    (c : BitVec 32) (idle : BitVec 8) (mac : BitVec 64) (hcmd : cmd.toNat < 8) (hn : s.berthOf fob = some n)
    (hst : (s.berth n).id.st.moored? = true) (hfob : (s.berth n).isFob = true) :
    s.telegram a t (telegramBytes cmd fob c idle mac) =
      (s.telegramSeen n a t).judgeTelegram n (telegramBytes cmd fob c idle mac) := by
  obtain ⟨hid, -⟩ := telegram_parts cmd fob c idle mac
  have hlow : byteAt (telegramBytes cmd fob c idle mac) 0 % 16 = cmd.toNat := by
    have hf := cmd.isLt
    change (BitVec.ofNat 8 (64 + cmd.toNat)).toNat % 16 = cmd.toNat
    rw [BitVec.toNat_ofNat]
    omega
  have hwake : (s.wake 1).berthOf fob = some n := (State.berthOf_congr (State.wake_bt s 1) fob).trans hn
  have hsame := sameHolder_telegramSeen s n a t
  have hberth : (s.wake 1).berth n = s.berth n := State.berth_congr (State.wake_bt s 1) n
  have hmoored : ((s.telegramSeen n a t).berth n).id.st.moored? = true := by rw [hsame.st, hberth, hst]
  have hisfob : ((s.telegramSeen n a t).berth n).isFob = true := by
    rw [Berth.isFob, hsame.kind, hberth]
    exact hfob
  unfold State.telegram
  dsimp only
  rw [hlow, if_neg (Nat.not_le.mpr hcmd), hid, hwake]
  exact if_pos (by
    change ((_ || ((s.telegramSeen n a t).berth n).id.st.moored?) && ((s.telegramSeen n a t).berth n).isFob) = true
    simp [hmoored, hisfob])

/-- The judgement of a telegram whose MAC holds, from a moored fob whose counter is a little ahead (R190). -/
theorem State.judgeCounter_of_newer {s : State} {n : Nat} {cmd : BitVec 4} {fob : BitVec 64} {c l : BitVec 32}
    (idle : BitVec 8) (mac : BitVec 64) (hrecent : s.lf.recent = []) (hcached : s.cached fob = some l)
    (hnew : l.toNat < c.toNat) (hnear : c.toNat ≤ l.toNat + 256) (hst : (s.berth n).id.st.moored? = true) :
    s.judgeCounter n (telegramBytes cmd fob c idle mac) =
      (((s.cacheCounter fob c).acceptedTelegram fob c).modSe n fun b => { b with counter := c }).fobCommand n cmd := by
  obtain ⟨hid, hcounter, -, -, hlow⟩ := telegram_parts cmd fob c idle mac
  have hrepeat : s.repeated fob c = false := by simp [State.repeated, hrecent]
  have hhailed : s.berthIs n .hailed = false := by
    unfold State.berthIs
    revert hst
    cases (s.berth n).id.st <;> decide
  unfold State.judgeCounter
  dsimp only
  rw [hid, hcounter, hlow, hrepeat, hcached]
  simp [Nat.not_lt.mpr hnear, hnew, State.telegramAccepted, hhailed]

theorem State.wake_life (s : State) (b : Nat) : (s.wake b).tide.life = s.tide.life := by
  unfold State.wake
  split
  · rfl
  · unfold Tide.noteWake State.upTide
    dsimp only
    split
    · rfl
    · split <;> rfl

/-- A telegram's wake event and sighting leave what the judgement reads (R26, R124). -/
theorem State.telegramSeen_frame (s : State) (n : Nat) (a : BitVec 6) (t : Nat) :
    (s.telegramSeen n a t).keysServe = s.keysServe ∧ (s.telegramSeen n a t).lf = s.lf ∧
    (s.telegramSeen n a t).keys = s.keys ∧ (s.telegramSeen n a t).cfg = s.cfg ∧
    (s.telegramSeen n a t).tide.life = s.tide.life := by
  rw [(sameHolder_telegramSeen s n a t).frame]
  simp [State.keysServe, State.wake_life]

/-- A telegram of a moored fob whose MAC holds and whose counter is a little ahead (R190, R192). -/
theorem State.judgeTelegram_of_newer {s : State} {n : Nat} (a : BitVec 6) (t : Nat) {cmd : BitVec 4} {fob : BitVec 64}
    {c l : BitVec 32} (idle : BitVec 8) (mac : BitVec 64) (hrecent : s.lf.recent = []) (hcached : s.cached fob = some l)
    (hnew : l.toNat < c.toNat) (hnear : c.toNat ≤ l.toNat + 256) (hst : (s.berth n).id.st.moored? = true)
    (hserve : s.keysServe = true) (hadm : s.useAdmits (.auth n) 4#4 true 1 = true)
    (hmac : macOf (s.berth n).se.authKey 8 (BitVec.ofNat 8 (64 + cmd.toNat) :: (be 8 fob.toNat ++ be 4 c.toNat ++ [idle])) =
      be 8 mac.toNat) :
    (s.telegramSeen n a t).judgeTelegram n (telegramBytes cmd fob c idle mac) =
      (((((s.telegramSeen n a t).keyJob (.auth n) 3#2 4#4 7#5 14).cacheCounter fob c).acceptedTelegram fob c).modSe n
        fun b => { b with counter := c }).fobCommand n cmd := by
  obtain ⟨-, -, hmsg, hsig, -⟩ := telegram_parts cmd fob c idle mac
  obtain ⟨hserve', hlf, hkeys, hcfg, hlife⟩ := s.telegramSeen_frame n a t
  have hsame := sameHolder_telegramSeen s n a t
  have hberth : (s.wake 1).berth n = s.berth n := State.berth_congr (State.wake_bt s 1) n
  have hse := hsame.se.trans (congrArg Berth.se hberth)
  have hst' := hsame.st.trans (congrArg (fun b : Berth => b.id.st) hberth)
  have hkind := hsame.kind.trans (congrArg (fun b : Berth => b.id.kind) hberth)
  have hadm' : (s.telegramSeen n a t).useAdmits (.auth n) 4#4 true 1 = true :=
    (State.useAdmits_auth_congr 4#4 hse hst' hkind hlife hkeys hcfg).trans hadm
  rw [State.judgeTelegram, State.withKey_of_admits _ _ _ _ (hserve'.trans hserve) hadm', hmsg, hsig]
  have hkey : (s.telegramSeen n a t).cellKey (.auth n) = (s.berth n).se.authKey := congrArg BerthSess.authKey hse
  rw [hkey, if_neg (not_not.mpr hmac)]
  generalize s.telegramSeen n a t = u at hlf hst'
  refine State.judgeCounter_of_newer idle mac ?_ ?_ hnew hnear ?_
  · rw [State.keyJob_lf, hlf, hrecent]
  · rw [State.cached, State.keyJob_lf, hlf]
    exact hcached
  · rw [State.berth_congr (State.keyJob_bt _ _ _ _ _ _), hst', hst]

/-- What a poll report's MAC is over, but for the nonce and the count (R182, R183). -/
def reportBody (flags : BitVec 4) (tag : BitVec 16) (seq : BitVec 2) (resv : BitVec 6) (field : Bytes) : Bytes :=
  BitVec.ofNat 8 (48 + flags.toNat) :: (be 2 tag.toNat ++ [BitVec.ofNat 8 (64 * seq.toNat + resv.toNat)] ++ field)

theorem reportBytes_eq (flags : BitVec 4) (tag : BitVec 16) (seq : BitVec 2) (resv : BitVec 6) (field : Bytes) (mac : BitVec 32) :
    reportBytes flags tag seq resv field mac = reportBody flags tag seq resv field ++ be 4 mac.toNat := by
  simp [reportBytes, reportBody]

theorem reportBody_length (flags : BitVec 4) (tag : BitVec 16) (seq : BitVec 2) (resv : BitVec 6) (field : Bytes) :
    (reportBody flags tag seq resv field).length = 4 + field.length := by
  simp [reportBody]
  omega

theorem reportBody_field (flags : BitVec 4) (tag : BitVec 16) (seq : BitVec 2) (resv : BitVec 6) (field : Bytes) :
    (reportBody flags tag seq resv field).drop 4 = field :=
  List.drop_left' (l₁ := _ :: (be 2 tag.toNat ++ [BitVec.ofNat 8 (64 * seq.toNat + resv.toNat)])) (by simp)

/-- The parts of a poll report (R182). -/
theorem report_parts (flags : BitVec 4) (tag : BitVec 16) (seq : BitVec 2) (resv : BitVec 6) (field : Bytes) (mac : BitVec 32) :
    BitVec.ofNat 16 (ofBe (slice (reportBytes flags tag seq resv field mac) 1 2)) = tag ∧
    BitVec.ofNat 2 (byteAt (reportBytes flags tag seq resv field mac) 3 / 64) = seq := by
  have hseq := seq.isLt
  have hresv := resv.isLt
  constructor
  · have hbytes : reportBytes flags tag seq resv field mac = BitVec.ofNat 8 (48 + flags.toNat) ::
        (be 2 tag.toNat ++ ([BitVec.ofNat 8 (64 * seq.toNat + resv.toNat)] ++ field ++ be 4 mac.toNat)) := by
      simp [reportBytes]
    rw [hbytes, show (1 : Nat) = 0 + 1 from rfl, slice_cons, slice_append_left _ (be_length _ _), ofBe_be tag.isLt,
      BitVec.ofNat_toNat, BitVec.setWidth_eq]
  · have hbyte : byteAt (reportBytes flags tag seq resv field mac) 3 = 64 * seq.toNat + resv.toNat := by
      have hsmall : 64 * seq.toNat + resv.toNat < 256 := by omega
      simp [byteAt, reportBytes]
      omega
    rw [hbyte]
    refine BitVec.eq_of_toNat_eq ?_
    rw [BitVec.toNat_ofNat]
    omega

/-- The count that a report of the expected poll names (R184). -/
theorem matchCount_expected {expected : BitVec 16} {seq : BitVec 2} (h : expected.setWidth 2 = seq) :
    matchCount expected seq = expected := by
  simp [matchCount, List.range_succ_eq_map, h]

/-- A report of the expected poll, as long as it asks, whose MAC holds (R182, R184). -/
theorem State.reported_of_genuine {s : State} {n : Nat} (flags : BitVec 4) {tag : BitVec 16} {seq : BitVec 2} (resv : BitVec 6)
    {field : Bytes} {mac : BitVec 32} {msg : Bytes} (hn : s.tagBerth tag = some n)
    (hseq : (s.berth n).lf.pollCount.setWidth 2 = seq) (hlen : field.length = 3 * (s.berth n).lf.order.length)
    (hserve : s.keysServe = true) (hadm : s.useAdmits (.auth n) 4#4 true 1 = true)
    (hmsg : reportBody flags tag seq resv field ++ (s.berth n).nonce5 ++ be 2 (s.berth n).lf.pollCount.toNat = msg)
    (hmac : macOf (s.berth n).se.authKey 4 msg = be 4 mac.toNat) :
    s.reported (reportBytes flags tag seq resv field mac) =
      (s.keyJob (.auth n) 3#2 4#4 1#5 msg.length).takeReport n (s.berth n).lf.pollCount field := by
  obtain ⟨htag, hcount⟩ := report_parts flags tag seq resv field mac
  have hbody : (reportBytes flags tag seq resv field mac).length - 4 = (reportBody flags tag seq resv field).length := by
    simp [reportBytes_eq]
  unfold State.reported
  dsimp only
  rw [htag, hn, hcount, hbody, reportBytes_eq, List.take_left, List.drop_left]
  dsimp only
  rw [matchCount_expected hseq, hmsg, State.withKey_of_admits _ _ _ _ hserve hadm]
  have hkey : s.cellKey (.auth n) = (s.berth n).se.authKey := rfl
  rw [hkey, reportBody_length, hlen, reportBody_field]
  exact if_pos ⟨rfl, hmac⟩

/-- A measurement changes its berth alone, and leaves the LF part of it (R34, R314, R315). -/
theorem State.measure_facts {s : State} (x : Meas) {n : Nat} (hn : n < s.bt.berths.length) :
    s.measure n x = { s with bt := { s.bt with berths := (s.measure n x).bt.berths } } ∧
    ((s.measure n x).berth n).lf = (s.berth n).lf ∧ ∀ m, m ≠ n → (s.measure n x).berth m = s.berth m := by
  refine ⟨rfl, ?_, fun m hm => ?_⟩
  · unfold State.measure
    rw [State.unquiet, State.modId, State.berth_modBerth_same, State.modFu, State.berth_modBerth_same _ hn]
    simpa [State.modFu, State.modBerth] using hn
  · unfold State.measure
    rw [State.unquiet, State.modId, State.berth_modBerth_ne _ hm, State.modFu, State.berth_modBerth_ne _ hm]

/-- Settles O43: each frame by its parts, its berth and the use of its key; the fit by what it writes. -/
theorem fobFrames : Obligations.FobFrames := by
  refine ⟨fun s rx flags fob idle f h hf => exec_of_hears h ?_, fun s m anchor stamp flags fob idle hn hidle => ?_,
    fun s rx flags fob c mac n h hn hst hfob hsent hkept hserve => ?_,
    fun s rx cmd fob c l idle mac n h hcmd hrecent hn hst hfob hcached hnew hnear hserve hadm hmac => exec_of_hears h ?_,
    fun s rx flags tag seq resv field mac n h hn hseq hlen hserve hadm => ?_,
    fun s n hlen hup hst hrep => ⟨s.fitReport n.toNat, State.whenDo_of s _ ?_, ?_⟩⟩
  · rw [State.uhfFrame_wakeAnswer, State.answerHeard]
    have hf' : (s.heardUhf rx (wakeAnswerBytes flags fob idle)).lf.fallbacks.find? (fun g => g.hears rx.stamp) = some f := hf
    rw [hf']
  · exact State.wakeAnswered_of_free m anchor stamp hn hidle
  · extract_lets u good
    obtain ⟨x, hx⟩ := s.heardUhf_eq rx (responseBytes flags fob c mac)
    have hn' : ({ s with nb := x } : State).berthOf fob = some n := hn
    have hresp := State.responded_of_hailed flags c mac hn' hst hfob hsent
    refine ⟨fun hadm hgood => exec_of_hears h ?_, fun hadm hgood => exec_of_hears h ?_, fun hadm => exec_of_hears h ?_⟩
    · simp only [u]
      rw [State.uhfFrame_response, hx, hresp, State.withKey_of_admits (s := { s with nb := x }) _ _ _ _ hserve hadm]
      refine (if_pos hgood).trans (State.responseValid_of_none fob c ?_)
      rw [State.berth_congr (State.keyJob_bt _ _ _ _ _ _)]
      exact hkept
    · simp only [u]
      rw [State.uhfFrame_response, hx, hresp, State.withKey_of_admits (s := { s with nb := x }) _ _ _ _ hserve hadm]
      exact if_neg (Bool.eq_false_iff.mp hgood)
    · rw [State.uhfFrame_response, hx, hresp, State.withKey_of_refuses (s := { s with nb := x }) _ _ _ _ hserve hadm]
  · obtain ⟨x, hx⟩ := s.heardUhf_eq rx (telegramBytes cmd fob c idle mac)
    have hn' : ({ s with nb := x } : State).berthOf fob = some n := hn
    rw [State.uhfFrame_telegram, hx, State.telegram_of_moored _ _ _ _ _ hcmd hn' hst hfob]
    exact State.judgeTelegram_of_newer (s := { s with nb := x }) rx.anchor rx.stamp idle mac hrecent hcached hnew hnear hst hserve
      hadm hmac
  · extract_lets msg
    intro hmac
    obtain ⟨x, hx⟩ := s.heardUhf_eq rx (reportBytes flags tag seq resv field mac)
    have hn' : ({ s with nb := x } : State).tagBerth tag = some n := hn
    refine exec_of_hears h ?_
    rw [State.uhfFrame_report, hx]
    exact State.reported_of_genuine (s := { s with nb := x }) flags resv hn' hseq hlen hserve hadm rfl hmac
  · simp [hup, hst, hrep]
  · have hin := State.lt_of_moored hst
    unfold State.fitReport
    extract_lets b rep heard strong fit tenths cleared fitted
    obtain ⟨hframe, hlf, hother⟩ := State.measure_facts (s := fitted.latch 20) { Meas.reset with
      kind := .lfFit, tide := b.pollTide, aux := tenths, strong := strong, valid := fit.isSome
      val := (fit.map fun f => (mmOf f.1.1).toInt).getD 0
      val2 := (fit.map fun f => (mmOf f.1.2.1).toInt).getD 0
      val3 := (fit.map fun f => (mmOf f.1.2.2).toInt).getD 0 } (n := n.toNat) (by simpa [fitted, cleared, State.modBlf, State.modBerth] using hin)
    have hcleared : cleared.berth n.toNat = { s.berth n.toNat with lf := { (s.berth n.toNat).lf with report := [] } } :=
      State.berth_modBerth_same _ hin
    refine ⟨?_, ?_, ?_, ?_, fun m hm => ?_, ?_⟩
    · rw [hframe]
      exact BitVec.ofNat_toNat 8 n
    · rw [hframe]
      rfl
    · rw [hlf]
      exact congrArg (fun b : Berth => b.lf.report) hcleared
    · rw [hframe]
      rfl
    · rw [hother m hm]
      exact State.berth_modBerth_ne _ hm
    · rw [hframe]
      rfl

end Sys2Proof.Machine
end

section
/-! SUPPORT. Phones on Bluetooth LE: advertisements, advertising and scanning, connection events and access-service frames
(R24 to R30, R272 to R293). -/

namespace Sys2Proof.Machine

/-! The chain. -/

/-- No test gives way where none runs and none is held (R144). -/
theorem State.bleTakes_of_no_test {s : State} (htest : s.nb.testUntil ≤ s.now)
    (hheld : (s.nb.held.any fun h => h.kind == 3#2) = false) : s.bleTakes = s := by
  simp [State.bleTakes, hheld, Nat.not_lt.mpr htest]

/-- A transmission with the synthesiser locked (R277, R307). -/
theorem State.bleSend_of_locked {s : State} (h : HeldTx) (eff : State → State) (htuner : s.nb.tuner ≠ 2#2)
    (hpll : s.nb.blePll = .locked) : s.bleSend h eff = eff s := by
  simp [State.bleSend, htuner, hpll]

/-- A transmission is held while the synthesiser locks or calibrates (R278). -/
theorem State.bleSend_of_waiting {s : State} (h : HeldTx) (eff : State → State) (htuner : s.nb.tuner ≠ 2#2)
    (hpll : s.nb.blePll = .locking ∨ s.nb.blePll = .calibrating) :
    s.bleSend h eff = s.upNb fun b => { b with held := b.held ++ [h], txState := 1#2 } := by
  rcases hpll with hpll | hpll <;> simp [State.bleSend, htuner, hpll]

/-! Advertisements. -/

theorem State.sightPhone_of_one {s : State} {token : BitVec 64} {a : BitVec 6} {stamp n : Nat}
    (ht : s.tokenAt (a, stamp) = true) (hlinks : s.linksAt a.toNat < 32) (hfree : s.freeBerth = some n) :
    s.sightPhone token [(a, stamp)] =
      ((((s.upBt fun b => { b with sightings := (token, s.tide.number) :: b.sightings }).sight 0 a stamp).1.modSe n
        fun b => { b with token := token }).openLink a.toNat (some n) false) := by
  have hfree' : (s.upBt fun b => { b with sightings := (token, s.tide.number) :: b.sightings }).freeBerth = some n := hfree
  have hheard : heardOrder ([(a, stamp)].filter s.tokenAt) = [(a, stamp)] := by
    simp [ht, heardOrder, orderBy, insertBefore]
  have hlinks' : (s.upBt fun b => { b with sightings := (token, s.tide.number) :: b.sightings }).linksAt a.toNat < 32 := hlinks
  unfold State.sightPhone
  rw [hheard]
  simp [hlinks', State.sight_of_freeBerth 0 a stamp hfree']

/-! Advertising. -/

/-- An event with the synthesiser locked and no test on the chain goes out at once (R283, R306). -/
theorem State.advertise_of_locked {s : State} (x : BleSense) (htest : s.nb.testUntil ≤ s.now)
    (hheld : (s.nb.held.any fun h => h.kind == 3#2) = false) (htuner : s.nb.tuner ≠ 2#2) (hpll : s.nb.blePll = .locked) :
    s.advertise x = (s.bleMeasured x.temp x.vrf2).advSent x.rl s.now := by
  rw [State.advertise, State.bleTakes_of_no_test htest hheld]
  exact State.bleSend_of_locked _ _ htuner hpll

/-- An event waits while the synthesiser locks or calibrates (R278). -/
theorem State.advertise_of_waiting {s : State} (x : BleSense) (htest : s.nb.testUntil ≤ s.now)
    (hheld : (s.nb.held.any fun h => h.kind == 3#2) = false) (htuner : s.nb.tuner ≠ 2#2)
    (hpll : s.nb.blePll = .locking ∨ s.nb.blePll = .calibrating) :
    s.advertise x = (s.bleMeasured x.temp x.vrf2).upNb fun b => { b with
      held := b.held ++ [{ kind := 0#2, planned := s.now, tol := ms 10, ref := x.rl.toNat }], txState := 1#2 } := by
  rw [State.advertise, State.bleTakes_of_no_test htest hheld]
  exact State.bleSend_of_waiting _ _ htuner hpll

/-! Connection events. -/

/-- A connection event of link `k` (R279, R285, R286): what CONNECTION_EVENT runs once the link is open. -/
def State.linkEvent (s : State) (k : Nat) (rl : BitVec 8) (peer : List PeerPdu) : State :=
  let l := s.nb.links.getD k Link.reset
  if l.anchor ≠ s.cfg.anchor then
    if s.soundsOver l && !s.mustServe l then s else (s.serveFrames k).peerPdus k peer
  else if s.soundsOver l && !s.mustServe l then s.upNb fun b => { b with skipped := satInc b.skipped }
  else if l.periph && (s.nb.blePll == .locking || s.nb.blePll == .calibrating) then s.bleTakes.answerLate
  else s.bleTakes.bleSend { kind := 1#2, planned := s.now, tol := us 2, ref := k }
    fun s => (s.serveLink k rl s.now).peerPdus k peer

theorem exec_connectionEvent_of_link {s : State} {k : Nat} (rl : BitVec 8) (peer : List PeerPdu) (hrun : s.bleRuns = true)
    (hpow : s.tide.power ≠ .standby) (hk : k < s.nb.links.length)
    (hchain : (s.nb.links.getD k Link.reset).anchor = s.cfg.anchor → s.bleChain = true) :
    Sys2Proof.Machine.exec (.connectionEvent k rl peer) s = .next (s.linkEvent k rl peer) := by
  refine whenDo_next ?_ (if_pos hk)
  have hle : k ≤ s.nb.links.length := hk.le
  have hown : (!(decide (s.nb.links.length ≤ k) || (s.nb.links.getD k Link.reset).anchor == s.cfg.anchor) || s.bleChain) = true := by
    by_cases hanchor : (s.nb.links.getD k Link.reset).anchor = s.cfg.anchor
    · rw [hchain hanchor, Bool.or_true]
    · simpa [hk] using Or.inl hanchor
  rw [hrun, hown]
  simp [hpow, hle]

theorem exec_connectionEvent_new {s : State} (rl : BitVec 8) (peer : List PeerPdu) (hrun : s.bleRuns = true)
    (hchain : s.bleChain = true) (hpow : s.tide.power ≠ .standby) (hberths : s.berthsRun = true ∨ s.isTender = true)
    (hlinks : s.linksAt s.cfg.anchor < 32) :
    Sys2Proof.Machine.exec (.connectionEvent s.nb.links.length rl peer) s =
      .next ((s.openLink s.cfg.anchor none true).linkEvent s.nb.links.length rl peer) := by
  refine whenDo_next (by simp [hrun, hchain, hpow]) ?_
  rw [if_neg (Nat.lt_irrefl _), if_pos (by simpa [hlinks] using hberths)]
  rfl

/-- An event on this anchor's own chain is served at once with the synthesiser locked (R279, R285). -/
theorem State.linkEvent_of_served {s : State} {k : Nat} (rl : BitVec 8) (peer : List PeerPdu)
    (hanchor : (s.nb.links.getD k Link.reset).anchor = s.cfg.anchor)
    (hover : s.soundsOver (s.nb.links.getD k Link.reset) = false) (htest : s.nb.testUntil ≤ s.now)
    (hheld : (s.nb.held.any fun h => h.kind == 3#2) = false) (htuner : s.nb.tuner ≠ 2#2) (hpll : s.nb.blePll = .locked) :
    s.linkEvent k rl peer = (s.serveLink k rl s.now).peerPdus k peer := by
  refine (if_neg (by simpa using hanchor)).trans ((if_neg (by rw [hover]; exact Bool.false_ne_true)).trans ((if_neg (by simp [hpll])).trans ?_))
  rw [State.bleTakes_of_no_test htest hheld]
  exact State.bleSend_of_locked _ _ htuner hpll

/-- An event of a link that a tender holds is served there (log entry 48). -/
theorem State.linkEvent_of_far {s : State} {k : Nat} (rl : BitVec 8) (peer : List PeerPdu)
    (hanchor : (s.nb.links.getD k Link.reset).anchor ≠ s.cfg.anchor)
    (hover : s.soundsOver (s.nb.links.getD k Link.reset) = false) :
    s.linkEvent k rl peer = (s.serveFrames k).peerPdus k peer :=
  (if_pos hanchor).trans (if_neg (by rw [hover]; exact Bool.false_ne_true))

/-- A link that sounding keeps from its event counts it as skipped (R142). -/
theorem State.linkEvent_of_sounding {s : State} {k : Nat} (rl : BitVec 8) (peer : List PeerPdu)
    (hanchor : (s.nb.links.getD k Link.reset).anchor = s.cfg.anchor)
    (hover : s.soundsOver (s.nb.links.getD k Link.reset) = true)
    (hmust : s.mustServe (s.nb.links.getD k Link.reset) = false) :
    s.linkEvent k rl peer = s.upNb fun b => { b with skipped := satInc b.skipped } :=
  (if_neg (by simpa using hanchor)).trans (if_pos (by rw [hover, hmust]; rfl))

/-- A packet that must answer while the synthesiser locks is late (R279). -/
theorem State.linkEvent_of_locking {s : State} {k : Nat} (rl : BitVec 8) (peer : List PeerPdu)
    (hanchor : (s.nb.links.getD k Link.reset).anchor = s.cfg.anchor)
    (hover : s.soundsOver (s.nb.links.getD k Link.reset) = false)
    (hperiph : (s.nb.links.getD k Link.reset).periph = true) (htest : s.nb.testUntil ≤ s.now)
    (hheld : (s.nb.held.any fun h => h.kind == 3#2) = false) (hpll : s.nb.blePll = .locking) :
    s.linkEvent k rl peer = s.answerLate := by
  refine (if_neg (by simpa using hanchor)).trans ((if_neg (by rw [hover]; exact Bool.false_ne_true)).trans ((if_pos (by rw [hperiph, hpll]; rfl)).trans ?_))
  rw [State.bleTakes_of_no_test htest hheld]

/-- A link opened by the phone is the last one and has this device's part only in answering (R286). -/
theorem State.openLink_periph (s : State) (a : Nat) (berth : Option Nat) :
    s.openLink a berth true = { s with nb := { s.nb with links := s.nb.links ++ [{ Link.reset with
      anchor := a, berth := berth, openAt := s.now, periph := true, interval := s.nb.interval.force, supervision := s.now }] } } := by
  simp [State.openLink, State.upNb]

/-- Settles O44: each row of the link layer by the case of the chain it meets. -/
theorem bleLinks : Obligations.BleLinks := by
  refine ⟨fun s company typ fleet token heard h => State.whenDo_not s _ ?_,
    fun s token heard hrun hpow => whenDo_next (by simp [hrun]) (if_pos hpow),
    fun s token a stamp n hrun hberths hpow htoken hnew ht hlinks hfree => whenDo_next (by simp [hrun]) ?_,
    fun s x hrun hchain htaken hpow hwake hel htest hheld htuner hpll => whenDo_next (by simp [hrun, hchain, htaken, hpow, hel, hwake]) ?_,
    fun s x hrun hchain htaken hpow hel htest hheld htuner => ?_,
    fun s hrun hchain htaken hpow hscan c d hcd hc => whenDo_next (by simp [hrun, hchain, htaken, hpow, hscan]) ?_,
    fun s k rl peer hrun hpow hk => ?_, fun s rl peer hrun hchain hpow hberths hlinks hcs htest hheld htuner hpll => ?_,
    fun s k l hl hperiph hhello hopen => ?_, fun s n k hk => ?_⟩
  · rcases h with h | h | h <;> simp [h]
  · rw [if_neg hpow, if_neg (by simp [hberths, htoken, hnew])]
    exact State.sightPhone_of_one ht hlinks hfree
  · exact State.advertise_of_locked x htest (by simp [State.upTide, State.upNb, hheld]) htuner hpll
  · have hcond : (s.bleRuns && s.bleChain && !s.bleTaken && s.tide.power != .standby && s.elapsed s.tide.burstAt (ms 100)) = true := by
      simp [hrun, hchain, htaken, hpow, State.elapsed, hel]
    exact ⟨fun hpll => whenDo_next hcond (State.advertise_of_locked x htest hheld htuner hpll),
      fun hpll => whenDo_next hcond (State.advertise_of_waiting x htest hheld htuner hpll)⟩
  · simp only [List.mem_cons, List.not_mem_nil, or_false, Prod.mk.injEq] at hcd
    rcases hcd with ⟨rfl, rfl⟩ | ⟨rfl, rfl⟩ | ⟨rfl, rfl⟩ <;> rw [State.upNb, State.upNb, hc] <;> rfl
  · refine ⟨fun ha hchain hover htest hheld htuner hpll => ?_, fun ha hover => ?_, fun ha hchain hover hsup => ?_,
      fun ha hchain hover hperiph htest hheld hpll => ?_⟩
    · rw [exec_connectionEvent_of_link rl peer hrun hpow hk fun _ => hchain,
        State.linkEvent_of_served rl peer ha hover htest hheld htuner hpll]
    · rw [exec_connectionEvent_of_link rl peer hrun hpow hk fun h => absurd h ha, State.linkEvent_of_far rl peer ha hover]
    · rw [exec_connectionEvent_of_link rl peer hrun hpow hk fun _ => hchain,
        State.linkEvent_of_sounding rl peer ha hover (decide_eq_false (by omega))]
    · rw [exec_connectionEvent_of_link rl peer hrun hpow hk fun _ => hchain,
        State.linkEvent_of_locking rl peer ha hover hperiph htest hheld hpll]
      rfl
  · have hopen := State.openLink_periph s s.cfg.anchor none
    have hlast : ((s.openLink s.cfg.anchor none true).nb.links.getD s.nb.links.length Link.reset).anchor = s.cfg.anchor := by
      simp [hopen]
    rw [exec_connectionEvent_new rl peer hrun hchain hpow hberths hlinks,
      State.linkEvent_of_served rl peer (by rw [hlast, hopen]) (by simp [State.soundsOver, hopen, hcs]) (by simpa [hopen] using htest)
        (by simpa [hopen] using hheld) (by simpa [hopen] using htuner) (by simpa [hopen] using hpll)]
    rw [show (s.openLink s.cfg.anchor none true).now = s.now by rw [hopen]]
  · change execHelloTimeout k s = _
    rw [execHelloTimeout, hl]
    exact State.whenDo_of s _ (by simp [hperiph, hhello, State.elapsed, hopen])
  · change execBleDisconnection n s = _
    rw [execBleDisconnection, hk]
    rfl

/-! Access-service frames. -/

theorem List.modify_modify_same {α : Type} (l : List α) (k : Nat) (f g : α → α) :
    (l.modify k f).modify k g = l.modify k (fun x => g (f x)) := by
  refine List.ext_getElem? fun i => ?_
  rw [List.getElem?_modify, List.getElem?_modify, List.getElem?_modify]
  by_cases h : k = i <;> simp [h, Function.comp_def]

theorem State.modLink_modLink (s : State) (k : Nat) (f g : Link → Link) :
    (s.modLink k f).modLink k g = s.modLink k fun x => g (f x) := by
  simp [State.modLink, State.upNb, List.modify_modify_same]

/-- The first HELLO of a berth's own phone identifies the berth (R289). -/
theorem State.helloOn_of_first {s : State} {k n : Nat} {l : Link} (token cred : BitVec 64) (gen caps : BitVec 8) (tk : BitVec 16)
    (hrole : s.cfg.role ≠ .tender) (hframes : l.frames = 0) (hberth : l.berth = some n) (hst : (s.berth n).id.st = .sighted) :
    s.helloOn k l token cred gen caps tk =
      (s.modLink k fun x => { x with frames := x.frames + 1, hello := true }).helloBerth n cred gen caps tk := by
  have hin : (s.frameIn k).modLink k (fun x => { x with hello := x.hello || true }) =
      s.modLink k fun x => { x with frames := x.frames + 1, hello := true } := by
    simp [State.frameIn, State.modLink_modLink]
  have hfirst : (l.frames == 0) = true := by simp [hframes]
  unfold State.helloOn
  simp only [hfirst]
  rw [hin, hberth]
  exact (if_neg (by simpa [State.isTender, State.modLink, State.upNb] using hrole)).trans
    (if_pos (by simpa [State.berthIs, State.modLink, State.upNb, State.berth] using hst))

/-- A frame that a berth's phone may send in its state is judged as such (R289). -/
theorem State.phoneFrame_of_link {s t : State} {n k : Nat} {ok : Bool} {eff : State → State} (hk : s.linkOf n = some k)
    (hrun : s.berthsRun = true) (hmoored : s.moored 5 = true) (hok : ok = true) (ht : eff (s.frameIn k) = t) :
    s.phoneFrame n ok eff = .next t := by
  subst hok ht
  rw [State.phoneFrame, hk]
  exact whenDo_next (by simp [hrun, hmoored]) rfl

/-- Settles O45: each frame reaches its judgement over the link of its berth, and its key where it has a MAC. -/
theorem bleFrames : Obligations.BleFrames := by
  refine ⟨fun s k n l token cred gen caps tk hrun hm hl hframes hberth hst => ?_,
    fun s n k mac hrun hm hk hst hkind hsent hserve => ?_, fun s n hrun hm hkind hst henc => State.whenDo_of s _ (by simp [*]),
    fun s n k j mac hrun hm hk hsent hst hsid hserve hadm hmac => ?_,
    fun s n k j seq a field mac hrun hm hk hst hpolled hlen hsid hseq hcount hserve hadm hmac => ?_,
    fun s n reason k hrun hm hk hst => ?_, fun s k typ len hrun hm hk htyp => State.whenDo_of s _ ?_⟩
  · change execHello k token cred gen caps tk s = _
    rw [execHello, hl]
    exact whenDo_next (by simp [hrun, hm])
      (State.helloOn_of_first token cred gen caps tk (State.role_of_berthsRun hrun) hframes hberth hst)
  · have hok : ((s.berth n.toNat).id.st == .hailed && (s.berth n.toNat).id.kind == 0#3 && (s.berth n.toNat).se.challengeSent) = true := by
      simp [hst, hkind, hsent]
    have hexec : Sys2Proof.Machine.exec (.bleResponse n mac) s = execBleResponse n mac s := rfl
    rw [hexec]
    unfold execBleResponse
    refine ⟨fun hadm hmac => State.phoneFrame_of_link hk hrun hm hok ?_, fun hadm hmac => State.phoneFrame_of_link hk hrun hm hok ?_,
      fun hadm => State.phoneFrame_of_link hk hrun hm hok ?_⟩
    · exact (State.withKey_of_admits (s := s.frameIn k) _ _ _ _ hserve hadm).trans (if_pos hmac)
    · exact (State.withKey_of_admits (s := s.frameIn k) _ _ _ _ hserve hadm).trans (if_neg hmac)
    · exact State.withKey_of_refuses (s := s.frameIn k) _ _ _ _ hserve hadm
  · change execReady n (s.sidOf j) mac s = _
    unfold execReady
    refine State.phoneFrame_of_link hk hrun hm ?_ ?_
    · rcases hst with hst | ⟨hst, hready⟩
      · simp [hsent, hst]
      · simp [hsent, hst, hready]
    · rw [hsid]
      refine (State.withKey_of_admits (s := s.frameIn k) _ _ _ _ hserve hadm).trans (if_pos ⟨?_, hmac⟩)
      rw [State.sidOf, State.keyJob_bt]
      rfl
  · change execFieldFrame n _ seq a field mac s = _
    unfold execFieldFrame
    refine State.phoneFrame_of_link hk hrun hm (by simp [hst, hpolled, hlen]) ?_
    rw [hsid, matchCount_expected hcount]
    exact (State.withKey_of_admits (s := s.frameIn k) _ _ _ _ hserve hadm).trans (if_pos ⟨hseq, hmac⟩)
  · change execClose n reason s = _
    unfold execClose
    exact State.phoneFrame_of_link hk hrun hm hst rfl
  · rcases htyp with rfl | htyp | ⟨hberth, htyp⟩
    · simp [hrun, hm, hk]
    · have hne (i : Nat) (hi : i < 8) : (typ == BitVec.ofNat 8 i) = false := by
        refine beq_eq_false_iff_ne.mpr fun h => ?_
        rw [h, BitVec.toNat_ofNat] at htyp
        omega
      rw [hrun, hm, hne 1 (by decide), hne 3 (by decide), hne 5 (by decide), hne 6 (by decide), hne 7 (by decide)]
      simp [hk]
    · have hlink : s.nb.links[k]? = some s.nb.links[k] := List.getElem?_eq_getElem hk
      rw [hlink]
      have hnone : s.nb.links[k].berth = none := by simpa [hlink] using hberth
      simp [hrun, hm, hk, hnone, htyp]

end Sys2Proof.Machine
end

section
/-! SUPPORT. Narrowband synthesisers, held transmissions, channel sounding and test frames (R273 to R279, R299 to R310). -/

namespace Sys2Proof.Machine

/-! Events of one source (R669). -/

theorem Intc.pend_of_pending {i : Intc} {n : Nat} (hn : n < 64) (h : i.pending.getLsbD n = true) : i.pend n = i := by
  have hset : setBit i.pending n true = i.pending := by
    refine BitVec.eq_of_getLsbD_eq fun m hm => ?_
    by_cases hmn : m = n
    · rw [hmn, setBit_here _ _ _ hn, h]
    · exact setBit_other _ true hmn
  rw [Intc.pend, hset]

/-- A second event of a source finds its pending bit set and its target chosen (R669, R672). -/
theorem Intc.event_event (i : Intc) {n : Nat} (hn : n < 64) : (i.event n).event n = i.event n := by
  have hpend : (i.event n).pend n = i.event n :=
    Intc.pend_of_pending hn ((congrArg (·.getLsbD n) (i.event_frame hn).1).trans (setBit_here _ n true hn))
  rcases (i.event n).event_cases hn with ⟨-, he⟩ | ⟨-, -, he⟩ | ⟨u, hfree, hchoose, he⟩
  · rw [he, hpend]
  · rw [he, hpend]
  · exfalso
    obtain ⟨hfree', hi⟩ | ⟨-, hnone, hi⟩ | ⟨w, -, hsome, hi⟩ := i.event_cases hn
    · rw [hi, Intc.free_pend, hfree'] at hfree
      exact Bool.false_ne_true hfree
    · rw [hi, Intc.choose_pend, hnone] at hchoose
      cases hchoose
    · have hw : w < 3 := (Intc.choose_eq_some hsome).1
      have hset := Intc.assigned_of_free hfree w
      rw [hi, Intc.assigned_assignTo _ _ hw hw, if_pos rfl, setBit_here _ _ _ hn] at hset
      exact Bool.false_ne_true hset.symm

/-! Transmissions that come too late. -/

/-- What late transmissions leave of the radio (R278, R279). -/
def Delayed (s t : State) : Prop :=
  t = { s with
    nb := { s.nb with
      txState := t.nb.txState, txLast := t.nb.txLast, late := t.nb.late, csWait := t.nb.csWait, csNext := t.nb.csNext
      skipped := t.nb.skipped }
    intc := t.intc } ∧ s.nb.csNext ⊆ t.nb.csNext

theorem Delayed.refl (s : State) : Delayed s s := ⟨rfl, List.Subset.refl _⟩

theorem Delayed.trans {s t u : State} (h : Delayed s t) (h' : Delayed t u) : Delayed s u := by
  obtain ⟨heq, hsub⟩ := h
  obtain ⟨heq', hsub'⟩ := h'
  refine ⟨?_, List.Subset.trans hsub hsub'⟩
  rw [heq', heq]

theorem delayed_bleLate (s : State) (h : HeldTx) : Delayed s (s.bleLate h) := by
  refine ⟨rfl, fun n hn => ?_⟩
  by_cases hkind : h.kind = 2#2
  · simpa [State.bleLate, State.upNb, hkind] using Or.inl hn
  · simpa [State.bleLate, State.upNb, hkind] using hn

/-- A sounding procedure that is late is tried again at the next tide (R279). -/
theorem mem_csNext_bleLate (s : State) {h : HeldTx} (hkind : h.kind = 2#2) : h.ref ∈ (s.bleLate h).nb.csNext := by
  simp [State.bleLate, State.upNb, hkind]

theorem delayed_foldl (l : List HeldTx) (s : State) : Delayed s (l.foldl State.bleLate s) := by
  induction l generalizing s with
  | nil => exact Delayed.refl s
  | cons h l ih => exact (delayed_bleLate s h).trans (ih _)

theorem mem_csNext_foldl {l : List HeldTx} {h : HeldTx} (s : State) (hmem : h ∈ l) (hkind : h.kind = 2#2) :
    h.ref ∈ (l.foldl State.bleLate s).nb.csNext := by
  induction l generalizing s with
  | nil => cases hmem
  | cons x l ih =>
    rcases List.mem_cons.mp hmem with rfl | hmem
    · exact (delayed_foldl l _).2 (mem_csNext_bleLate s hkind)
    · exact ih _ hmem

/-- However many transmissions are late in one step, source 28 is pending as after one event. -/
theorem State.foldl_bleLate_intc (l : List HeldTx) {s : State} (h : s.intc.event 28 = s.intc) :
    (l.foldl State.bleLate s).intc = s.intc := by
  induction l generalizing s with
  | nil => rfl
  | cons x l ih =>
    have hx : (s.bleLate x).intc = s.intc := h
    rw [List.foldl_cons, ih (s := s.bleLate x) (by rw [hx, h]), hx]

/-! Packets. -/

/-- What measured packets leave of the radio: the tuner and the count of packets change (R307). -/
def Measured (s t : State) (k : Nat) : Prop :=
  t = { s with
    nb := { s.nb with
      tunerRl := t.nb.tunerRl, tunerRun := t.nb.tunerRun, tuner := t.nb.tuner, tunerLatch := t.nb.tunerLatch
      tunerSeries := t.nb.tunerSeries, tunerShunt := t.nb.tunerShunt, measured := s.nb.measured + k }
    intc := t.intc }

theorem measured_packet (s : State) (rl : BitVec 8) : Measured s (s.packetMeasured rl) 0 := by
  unfold Measured State.packetMeasured
  dsimp only
  rw [State.latchIf_eq]
  rfl

theorem Measured.trans {s t u : State} {j k : Nat} (h : Measured s t j) (h' : Measured t u k) : Measured s u (j + k) := by
  unfold Measured at h h' ⊢
  rw [h', h, Nat.add_assoc]

theorem measured_count (s : State) : Measured s (s.upNb fun b => { b with measured := b.measured + 1 }) 1 := rfl

theorem freePackets_succ (s : State) (k : Nat) :
    s.freePackets (k + 1) = ((s.freePackets k).packetMeasured (Config.returnLoss (s.freePackets k).nb.measured)).upNb fun b =>
      { b with measured := b.measured + 1 } := by
  simp [State.freePackets, List.range_succ]

theorem measured_freePackets (s : State) (k : Nat) : Measured s (s.freePackets k) k := by
  induction k with
  | zero => rfl
  | succ k ih =>
    rw [freePackets_succ]
    exact ih.trans ((measured_packet _ _).trans (measured_count _))

/-- The amplifier enables are pins (R142, R215). -/
theorem State.enableAmp_eq (s : State) (f : BitVec 8) (p a b : Nat) :
    s.enableAmp f p a b = { s with pins := (s.enableAmp f p a b).pins } := by
  unfold State.enableAmp
  split <;> rfl

theorem State.bleOn_eq (s : State) (power : BitVec 6) (a b : Nat) :
    s.bleOn power a b = { s with
      nb := { s.nb with txState := 0#2, txLast := 1#2, applied := s.powerCode power, txFrom := a, txUntil := b }
      pins := (s.bleOn power a b).pins } := by
  unfold State.bleOn
  rw [State.enableAmp_eq]
  rfl

/-! Synthesisers. -/

/-- With nothing held the BLE synthesiser locks, and that is all (R277). -/
theorem State.serveHeldTx_of_none {s : State} (h : s.nb.held = []) :
    s.serveHeldTx = s.upNb fun b => { b with blePll := .locked } := by
  unfold State.serveHeldTx State.bleLocked State.upNb
  simp [h]

/-- What was held beyond its tolerance is late (R278). -/
theorem State.serveHeldTx_of_late {s : State} {h : HeldTx} (hheld : s.nb.held = [h])
    (hlate : h.planned + h.tol ≤ s.now + us 2) : s.serveHeldTx = s.bleLocked.bleLate h := by
  unfold State.serveHeldTx
  simp [hheld, Nat.not_lt.mpr hlate]

/-- A good calibration locks its synthesiser and stores its temperature (R274, R275). -/
theorem State.synthCalibrated_facts {s : State} {w : Nat} (temp : BitVec 16) (irr : List (BitVec 8)) (hw : w < 3)
    (hheld : w ≠ 0 ∨ s.nb.held = []) :
    ∃ b, s.synthCalibrated w temp irr = { s with nb := b } ∧ b.pll w = .locked ∧ b.calTemp w = temp ∧
      (∀ v, v < 3 → v ≠ w → b.pll v = s.nb.pll v ∧ b.calTemp v = s.nb.calTemp v) ∧ b.links = s.nb.links := by
  have hother {b : Nb} (h : ∀ v : Fin 3, v.1 ≠ w → b.pll v = s.nb.pll v ∧ b.calTemp v = s.nb.calTemp v) :
      ∀ v, v < 3 → v ≠ w → b.pll v = s.nb.pll v ∧ b.calTemp v = s.nb.calTemp v := fun v hv hne => h ⟨v, hv⟩ hne
  interval_cases w
  · have hnone : s.nb.held = [] := hheld.resolve_left (by decide)
    refine ⟨_, (State.serveHeldTx_of_none (by exact hnone)).trans rfl, rfl, rfl, hother fun v hv => ?_, rfl⟩
    fin_cases v
    · exact absurd rfl hv
    · exact ⟨rfl, rfl⟩
    · exact ⟨rfl, rfl⟩
  · refine ⟨_, rfl, rfl, rfl, hother fun v hv => ?_, rfl⟩
    fin_cases v
    · exact ⟨rfl, rfl⟩
    · exact absurd rfl hv
    · exact ⟨rfl, rfl⟩
  · refine ⟨_, rfl, rfl, rfl, hother fun v hv => ?_, rfl⟩
    fin_cases v
    · exact ⟨rfl, rfl⟩
    · exact ⟨rfl, rfl⟩
    · exact absurd rfl hv

theorem State.dropHeld_of_none {s : State} (h : s.nb.held = []) : s.dropHeld = s := by
  unfold State.dropHeld
  rw [h]
  change { s with nb := { s.nb with held := [] } } = s
  rw [← h]

/-- A failed calibration is tried up to three times, and then is FAIL (R277). -/
theorem State.synthFailed_facts {s : State} {w : Nat} (hw : w < 3) (hpll : s.nb.pll w = .calibrating)
    (hheld : w ≠ 0 ∨ s.nb.held = []) :
    ∃ b, s.synthFailed w = { s with nb := b } ∧ b.pll w = (if s.nb.calTries.getD w 0 < 2 then .calibrating else .fail) ∧
      b.calTemp w = s.nb.calTemp w := by
  unfold State.synthFailed
  by_cases htry : s.nb.calTries.getD w 0 < 2
  · refine ⟨_, if_pos (Nat.succ_lt_succ htry), ?_, rfl⟩
    rw [if_pos htry]
    exact hpll
  · rw [if_neg (fun h => htry (Nat.lt_of_succ_lt_succ h)), if_neg htry]
    interval_cases w
    · have hnone : s.nb.held = [] := hheld.resolve_left (by decide)
      exact ⟨_, State.dropHeld_of_none (by exact hnone), rfl, rfl⟩
    · exact ⟨_, rfl, rfl, rfl⟩
    · exact ⟨_, rfl, rfl, rfl⟩

/-- The source of a synthesiser by its number (R308). -/
theorem synthSource_eq (w : BitVec 2) : synthSource w.toNat = if w = 0#2 then 28 else 29 := by
  unfold synthSource
  simp [← BitVec.toNat_inj]

/-! The loss of lock. -/

/-- The procedures that run on this device's own chain (R273, R279). -/
def State.ownSoundings (s : State) : List (Nat × BitVec 32) :=
  s.nb.csRunning.filter fun c => s.isTender || s.linkAnchor c.1 == s.cfg.anchor

/-- What the loss of lock leaves of the radio (R278, R279). -/
def State.cutShort (s : State) : State :=
  s.upNb fun b => { b with
    csRunning := b.csRunning.filter fun c => !s.ownSoundings.contains c, testUntil := 0, txUntil := min b.txUntil s.now
    scanUntil := min b.scanUntil s.now }

/-- The procedures on the air and the test are late once the synthesiser has lost its lock (R278, R279). -/
theorem State.bleStops_eq (s : State) :
    ∃ l : List HeldTx, s.bleStops = l.foldl State.bleLate s.cutShort ∧
      ∀ c ∈ s.ownSoundings, { kind := 2#2, planned := s.now, tol := 32, ref := c.1 : HeldTx } ∈ l := by
  let l := s.ownSoundings.map fun c => { kind := 2#2, planned := s.now, tol := 32, ref := c.1 : HeldTx }
  have hmem : ∀ c ∈ s.ownSoundings, { kind := 2#2, planned := s.now, tol := 32, ref := c.1 : HeldTx } ∈ l :=
    fun c hc => List.mem_map_of_mem hc
  by_cases htest : decide (s.now < s.nb.testUntil) = true
  · refine ⟨l ++ [{ kind := 3#2, planned := (l.foldl State.bleLate s.cutShort).now, tol := us 100, ref := 0 }], ?_,
      fun c hc => List.mem_append_left _ (hmem c hc)⟩
    rw [List.foldl_append]
    exact if_pos htest
  · exact ⟨l, if_neg htest, hmem⟩

/-- What the loss of lock cuts short waits for the next tide; source 28 stays pending (R278, R279). -/
theorem State.bleStops_facts {s : State} (hintc : s.intc.event 28 = s.intc) :
    ∃ b, s.bleStops = { s with nb := b } ∧ (∀ v, b.pll v = s.nb.pll v) ∧ b.testUntil = 0 ∧
      (∀ c ∈ b.csRunning, c ∈ s.nb.csRunning ∧ s.isTender = false ∧ s.linkAnchor c.1 ≠ s.cfg.anchor) ∧
      ∀ c ∈ s.nb.csRunning, c ∈ b.csRunning ∨ c.1 ∈ b.csNext := by
  obtain ⟨l, hl, hmem⟩ := State.bleStops_eq s
  have hfold := (delayed_foldl l s.cutShort).1
  have hrunning : (l.foldl State.bleLate s.cutShort).nb.csRunning =
      s.nb.csRunning.filter fun c => !s.ownSoundings.contains c := by
    rw [hfold]
    rfl
  have hown (c : Nat × BitVec 32) : c ∈ s.ownSoundings ↔
      c ∈ s.nb.csRunning ∧ (s.isTender || s.linkAnchor c.1 == s.cfg.anchor) = true := List.mem_filter
  refine ⟨(l.foldl State.bleLate s.cutShort).nb, ?_, fun v => ?_, ?_, fun c hc => ?_, fun c hc => ?_⟩
  · rw [hl, hfold, State.foldl_bleLate_intc l (s := s.cutShort) hintc]
    rfl
  · rw [hfold]
    rfl
  · rw [hfold]
    rfl
  · rw [hrunning, List.mem_filter] at hc
    obtain ⟨hc, hnot⟩ := hc
    have hother : ¬ (s.isTender || s.linkAnchor c.1 == s.cfg.anchor) = true := fun h => by
      simp [(hown c).mpr ⟨hc, h⟩] at hnot
    simp only [Bool.or_eq_true, beq_iff_eq, not_or, Bool.not_eq_true] at hother
    exact ⟨hc, hother⟩
  · by_cases h : c ∈ s.ownSoundings
    · exact .inr (mem_csNext_foldl s.cutShort (hmem c h) rfl)
    · refine .inl ?_
      rw [hrunning, List.mem_filter]
      exact ⟨hc, by simp [h]⟩

theorem Nb.pll_setPll_same {b : Nb} {w : Nat} (p : Pll) (hw : w < 3) : (b.setPll w p).pll w = p := by
  interval_cases w <;> rfl

theorem Nb.pll_setPll_ne {b : Nb} {v w : Nat} (p : Pll) (hv : v < 3) (hw : w < 3) (h : v ≠ w) :
    (b.setPll w p).pll v = b.pll v := by
  interval_cases w
  · rcases (by omega : v = 1 ∨ v = 2) with rfl | rfl <;> rfl
  · rcases (by omega : v = 0 ∨ v = 2) with rfl | rfl <;> rfl
  · rcases (by omega : v = 0 ∨ v = 1) with rfl | rfl <;> rfl

/-! Channel sounding. -/

/-- A procedure on this device's own chain, with the synthesiser locked, begins at once (R301, R307). -/
theorem State.soundHere_facts {s : State} (n : Nat) (htest : s.nb.testUntil ≤ s.now)
    (hheld : (s.nb.held.any fun h => h.kind == 3#2) = false) (htuner : s.nb.tuner ≠ 2#2) (hpll : s.nb.blePll = .locked) :
    ∀ t, t = s.soundHere n → n ∉ t.nb.csWait ∧ t.nb.csRunning = (n, s.tide.number) :: s.nb.csRunning ∧
      t.nb.applied = s.powerCode s.nb.connPower.force ∧ t.nb.txLast = 1#2 ∧ t.nb.txFrom = s.now ∧
      t.nb.txUntil = s.now + ms 10 ∧ t.nb.scanUntil = min s.nb.scanUntil s.now ∧ t.nb.measured = s.nb.measured + 3 ∧
      t = { s with nb := t.nb, pins := t.pins, intc := t.intc } := by
  rintro t rfl
  have hhere : s.soundHere n = (((s.soundBegin n).scanEnds s.now).bleOn s.nb.connPower.force s.now (s.now + ms 10)).freePackets 3 := by
    rw [State.soundHere, State.bleTakes_of_no_test htest hheld]
    exact State.bleSend_of_locked _ _ htuner hpll
  have hpackets := measured_freePackets (((s.soundBegin n).scanEnds s.now).bleOn s.nb.connPower.force s.now (s.now + ms 10)) 3
  rw [← hhere, Measured, State.bleOn_eq] at hpackets
  have hwait : (s.soundHere n).nb.csWait = s.nb.csWait.filter (· != n) := by
    rw [hpackets]
    rfl
  refine ⟨?_, ?_, ?_, ?_, ?_, ?_, ?_, ?_, ?_⟩
  · rw [hwait]
    simp
  all_goals
    rewrite [hpackets]
    rfl

theorem length_insertBefore {α : Type} (before : α → α → Bool) (x : α) (l : List α) :
    (insertBefore before x l).length = l.length + 1 := by
  induction l with
  | nil => rfl
  | cons y l ih =>
    unfold insertBefore
    split
    · rfl
    · rw [List.length_cons, ih, List.length_cons]

theorem length_orderBy {α : Type} (before : α → α → Bool) (l : List α) : (orderBy before l).length = l.length := by
  have hfold (acc : List α) : (l.foldl (fun acc x => insertBefore before x acc) acc).length = acc.length + l.length := by
    induction l generalizing acc with
    | nil => rfl
    | cons x l ih => rw [List.foldl_cons, ih, length_insertBefore, List.length_cons, Nat.add_right_comm, Nat.add_assoc]
  exact (hfold []).trans (Nat.zero_add _)

/-- Fewer than two valid chains give no range (R302). -/
theorem phaseRange_of_short {v : List (Nat × Rat × Nat)} (h : v.length < 2) : phaseRange v = none := by
  unfold phaseRange
  exact if_pos (by rw [length_orderBy, List.length_map]; exact h)

theorem csSet_of_some (tide : BitVec 32) {v : List (Nat × Rat × Nat)} {x : Nat × Nat} (h : phaseRange v = some x) :
    (csSet tide v).dist = BitVec.ofNat 16 x.1 ∧ (csSet tide v).spread = BitVec.ofNat 16 x.2 := by
  unfold csSet
  rw [h]
  exact ⟨rfl, rfl⟩

theorem csSet_of_none (tide : BitVec 32) {v : List (Nat × Rat × Nat)} (h : phaseRange v = none) :
    (csSet tide v).dist = 0xFFFF#16 := by
  unfold csSet
  rw [h]
  rfl

/-! Test frames. -/

theorem satInc_le {w : Nat} (v : BitVec w) : v.toNat ≤ (satInc v).toNat := by
  unfold satInc
  split
  · exact Nat.le_refl _
  · rename_i h
    have hne : v.toNat ≠ 2 ^ w - 1 := fun hv => h (BitVec.eq_of_toNat_eq (by simpa using hv))
    have hlt := v.isLt
    have hroom : v.toNat + 1 < 2 ^ w := by omega
    rw [BitVec.toNat_add, BitVec.toNat_ofNat, Nat.mod_eq_of_lt (by omega : 1 < 2 ^ w), Nat.mod_eq_of_lt hroom]
    exact Nat.le_succ _

/-- An access that makes no notice counts none (R666). -/
theorem State.oneNotice_of_none {s t : State} (h : t.port.clampCount = s.port.clampCount) : s.oneNotice t = t := by
  have hkeep : ¬ (satInc s.port.clampCount).toNat < t.port.clampCount.toNat := by
    rw [h]
    exact Nat.not_lt.mpr (satInc_le _)
  unfold State.oneNotice State.upPort
  dsimp only
  rw [if_neg hkeep]

/-- The bit that GO is lies below the fields of a test (R310). -/
theorem fieldN_or_one (v : BitVec 32) (hi lo : Nat) (hlo : 0 < lo) : fieldN (v ||| 1#32) hi lo = fieldN v hi lo := by
  have hone : (1#32).toNat >>> lo = 0 := by
    rw [Nat.shiftRight_eq_div_pow]
    exact Nat.div_eq_of_lt (Nat.one_lt_two_pow (by omega))
  unfold fieldN
  rw [BitVec.toNat_or, ← Nat.shiftRight_eq_div_pow, ← Nat.shiftRight_eq_div_pow, Nat.shiftRight_or_distrib, hone, Nat.or_zero]


/-- A write of TEST with GO and its fields in range stores them and asks for the test (R310). -/
theorem State.nbTest_go {s : State} {v : BitVec 32} (hchan : fieldN v 13 8 ≤ 39) (hframes : 1 ≤ fieldN v 31 24) :
    s.nbTest (v ||| 1#32) = s.oneNotice (s.upNb fun b => { b with
      testChan := BitVec.ofNat 6 (fieldN v 13 8), testFrames := BitVec.ofNat 8 (fieldN v 31 24) }).nbTestStart := by
  have hno : (decide (39 < fieldN v 13 8) || fieldN v 31 24 == 0) = false := by
    simp [Nat.not_lt.mpr hchan, Nat.ne_of_gt hframes]
  have hgo : (v ||| 1#32).getLsbD 0 = true := by
    rw [BitVec.getLsbD_or]
    exact Bool.or_true _
  unfold State.nbTest
  simp only [fieldN_or_one v 13 8 (by decide), fieldN_or_one v 31 24 (by decide), Nat.min_eq_left hchan, Nat.max_eq_left hframes]
  rw [hgo, if_pos rfl, hno]
  rfl

theorem State.nbTestStart_of_free {s : State} (hrun : s.nb.csRunning = []) (hheld : s.nb.held = [])
    (hlink : s.nb.linkUntil ≤ s.now) (hlife : s.tide.life ≠ .returned) (hm : s.moored 25 = true) (htuner : s.nb.tuner ≠ 2#2)
    (hpll : s.nb.blePll = .locked) : s.nbTestStart = s.runTest s.now := by
  unfold State.nbTestStart
  rw [if_neg (by simp [hrun, hheld, Nat.not_lt.mpr hlink, hlife, hm]), State.bleSend_of_locked _ _ htuner hpll]

theorem State.nbTestStart_of_busy {s : State} (h : s.nb.csRunning ≠ [] ∨ s.nb.held ≠ [] ∨ s.now < s.nb.linkUntil ∨
    s.tide.life = .returned ∨ s.moored 25 = false) : s.nbTestStart = s.notice 3 0x50040 := by
  unfold State.nbTestStart
  rw [if_pos]
  rcases h with h | h | h | h | h <;> simp [h]

theorem fieldN_lt {w : Nat} (v : BitVec w) (hi lo : Nat) : fieldN v hi lo < 2 ^ (hi + 1 - lo) :=
  Nat.mod_lt _ (Nat.two_pow_pos _)

/-- A test that starts at tick `a` (R310). -/
theorem State.runTest_facts (s : State) (a : Nat) :
    ∀ t, t = s.runTest a → t.nb.testFrames = s.nb.testFrames ∧ t.nb.testChan = s.nb.testChan ∧
      t.nb.testUntil = a + us (625 * s.nb.testFrames.toNat) ∧ t.nb.txLast = 1#2 ∧ t.nb.txUntil = t.nb.testUntil ∧
      t.nb.measured = s.nb.measured + s.nb.testFrames.toNat ∧ t = { s with nb := t.nb, pins := t.pins, intc := t.intc } := by
  rintro t rfl
  have hpackets : Measured _ (s.runTest a) _ := measured_freePackets
    (((s.bleOn s.nb.connPower.force a (a + us (625 * s.nb.testFrames.toNat))).upNb fun b =>
      { b with testUntil := a + us (625 * s.nb.testFrames.toNat) }).scanEnds a) s.nb.testFrames.toNat
  rw [Measured, State.bleOn_eq] at hpackets
  refine ⟨?_, ?_, ?_, ?_, ?_, ?_, ?_⟩
  all_goals
    rewrite [hpackets]
    rfl

/-- Settles O46: calibration, lock and loss by what each leaves of the radio; sounding and tests by the packets they measure. -/
theorem synthAndSounding : Obligations.SynthAndSounding := by
  refine ⟨fun s h => next_farWrite h rfl, fun s w hmain hpow hdue hpll hair => State.whenDo_of s _ ?_,
    fun s w temp irr hmain hw hpll hheld => ?_, fun s w temp irr hmain hw hpll hheld => ?_, fun s hmain hpll hheld => ?_,
    fun s h hmain hpll hheld hlate => ?_, fun s w hmain hw hpll => ?_,
    fun s n hcan hfits hwait hair hrole hanchor hsounds htest hheld htuner hpll => ?_,
    fun s n chains k hmain hrole hrunning hst hanchor => ?_, fun s v h => next_farWrite h rfl, fun s v h hchan hframes => ?_⟩
  · simp [hmain, hpow, hdue, hpll, hair]
  · obtain ⟨b, hb, hlocked, htemp, hother, hlinks⟩ := State.synthCalibrated_facts (s := s) temp irr hw hheld
    refine ⟨_, State.whenDo_of s _ (by simp [hmain, hw, hpll]), ?_⟩
    rw [if_pos rfl, hb, synthSource_eq]
    exact ⟨hlocked, htemp, hother, rfl, hlinks, rfl⟩
  · obtain ⟨b, hb, hstate, htemp⟩ := State.synthFailed_facts (s := s) hw hpll hheld
    refine ⟨_, State.whenDo_of s _ (by simp [hmain, hw, hpll]), ?_⟩
    rw [if_neg Bool.false_ne_true, hb, synthSource_eq]
    exact ⟨hstate, htemp, rfl, rfl⟩
  · refine ⟨(if s.nb.blePll = .locking then _ else _), State.whenDo_of s _ (by simp [hmain, hpll]), ?_⟩
    rw [if_pos hpll, State.serveHeldTx_of_none (by exact hheld)]
    exact ⟨rfl, rfl, rfl, rfl⟩
  · refine ⟨(if s.nb.blePll = .locking then _ else _), State.whenDo_of s _ (by simp [hmain, hpll]), ?_⟩
    rw [if_pos hpll, State.serveHeldTx_of_late (by exact hheld) (by exact hlate)]
    exact ⟨rfl, rfl, rfl, rfl, rfl, rfl⟩
  · refine ⟨_, State.whenDo_of s _ (by simp [hmain, hw, hpll]), ?_⟩
    rw [synthSource_eq]
    by_cases hzero : w = 0#2
    · subst hzero
      obtain ⟨b, hb, hstate, htest, hkept, hnext⟩ :=
        State.bleStops_facts (s := (s.upNb fun b => b.setPll 0 .locking).latch 28) (Intc.event_event _ (by decide))
      rw [if_pos rfl]
      refine ⟨?_, fun v hv hne => ?_, fun _ => ?_, ?_, ?_⟩
      · exact (congrArg (fun t : State => t.nb.blePll) hb).trans (hstate 0)
      · exact (congrArg (fun t : State => t.nb.pll v) hb).trans ((hstate v).trans (Nb.pll_setPll_ne (w := 0) .locking hv (by decide) hne))
      · exact hb ▸ ⟨htest, hkept, hnext⟩
      · exact congrArg State.intc hb
      · exact hb ▸ rfl
    · have hne : w.toNat ≠ 0 := fun h => hzero (BitVec.eq_of_toNat_eq h)
      rw [if_neg hne]
      exact ⟨Nb.pll_setPll_same _ hw, fun v hv hne => Nb.pll_setPll_ne _ hv hw hne, fun h => absurd h hzero, rfl, rfl⟩
  · refine ⟨s.soundHere n.toNat, ?_, State.soundHere_facts n.toNat htest hheld htuner hpll _ rfl⟩
    exact (if_neg (by simp [State.tenderSounds, hrole])).trans
      (whenDo_next (by simp [hcan, hfits, hwait, hair, hanchor, hsounds]) (if_pos hanchor))
  · have hexec {t : State} (ht : s.soundResult n.toNat k chains = t) :
        Sys2Proof.Machine.exec (.csResults n chains) s = .next t := by
      change execCsResults n chains s = _
      rw [execCsResults, hrunning]
      exact (if_neg hrole).trans (whenDo_next (by simp [hmain, hst, hanchor]) ht)
    refine ⟨fun x hx => ?_, fun hshort => ?_, fun hdist => hexec (if_neg hdist), fun hdist => hexec (if_pos hdist)⟩
    · exact csSet_of_some k hx
    · exact csSet_of_none k (phaseRange_of_short hshort)
  · have hexec {t : State} (ht : (s.reached 0x50040).oneNotice ((s.reached 0x50040).upNb fun b => { b with
        testChan := BitVec.ofNat 6 (fieldN v 13 8), testFrames := BitVec.ofNat 8 (fieldN v 31 24) }).nbTestStart = t) :
        Sys2Proof.Machine.exec (.nbradioTestGo v) s = .next t :=
      next_farWrite h ((State.nbTest_go hchan hframes).trans ht)
    refine ⟨fun hrun hheld hlink hlife hm htuner hpll => ?_, fun hbusy => ?_⟩
    · generalize hu : (s.reached 0x50040).upNb (fun b => { b with
        testChan := BitVec.ofNat 6 (fieldN v 13 8), testFrames := BitVec.ofNat 8 (fieldN v 31 24) }) = u at hexec
      have hstart : u.nbTestStart = u.runTest u.now := by
        subst hu
        exact State.nbTestStart_of_free hrun hheld hlink hlife hm htuner hpll
      obtain ⟨hfr, hch, huntil, hlast, htx, hmeas, hframe⟩ := State.runTest_facts u u.now _ rfl
      have hone : (s.reached 0x50040).oneNotice u.nbTestStart = u.runTest u.now := by
        rw [hstart]
        refine State.oneNotice_of_none ?_
        rw [hframe, ← hu]
        rfl
      have hframes' : u.nb.testFrames.toNat = fieldN v 31 24 := by
        subst hu
        exact (BitVec.toNat_ofNat _ _).trans (Nat.mod_eq_of_lt (fieldN_lt v 31 24))
      refine ⟨_, hexec hone, ?_, ?_, ?_, hlast, htx, ?_, ?_⟩
      · rw [hfr, hframes']
      · rw [hch, ← hu]
        exact (BitVec.toNat_ofNat _ _).trans (Nat.mod_eq_of_lt (fieldN_lt v 13 8))
      · rw [huntil, hframes', ← hu]
        rfl
      · rw [hmeas, hframes', ← hu]
        rfl
      · rw [hframe, ← hu]
        rfl
    · refine ⟨_, hexec rfl, ?_⟩
      rw [State.nbTestStart_of_busy (by exact hbusy)]
      exact ⟨rfl, rfl, rfl⟩

end Sys2Proof.Machine
end

section
/-! SUPPORT. Ultra-wideband ranging against an AES queue whose head is refused (R452, R494). -/

namespace Sys2Proof.Machine

/-- A job of the highest level that has not started, for a cell that holds no key: it is refused as soon as the queue moves
(R494). -/
def refusedJob : AesJob := { AesJob.reset with level := 3#2, cell := some .vehicle, feature := 0#5 }

/-- A device in FLEET with PLL U locked, whose AES queue holds the refused job. -/
def refusedQueue : State := { State.reset with
  port := { Port.reset with started := true, main := .running }
  tide := { Tide.reset with life := .fleet }
  cry := { Crypto.reset with jobs := [refusedJob] }
  uwb := { Uwb.reset with pll := .locked } }

/-- A prepared round whose CTRL this device sends. -/
def preparedRound : Round := { Round.reset with phase := .prepared, stsReady := true, slots := [refusedQueue.cfg.anchor] }

/-- The same device with the round prepared, its session MAC key held and the generator running. -/
def refusedRound : State := { refusedQueue with
  keys := { Keys.reset with slots := [{ SessSlot.reset with mac := [1#8], attr := TreeKey.sts.attr 0#8 }] }
  trng := { Trng.reset with inst := true }
  uwb := { Uwb.reset with pll := .locked, schedule := [preparedRound] } }

/-- A command leaves source 47 pending (R452). -/
def leavesViolation : Host.Outcome State Fault Refusal → Bool
  | .next t => t.intc.pending.getLsbD 47
  | _ => false

theorem uwbTestGo_leavesViolation : leavesViolation (Sys2Proof.Machine.exec (.uwbTestGo 0x01000300#32) refusedQueue) = true := by
  decide

theorem uwbCtrlTransmit_leavesViolation : leavesViolation (Sys2Proof.Machine.exec .uwbCtrlTransmit refusedRound) = true := by
  decide

/-- Refutes O47: its clause of the test frames says that a test leaves the interrupt controller alone, for every state of the
AES queue. The job that makes the STS of the frames moves the queue (R491), and where the head has not started and is
refused, its refusal latches source 47 (R452, R494). -/
theorem not_uwbControl : ¬ Obligations.UwbControl := by
  rintro ⟨-, -, -, -, -, -, -, -, -, -, htest⟩
  obtain ⟨t, ht, -, -, -, -, -, -, -, hframe⟩ := (htest refusedQueue 0x01000300#32 (by decide) (by decide) (by decide)).1
    (by decide) rfl (by decide) (by decide) (by decide) rfl (by decide)
  have hlatched := uwbTestGo_leavesViolation
  rw [ht] at hlatched
  have hintc : t.intc = refusedQueue.intc := by
    rw [hframe]
    rfl
  have hclear : refusedQueue.intc.pending.getLsbD 47 = false := by decide
  rw [leavesViolation, hintc, hclear] at hlatched
  exact Bool.false_ne_true hlatched

/-- Refutes O48: its clause of the CTRL that goes out says that the interrupt controller stays as it was, for every state of
the AES queue. The job of the CTRL's MAC moves the queue (R488, R491), and where the head has not started and is refused,
its refusal latches source 47 (R452, R494). -/
theorem not_uwbRound : ¬ Obligations.UwbRound := by
  rintro ⟨-, hctrl, -⟩
  obtain ⟨t, ht, -, -, -, -, hframe⟩ := (hctrl refusedRound preparedRound rfl (by decide) (by decide) rfl).1
    (by decide) rfl rfl (by decide) (by decide) (by decide)
  have hlatched := uwbCtrlTransmit_leavesViolation
  rw [ht] at hlatched
  have hintc : t.intc = refusedRound.intc := by
    rw [hframe]
  have hclear : refusedRound.intc.pending.getLsbD 47 = false := by decide
  rw [leavesViolation, hintc, hclear] at hlatched
  exact Bool.false_ne_true hlatched

end Sys2Proof.Machine
end

section
/-! SUPPORT. The NFC reader and the tag port (R527 to R555). -/

namespace Sys2Proof.Machine

/-! The reader. -/

/-- A report to the harbourmaster is sent (R616). -/
theorem pierSends_report (s : State) (kind : Nat) (arg : BitVec 32) (body : Bytes) : PierSends s (s.report kind arg body) := by
  unfold State.report State.reportAt
  split
  · exact PierSends.refl s
  · split
    · exact pierSends_pierSend _ _ _
    · exact PierSends.refl s

/-- A wake event reaches the tide unit, or the harbourmaster (R124, R633). -/
theorem State.wakeHere_nfc (s : State) (b : Nat) : (s.wakeHere b).nfc = s.nfc := by
  unfold State.wakeHere
  split
  · rw [(pierSends_report _ _ _ _).1]
    rfl
  · exact State.wake_nfc s b

theorem State.card_cid {s : State} {cid : BitVec 4} {c : Card} (h : s.card cid = some c) : c.cid = cid := by
  simpa using List.find?_some h

/-- A detected card that the reader is free for (R124, R533). -/
theorem exec_cardActivation {s t : State} {uids : List (Bytes × Bool)} {u : Bytes} {k : Nat} (hrun : s.readerRuns = true)
    (hback : s.nfc.fieldBack = none) (hsel : selectCard ((s.answering uids).map Prod.fst) = (some u, k))
    (ht : (if s.tide.power = .standby then s.wakeHere 3
      else if (s.answering uids).contains (u, true) then (s.wakeHere 3).activate u k else (s.wakeHere 3).foreignCard k) = t) :
    Sys2Proof.Machine.exec (.cardActivation uids) s = .next t := by
  change execCardActivation uids s = _
  unfold execCardActivation
  dsimp only
  rw [hsel]
  exact whenDo_next (by simp [hrun, hback]) ht

theorem State.activate_of_free {s : State} {u : Bytes} {k : Nat} {cid : BitVec 4} (h : freeCid s.nfc.cards = some cid) :
    s.activate u k = (s.upNfc fun c => { c with
      collisions := satAdd c.collisions k
      cards := c.cards ++ [{ Card.reset with uid := u, cid := cid }], reader := 2#2 }).latch 30 := by
  unfold State.activate
  dsimp only [State.upNfc]
  rw [h]

theorem State.activate_of_full {s : State} {u : Bytes} {k : Nat} (h : freeCid s.nfc.cards = none) :
    s.activate u k = (s.upNfc fun c => { c with
      collisions := satAdd c.collisions k, overflow := satInc c.overflow }).latch 30 := by
  unfold State.activate
  dsimp only [State.upNfc]
  rw [h]

/-- A member card sights itself where a berth is free (R24, R30, R535). -/
theorem State.sightCard_of_freeBerth {s : State} {n : Nat} (cid : BitVec 4) (cred : BitVec 64) (h : s.freeBerth = some n) :
    let u := (((s.sight 3 (BitVec.ofNat 6 s.cfg.anchor) s.now).1.modCard cid
      fun c => { c with berth := some n }).modSe n fun b => { b with cid := some cid }).identify n cred none
    s.sightCard cid cred = if u.berthIs n .hailed then u.askRa n else u := by
  unfold State.sightCard
  rw [State.sight_of_freeBerth _ _ _ h]

/-- A card that has left takes its berth with it (R50, R536). -/
theorem State.dropCard_of_berth {s : State} {c : Card} {n : Nat} (h : c.berth = some n) :
    s.dropCard c = ((s.upNfc fun x => { x with
      cards := x.cards.filter fun y => y.cid != c.cid
      reader := if (x.cards.filter fun y => y.cid != c.cid) = [] then 1#2 else x.reader }).latch 30).castOff n 0x0A#8 := by
  unfold State.dropCard
  rw [h]
  simp only [List.isEmpty_iff]
  rfl

@[simp] theorem State.keyJob_ident (s : State) (c : KeyCell) (l : BitVec 2) (m : BitVec 4) (f : BitVec 5) (n : Nat) :
    (s.keyJob c l m f n).ident = s.ident := by
  unfold State.keyJob
  rw [jobFrame_addJob]

/-- One card stands in the field again, or is gone (R142, R537). -/
theorem exec_readerFieldReturn {s : State} {t : Nat} {c : Card} (present : List (BitVec 4)) (hback : s.nfc.fieldBack = some t)
    (ht : t ≤ s.now) (hrun : s.readerRuns = true) (hcards : s.nfc.cards = [c]) :
    Sys2Proof.Machine.exec (.readerFieldReturn present) s =
      .next (State.reselect present (s.upNfc fun x => { x with fieldBack := none, reader := 2#2 }) c) := by
  change execReaderFieldReturn present s = _
  rw [execReaderFieldReturn, hback]
  refine whenDo_next (by simp [hrun, ht]) ?_
  have hreader : (s.upNfc fun x => { x with fieldBack := none, reader := if x.cards.isEmpty then 1#2 else 2#2 }) =
      s.upNfc fun x => { x with fieldBack := none, reader := 2#2 } := by
    unfold State.upNfc
    dsimp only
    rw [hcards]
    rfl
  rw [hcards, hreader]
  rfl

/-- Settles O49: each row by its card or berth; the answers of a card by the use of the berth's key. -/
theorem nfcReader : Obligations.NfcReader := by
  refine ⟨fun s hrun hback hcards hdue => whenDo_next ?_ ?_, fun s uids u k hrun hback hsel => ?_,
    fun s cid sw role cred c hc hrun hberth hacc => ?_, fun s cid rb mac n g hcard hrun hra hrb hserve => ?_,
    fun s cid n g hcard hrun hsent hrb => ?_, fun s cid c n hc hrun hback hberth => ?_,
    fun s t n c hback ht hrun hcards hberth => ?_, fun s h => next_farWrite h rfl, fun s v h => ?_⟩
  · rcases hdue with hdue | hdue
    · simp [hrun, hback, hcards, hdue]
    · simp [hrun, hback, hcards, State.elapsed, hdue]
  · simp only [List.isEmpty_iff]
  · refine ⟨fun hpow => ?_, fun hpow hno => ?_, fun cid hpow hiso hfree => ?_, fun hpow hiso hfull => ?_⟩
    · exact exec_cardActivation hrun hback hsel (if_pos hpow)
    · exact exec_cardActivation hrun hback hsel ((if_neg hpow).trans (if_neg (by simpa using hno)))
    · exact exec_cardActivation hrun hback hsel ((if_neg hpow).trans ((if_pos (by simpa using hiso)).trans
        (State.activate_of_free (by rw [State.wakeHere_nfc, hfree]))))
    · exact exec_cardActivation hrun hback hsel ((if_neg hpow).trans ((if_pos (by simpa using hiso)).trans
        (State.activate_of_full (by rw [State.wakeHere_nfc, hfull]))))
  · have hexec (sw : BitVec 16) (role : BitVec 8) {t : State} (ht : (if sw ≠ 0x9000#16 then s.upNfc fun x => { x with foreign := satInc x.foreign }
        else if role ≠ 0#8 then s
        else if (s.modCard cid fun c => { c with access := true }).berthsRun then
          (s.modCard cid fun c => { c with access := true }).sightCard cid cred
        else s.modCard cid fun c => { c with access := true }) = t) :
        Sys2Proof.Machine.exec (.cardSelect cid sw role cred) s = .next t := by
      change execCardSelect cid sw role cred s = _
      rw [execCardSelect, hc]
      exact whenDo_next (by simp [hrun, hberth, hacc]) ht
    refine ⟨fun hsw => hexec _ _ (if_pos hsw), fun hrole => hexec _ _ ((if_neg (by decide)).trans (if_pos hrole)),
      fun n hberths hfree => hexec _ _ ((if_neg (by decide)).trans ((if_neg (by decide)).trans ((if_pos hberths).trans ?_)))⟩
    exact State.sightCard_of_freeBerth (s := s.modCard cid fun c => { c with access := true }) cid cred hfree
  · have hexec (sw : BitVec 16) {t : State} (ht : (s.withKey (.auth n) 1#2 2#4 8#5 49 fun key t =>
        if sw = 0x9000#16 ∧ accessMac 0x43#8 key (s.berth n).se.ra rb (s.berth n).id.cred t.ident.device = mac then
          t.modSe n fun x => { x with rb := padTo 16 rb, challengeSent := true }
        else t.castOff n 5#8) = t) :
        Sys2Proof.Machine.exec (.cardAuthBeginResponse cid rb mac sw) s = .next t := by
      change execCardAuthBeginResponse cid rb mac sw s = _
      rw [execCardAuthBeginResponse, hcard]
      exact whenDo_next (by simp [hrun, hra, hrb]) ht
    refine ⟨fun hadm hmac => hexec _ ?_, fun sw hadm hbad => hexec _ ?_, fun sw hadm => hexec _ ?_⟩
    · rw [State.withKey_of_admits _ _ _ _ hserve hadm, if_pos ⟨rfl, by rw [State.keyJob_ident]; exact hmac⟩]
    · rw [State.withKey_of_admits _ _ _ _ hserve hadm, State.keyJob_ident, if_neg fun h => hbad.elim (· h.1) (· h.2)]
    · exact State.withKey_of_refuses _ _ _ _ hserve hadm
  · have hexec (sw : BitVec 16) {t : State} (ht : (if sw ≠ 0x9000#16 then s.castOff n 5#8
        else if g then (s.modCard cid fun c => { c with fresh := false }).upNfc fun c => { c with reactivate := satInc c.reactivate }
        else s.moor n) = t) : Sys2Proof.Machine.exec (.cardAuthEndResponse cid sw) s = .next t := by
      change execCardAuthEndResponse cid sw s = _
      rw [execCardAuthEndResponse, hcard]
      exact whenDo_next (by simp [hrun, hsent, hrb]) ht
    refine ⟨fun hg => hexec _ ?_, fun hg => hexec _ ?_, fun sw hsw => hexec _ (if_pos hsw)⟩
    · rw [if_neg (by decide), if_neg (by simp [hg])]
    · rw [if_neg (by decide), if_pos hg]
  · change execCardLeftField cid s = _
    rw [execCardLeftField, hc]
    refine whenDo_next (by simp [hrun, hback]) ?_
    rw [State.dropCard_of_berth hberth, State.card_cid hc]
  · have hexec (present : List (BitVec 4)) := exec_readerFieldReturn present hback ht hrun hcards
    refine ⟨(hexec _).trans (congrArg _ ?_), fun hst => (hexec _).trans (congrArg _ ?_), fun hst => (hexec _).trans (congrArg _ ?_)⟩
    · rw [State.reselect, if_neg (by simp), State.dropCard_of_berth hberth]
      unfold State.upNfc
      simp [hcards]
    · rw [State.reselect, if_pos (by simp), hberth]
      exact if_pos (beq_iff_eq.mpr hst)
    · rw [State.reselect, if_pos (by simp), hberth]
      have hhailed : ¬ (s.upNfc fun x => { x with fieldBack := none, reader := 2#2 }).berthIs n .hailed = true := by
        change ¬ ((s.berth n).id.st == .hailed) = true
        rw [hst]
        decide
      have hmoored : ((s.upNfc fun x => { x with fieldBack := none, reader := 2#2 }).berth n).id.st.moored? = true := by
        change (s.berth n).id.st.moored? = true
        rw [hst]
        rfl
      refine (if_neg hhailed).trans ((if_pos hmoored).trans ?_)
      simp [State.modCard, State.upNfc, hcards, hberth]
  · refine ⟨fun c hc => next_farWrite h ?_, fun hnone => next_farWrite h ?_⟩
    · have hcard : (s.reached 0x58008).nfc.cards[fieldN v 1 0]? = some c := hc
      unfold State.cardSelect State.cardList
      dsimp only
      rw [hcard]
    · have hcard : (s.reached 0x58008).nfc.cards[fieldN v 1 0]? = none := hnone
      unfold State.cardSelect State.cardList
      dsimp only
      rw [hcard]

/-! The tag port. -/

/-- A command of the access application where none is answered yet (R540, R541). -/
theorem tagServed {s : State} (hfield : s.nfc.tagField = true) (hdelay : s.nfc.delayUntil = none) :
    (s.nfc.tagField && s.nfc.delayUntil.isNone) = true := by
  simp [hfield, hdelay]

/-- HARV that goes off changes its record and the tag's part of the state (R551). -/
theorem State.harvestOff_eq (s : State) : s.harvestOff = { s with
    nfc := { s.nfc with image := s.harvestOff.nfc.image, harvOn := s.harvestOff.nfc.harvOn, harvRec := s.harvestOff.nfc.harvRec }
    keys := s.harvestOff.keys } := by
  unfold State.harvestOff
  split
  · dsimp only
    split <;> rfl
  · rfl

theorem State.harvestOff_ends {s : State} {t i : Nat} (hon : s.nfc.harvOn = some t) (hrec : s.nfc.harvRec = some i) :
    s.harvestOff.nfc.harvOn = none ∧ s.harvestOff.nfc.harvRec = none := by
  unfold State.harvestOff
  rw [hon, hrec]
  exact ⟨rfl, rfl⟩

theorem State.harvestOff_harvOn {s : State} (h : s.nfc.harvOn = none ∨ s.nfc.harvRec ≠ none) : s.harvestOff.nfc.harvOn = none := by
  cases hon : s.nfc.harvOn with
  | none =>
    unfold State.harvestOff
    rw [hon]
    exact hon
  | some t =>
    obtain ⟨i, hrec⟩ := Option.ne_none_iff_exists'.mp (h.resolve_left (by simp [hon]))
    exact (State.harvestOff_ends hon hrec).1

/-- HARV that goes on, and its record (R549, R552). -/
theorem State.harvestOn_eq (s : State) : ∃ (m : Mem) (k : Nat), s.harvestOn = s.useCells.upNfc fun c => { c with
    image := Mem.write m 0x1E04 0#8, recNext := k, harvOn := some s.now, harvRec := some s.nfc.recNext, tagState := .secured1 } := by
  unfold State.harvestOn
  dsimp only
  generalize recordHead s.nfc.tagCred (Mem.num s.nfc.image 0x1E00 4) 1 0 = head
  generalize head ++ (cmac s.nfc.tagKey head).take 8 = b
  refine ⟨Mem.store s.nfc.image (0x1C00 + 32 * s.nfc.recNext) (padTo 32 b), (s.nfc.recNext + 1) % 16, ?_⟩
  simp only [State.newRecord, State.putRecord, State.modImage, State.upNfc, State.useCells, State.upKeys]

theorem Mem.num_one (m : Mem) (a : Nat) : Mem.num m a 1 = (Mem.read m a).toNat := by
  simp [Mem.num, Mem.load, ofLe]

/-- A right AUTH_END after KIND 1 (R540, R549). -/
theorem State.harvestOn_facts (s : State) : ∀ t, t = s.harvestOn.tagReply (statusWord 0x9000) →
    t.nfc.harvOn = some s.now ∧ t.nfc.tagState = .secured1 ∧ t.nfc.response = [0x90#8, 0x00#8] ∧ t.nfc.failures = 0 ∧
      t.intc = s.intc ∧ t = { s with nfc := t.nfc, keys := t.keys } := by
  rintro t rfl
  obtain ⟨m, k, hon⟩ := s.harvestOn_eq
  rw [hon]
  refine ⟨rfl, rfl, rfl, ?_, rfl, rfl⟩
  rw [Nfc.failures, Mem.num_one]
  exact congrArg BitVec.toNat (Mem.read_write_same m 0x1E04 0#8)

/-- At tag idle the host's writes reach the image, and a harvest table from the harbourmaster (R547, R553). -/
theorem State.tagIdle_eq {s : State} (h : s.nfc.tagSession = false) : s.tagIdle = { s with
    nfc := { s.nfc with image := s.tagIdle.nfc.image, hostWrites := [] }, tend := s.tagIdle.tend } := by
  have htable (x : State) (hx : x.nfc.hostWrites = []) (f : Mem → Mem) (g : Tender → Tender) : (x.modImage f).upTend g = { x with
      nfc := { x.nfc with image := ((x.modImage f).upTend g).nfc.image, hostWrites := [] }
      tend := ((x.modImage f).upTend g).tend } := by
    rw [← hx]
    rfl
  unfold State.tagIdle
  rw [if_neg (by simp [h])]
  dsimp only
  split
  · exact htable _ rfl _ _
  · rfl

theorem State.castOff_nfc (s : State) (n : Nat) (cause : BitVec 8) : (s.castOff n cause).nfc = s.nfc := by
  cases h : (s.berth n).id.st.held with
  | true => rw [State.castOff_of_held cause h]
  | false => rw [State.castOff_of_not_held cause h]

theorem State.castOff_intc (s : State) (n : Nat) (cause : BitVec 8) : (s.castOff n cause).intc = s.intc := by
  cases h : (s.berth n).id.st.held with
  | true => rw [State.castOff_of_held cause h]
  | false => rw [State.castOff_of_not_held cause h]

/-- SELECT in powered mode sights the device that holds the reader (R529, R539). -/
theorem State.tagSelected_of_free {s : State} {n : Nat} (hp : s.nfc.tagPowered = true) (hberths : s.berthsRun = true)
    (hnone : s.nfc.tagBerth = none) (hfree : s.freeBerth = some n) :
    s.tagSelected = ((s.tagReply
      ([1#8] ++ le 8 s.ident.device.toNat ++ le 7 s.nfc.uid.toNat ++ [0#8] ++ [0x90#8, 0x00#8])).sight 4
        (BitVec.ofNat 6 s.cfg.anchor) s.now).1.upNfc fun c => { c with tagBerth := some n } := by
  have hcond (r : Bytes) : (true && (s.tagReply r).berthsRun && !(s.tagReply r).tagHolds) = true := by
    have hruns : (s.tagReply r).berthsRun = true := hberths
    have hholds : (s.tagReply r).tagHolds = false := by simp [State.tagHolds, State.tagReply, State.upNfc, hnone]
    rw [hruns, hholds]
    rfl
  unfold State.tagSelected
  rw [hp]
  refine (if_pos (hcond _)).trans ?_
  · rw [State.sight_of_freeBerth _ _ _ (by exact hfree), State.sight_of_freeBerth _ _ _ (by exact hfree)]
    rfl

/-- A WRITE that the loss of the field cuts is taken back (R548). -/
def State.writeUndone (s : State) (cut : Bool) : State :=
  match s.nfc.undo with
  | some m => if cut then s.upNfc fun c => { c with image := m, rollbacks := satInc c.rollbacks } else s
  | none => s

/-- The berth of the tag's activation goes with the field (R50). -/
def State.tagBerthOff (s : State) : State :=
  match s.nfc.tagBerth with
  | some n => if (s.berth n).id.kind = 4#3 then s.castOff n 0x0A#8 else s
  | none => s

theorem State.writeUndone_eq (s : State) (cut : Bool) : s.writeUndone cut = { s with
    nfc := { s.nfc with image := (s.writeUndone cut).nfc.image, rollbacks := (s.writeUndone cut).nfc.rollbacks } } := by
  unfold State.writeUndone
  split
  · split <;> rfl
  · rfl

theorem State.tagBerthOff_nfc (s : State) : s.tagBerthOff.nfc = s.nfc := by
  unfold State.tagBerthOff
  split
  · split
    · exact State.castOff_nfc _ _ _
    · rfl
  · rfl

theorem State.tagBerthOff_intc (s : State) : s.tagBerthOff.intc = s.intc := by
  unfold State.tagBerthOff
  split
  · split
    · exact State.castOff_intc _ _ _
    · rfl
  · rfl

/-- Deactivation ends HARV, the latest WRITE and the berth before the tag's part of the state is cleared (R50, R547, R548). -/
theorem State.tagOff_eq (s : State) (cut : Bool) :
    let u := (s.harvestOff.writeUndone cut).tagBerthOff
    s.tagOff cut = (u.upNfc fun c => { c with
      tagField := false, tagState := .noField, tagSession := false, tagBerth := none, undo := none
      delayUntil := none, tagKey := [], tagRa := [], tagRb := [], tagFrameEnd := min c.tagFrameEnd u.now }).tagIdle := rfl

/-- A host access outside a frame of the tag does not wait (R546). -/
theorem State.tagWait_of_idle {s : State} (h : s.nfc.tagFrameEnd ≤ s.now) : s.tagWait = s := if_neg (Nat.not_lt.mpr h)

/-- A host write of the open or secured area at tag idle reaches the image at once (R543, R547). -/
theorem State.tagHostWrite_of_idle {s : State} {o : Nat} (d : BitVec 16) (hlo : 8 ≤ o) (hhi : o + 1 < 0x1000)
    (hses : s.nfc.tagSession = false) (hwrites : s.nfc.hostWrites = []) (hhave : s.tend.harvHave = false)
    (hend : s.nfc.tagFrameEnd ≤ s.now) : s.tagHostWrite o d = s.upNfc fun c => { c with
      image := Mem.write (Mem.write c.image o (d.setWidth 8)) (o + 1) ((d >>> 8).setWidth 8) } := by
  have hfirst : hostMayWrite o = true := decide_eq_true (by omega)
  have hsecond : hostMayWrite (o + 1) = true := decide_eq_true (by omega)
  unfold State.tagHostWrite
  dsimp only
  rw [if_neg (by omega), State.tagWait_of_idle hend]
  unfold State.tagIdle
  rw [if_neg (by simpa [State.upNfc] using hses)]
  dsimp only
  rw [if_neg (by simpa [State.upNfc] using hhave)]
  simp [State.upNfc, hwrites, hfirst, hsecond]

/-- Settles O50: each command by the state of the tag port that it meets; the memory by the laws of its reads and writes. -/
theorem nfcTag : Obligations.NfcTag := by
  refine ⟨fun s hfield => ⟨fun hp => ?_, fun hp => ?_⟩, fun s hfield hdelay hst => ⟨fun hp => ?_, fun n hp hberths hnone hfree => ?_⟩,
    fun s kind cred device ra noise hfield hdelay => ⟨fun hdev => ?_, fun k hst hmirror hm hkey => ?_⟩,
    fun s t hfield hdelay => State.whenDo_of s _ (by simp [hfield, hdelay]), fun s t noise hfield hdelay ht => ?_,
    fun s mac hfield hdelay hst hmac => ?_, fun s off len hfield hdelay hst => ⟨fun hlo hhi hend => ?_, fun hend => ?_⟩,
    fun s off d hfield hdelay => ⟨fun hst hlo hhi hoff hend => ?_, fun hst => ?_⟩,
    fun s off len hfield hdelay hlo hhi hend => ?_, fun s cut hfield => ?_, fun s t i hon hrec ht => ?_,
    fun s ha x h hlo hhi hses hwrites hhave hend => ?_, fun s ha h hlo hhi hend => ?_⟩
  · exact whenDo_next (by simp [hfield]) (by rw [hp]; rfl)
  · exact whenDo_next (by simp [hfield]) (by rw [hp]; rfl)
  · refine whenDo_next (tagServed hfield hdelay) ?_
    rw [hst, if_neg (by decide), if_neg (by decide), State.tagSelected, if_neg (by simp [hp]), hp]
    rfl
  · refine whenDo_next (tagServed hfield hdelay) ?_
    rw [hst, if_neg (by decide), if_neg (by decide)]
    exact State.tagSelected_of_free hp hberths hnone hfree
  · exact whenDo_next (tagServed hfield hdelay) (if_pos hdev)
  · refine whenDo_next (tagServed hfield hdelay) ?_
    rw [hst, if_neg (by simp), if_neg (by decide), if_neg (by decide), if_neg (by decide), if_pos rfl]
    unfold State.tagHarvest
    rw [hmirror, hm, if_pos (by rfl), hkey]
    by_cases hf : s.nfc.failures = 0
    · rw [if_pos hf]
      exact if_pos (by simp [hf])
    · rw [if_neg hf]
      exact if_neg (by simp [hf])
  · change execHarvestDelayEnd noise s = _
    rw [execHarvestDelayEnd, hdelay]
    exact State.whenDo_of s _ (by simp [hfield, ht])
  · refine ⟨(s.useCells.harvestOn.tagReply (statusWord 0x9000)).latch 31, ?_, ?_⟩
    · refine whenDo_next (tagServed hfield hdelay) ?_
      simp [hst, TagState.pending, TagState.secured, hmac]
    · obtain ⟨hon, hstate, hresp, hfail, hintc, hframe⟩ := State.harvestOn_facts s.useCells _ rfl
      refine ⟨hon, hstate, hresp, hfail, ?_, ?_⟩
      · exact congrArg (Intc.event · 31) hintc
      · generalize s.useCells.harvestOn.tagReply (statusWord 0x9000) = t at hframe
        rw [hframe]
        rfl
  · refine whenDo_next (tagServed hfield hdelay) ?_
    rw [hst, if_neg (by decide)]
    exact if_pos (by simp [inArea, hlo, hhi, hend])
  · refine whenDo_next (tagServed hfield hdelay) ?_
    rw [hst, if_neg (by decide)]
    exact if_neg (by simp [inArea, Nat.not_le.mpr hend])
  · refine ⟨((s.modImage fun m => Mem.store m off.toNat d).tagReply (statusWord 0x9000)).upNfc fun c => { c with
      undo := some s.nfc.image }, ?_, rfl, rfl, fun i hi => ?_, fun a ha => ?_, rfl⟩
    · refine whenDo_next (tagServed hfield hdelay) ?_
      rw [hst, if_neg (by decide)]
      exact if_pos (by simp [inArea, hlo, hhi, hoff, hend])
    · refine (Mem.read_store s.nfc.image _ _ d).trans ((if_pos (by omega)).trans ?_)
      rw [Nat.add_sub_cancel_left]
    · exact (Mem.read_store s.nfc.image _ _ d).trans (if_neg (by omega))
  · refine whenDo_next (tagServed hfield hdelay) ?_
    rw [hst, if_neg (by decide)]
    exact if_neg (by simp)
  · exact whenDo_next (tagServed hfield hdelay) (if_pos (by simp [inArea, hlo, hhi, hend]))
  · refine ⟨s.tagOff cut, State.whenDo_of s _ hfield, ?_⟩
    rw [State.tagOff_eq, State.tagIdle_eq rfl]
    have hnfc : (s.harvestOff.writeUndone cut).tagBerthOff.nfc = (s.harvestOff.writeUndone cut).nfc := State.tagBerthOff_nfc _
    have hintc : (s.harvestOff.writeUndone cut).tagBerthOff.intc = s.intc := by
      rw [State.tagBerthOff_intc, State.writeUndone_eq, State.harvestOff_eq]
    generalize (s.harvestOff.writeUndone cut).tagBerthOff = u at hnfc hintc
    refine ⟨rfl, rfl, rfl, rfl, rfl, hintc, fun hon => ?_, ?_⟩
    · change u.nfc.harvOn = none
      rw [hnfc, State.writeUndone_eq]
      exact State.harvestOff_harvOn hon
    · change u.nfc.cards = s.nfc.cards
      rw [hnfc, State.writeUndone_eq, State.harvestOff_eq]
  · refine ⟨s.harvestOff, ?_, (State.harvestOff_ends hon hrec).1, (State.harvestOff_ends hon hrec).2, ?_⟩
    · change execHarvTimeout s = _
      rw [execHarvTimeout, hon]
      exact State.whenDo_of s _ (by simpa [State.elapsed] using ht)
    · refine s.harvestOff_eq.trans ?_
      rw [(State.harvestOff_ends hon hrec).1, (State.harvestOff_ends hon hrec).2]
  · have hwrite := State.tagHostWrite_of_idle (s := s.beginFar none) (o := 2 * ha.toNat - 0x5C000) x (by omega) (by omega)
      hses hwrites hhave hend
    refine ⟨_, whenDo_next (by simp; omega) ((State.windowAccess_ready h _ _).trans hwrite), rfl, ?_, ?_, fun a ha1 ha2 => ?_⟩
    · exact (Mem.read_write_other _ _ (by omega)).trans (Mem.read_write_same _ _ _)
    · exact Mem.read_write_same _ _ _
    · exact (Mem.read_write_other _ _ ha2).trans (Mem.read_write_other _ _ ha1)
  · have hready : s.portUp = true ∧ s.mainUp = true := by simpa [State.hostReady] using h
    exact whenDo_next (by simp [hlo, hhi]) ((if_pos hready.1).trans (State.tagWait_of_idle hend))

end Sys2Proof.Machine
end

section
/-! SUPPORT. The membership register: its import, and the pages that a lookup touches (R366, R373, R385 to R387). -/

namespace Sys2Proof.Machine

/-- A register command at a device that keeps the register (R353). -/
theorem next_regWrite {s t : State} {a : Nat} {eff : State → State} (h : s.hostReady = true) (hrole : s.cfg.role ≠ .tender)
    (ht : eff (s.reached a) = t) : (.next (s.regWrite a eff) : Host.Outcome State Fault Refusal) = .next t := by
  have htender : ¬ (s.reached a).isTender = true := by simpa [State.isTender] using hrole
  exact next_farWrite h ((if_neg htender).trans ht)

/-- The good blocks with one more (R386). -/
theorem mem_insertGood {b c : Nat} {l : List Nat} : (c ∈ if l.contains b then l else b :: l) ↔ c = b ∨ c ∈ l := by
  split
  · rename_i h
    exact ⟨.inr, fun hc => hc.elim (fun hcb => hcb ▸ List.contains_iff_mem.mp h) id⟩
  · exact List.mem_cons

theorem State.regVerify_of_good {s : State} (hst : s.reg.state = .loading)
    (hall : firstBad (blocks4k s.reg.len) s.reg.good = none) :
    s.regVerify = (s.upReg fun r => { r with state := .verifying, startedAt := s.now }).verification .delta s.reg.len := by
  rw [State.regVerify, if_pos hst, hall]

theorem State.regVerify_of_bad {s : State} {b : Nat} (hst : s.reg.state = .loading)
    (hb : firstBad (blocks4k s.reg.len) s.reg.good = some b) :
    s.regVerify = (s.upReg fun r => { r with result := 14#5, detail := BitVec.ofNat 16 b }).latch 32 := by
  rw [State.regVerify, if_pos hst, hb]

/-- The end of the checks of a delta (R385, R386). -/
theorem exec_registerVerifyDone {s : State} (hcan : s.canVerify = true) (hst : s.reg.state = .verifying) :
    Sys2Proof.Machine.exec .registerVerifyDone s = .next s.regVerdict := by
  refine State.whenDo_of s _ ?_
  simp only [State.canVerify, Bool.and_eq_true] at hcan
  rw [hst, hcan.1, hcan.2]
  rfl

/-- Settles O51: each command by the state of the import that it meets. -/
theorem registerImport : Obligations.RegisterImport := by
  refine ⟨fun s h hrole => ⟨fun hst => next_regWrite h hrole (if_pos hst), fun hst => next_regWrite h hrole (if_neg hst)⟩,
    fun s ha d h hrole hst hlo hhi => ?_, fun s crc h hrole hst => ⟨fun hcrc => ?_, fun hcrc => ?_⟩,
    fun s h hrole hst => ⟨fun hall => next_regWrite h hrole ?_, fun b hb => next_regWrite h hrole ?_⟩, fun s hcan hst => ?_⟩
  · refine (if_pos ⟨hlo, hhi⟩).trans (congrArg _ ((State.windowAccess_ready h _ _).trans ?_))
    have htender : ¬ (s.beginFar none).isTender = true := by simpa [State.isTender, State.beginFar] using hrole
    exact (if_neg htender).trans (if_pos hst)
  · have hread := Mem.read_store s.reg.stage (4096 * s.reg.block.toNat) (d :=
      Mem.load s.reg.window 0 (min 4096 (s.reg.len - 4096 * s.reg.block.toNat)))
    refine ⟨_, next_regWrite h hrole ((if_pos hst).trans (if_pos hcrc)), rfl, mem_insertGood.mpr (.inl rfl), fun i hi => ?_,
      fun a ha => ?_, fun c hc => mem_insertGood.trans (or_iff_right hc), rfl⟩
    · refine (hread _).trans ((if_pos ⟨Nat.le_add_right _ _, Nat.add_lt_add_left hi _⟩).trans ?_)
      rw [Nat.add_sub_cancel_left]
    · exact (hread a).trans (if_neg (by omega))
  · exact next_regWrite h hrole ((if_pos hst).trans (if_neg hcrc))
  · exact State.regVerify_of_good (s := s.reached 0x80000) hst hall
  · exact State.regVerify_of_bad (s := s.reached 0x80000) hst hb
  · rw [exec_registerVerifyDone hcan hst]
    unfold State.regVerdict
    dsimp only
    cases s.checkDelta with
    | ok g => rfl
    | error e => exact ⟨_, rfl, rfl, rfl, rfl⟩

/-! A lookup that touches a page which no check has seen: the Keccak engine gets a job (R373, R497). -/

/-- A credential whose bytes are all 1. -/
def onesCred : BitVec 64 := 0x0101010101010101#64

/-- A healthy register whose slot `n` lies on pages of bytes `page` that match their leaves and that no check has seen yet; a
mailbox LOOKUP runs. -/
def pageRegister (page : Bytes) (n : Nat) : MemberReg := { MemberReg.reset with
  health := 1#2, mbBusy := true, mbCred := onesCred, phys := Mem.store [] 0 page
  ramMap := (slotPages n).map fun k => (k, 0), leaves := (slotPages n).map fun k => (k, leafOf k page) }

/-- The register after the pages `v` were verified. -/
def verifiedRegister (page : Bytes) (n : Nat) (v : List Nat) : MemberReg := { pageRegister page n with verified := v }

/-- The first slot that the lookup visits. -/
def onesSlot : Nat := slotNo 0 (buckets MemberReg.reset.cur.saltBytes onesCred).1 0

/-- A device whose mailbox looks for the credential in a register of pages `page`. -/
def pageState (page : Bytes) : State := { State.reset with reg := pageRegister page onesSlot }

theorem lookupSlots_cons (salt : Bytes) (cred : BitVec 64) :
    ∃ rest, lookupSlots salt cred = slotNo 0 (buckets salt cred).1 0 :: rest := ⟨_, rfl⟩

theorem tableGet_map_mem {α β : Type} [DecidableEq α] {l : List α} (f : α → β) {k : α} (h : k ∈ l) :
    tableGet (l.map fun x => (x, f x)) k = some (f k) := by
  induction l with
  | nil => cases h
  | cons x l ih =>
    by_cases hx : x = k
    · simp [tableGet, hx]
    · have hk : k ∈ l := (List.mem_cons.mp h).resolve_left (Ne.symm hx)
      simpa [tableGet, hx] using ih hk

theorem Mem.load_store (m : Mem) (a : Nat) (d : Bytes) : Mem.load (Mem.store m a d) a d.length = d := by
  refine List.ext_getElem (by simp [Mem.load]) fun i h1 h2 => ?_
  simp only [Mem.load, List.getElem_map, List.getElem_range]
  rw [Mem.read_store, if_pos ⟨Nat.le_add_right _ _, Nat.add_lt_add_left h2 _⟩, Nat.add_sub_cancel_left]
  simp [h2]

section
variable {page : Bytes} {n k : Nat} {v : List Nat}

theorem pageRegister_eq (page : Bytes) (n : Nat) : pageRegister page n = verifiedRegister page n [] := rfl

/-- Every page of the slot reads as `page`, and matches its leaf (R354, R371). -/
theorem verifiedRegister_page (hpage : page.length = 4096) (h : k ∈ slotPages n) : (verifiedRegister page n v).page k = page := by
  have hmap : tableGet (verifiedRegister page n v).ramMap k = some 0 := tableGet_map_mem (fun _ => 0) h
  have hphys : (verifiedRegister page n v).phys = Mem.store [] 0 page := rfl
  have hload := Mem.load_store [] 0 page
  rw [hpage] at hload
  unfold MemberReg.page
  rw [hmap, hphys]
  exact hload

theorem verifiedRegister_good (hpage : page.length = 4096) (h : k ∈ slotPages n) :
    (verifiedRegister page n v).pageBad k = false := by
  have hjournal : (verifiedRegister page n v).cur.journal = 0#2 := rfl
  have hleaves : tableGet (verifiedRegister page n v).leaves k = some (leafOf k page) :=
    tableGet_map_mem (fun k => leafOf k page) h
  have hleaf : (verifiedRegister page n v).leaf k = leafOf k page := by
    unfold MemberReg.leaf
    rw [hjournal, if_pos rfl, hleaves]
    rfl
  have hbad : (verifiedRegister page n v).bad = [] := rfl
  unfold MemberReg.pageBad
  rw [verifiedRegister_page hpage h, hleaf, hbad]
  simp

/-- The slot holds the credential. -/
theorem verifiedRegister_cred (hpage : page = List.replicate 4096 1#8) :
    slotCred (slotBytes (verifiedRegister page n v).page n) = onesCred := by
  have hlen : page.length = 4096 := hpage ▸ List.length_replicate
  have hpages : (slotPages n).map (verifiedRegister page n v).page = (slotPages n).map fun _ => page :=
    List.map_congr_left fun k hk => verifiedRegister_page hlen hk
  have hbytes : slotBytes (verifiedRegister page n v).page n = List.replicate 12 1#8 := by
    unfold slotBytes
    rw [hpages, hpage]
    generalize hm : 12 * n % 4096 = m
    unfold slotPages
    split
    · have hroom : 12 ≤ 4096 - m := by omega
      rw [List.map_singleton, List.flatten_singleton, List.drop_replicate, List.take_replicate, Nat.min_eq_left hroom]
    · have hroom : 12 ≤ 4096 + (4096 + 0) - m := by omega
      rw [List.map_cons, List.map_singleton, List.flatten_cons, List.flatten_singleton, List.replicate_append_replicate,
        List.drop_replicate, List.take_replicate, Nat.min_eq_left hroom]
  rw [hbytes]
  decide

theorem placeKec_ne_nil (j : KecJob) (l : List KecJob) : placeKec j l ≠ [] := by
  unfold placeKec
  split
  · exact List.cons_ne_nil _ _
  · dsimp only
    split <;> exact List.cons_ne_nil _ _

/-- A page that is neither verified nor bad is checked (R373): the engine gets a job, and the page is verified. -/
theorem touchPage_verified {s : State} (hpage : page.length = 4096) (hreg : s.reg = verifiedRegister page n v)
    (hk : k ∈ slotPages n) (hv : k ∉ v) (hcan : s.canDerive = true) :
    (s.touchPage k).reg = verifiedRegister page n (k :: v) ∧ (s.touchPage k).cry.kjobs ≠ [] ∧
      (s.touchPage k).canDerive = true := by
  have hkv : s.reg.verified.contains k = false := by
    have hver : s.reg.verified = v := by
      rw [hreg]
      rfl
    rw [hver]
    simpa using hv
  have hbad : s.reg.bad.contains k = false := by
    rw [hreg]
    rfl
  have hgood : s.reg.pageBad k = false := by
    rw [hreg]
    exact verifiedRegister_good hpage hk
  have htouch : s.touchPage k = (s.kecAsk { KecJob.reset with level := 2#2, left := 48 * (4096 / 136 + 1), work := .page }).upReg
      fun r => { r with verified := k :: r.verified } := by
    unfold State.touchPage
    rw [hkv, hbad, hcan, hgood]
    rfl
  rw [htouch, State.kecAsk, if_pos hcan]
  refine ⟨?_, placeKec_ne_nil _ _, hcan⟩
  change { s.reg with verified := k :: s.reg.verified } = _
  rw [hreg]
  rfl

/-- The pages of a slot are touched one after the other (R366). -/
theorem foldl_touchPage_verified {s : State} {l : List Nat} (hpage : page.length = 4096) (hreg : s.reg = verifiedRegister page n v)
    (hl : ∀ k ∈ l, k ∈ slotPages n ∧ k ∉ v) (hnodup : l.Nodup) (hne : l ≠ []) (hcan : s.canDerive = true) :
    ∃ w, (l.foldl State.touchPage s).reg = verifiedRegister page n w ∧ (l.foldl State.touchPage s).cry.kjobs ≠ [] := by
  induction l generalizing s v with
  | nil => exact absurd rfl hne
  | cons k l ih =>
    obtain ⟨hmem, hkv⟩ := hl k List.mem_cons_self
    obtain ⟨hreg', hjobs, hcan'⟩ := touchPage_verified hpage hreg hmem hkv hcan
    obtain ⟨hkl, hnodup'⟩ := List.nodup_cons.mp hnodup
    cases l with
    | nil => exact ⟨_, hreg', hjobs⟩
    | cons m l =>
      refine ih hreg' (fun x hx => ?_) hnodup' (List.cons_ne_nil _ _) hcan'
      obtain ⟨hxmem, hxv⟩ := hl x (List.mem_cons_of_mem _ hx)
      exact ⟨hxmem, fun hmem => (List.mem_cons.mp hmem).elim (fun heq => hkl (heq ▸ hx)) hxv⟩

theorem slotPages_nodup (n : Nat) : (slotPages n).Nodup ∧ slotPages n ≠ [] := by
  unfold slotPages
  split <;> simp

end

/-- The lookup finds the credential in the first slot, and its pages have been touched. -/
theorem lookup_pageState {page : Bytes} (hpage : page = List.replicate 4096 1#8) :
    ((pageState page).lookup onesCred).1 = some onesSlot ∧ ((pageState page).lookup onesCred).2.cry.kjobs ≠ [] := by
  have hlen : page.length = 4096 := hpage ▸ List.length_replicate
  obtain ⟨hnodup, hne⟩ := slotPages_nodup onesSlot
  have hcan : (pageState page).canDerive = true := by
    change (!Crypto.reset.selftest.getLsbD 1) = true
    decide
  obtain ⟨w, hreg, hjobs⟩ := foldl_touchPage_verified (s := pageState page) (n := onesSlot) (v := []) hlen (pageRegister_eq page _)
    (fun k hk => ⟨hk, List.not_mem_nil⟩) hnodup hne hcan
  obtain ⟨rest, hslots⟩ : ∃ rest, lookupSlots MemberReg.reset.cur.saltBytes onesCred = onesSlot :: rest := lookupSlots_cons _ _
  have hbad (s : State) (v : List Nat) (h : s.reg = verifiedRegister page onesSlot v) :
      ¬ (slotPages onesSlot).any s.reg.bad.contains = true := by
    rw [h, show (verifiedRegister page onesSlot v).bad = [] from rfl]
    simp
  have hfind : (pageState page).lookup onesCred =
      (some onesSlot, (slotPages onesSlot).foldl State.touchPage (pageState page)) := by
    have hhealthy : ¬ (onesCred = 0#64 ∨ (pageState page).reg.health = 2#2) := by
      rw [show (pageState page).reg.health = 1#2 from rfl]
      decide
    unfold State.lookup
    rw [if_neg hhealthy, show (pageState page).reg.cur.saltBytes = MemberReg.reset.cur.saltBytes from rfl, hslots]
    unfold State.lookupIn
    rw [if_neg (hbad _ [] (pageRegister_eq page _))]
    refine (if_neg (hbad _ w hreg)).trans (if_pos ?_)
    rw [hreg]
    exact verifiedRegister_cred hpage
  exact ⟨by rw [hfind], by rw [hfind]; dsimp only; exact hjobs⟩

/-- A mailbox LOOKUP leaves of the engines what the lookup leaves (R395). -/
theorem State.mbEnd_cry {s : State} (h : s.reg.mbScrub = false) : s.mbEnd.cry = (s.lookup s.reg.mbCred).2.cry := by
  unfold State.mbEnd
  rw [if_neg (by rw [h]; exact Bool.false_ne_true)]
  unfold State.mbLookupEnd
  dsimp only
  generalize s.lookup s.reg.mbCred = x
  obtain ⟨found, u⟩ := x
  cases found with
  | none => rfl
  | some n => rfl

/-- Refutes O52: its clause of the mailbox LOOKUP says that no part of the device changes but the register, the interrupt
controller and the logbook. A page of the found slot that no check has seen is checked against its leaf first (R373), which
is a job of the Keccak engine (R497): the lookup leaves that job in its queue. -/
theorem not_registerCommit : ¬ Obligations.RegisterCommit := by
  rintro ⟨-, -, -, -, -, hlookup, -⟩
  obtain ⟨page, hpage⟩ : ∃ page : Bytes, page = List.replicate 4096 1#8 := ⟨_, rfl⟩
  obtain ⟨hfound, hjobs⟩ := lookup_pageState hpage
  obtain ⟨t, ht, -, -, -, -, hframe⟩ := hlookup (pageState page) onesSlot rfl rfl rfl hfound
  have hexec : Sys2Proof.Machine.exec .mailboxDone (pageState page) = .next (pageState page).mbEnd :=
    State.whenDo_of (pageState page) _ rfl
  have hend : t = (pageState page).mbEnd := Host.Outcome.next.inj (ht.symm.trans hexec)
  have hcry : t.cry = (pageState page).cry := by rw [hframe]
  rw [hend, State.mbEnd_cry rfl, show (pageState page).reg.mbCred = onesCred from rfl] at hcry
  exact hjobs (by rw [hcry]; rfl)

end Sys2Proof.Machine
end

section
/-! SUPPORT. The random generator against an AES queue whose head is refused (R452, R491, R494). -/

namespace Sys2Proof.Machine

/-- A device in FLEET whose generator delivers, whose main domain runs without a session identifier base, and whose AES
queue holds the refused job. -/
def refusedDraw : State := { refusedQueue with
  trng := { Trng.reset with inst := true, state := .ready }
  now := ms 1 }

theorem sessionIdBaseRetry_leavesViolation :
    leavesViolation (Sys2Proof.Machine.exec .sessionIdBaseRetry refusedDraw) = true := by
  decide

/-- Refutes O56: its clause of the session identifier base says that the draw leaves the interrupt controller alone, for
every state of the AES queue. The DRBG's job moves the queue (R491, R520), and where the head has not started and is
refused, its refusal latches source 47 (R452, R494). -/
theorem not_randomGenerator : ¬ Obligations.RandomGenerator := by
  rintro ⟨-, -, -, -, -, -, -, hsid⟩
  obtain ⟨t, b, ht, -, -, -, hframe⟩ := hsid refusedDraw rfl rfl rfl (by decide) rfl
  have hlatched := sessionIdBaseRetry_leavesViolation
  rw [ht] at hlatched
  have hintc : t.intc = refusedDraw.intc := by
    rw [hframe]
  have hclear : refusedDraw.intc.pending.getLsbD 47 = false := by decide
  rw [leavesViolation, hintc, hclear] at hlatched
  exact Bool.false_ne_true hlatched

end Sys2Proof.Machine
end

section
/-! SUPPORT. The key store: a host's command that runs at once, roots, public keys, the fleet identifier and the pairing
(R457 to R468, R481, R485). -/

namespace Sys2Proof.Machine

/-- A KEYS command that runs at once, by its effect in the state in which it runs (R481, R485). -/
theorem next_keysWrite {s t : State} {v : BitVec 32} (h : s.keysReadyFor = true) (ht : (s.reached 0x68000).keysRun v = t) :
    (.next (s.keysWrite v) : Host.Outcome State Fault Refusal) = .next t := by
  simp only [State.keysReadyFor, Bool.and_eq_true, Bool.not_eq_true'] at h
  obtain ⟨⟨hready, hbusy⟩, hinst⟩ := h
  have hidle : ¬ (s.reached keysCmdAddr).keys.busy = true := Bool.eq_false_iff.mp hbusy
  have hserved : ¬ (!(s.reached keysCmdAddr).trng.inst) = true := by
    change ¬ (!s.trng.inst) = true
    simp [hinst]
  refine next_farWrite hready (.trans ?_ ht)
  rw [State.keysCmd, if_neg hidle, if_neg hserved]
  rfl

theorem State.forwardAll_of_not_host {s : State} (l : List Nat) (code : Nat) (body : Bytes) (h : s.cfg.role ≠ .harbourmaster) :
    s.forwardAll l code body = s := if_neg h

/-- A root that was staged to switch two tides on switches then (R460). -/
theorem State.alignRoot_stageRoot {s : State} (w b : Bytes) (h : s.cfg.role ≠ .harbourmaster) :
    ((s.stageRoot w b).keysEnd 1).alignRoot (BitVec.ofNat 1 (byteAt b 0)) = (s.stageRoot w b).keysEnd 1 := by
  have hkeep (l : List (BitVec 1 × Bytes × BitVec 32)) : (l.filter fun y => y.1 != BitVec.ofNat 1 (byteAt b 0)).map
      (fun y => if y.1 = BitVec.ofNat 1 (byteAt b 0) then (y.1, y.2.1, s.tide.number + 2#32) else y) =
      l.filter fun y => y.1 != BitVec.ofNat 1 (byteAt b 0) := by
    conv_rhs => rw [← List.map_id (l.filter _)]
    refine List.map_congr_left fun y hy => if_neg ?_
    simpa using (List.mem_filter.mp hy).2
  have hstage : s.stageRoot w b = s.upKeys fun x =>
      { (x.modRoot (byteAt b 0) fun r => { r with wrapNonce := BitVec.ofNat 64 (leAt b 4 8) }) with
        staged := (BitVec.ofNat 1 (byteAt b 0), unwrap w b (le 8 s.ident.device.toNat), s.tide.number + 2#32) ::
          x.staged.filter fun y => y.1 != BitVec.ofNat 1 (byteAt b 0)
        switchTide := s.tide.number + 2#32 } := by
    rw [State.stageRoot, State.leaveSlack_of_not_host h]
  have hretime : ((s.stageRoot w b).keysEnd 1).retimeRoot (BitVec.ofNat 1 (byteAt b 0)) (s.tide.number + 2#32) =
      (s.stageRoot w b).keysEnd 1 := by
    rw [hstage, State.retimeRoot, if_pos (by simp [State.keysEnd, State.upKeys, State.latch, State.upIntc])]
    simp only [State.keysEnd, State.upKeys, State.latch, State.upIntc, List.map_cons, if_true, hkeep]
  have htide : ((s.stageRoot w b).keysEnd 1).tide = s.tide := by rw [hstage]; rfl
  have hcfg : ((s.stageRoot w b).keysEnd 1).cfg = s.cfg := by rw [hstage]; rfl
  rw [State.alignRoot, htide, hretime, State.forwardAll_of_not_host _ _ _ (by rwa [hcfg])]

/-- The checks of a record end with 1 where it passes, and else with a code that is no other than itself in 5 bits (R457). -/
theorem State.installCheck_code (s : State) (w b : Bytes) (ok : Bool) :
    BitVec.ofNat 5 (s.installCheck w b ok) = 1#5 ↔ s.installCheck w b ok = 1 := by
  have hle : s.installCheck w b ok < 32 := by
    unfold State.installCheck
    dsimp only
    repeat' split
    all_goals omega
  rw [← BitVec.toNat_inj, BitVec.toNat_ofNat, BitVec.toNat_ofNat]
  omega

/-- INSTALL_ROOT of a standalone device on a working Keccak engine: the record's checks, and its root staged where they pass
(R457, R458). -/
theorem State.installRoot_standalone {s : State} {w : Bytes} (hrole : s.cfg.role = .standalone) (hlife : s.tide.life ≠ .returned)
    (hw : s.wrapKey (byteAt (Mem.load s.keys.buf 0 0x50) 0) = some w) (hcan : s.canDerive = true) :
    let b := Mem.load s.keys.buf 0 0x50
    let u := (s.derivations 2 2#2 31#5).useCells
    let r := u.installCheck w b (s.anchorThere (byteAt b 1))
    s.installRoot = if r = 1 then (u.stageRoot w b).keysEnd 1 else u.keysEnd r (if r = 16 then byteAt b 1 else 0) := by
  intro b u r
  have hhost : s.cfg.role ≠ .harbourmaster := by simp [hrole]
  have hhere : s.installHere b (s.anchorThere (byteAt b 1)) =
      if r = 1 then (u.stageRoot w b).keysEnd 1 else u.keysEnd r (if r = 16 then byteAt b 1 else 0) := by
    rw [State.installHere, if_neg hlife, hw]
    change State.withKeccak s _ = _
    rw [State.withKeccak, if_pos hcan]
    change (if r = 1 then u.stageRoot w b else u).keysEnd r (if r = 16 then byteAt b 1 else 0) = _
    by_cases hr : r = 1
    · simp only [if_pos hr]
      rw [hr]
      rfl
    · simp only [if_neg hr]
  have hinstall : s.installRoot = if s.keys.busy = false ∧ (s.installHere b (s.anchorThere (byteAt b 1))).keys.busy = false ∧
      (s.installHere b (s.anchorThere (byteAt b 1))).keys.result = 1#5 then
        (s.installHere b (s.anchorThere (byteAt b 1))).alignRoot (BitVec.ofNat 1 (byteAt b 0))
      else s.installHere b (s.anchorThere (byteAt b 1)) := if_neg fun h => hhost h.1
  have hucfg : u.cfg = s.cfg := by
    change (s.derivations 2 2#2 31#5).cfg = _
    simp [State.derivations, State.kecAsk, hcan]
  rw [hinstall, hhere]
  by_cases hr : r = 1
  · simp only [if_pos hr]
    rw [State.alignRoot_stageRoot w b (by rwa [hucfg]), ite_self]
  · simp only [if_neg hr]
    refine if_neg fun h => hr ?_
    exact (State.installCheck_code u w b _).mp h.2.2

theorem State.installCheck_congr {s t : State} (w b : Bytes) (ok : Bool) (hident : t.ident = s.ident)
    (hroot : ∀ k, t.keys.root k = s.keys.root k) : t.installCheck w b ok = s.installCheck w b ok := by
  simp only [State.installCheck, hident, hroot]

theorem State.derivations_keys (s : State) (n : Nat) (level : BitVec 2) (x : BitVec 5) :
    (s.derivations n level x).keys = s.keys ∧ (s.derivations n level x).ident = s.ident := by
  unfold State.derivations State.kecAsk
  split <;> exact ⟨rfl, rfl⟩

/-- Derivations on a working Keccak engine are a job of its queue (R446). -/
theorem State.derivations_of_canDerive {s : State} {n : Nat} {level : BitVec 2} {x : BitVec 5} (h : s.canDerive = true) :
    s.derivations n level x = s.upCry fun c => { c with
      kjobs := placeKec { KecJob.reset with
        level := level, left := 48 * (3 * n), feature := x, work := .derivation, since := s.now } c.kjobs } := if_pos h

/-- INSTALL_PUB of a device that is no harbourmaster, by the key that it names (R468). -/
theorem State.installPub_of_not_host {s : State} (hrole : s.cfg.role ≠ .harbourmaster) :
    s.installPub = s.pubHere (Mem.load s.keys.buf 0 72) := by
  unfold State.installPub
  generalize Mem.load s.keys.buf 0 72 = b
  have hcfg : (s.pubHere b).cfg = s.cfg := by
    unfold State.pubHere
    split
    · rfl
    · dsimp only
      split <;> rfl
  dsimp only
  rw [State.forwardAll_of_not_host _ _ _ (by rwa [hcfg]), ite_self]

theorem State.pubHere_of_provision {s : State} (b : Bytes) (h : s.tide.life = .provision) : s.pubHere b =
    if byteAt b 0 = 0 then (s.upKeys fun k => { k with pubManifest := slice b 4 68 }).keysEnd 1
    else if byteAt b 0 = 1 then (s.upKeys fun k => { k with pubRegister := slice b 4 68 }).keysEnd 1
    else if byteAt b 0 = 2 then (s.upKeys fun k => { k with pubOverride := slice b 4 68 }).keysEnd 1
    else s.keysEnd 2 := by
  rw [State.pubHere, if_neg (by simp [h])]
  match byteAt b 0 with
  | 0 => rfl
  | 1 => rfl
  | 2 => rfl
  | n + 3 => rfl

theorem State.setFleet_of_provision {s : State} (hrole : s.cfg.role ≠ .harbourmaster) (h : s.tide.life = .provision) :
    s.setFleet = (s.upKeys fun k => { k with fleetId := BitVec.ofNat 64 (leAt (Mem.load s.keys.buf 0 8) 0 8) }).keysEnd 1 := by
  have hhere : s.fleetHere (Mem.load s.keys.buf 0 8) =
      (s.upKeys fun k => { k with fleetId := BitVec.ofNat 64 (leAt (Mem.load s.keys.buf 0 8) 0 8) }).keysEnd 1 :=
    if_neg (by simp [h])
  unfold State.setFleet
  dsimp only
  rw [hhere, State.forwardAll_of_not_host _ _ _ (by exact hrole), ite_self]

/-- PAIR of a standalone device in FLEET: the record gets its next key (R410, R465). -/
theorem State.pairCmd_of_fleet {s : State} (hrole : s.cfg.role = .standalone) (hlife : s.tide.life = .fleet)
    (howner : (s.cfg.can.getD 7 CanCfg.reset).owner = 2#8) (hroot : s.keys.vr.valid = true) (hcan : s.canDerive = true) :
    s.pairCmd = ((s.derivations 2 2#2 31#5).useCells.lockKey
      (derive s.keys.vr.key "PAIR" [nextEpoch s.lk.mram.epoch] 16) (nextEpoch s.lk.mram.epoch)).keysEnd 1 := by
  rw [State.pairCmd, if_neg (by simp [hlife]), if_neg (by rw [howner]; simp [State.keepsBerths, hrole]),
    if_neg (by simp [hroot]), State.withKeccak, if_pos hcan]
  rw [State.derivations_of_canDerive hcan]
  exact if_pos hlife

/-- Settles O53: each command runs its branch in the state in which a KEYS command begins; the events of a pairing are
their one branch. -/
theorem keysRoots : Obligations.KeysRoots := by
  refine ⟨fun s w h hrole hlife hw hcan => ?_, fun s h hrole hlife => ⟨?_, ?_⟩, fun s h => next_keysWrite h rfl,
    fun s hready hbusy => next_farWrite hready (if_pos hbusy), fun s old hold hretag => ?_,
    fun s h hlife hrole howner hroot hcan => ?_, fun s halive hpair hrec hleft => ?_, fun s hpair hleft htime => ?_⟩
  · refine next_keysWrite h ((State.installRoot_standalone (s := s.keysBegun) (w := w) hrole hlife hw hcan).trans ?_)
    obtain ⟨hkeys, hident⟩ := s.keysBegun.derivations_keys 2 2#2 31#5
    have hcheck (b : Bytes) (ok : Bool) :
        (s.keysBegun.derivations 2 2#2 31#5).useCells.installCheck w b ok = s.installCheck w b ok := by
      refine State.installCheck_congr w b ok hident fun k => ?_
      change (s.keysBegun.derivations 2 2#2 31#5).keys.root k = _
      rw [hkeys]
      rfl
    rw [hcheck]
    rfl
  · refine next_keysWrite h ((State.installPub_of_not_host (s := s.keysBegun) ?_).trans
      (State.pubHere_of_provision (s := s.keysBegun) _ hlife))
    rw [show s.keysBegun.cfg.role = .standalone from hrole]
    decide
  · refine next_keysWrite h (State.setFleet_of_provision (s := s.keysBegun) ?_ hlife)
    rw [show s.keysBegun.cfg.role = .standalone from hrole]
    decide
  · change execRootRetagDone s = _
    rw [execRootRetagDone, hold]
    exact State.whenDo_of s _ hretag
  · refine ⟨_, next_keysWrite h (State.pairCmd_of_fleet (s := s.keysBegun) hrole hlife howner hroot hcan), ?_⟩
    rw [State.derivations_of_canDerive (s := s.keysBegun) hcan]
    exact ⟨rfl, rfl, rfl, rfl, rfl, rfl, rfl⟩
  · refine ⟨s.pairFrame, State.whenDo_of s _ (by simp [halive, hpair, hrec, hleft]), ?_⟩
    simp [State.pairFrame, State.lkSend, State.upLk, hleft]
  · have hend : execPairingTimeout s = .next (s.pairDone 14#5) := State.whenDo_of s _ (by simp [hpair, hleft, htime])
    refine ⟨fun hkeys => hend.trans ?_, fun hkeys => hend.trans ?_⟩
    · rw [State.pairDone_eq, if_pos hkeys, if_pos hkeys]
      rfl
    · rw [State.pairDone_eq, hkeys]
      rfl

end Sys2Proof.Machine
end

section
/-! SUPPORT. The key store: life-cycle steps, the signing tree, what the host can obtain, destruction and tamper (R469 to
R477, R482, R483, R485). -/

namespace Sys2Proof.Machine

/-! A lookup of the register (R366, R373). -/

/-- What touching pages leaves alone: all but the verified and bad pages, the page checks' jobs, source 34 and its record
(R373, R374). -/
def LookedUp (s t : State) : Prop := t = { s with
  reg := { s.reg with bad := t.reg.bad, verified := t.reg.verified }
  cry := { s.cry with kjobs := t.cry.kjobs }
  intc := t.intc
  log := t.log }

theorem LookedUp.refl (s : State) : LookedUp s s := rfl

theorem LookedUp.trans {s t u : State} (h : LookedUp s t) (k : LookedUp t u) : LookedUp s u := by
  unfold LookedUp at h k ⊢
  rw [k, h]

theorem lookedUp_touchPage (s : State) (k : Nat) : LookedUp s (s.touchPage k) := by
  by_cases hdone : (s.reg.verified.contains k || s.reg.bad.contains k || !s.canDerive) = true
  · rw [State.touchPage, if_pos hdone]
    rfl
  · have hcan : s.canDerive = true := by
      simp only [Bool.or_eq_true, Bool.not_eq_true', not_or, Bool.not_eq_false] at hdone
      exact hdone.2
    have hask (j : KecJob) : s.kecAsk j = s.upCry fun c => { c with kjobs := placeKec { j with since := s.now } c.kjobs } :=
      if_pos hcan
    rw [State.touchPage, if_neg hdone, hask]
    split
    · dsimp only
      split
      · unfold LookedUp
        rw [State.logRecord_eq]
        rfl
      · rfl
    · rfl

theorem lookedUp_foldl_touchPage (l : List Nat) (s : State) : LookedUp s (l.foldl State.touchPage s) := by
  induction l generalizing s with
  | nil => rfl
  | cons k l ih => exact (lookedUp_touchPage s k).trans (ih _)

theorem lookedUp_lookupIn (cred : BitVec 64) (l : List Nat) (s : State) : LookedUp s (State.lookupIn cred l s).2 := by
  induction l generalizing s with
  | nil => rfl
  | cons n l ih =>
    unfold State.lookupIn
    dsimp only
    split
    · exact ih s
    · split
      · exact (lookedUp_foldl_touchPage _ s).trans (ih _)
      · split
        · exact lookedUp_foldl_touchPage _ s
        · exact (lookedUp_foldl_touchPage _ s).trans (ih _)

theorem lookedUp_lookup (s : State) (cred : BitVec 64) : LookedUp s (s.lookup cred).2 := by
  unfold State.lookup
  split
  · rfl
  · exact lookedUp_lookupIn _ _ s

/-- A lookup leaves what the slots say (R356). -/
theorem LookedUp.member {s t : State} (h : LookedUp s t) (n : Nat) : t.reg.member n = s.reg.member n := by
  rw [h]
  rfl

/-- Two states of one register, whose Keccak engines work alike: a touch does the same to their pages. -/
theorem touchPage_congr {s t : State} (k : Nat) (hreg : t.reg = s.reg) (hcan : t.canDerive = s.canDerive) :
    (t.touchPage k).reg = (s.touchPage k).reg ∧ (t.touchPage k).canDerive = (s.touchPage k).canDerive := by
  have hkeep (u : State) : (u.touchPage k).canDerive = u.canDerive := by
    rw [lookedUp_touchPage u k]
    rfl
  refine ⟨?_, by rw [hkeep, hkeep, hcan]⟩
  have hask (u : State) (j : KecJob) : (u.kecAsk j).reg = u.reg := by
    unfold State.kecAsk
    split <;> rfl
  unfold State.touchPage
  simp only [hreg, hcan]
  split
  · exact hreg
  · split
    · split <;> simp [hask, hreg]
    · simp [hask, hreg]

theorem foldl_touchPage_congr {l : List Nat} {s t : State} (hreg : t.reg = s.reg) (hcan : t.canDerive = s.canDerive) :
    (l.foldl State.touchPage t).reg = (l.foldl State.touchPage s).reg ∧
      (l.foldl State.touchPage t).canDerive = (l.foldl State.touchPage s).canDerive := by
  induction l generalizing s t with
  | nil => exact ⟨hreg, hcan⟩
  | cons k l ih =>
    obtain ⟨hreg', hcan'⟩ := touchPage_congr k hreg hcan
    exact ih hreg' hcan'

/-- A lookup finds the same slot in two states of one register, whose Keccak engines work alike (R366). -/
theorem lookupIn_congr {cred : BitVec 64} {l : List Nat} {s t : State} (hreg : t.reg = s.reg) (hcan : t.canDerive = s.canDerive) :
    (State.lookupIn cred l t).1 = (State.lookupIn cred l s).1 := by
  induction l generalizing s t with
  | nil => rfl
  | cons n l ih =>
    obtain ⟨hreg', hcan'⟩ := foldl_touchPage_congr (l := slotPages n) hreg hcan
    unfold State.lookupIn
    simp only [hreg, hreg']
    split
    · exact ih hreg hcan
    · split
      · exact ih hreg' hcan'
      · split
        · rfl
        · exact ih hreg' hcan'

theorem lookup_congr {cred : BitVec 64} {s t : State} (hreg : t.reg = s.reg) (hcan : t.canDerive = s.canDerive) :
    (t.lookup cred).1 = (s.lookup cred).1 := by
  unfold State.lookup
  rw [hreg]
  split
  · rfl
  · exact lookupIn_congr hreg hcan

/-! The key store is busy while the AES engine takes a job (R485, R491). -/

/-- The key store runs a command, or none (R485). -/
def State.setBusy (s : State) (b : Bool) : State := s.upKeys fun k => { k with busy := b }

theorem startJobs_setBusy (n : Nat) (s : State) (b : Bool) : (s.setBusy b).startJobs n = (s.startJobs n).setBusy b := by
  induction n generalizing s with
  | zero => rfl
  | succ n ih =>
    have hadmitted (j : AesJob) : (s.setBusy b).jobAdmitted j = s.jobAdmitted j := rfl
    have haborted (j : AesJob) (u : State) : (u.setBusy b).jobAborted j = (u.jobAborted j).setBusy b := by
      unfold State.jobAborted
      split
      · split <;> rfl
      · rfl
    have hcry : (s.setBusy b).cry = s.cry := rfl
    unfold State.startJobs
    rw [hcry]
    cases hjobs : s.cry.jobs with
    | nil => rfl
    | cons j rest =>
      dsimp only
      rw [hadmitted]
      split
      · rfl
      · split
        · rfl
        · rw [← ih, ← haborted]
          rfl

theorem startHead_setBusy (s : State) (b : Bool) : (s.setBusy b).startHead = s.startHead.setBusy b := startJobs_setBusy _ s b

theorem upCry_setBusy (s : State) (b : Bool) (f : Crypto → Crypto) : (s.setBusy b).upCry f = (s.upCry f).setBusy b := rfl

theorem addJob_setBusy (s : State) (j : AesJob) (b : Bool) : (s.setBusy b).addJob j = (s.addJob j).setBusy b := by
  have hyield (u : State) : (u.setBusy b).yieldHead = u.yieldHead.setBusy b := by
    have hcry : (u.setBusy b).cry = u.cry := rfl
    unfold State.yieldHead
    rw [hcry]
    cases u.cry.jobs with
    | nil => rfl
    | cons h t =>
      dsimp only
      split
      · rw [upCry_setBusy, startHead_setBusy]
      · rfl
  unfold State.addJob
  rw [← hyield, upCry_setBusy, startHead_setBusy]

theorem draw_setBusy (s : State) (n : Nat) (b : Bool) :
    ((s.setBusy b).draw n).1 = (s.draw n).1 ∧ ((s.setBusy b).draw n).2 = (s.draw n).2.setBusy b := by
  refine ⟨rfl, ?_⟩
  have hjob : (s.setBusy b).drbgJob ((n + 15) / 16 + 3) = (s.drbgJob ((n + 15) / 16 + 3)).setBusy b := addJob_setBusy s _ b
  unfold State.draw
  dsimp only
  rw [hjob]
  rfl

/-- A nonce that is drawn at once ends the command (R485, R523). -/
theorem State.request_keysNonce {s : State} (hserves : s.trng.serves = true) (hheld : s.trng.held = []) :
    s.request .keysNonce = ((s.draw 8).2.upKeys fun k => { k with
      nonce := BitVec.ofNat 64 (leAt (s.draw 8).1 0 8), nonceAt := s.now, result := 1#5, busy := false }).latch 44 := by
  have hnow : (s.draw 8).2.now = s.now := by rw [State.draw_eq]
  have hrequest : s.request .keysNonce = s.deliver .keysNonce := by simp [State.request, hserves, hheld]
  rw [hrequest, ← hnow]
  rfl

/-- NEW_NONCE with a generator that delivers (R485, R523). -/
theorem State.newNonce_of_serves {s : State} (hserves : s.trng.serves = true) (hheld : s.trng.held = []) :
    s.newNonce = ((s.draw 8).2.upKeys fun k => { k with
      nonce := BitVec.ofNat 64 (leAt (s.draw 8).1 0 8), nonceAt := s.now, result := 1#5, busy := false }).latch 44 := by
  obtain ⟨hout, hdraw⟩ := draw_setBusy s 8 true
  have hrequest : s.newNonce = (s.setBusy true).request .keysNonce := rfl
  rw [hrequest, State.request_keysNonce (s := s.setBusy true) hserves hheld, hdraw, hout]
  rfl

/-! The commands. -/

/-- A life-cycle step of a device that is no harbourmaster is armed here alone (R137, R638). -/
theorem State.armLife_of_not_host {s : State} (l : LifeCycle) (code : Nat) (h : s.cfg.role ≠ .harbourmaster) :
    s.armLife l code = (s.upTide fun t => { t with lifeNext := some l }).keysEnd 1 := by
  rw [State.armLife, State.forwardAll_of_not_host _ _ _ (by exact h)]

theorem State.verification_cfg (s : State) (w : KecWork) (len : Nat) : (s.verification w len).cfg = s.cfg := by
  unfold State.verification State.kecAsk
  split <;> rfl

theorem State.advance_of_provision {s : State} (h : s.tide.life = .provision) :
    s.advance = if s.keysReady = 0x7F#7 then s.armLife .fleet 6 else s.keysEnd 12 s.keysReady.toNat := by
  rw [State.advance, h]

/-- In FLEET an installed fleet root gives keys (R447, R453). -/
theorem State.fleetDerives_of_fleet {s : State} (hlife : s.tide.life = .fleet) (hroot : s.keys.fr.valid = true) :
    s.fleetDerives = true := by
  have hbit : (at32 8 TreeKey.fleet.life).getLsbD 10 = true := by decide
  rw [State.fleetDerives, hroot, hlife, Bool.true_and]
  simp [TreeKey.attr, LifeCycle.code, hbit]

/-- RETURN in FLEET where signatures can be verified (R469, R471). -/
theorem State.returnCmd_of_fleet {s : State} (hlife : s.tide.life = .fleet) (hcan : s.canVerify = true)
    (hrole : s.cfg.role ≠ .harbourmaster) :
    let r := s.returnCheck (Mem.load s.keys.buf 0 4096)
    let u := if r = 1 ∨ r = 8 then s.verification .other 64 else s
    s.returnCmd = if r = 1 then
        ((u.upCry fun c => { c with verPass := satInc c.verPass }).upTide fun t =>
          { t with lifeNext := some .returned }).keysEnd 1
      else (u.upCry fun c => { c with verFail := if r = 8 then satInc c.verFail else c.verFail }).keysEnd r := by
  unfold State.returnCmd
  rw [if_neg (by simp [hlife]), if_neg (by simp [hcan])]
  generalize s.returnCheck (Mem.load s.keys.buf 0 4096) = r
  intro r' u
  by_cases hr : r = 1
  · simp only [hr, if_true, true_or, u, r']
    exact State.armLife_of_not_host _ _ ((congrArg (·.role ≠ .harbourmaster) (State.verification_cfg s _ _)).mpr hrole)
  · simp only [hr, if_false, false_or, u, r']

/-- RESPOND in FLEET with a fleet root, on a working Keccak engine (R482). -/
theorem State.respond_of_fleet {s : State} (hlife : s.tide.life = .fleet) (hroot : s.keys.fr.valid = true)
    (hcan : s.canDerive = true) :
    let dev := le 8 s.ident.device.toNat
    let ctx := dev ++ le 4 s.tide.number.toNat ++ le 4 s.reg.cur.seq.toNat ++ le 4 s.cfg.serial.toNat ++ [2#8]
    let out := derive (derive s.keys.fr.key "BKND" dev 32) "RESP" (Mem.load s.keys.buf 0 32 ++ ctx) 32 ++ ctx
    s.respond = ((s.derivations 2 2#2 31#5).useCells.upKeys fun k => { k with out := out }).keysEnd 1 := by
  intro dev ctx out
  rw [State.respond, if_neg (by simp [hlife]), if_neg (by simp [State.fleetDerives_of_fleet hlife hroot]), State.withKeccak,
    if_pos hcan, State.derivations_of_canDerive hcan]
  have hcode : BitVec.ofNat 8 s.tide.life.code = 2#8 := by rw [hlife]; rfl
  simp only [out, ctx, dev, ← hcode]
  rfl

theorem State.harvestKey_congr {s t : State} (h : t.keys.fr = s.keys.fr) (cred : BitVec 64) (gen : BitVec 8) (dev : BitVec 64) :
    t.harvestKey cred gen dev = s.harvestKey cred gen dev := by
  rw [State.harvestKey, State.harvestKey, State.memberKey, State.memberKey, h]

/-- EXPORT_HARVEST in FLEET of an active member, on a working Keccak engine (R483). -/
theorem State.exportHarvest_of_found {s : State} {n : Nat} (hlife : s.tide.life = .fleet) (hroot : s.keys.fr.valid = true)
    (hcan : s.canDerive = true) (hfound : (s.lookup s.keys.cred).1 = some n) (hst : (s.reg.member n).status = 1#8) :
    s.exportHarvest = (((s.lookup s.keys.cred).2.derivations 2 2#2 31#5).useCells.upKeys fun k =>
      { k with out := s.harvestKey s.keys.cred (s.reg.member n).gen s.ident.device }).keysEnd 1 := by
  have hlooked := lookedUp_lookup s s.keys.cred
  have hmember := hlooked.member n
  have hlookup : s.lookup s.keys.cred = (some n, (s.lookup s.keys.cred).2) := Prod.ext hfound rfl
  generalize (s.lookup s.keys.cred).2 = u at hlookup hlooked hmember ⊢
  have hcanu : u.canDerive = true := by
    rw [hlooked]
    exact hcan
  have hrootu : u.fleetDerives = true := by
    rw [hlooked]
    exact State.fleetDerives_of_fleet hlife hroot
  have hkeys : u.keys = s.keys := by rw [hlooked]
  have hident : u.ident = s.ident := by rw [hlooked]
  rw [State.exportHarvest, if_neg (by simp [hlife]), hlookup]
  dsimp only
  rw [hmember, if_neg (by simp [hst]), if_neg (by simp [hrootu]), State.withKeccak, if_pos hcanu]
  obtain ⟨hkeysd, hidentd⟩ := u.derivations_keys 2 2#2 31#5
  generalize u.derivations 2 2#2 31#5 = v at hkeysd hidentd ⊢
  have hcred : v.useCells.keys.cred = s.keys.cred :=
    (show v.useCells.keys.cred = v.keys.cred from rfl).trans (congrArg Keys.cred (hkeysd.trans hkeys))
  simp only [State.upKeys, hcred]
  rw [hidentd.trans hident, State.harvestKey_congr (s := s) (t := v) (by rw [hkeysd, hkeys])]

/-! A tamper event (R148, R476, R477). -/

/-- What jobs at the AES engine leave of the key store: all but the counts of refused uses and of re-maskings (R452, R479). -/
def JobKeys (s t : State) : Prop := t.keys = { s.keys with
  violation := t.keys.violation, violMaster := t.keys.violMaster, remasks := t.keys.remasks }

theorem JobKeys.refl (s : State) : JobKeys s s := rfl

theorem JobKeys.trans {s t u : State} (h : JobKeys s t) (k : JobKeys t u) : JobKeys s u := by
  unfold JobKeys at h k ⊢
  rw [k, h]

theorem State.jobAborted_keys (s : State) (j : AesJob) : (s.jobAborted j).keys = s.keys := by
  unfold State.jobAborted
  split
  · split <;> rfl
  · rfl

theorem jobKeys_startJobs (n : Nat) (s : State) : JobKeys s (s.startJobs n) := by
  induction n generalizing s with
  | zero => rfl
  | succ n ih =>
    unfold State.startJobs
    split
    · rfl
    · split
      · rfl
      · split
        · rfl
        · refine .trans ?_ (ih _)
          unfold JobKeys
          rw [State.jobAborted_keys]
          rfl

/-- The session keys are gone, and the AES queue is as it was (R473, R477). -/
def State.keysZeroed (s : State) : State :=
  ((s.upKeys fun k => { k with slots := [], out := [] }).upBt fun t =>
    { t with berths := t.berths.map fun b => { b with se := { b.se with memberKey := [], authKey := [] } } }).dropTagKey

theorem foldl_jobAborted (l : List AesJob) (s : State) :
    JobFrame s (l.foldl State.jobAborted s) ∧ JobKeys s (l.foldl State.jobAborted s) := by
  induction l generalizing s with
  | nil => exact ⟨.refl s, .refl s⟩
  | cons j l ih =>
    obtain ⟨hframe, hkeys⟩ := ih (s.jobAborted j)
    refine ⟨(jobFrame_jobAborted s j).trans hframe, .trans ?_ hkeys⟩
    unfold JobKeys
    rw [State.jobAborted_keys]

/-- What the jobs that lose their keys leave alone (R477, R494). -/
theorem zeroSession_frame (s : State) : JobFrame s.keysZeroed s.zeroSession ∧ JobKeys s.keysZeroed s.zeroSession := by
  obtain ⟨hframe, hkeys⟩ := foldl_jobAborted (s.keysZeroed.cry.jobs.filter fun j => j.cell.any cellZeroed) s.keysZeroed
  exact ⟨hframe.trans (.trans (t := State.upCry _ _) rfl (jobFrame_startJobs _ _)),
    hkeys.trans (.trans (t := State.upCry _ _) rfl (jobKeys_startJobs _ _))⟩

theorem State.berth_keysZeroed (s : State) (n : Nat) : (s.keysZeroed.berth n).id = (s.berth n).id ∧
    (n < s.bt.berths.length → (s.keysZeroed.berth n).se.memberKey = [] ∧ (s.keysZeroed.berth n).se.authKey = []) := by
  have hberths : s.keysZeroed.bt.berths =
      s.bt.berths.map fun b => { b with se := { b.se with memberKey := [], authKey := [] } } := rfl
  simp only [State.berth, hberths, List.getD_eq_getElem?_getD, List.getElem?_map]
  cases hn : s.bt.berths[n]? with
  | none => exact ⟨rfl, fun hlt => absurd hlt (Nat.not_lt.mpr (List.getElem?_eq_none_iff.mp hn))⟩
  | some b => exact ⟨rfl, fun _ => ⟨rfl, rfl⟩⟩

/-- Casting a berth off with TAMPER changes berths, links and the dwell (R30). -/
theorem State.castTamper_eq (s : State) (n : Nat) : s.castTamper n = { s with
    bt := (s.castTamper n).bt, nb := (s.castTamper n).nb, tide := (s.castTamper n).tide } := by
  unfold State.castTamper
  cases hheld : (s.berth n).id.st.held with
  | true =>
    rw [State.castOff_of_held _ hheld]
    rfl
  | false =>
    rw [State.castOff_of_not_held _ hheld]
    rfl

theorem State.castTamper_tide (s : State) (n : Nat) : (s.castTamper n).tide = { s.tide with
    dwellFrom := (s.castTamper n).tide.dwellFrom } := by
  unfold State.castTamper
  cases hheld : (s.berth n).id.st.held with
  | true =>
    rw [State.castOff_of_held _ hheld]
    rfl
  | false =>
    rw [State.castOff_of_not_held _ hheld]
    rfl

/-- What TAMPER makes of a berth's identity (R30). -/
def BerthId.tampered (b : BerthId) : BerthId := { b with st := if b.st.held then .castOff else b.st, cause := 0x0D#8 }

theorem State.castOff_bt_of_held {s : State} {n : Nat} (cause : BitVec 8) (h : (s.berth n).id.st.held = true) :
    (s.castOff n cause).bt = (s.modId n fun b => { b with st := .castOff, cause := cause }).bt := by
  rw [State.castOff_of_held _ h]

/-- Another berth is left alone. -/
theorem State.berth_castTamper_ne (s : State) {m n : Nat} (h : n ≠ m) : (s.castTamper m).berth n = s.berth n := by
  refine (State.berth_modBerth_ne _ h).trans ?_
  cases hheld : (s.berth m).id.st.held with
  | true => exact (State.berth_congr (State.castOff_bt_of_held _ hheld) n).trans (State.berth_modBerth_ne _ h)
  | false => rw [State.castOff_of_not_held _ hheld]

theorem State.castTamper_length (s : State) (m : Nat) : (s.castTamper m).bt.berths.length = s.bt.berths.length := by
  refine (List.length_modify _ _ _).trans ?_
  cases hheld : (s.berth m).id.st.held with
  | true =>
    rw [State.castOff_of_held _ hheld]
    exact List.length_modify _ _ _
  | false => rw [State.castOff_of_not_held _ hheld]

theorem State.berth_castTamper_same {s : State} {n : Nat} (h : n < s.bt.berths.length) :
    (s.castTamper n).berth n = { s.berth n with id := (s.berth n).id.tampered } := by
  cases hheld : (s.berth n).id.st.held with
  | true =>
    have hbt := State.castOff_bt_of_held 0x0D#8 hheld
    have hlt : n < (s.castOff n 0x0D#8).bt.berths.length := by
      rw [hbt]
      exact lt_of_lt_of_eq h (List.length_modify _ _ _).symm
    refine (State.berth_modBerth_same _ hlt).trans ?_
    rw [State.berth_congr hbt, State.modId, State.berth_modBerth_same _ h, BerthId.tampered, if_pos hheld]
  | false =>
    refine (State.berth_modBerth_same _ (by rwa [State.castOff_of_not_held _ hheld])).trans ?_
    rw [State.castOff_of_not_held _ hheld, BerthId.tampered, if_neg (by simp [hheld])]

/-- A berth as TAMPER leaves it (R30). -/
def BerthId.lostToTamper (b : BerthId) : Prop := b.st = .castOff ∧ b.cause = 0x0D#8

/-- A berth that is live is lost to TAMPER when its turn comes. -/
theorem BerthId.lostToTamper_tampered {b : BerthId} (h : b.st.live = true) : b.tampered.lostToTamper := by
  refine ⟨?_, rfl⟩
  cases hst : b.st <;> simp_all [BerthId.tampered, BerthState.live, BerthState.held]

/-- What casting berth `m` off with TAMPER does to berth `n`: its session part stays, a FREE one stays FREE, a live one
stays live, and one that is lost stays so (R30). -/
theorem State.berth_castTamper (s : State) (m n : Nat) :
    ((s.castTamper m).berth n).se = (s.berth n).se ∧
    ((s.berth n).id.st = .free → ((s.castTamper m).berth n).id.st = .free) ∧
    ((s.berth n).id.st.live = true → ((s.castTamper m).berth n).id.st.live = true) ∧
    ((s.berth n).id.lostToTamper → ((s.castTamper m).berth n).id.lostToTamper) := by
  by_cases hnm : n = m
  · subst hnm
    by_cases hlt : n < s.bt.berths.length
    · rw [State.berth_castTamper_same hlt]
      refine ⟨rfl, fun hfree => ?_, fun hlive => ?_, fun hlost => ?_⟩
      · simp [BerthId.tampered, hfree, BerthState.held]
      · simp [(BerthId.lostToTamper_tampered hlive).1, BerthState.live]
      · exact BerthId.lostToTamper_tampered (by simp [hlost.1, BerthState.live])
    · have hout : (s.castTamper n).berth n = s.berth n := by
        have hs := List.getD_eq_default s.bt.berths Berth.reset (Nat.not_lt.mp hlt)
        have ht := List.getD_eq_default (s.castTamper n).bt.berths Berth.reset
          (Nat.not_lt.mp (by rwa [State.castTamper_length]))
        rw [State.berth, State.berth, hs, ht]
      rw [hout]
      exact ⟨rfl, id, id, id⟩
  · rw [State.berth_castTamper_ne s hnm]
    exact ⟨rfl, id, id, id⟩

theorem State.berth_foldl_castTamper (l : List Nat) (s : State) (n : Nat) :
    ((l.foldl State.castTamper s).berth n).se = (s.berth n).se ∧
    ((s.berth n).id.st = .free → ((l.foldl State.castTamper s).berth n).id.st = .free) ∧
    ((s.berth n).id.lostToTamper → ((l.foldl State.castTamper s).berth n).id.lostToTamper) ∧
    (n ∈ l → n < s.bt.berths.length → (s.berth n).id.st.live = true →
      ((l.foldl State.castTamper s).berth n).id.lostToTamper) := by
  induction l generalizing s with
  | nil => exact ⟨rfl, id, id, fun h => absurd h List.not_mem_nil⟩
  | cons m l ih =>
    obtain ⟨hse, hfree, hlive, hlost⟩ := s.berth_castTamper m n
    obtain ⟨hse', hfree', hlost', hmem'⟩ := ih (s.castTamper m)
    refine ⟨hse'.trans hse, fun h => hfree' (hfree h), fun h => hlost' (hlost h), fun hmem hlt h => ?_⟩
    rcases List.mem_cons.mp hmem with rfl | hmem
    · refine hlost' ?_
      rw [State.berth_castTamper_same hlt]
      exact BerthId.lostToTamper_tampered h
    · exact hmem' hmem (by rwa [State.castTamper_length]) (hlive h)

/-- Only the lock keeper and the interrupt controller change. -/
def LkFrame (s t : State) : Prop := t = { s with lk := t.lk, intc := t.intc }

theorem LkFrame.trans {s t u : State} (h : LkFrame s t) (k : LkFrame t u) : LkFrame s u := by
  unfold LkFrame at h k ⊢
  rw [k, h]

theorem LkFrame.keys_bt {s t : State} (h : LkFrame s t) : t.keys = s.keys ∧ t.bt = s.bt := by
  unfold LkFrame at h
  rw [h]
  exact ⟨rfl, rfl⟩

theorem lkFrame_lkLatch (s : State) (n : Nat) : LkFrame s (s.lkLatch n) := by
  unfold LkFrame
  rw [State.lkLatch_eq]

/-- What a tamper event does at the lock keeper (R429, R430). -/
theorem lkFrame_lkTamper (s : State) : LkFrame s s.lkTamper := by
  have hwaits : LkFrame s (if s.lk.queue.isSome then (s.upLk fun k => { k with queue := none }).lkLatch 56
      else s.upLk fun k => { k with queue := none }) := by
    split
    · exact .trans (t := s.upLk _) rfl (lkFrame_lkLatch _ 56)
    · rfl
  refine hwaits.trans ?_
  unfold State.lkTamper
  dsimp only
  generalize (if s.lk.queue.isSome then (s.upLk fun k => { k with queue := none }).lkLatch 56
      else s.upLk fun k => { k with queue := none }) = u
  split
  · exact .trans (t := u.upLk _) rfl (lkFrame_lkLatch _ 56)
  · split <;> rfl

/-- What a tamper event leaves alone of the device's records, settings, port and time (R477). -/
def TamperFrame (s t : State) : Prop := t = { s with
  keys := t.keys, bt := t.bt, nfc := t.nfc, cry := t.cry, uwb := t.uwb, intc := t.intc, nb := t.nb, lk := t.lk, ver := t.ver
  tide := { s.tide with dwellFrom := t.tide.dwellFrom } }

theorem TamperFrame.trans {s t u : State} (h : TamperFrame s t) (k : TamperFrame t u) : TamperFrame s u := by
  unfold TamperFrame at h k ⊢
  rw [k, h]

theorem JobFrame.tamperFrame {s t : State} (h : JobFrame s t) : TamperFrame s t := by
  unfold JobFrame at h
  unfold TamperFrame
  rw [h]

theorem LkFrame.tamperFrame {s t : State} (h : LkFrame s t) : TamperFrame s t := by
  unfold LkFrame at h
  unfold TamperFrame
  rw [h]

/-- The berths after the session keys are gone and the live ones are cast off with TAMPER, before verdicts, lock keeper and
pins (R30, R477). -/
def State.tamperCast (s : State) : State := s.zeroSession.liveBerths.foldl State.castTamper s.zeroSession

/-- The override ticket is gone too (R346). -/
def State.tamperTicket (s : State) : State := s.tamperCast.upVer fun v => { v with
  ovrState := if v.ovrState = .active then .idle else v.ovrState, ovrPrev := .idle, ovrUses := 0#5 }

/-- And the lock keeper's ticket (R429). -/
def State.tamperHeld (s : State) : State := s.tamperTicket.lkTamper

theorem State.tamperEffects_def (s : State) : s.tamperEffects = (s.tamperHeld.upPins fun p => { p with
    outputs := p.outputs &&& ~~~s.tamperHeld.heldPins, pulses := [], windows := [] }).upKeys fun k =>
      { k with tamperHold := true, tamperQuiet := none } := rfl

theorem foldl_castTamper_frame (l : List Nat) (s : State) :
    TamperFrame s (l.foldl State.castTamper s) ∧ (l.foldl State.castTamper s).keys = s.keys := by
  induction l generalizing s with
  | nil => exact ⟨rfl, rfl⟩
  | cons m l ih =>
    obtain ⟨hframe, hkeys⟩ := ih (s.castTamper m)
    have hone : TamperFrame s (s.castTamper m) := by
      have heq := s.castTamper_eq m
      have htide := s.castTamper_tide m
      generalize s.castTamper m = u at heq htide
      unfold TamperFrame
      rw [heq]
      rw [heq] at htide
      rw [htide]
    exact ⟨hone.trans hframe, hkeys.trans (by rw [State.castTamper_eq])⟩

theorem JobFrame.bt {s t : State} (h : JobFrame s t) : t.bt = s.bt := by
  unfold JobFrame at h
  rw [h]

theorem State.tamperHeld_keys_bt (s : State) :
    s.tamperHeld.keys = s.zeroSession.keys ∧ s.tamperHeld.bt = s.tamperCast.bt := by
  obtain ⟨hkeys, hbt⟩ := (lkFrame_lkTamper s.tamperTicket).keys_bt
  have hcast := (foldl_castTamper_frame s.zeroSession.liveBerths s.zeroSession).2
  rw [State.tamperHeld, hkeys, hbt, State.tamperTicket, State.upVer_keys, State.upVer_bt, State.tamperCast, hcast]
  exact ⟨rfl, rfl⟩

theorem tamperFrame_tamperHeld (s : State) : TamperFrame s s.tamperHeld := by
  have hzeroed : TamperFrame s s.keysZeroed := rfl
  have hzero : TamperFrame s s.zeroSession := hzeroed.trans (zeroSession_frame s).1.tamperFrame
  have hcast : TamperFrame s s.tamperCast := hzero.trans (foldl_castTamper_frame s.zeroSession.liveBerths s.zeroSession).1
  have hticket : TamperFrame s s.tamperTicket := by
    refine hcast.trans ?_
    rw [State.tamperTicket]
    generalize s.tamperCast = u
    rfl
  exact hticket.trans (lkFrame_lkTamper s.tamperTicket).tamperFrame

/-- What a tamper event does to the key store: the session keys go, the outputs are held, refused uses are counted (R148,
R452, R477). -/
theorem State.tamperEffects_keys (s : State) : s.tamperEffects.keys = { s.keys with
    slots := [], out := [], tamperHold := true, tamperQuiet := none
    violation := s.tamperEffects.keys.violation, violMaster := s.tamperEffects.keys.violMaster
    remasks := s.tamperEffects.keys.remasks } := by
  have hzero := (zeroSession_frame s).2
  have hheld : s.tamperEffects.keys = { s.tamperHeld.keys with tamperHold := true, tamperQuiet := none } := by
    rw [State.tamperEffects_def, State.upKeys_keys, State.upPins_keys]
  unfold JobKeys at hzero
  rw [hheld, s.tamperHeld_keys_bt.1]
  generalize s.zeroSession = z at hzero ⊢
  rw [hzero]
  rfl

/-- What a tamper event does to the pins, and what it leaves alone (R148, R477). -/
theorem State.tamperEffects_eq (s : State) : s.tamperEffects = { s with
    keys := s.tamperEffects.keys, bt := s.tamperEffects.bt, nfc := s.tamperEffects.nfc, cry := s.tamperEffects.cry
    uwb := s.tamperEffects.uwb, intc := s.tamperEffects.intc, nb := s.tamperEffects.nb, lk := s.tamperEffects.lk
    ver := s.tamperEffects.ver
    tide := { s.tide with dwellFrom := s.tamperEffects.tide.dwellFrom }
    pins := { s.pins with outputs := s.pins.outputs &&& ~~~s.heldPins, pulses := [], windows := [] } } := by
  have hframe := tamperFrame_tamperHeld s
  unfold TamperFrame at hframe
  rw [State.tamperEffects_def]
  generalize s.tamperHeld = u at hframe ⊢
  rw [hframe]
  rfl

/-- What a tamper event makes of the berths (R30, R477). -/
theorem State.berth_tamperEffects (s : State) (n : Nat) :
    ((s.berth n).id.st = .free → (s.tamperEffects.berth n).id.st = .free) ∧
    (n < 256 → (s.berth n).id.st.live = true → n < s.bt.berths.length → (s.tamperEffects.berth n).id.lostToTamper ∧
      (s.tamperEffects.berth n).se.memberKey = [] ∧ (s.tamperEffects.berth n).se.authKey = []) := by
  obtain ⟨hid, hse⟩ := s.berth_keysZeroed n
  have hbtz : s.zeroSession.bt = s.keysZeroed.bt := (zeroSession_frame s).1.bt
  have hberthz : s.zeroSession.berth n = s.keysZeroed.berth n := State.berth_congr hbtz n
  have hlen : s.zeroSession.bt.berths.length = s.bt.berths.length := (congrArg (·.berths.length) hbtz).trans (List.length_map _)
  have hlast : s.tamperEffects.berth n = s.tamperCast.berth n := by
    refine State.berth_congr (.trans ?_ s.tamperHeld_keys_bt.2) n
    rw [State.tamperEffects_def, State.upKeys_bt, State.upPins_bt]
  obtain ⟨hsame, hfree, -, hlost⟩ := State.berth_foldl_castTamper s.zeroSession.liveBerths s.zeroSession n
  rw [hlast]
  refine ⟨fun h => hfree (by rw [hberthz, hid, h]), fun h256 hlive hlt => ?_⟩
  obtain ⟨hmember, hauth⟩ := hse hlt
  have hlivez : (s.zeroSession.berth n).id.st.live = true := by rw [hberthz, hid, hlive]
  have hmem : n ∈ s.zeroSession.liveBerths := List.mem_filter.mpr ⟨List.mem_range.mpr h256, hlivez⟩
  refine ⟨hlost hmem (by rwa [hlen]) hlivez, ?_, ?_⟩
  · rw [State.tamperCast, hsame, hberthz, hmember]
  · rw [State.tamperCast, hsame, hberthz, hauth]

/-- A tamper event by source `src`, after its effects: the roots that wait go, and it is shown, counted and latched (R461,
R476, R477). -/
def State.tamperCounted (e : State) (src : Nat) : State :=
  ((e.unstageRoots.upKeys fun k => { k with
    tamper := setBit k.tamper src true, tamperLatch := setBit k.tamperLatch src true
    tamperCount := satInc k.tamperCount }).tamperZeroes).latch 46

theorem State.tamperCounted_keys (e : State) (src : Nat) : (e.tamperCounted src).keys = { e.keys with
    staged := [], switchTide := 0#32, tamper := setBit e.keys.tamper src true
    tamperLatch := setBit e.keys.tamperLatch src true, tamperCount := satInc e.keys.tamperCount } := by
  simp [State.tamperCounted, State.tamperZeroes, State.unstageRoots]

theorem State.tamperCounted_eq (e : State) (src : Nat) : e.tamperCounted src = { e with
    keys := (e.tamperCounted src).keys, cry := (e.tamperCounted src).cry, trng := (e.tamperCounted src).trng
    intc := e.intc.event 46 } := by
  simp only [State.tamperCounted, State.tamperZeroes, State.unstageRoots, State.latch, State.upIntc, State.upKeys, State.upCry,
    State.upTrng]

theorem State.tamperCounted_pending (e : State) (src : Nat) : (e.tamperCounted src).intc.pending.getLsbD 46 = true := by
  have hpend : (e.intc.event 46).pending = (e.intc.pend 46).pending := (Intc.event_frame _ (by decide)).1
  rw [State.tamperCounted_eq, hpend]
  exact setBit_here _ 46 true (by decide)

/-- A device without links tells nobody (R639). -/
theorem State.tamperRise_standalone {s : State} (src : Nat) (h : s.cfg.role = .standalone) :
    s.tamperRise src = (s.tamperEffects.tamperCounted src).logRecord 0x27
      [(s.tamperEffects.tamperCounted src).keys.tamper.setWidth 8] := by
  have heq := s.tamperEffects_eq
  unfold State.tamperRise
  generalize s.tamperEffects = e at heq ⊢
  have hrole : (e.tamperCounted src).cfg.role = .standalone := by
    rw [State.tamperCounted_eq, heq]
    exact h
  have hrecord (k : Nat) (d : Bytes) : ((e.tamperCounted src).logRecord k d).cfg.role = .standalone := by
    rw [State.logRecord_cfg, hrole]
  change (if ((e.tamperCounted src).logRecord 0x27 [(e.tamperCounted src).keys.tamper.setWidth 8]).cfg.role = .tender then
      State.report _ 4 0#32 _
    else State.tamperLinks _) = _
  rw [if_neg (by simp [hrole]), State.tamperLinks]
  exact if_neg fun hhost => absurd ((hrecord 0x27 _).symm.trans hhost) (by decide)

theorem State.destroyCmd_of_provision {s : State} (fleet : Bool) (h : s.tide.life = .provision) :
    s.destroyCmd fleet = (s.upKeys fun k => { k with destroyNext := setBit k.destroyNext (b2n fleet) true }).keysEnd 1 := by
  rw [State.destroyCmd, h]
  rfl

theorem State.destroyCmd_of_fleet {s : State} (fleet : Bool) (h : s.tide.life = .fleet) : s.destroyCmd fleet = s.keysEnd 6 := by
  rw [State.destroyCmd, h]
  rfl

/-- Settles O54: each command is its branch in the state in which a KEYS command begins; a tamper event is what it does to
keys, berths and pins, and its record. -/
theorem keysCommands : Obligations.KeysCommands := by
  refine ⟨fun s h hrole hlife => ⟨fun hready => ?_, fun hready => ?_⟩, fun s h hrole => ⟨fun hlife hcan => ?_, fun hlife => ?_⟩,
    fun s h hlife hxmss => next_keysWrite h (if_neg ?_), fun s hxmss hcan hheld => ?_, fun s h hlife hroot hcan => ?_,
    fun s n h hlife hroot hcan hfound hst => ?_, fun s h hserves hheld => ?_, fun s v h => ⟨fun hlife => ?_, fun hlife => ?_⟩,
    fun s hrole => ?_⟩
  · refine next_keysWrite h ((State.advance_of_provision (s := s.keysBegun) hlife).trans ((if_pos hready).trans ?_))
    exact State.armLife_of_not_host (s := s.keysBegun) _ _ (by rw [show s.keysBegun.cfg.role = .standalone from hrole]; decide)
  · exact next_keysWrite h ((State.advance_of_provision (s := s.keysBegun) hlife).trans (if_neg hready))
  · exact next_keysWrite h (State.returnCmd_of_fleet (s := s.keysBegun) hlife hcan
      (by rw [show s.keysBegun.cfg.role = .standalone from hrole]; decide))
  · exact next_keysWrite h (if_pos (show s.keysBegun.tide.life ≠ .fleet from hlife))
  · rintro (hlife' | hxmss')
    · exact hlife' hlife
    · exact hxmss' hxmss
  · refine ⟨_, State.whenDo_of s _ (by simp [hxmss, hcan, hheld]), ?_, ?_, ?_, ?_⟩
    · simp only [State.latch, State.upIntc, State.upKeys, State.upCry, State.kecDone]
    · simp only [State.latch, State.upIntc, State.upKeys, State.upCry, State.kecDone]
    · simp only [State.latch, State.upIntc, State.upKeys, State.upCry, State.kecDone]
    · simp only [State.latch, State.upIntc, State.upKeys, State.upCry, State.kecDone]
  · refine ⟨_, next_keysWrite h (State.respond_of_fleet (s := s.keysBegun) hlife hroot hcan), ?_⟩
    rw [State.derivations_of_canDerive (s := s.keysBegun) hcan]
    refine ⟨?_, ?_, ?_⟩
    · simp only [State.keysEnd, State.latch, State.upIntc, State.upKeys]
    · simp only [State.keysEnd, State.latch, State.upIntc, State.upKeys]
      rfl
    · generalize derive _ _ _ _ = d
      rfl
  · have hbegun : (s.keysBegun.lookup s.keysBegun.keys.cred).1 = some n := (lookup_congr (s := s) (t := s.keysBegun) rfl rfl).trans hfound
    refine ⟨_, next_keysWrite h (State.exportHarvest_of_found (s := s.keysBegun) hlife hroot hcan hbegun hst), ?_⟩
    have hlooked := lookedUp_lookup s.keysBegun s.keysBegun.keys.cred
    generalize (s.keysBegun.lookup s.keysBegun.keys.cred).2 = u at hlooked ⊢
    obtain ⟨reg, kjobs, intc, log, rfl⟩ : ∃ r k i l, u = { s.keysBegun with
        reg := r, cry := { s.cry with kjobs := k }, intc := i, log := l } := ⟨_, _, _, _, hlooked⟩
    rw [State.derivations_of_canDerive (by exact hcan), State.harvestKey_congr (s := s) rfl]
    generalize hout : s.harvestKey _ _ _ = d
    refine ⟨rfl, ?_, rfl⟩
    rw [← show s.harvestKey s.keys.cred (s.reg.member n).gen s.ident.device = d from hout]
    rfl
  · refine next_keysWrite h ((State.newNonce_of_serves (s := s.keysBegun) hserves hheld).trans ?_)
    rw [show (s.keysBegun.draw 8).1 = (s.draw 8).1 from rfl]
    rfl
  · cases v with
    | true => exact next_keysWrite h (State.destroyCmd_of_provision (s := s.keysBegun) _ hlife)
    | false => exact next_keysWrite h (State.destroyCmd_of_provision (s := s.keysBegun) _ hlife)
  · cases v with
    | true => exact next_keysWrite h (State.destroyCmd_of_fleet (s := s.keysBegun) _ hlife)
    | false => exact next_keysWrite h (State.destroyCmd_of_fleet (s := s.keysBegun) _ hlife)
  · refine ⟨s.tamperRise 0, State.whenDo_of s _ rfl, ?_⟩
    have heffects := s.tamperEffects_eq
    have hkeys := s.tamperEffects_keys
    have hberths := s.berth_tamperEffects
    rw [State.tamperRise_standalone 0 hrole]
    generalize s.tamperEffects = e at heffects hkeys hberths ⊢
    have hbt (n : Nat) : ((e.tamperCounted 0).logRecord 0x27 [(e.tamperCounted 0).keys.tamper.setWidth 8]).berth n = e.berth n := by
      rw [State.logRecord_eq, State.tamperCounted_eq]
      rfl
    have hpending := State.logRecord_pending_source 0x27 [(e.tamperCounted 0).keys.tamper.setWidth 8]
      (e.tamperCounted_pending 0)
    have hkeysc := e.tamperCounted_keys 0
    rw [hkeys] at hkeysc
    refine ⟨?_, ?_, ?_, ?_, ?_, ?_, ?_, ?_, ?_, fun n h256 hlive hlt => ?_, fun n hfree => ?_, fun m hm hpin => ?_, ?_, hpending,
      ?_, ?_, ?_⟩
    · simp [hkeysc]
    · simp [hkeysc]
    · simp [hkeysc]
    · rw [State.logRecord_keys, hkeysc]
      exact setBit_here _ 0 true (by decide)
    · rw [State.logRecord_keys, hkeysc]
      exact setBit_here _ 0 true (by decide)
    · simp [hkeysc]
    · simp [hkeysc]
    · simp [hkeysc]
    · simp [hkeysc]
    · obtain ⟨⟨hst, hcause⟩, hmember, hauth⟩ := (hberths n).2 h256 hlive hlt
      rw [hbt]
      exact ⟨hst, hcause, hmember, hauth⟩
    · rw [hbt]
      exact (hberths n).1 hfree
    · rw [State.logRecord_pins, State.tamperCounted_eq, heffects]
      simp [hpin]
    · rw [State.logRecord_head, State.tamperCounted_eq, heffects]
    · rw [State.logRecord_reg, State.tamperCounted_eq, heffects]
    · rw [State.logRecord_mf, State.tamperCounted_eq, heffects]
    · rw [State.logRecord_cfg, State.tamperCounted_eq, heffects]

end Sys2Proof.Machine
end

section
/-! SUPPORT. The AES and Keccak engines, signing, and the logbook's commands (R488 to R512, R715 to R718). -/

namespace Sys2Proof.Machine

/-! Jobs at the AES engine (R489 to R494). -/

/-- A queue of one job suspends none (R493). -/
theorem State.yieldHead_of_one {s : State} {h : AesJob} (hjobs : s.cry.jobs = [h]) : s.yieldHead = s := by
  rw [State.yieldHead, hjobs]
  exact if_neg (by simp)

theorem State.yieldHead_of_none {s : State} (hjobs : s.cry.jobs = []) : s.yieldHead = s := by
  rw [State.yieldHead, hjobs]

/-- A head that runs goes on (R489). -/
theorem State.startHead_of_started {s : State} {h : AesJob} {l : List AesJob} (hjobs : s.cry.jobs = h :: l)
    (hrun : h.started = true) : s.startHead = s := by
  rw [State.startHead, hjobs, List.length_cons, State.startJobs, hjobs]
  exact if_pos hrun

/-- A head that is admitted starts (R489). -/
theorem State.startHead_of_admitted {s : State} {j : AesJob} {l : List AesJob} (hjobs : s.cry.jobs = j :: l)
    (hwait : j.started = false) (hadmit : s.jobAdmitted j = true) :
    s.startHead = s.useCells.upCry fun c => { c with
      jobs := { j with started := true, setup := s.keyChange j } :: l, keyed := some (s.setUp j) } := by
  rw [State.startHead, hjobs, List.length_cons, State.startJobs, hjobs]
  exact (if_neg (by simp [hwait])).trans (if_pos hadmit)

/-- A job that meets an idle engine and is admitted starts (R489). -/
theorem State.addJob_of_idle {s : State} {j : AesJob} (hjobs : s.cry.jobs = []) (hwait : j.started = false)
    (hadmit : s.jobAdmitted j = true) : s.addJob j = s.useCells.upCry fun c => { c with
      jobs := [{ j with started := true, setup := s.keyChange j }], keyed := some (s.setUp j) } := by
  have hplaced : (s.upCry fun c => { c with jobs := placeJob j c.jobs }).cry.jobs = [j] := by
    simp [hjobs, placeJob]
  rw [State.addJob, State.startHead_of_admitted hplaced hwait hadmit, State.yieldHead_of_one rfl]
  rfl

theorem State.jobAborted_cry (s : State) (j : AesJob) : (s.jobAborted j).cry = s.cry := by
  unfold State.jobAborted
  split
  · split <;> rfl
  · rfl

/-- A job that meets an idle engine and is refused is aborted (R452, R494). -/
theorem State.addJob_of_refused {s : State} {j : AesJob} (hjobs : s.cry.jobs = []) (hwait : j.started = false)
    (hadmit : s.jobAdmitted j = false) : s.addJob j = (s.violation j.master).jobAborted j := by
  have hplaced : (s.upCry fun c => { c with jobs := placeJob j c.jobs }).cry.jobs = [j] := by
    simp [hjobs, placeJob]
  have hrefused : ¬ (s.upCry fun c => { c with jobs := placeJob j c.jobs }).jobAdmitted j = true := Bool.eq_false_iff.mp hadmit
  have hback : ((s.upCry fun c => { c with jobs := placeJob j c.jobs }).upCry fun c => { c with jobs := [] }) = s := by
    simp only [State.upCry]
    rw [← hjobs]
  have hcry : ((s.violation j.master).jobAborted j).cry.jobs = [] := by
    rw [State.jobAborted_cry]
    exact hjobs
  have hstart : (s.upCry fun c => { c with jobs := placeJob j c.jobs }).startHead = (s.violation j.master).jobAborted j := by
    rw [State.startHead, hplaced, List.length_singleton, State.startJobs, hplaced]
    dsimp only
    rw [if_neg (by simp [hwait]), if_neg hrefused, hback]
    rfl
  rw [State.addJob, hstart, State.yieldHead_of_none hcry]

/-- A job of a higher level goes behind a head that runs (R493). -/
theorem placeJob_of_lower {h j : AesJob} (hrun : h.started = true) (hlevel : h.level.toNat < j.level.toNat) :
    placeJob j [h] = [h, j] := by
  have hne : (h.level == j.level) = false := by
    rw [beq_eq_false_iff_ne]
    rintro heq
    rw [heq] at hlevel
    exact lt_irrefl _ hlevel
  simp [placeJob, insertJob, hrun, hne]

/-- A job waits behind a head of a lower level that is not at a block boundary (R493). -/
theorem State.addJob_of_lower {s : State} {h j : AesJob} (hjobs : s.cry.jobs = [h]) (hrun : h.started = true)
    (hlevel : h.level.toNat < j.level.toNat) (hleft : h.left % 28 ≠ 0) :
    s.addJob j = s.upCry fun c => { c with jobs := [h, j] } := by
  have hplaced : (s.upCry fun c => { c with jobs := placeJob j c.jobs }) = s.upCry fun c => { c with jobs := [h, j] } := by
    simp only [State.upCry, hjobs, placeJob_of_lower hrun hlevel]
  rw [State.addJob, hplaced, State.startHead_of_started (h := h) (l := [j]) rfl hrun]
  exact if_neg (by simp [hleft])

/-- A job of a higher level takes the engine at a block boundary (R493). -/
theorem State.addJob_of_boundary {s : State} {h j : AesJob} (hjobs : s.cry.jobs = [h]) (hrun : h.started = true)
    (hsusp : h.suspended = false) (hwait : j.started = false) (hadmit : s.jobAdmitted j = true)
    (hlevel : h.level.toNat < j.level.toNat) (hleft : h.left ≠ 0) (hmod : h.left % 28 = 0) :
    s.addJob j = s.useCells.upCry fun c => { c with
      jobs := [{ j with started := true, setup := s.keyChange j }, { h with suspended := true, setup := 32 }]
      suspends := satInc c.suspends, keyed := some (s.setUp j) } := by
  have hplaced : (s.upCry fun c => { c with jobs := placeJob j c.jobs }) = s.upCry fun c => { c with jobs := [h, j] } := by
    simp only [State.upCry, hjobs, placeJob_of_lower hrun hlevel]
  have hyield : (s.upCry fun c => { c with jobs := [h, j] }).yieldHead = (s.upCry fun c => { c with
      jobs := [j, { h with suspended := true, setup := 32 }], suspends := satInc c.suspends }).startHead := by
    rw [State.yieldHead]
    refine (if_pos (by simp [hrun, hsusp, hleft, hmod, hlevel])).trans ?_
    simp [State.upCry, hlevel]
  rw [State.addJob, hplaced, State.startHead_of_started (h := h) (l := [j]) rfl hrun, hyield]
  exact State.startHead_of_admitted (s := s.upCry fun c => { c with
    jobs := [j, { h with suspended := true, setup := 32 }], suspends := satInc c.suspends }) rfl hwait hadmit

/-- A job under a key of its own always changes the key (R489). -/
theorem State.keyChange_of_no_cell {s : State} {j : AesJob} (h : j.cell = none) : s.keyChange j = 32 := if_neg (by simp [h])

/-! The commands. -/

/-- Key bytes by the field KSIZE (R526). -/
theorem keyBytes_ofNat {n : Nat} (h : n < 3) : keyBytes (BitVec.ofNat 2 n) = 16 + 8 * n := by
  interval_cases n <;> rfl

/-- The fields DIR and KSIZE as a write of AES_CTRL leaves them (R526). -/
def State.aesSet (s : State) (v : BitVec 32) : State := s.upCry fun c => { c with
  aesDir := v.getLsbD 1, aesKsize := BitVec.ofNat 2 (fieldN v 5 4) }

theorem State.aesCtrl_of_busy {s : State} {v : BitVec 32} (hgo : v.getLsbD 0 = true) (hsize : fieldN v 5 4 < 3)
    (hbusy : s.cry.aesBusy = true) : s.aesCtrl v = (s.aesSet v).notice 3 0x60004 := by
  have hthree : ¬ fieldN v 5 4 = 3 := by omega
  have hset : (s.upCry fun c => { c with
      aesDir := v.getLsbD 1, aesKsize := if fieldN v 5 4 = 3 then 2#2 else BitVec.ofNat 2 (fieldN v 5 4) }) = s.aesSet v := by
    simp only [if_neg hthree, State.aesSet]
  unfold State.aesCtrl
  dsimp only
  rw [hset, if_pos hgo]
  exact (if_pos hbusy).trans (if_neg hthree)

/-- The job of a host block (R495, R526). -/
def State.hostJob (s : State) (v : BitVec 32) : AesJob := { AesJob.reset with
  level := 2#2, cell := some .aes, host := true, left := 28, master := 8#4, since := s.now
  dir := v.getLsbD 1, key := Mem.load s.cry.aesKey 0 (16 + 8 * fieldN v 5 4) }

/-- GO on an idle engine (R489, R495). -/
theorem State.aesCtrl_of_idle {s : State} {v : BitVec 32} (hgo : v.getLsbD 0 = true) (hsize : fieldN v 5 4 < 3)
    (hbusy : s.cry.aesBusy = false) (hjobs : s.cry.jobs = []) : s.aesCtrl v = s.useCells.upCry fun c => { c with
      aesDir := v.getLsbD 1, aesKsize := BitVec.ofNat 2 (fieldN v 5 4), aesBusy := true, aesOut := []
      aesNext := if v.getLsbD 1 = true then aesDec (Mem.load s.cry.aesKey 0 (16 + 8 * fieldN v 5 4)) (Mem.load s.cry.aesIn 0 16)
        else aesEnc (Mem.load s.cry.aesKey 0 (16 + 8 * fieldN v 5 4)) (Mem.load s.cry.aesIn 0 16)
      jobs := [{ s.hostJob v with started := true, setup := s.keyChange (s.hostJob v) }]
      keyed := some (s.setUp (s.hostJob v)) } := by
  have hthree : ¬ fieldN v 5 4 = 3 := by omega
  have hset : (s.upCry fun c => { c with
      aesDir := v.getLsbD 1, aesKsize := if fieldN v 5 4 = 3 then 2#2 else BitVec.ofNat 2 (fieldN v 5 4) }) = s.aesSet v := by
    simp only [if_neg hthree, State.aesSet]
  have hbytes : keyBytes (s.aesSet v).cry.aesKsize = 16 + 8 * fieldN v 5 4 := keyBytes_ofNat hsize
  have hnext : (s.aesSet v).cry.hostBlock = if v.getLsbD 1 = true then
        aesDec (Mem.load s.cry.aesKey 0 (16 + 8 * fieldN v 5 4)) (Mem.load s.cry.aesIn 0 16)
      else aesEnc (Mem.load s.cry.aesKey 0 (16 + 8 * fieldN v 5 4)) (Mem.load s.cry.aesIn 0 16) := by
    rw [Crypto.hostBlock, hbytes]
    rfl
  have hnotice (t : State) : t.noticeIf (decide (fieldN v 5 4 = 3)) 1 0x60004 = t := if_neg (by simp [hthree])
  unfold State.aesCtrl
  dsimp only
  rw [hset, if_pos hgo, if_neg (by exact Bool.eq_false_iff.mp hbusy), hnotice, hbytes]
  have hup : ((s.aesSet v).upCry fun c => { c with aesBusy := true, aesOut := [], aesNext := c.hostBlock }) = s.upCry fun c =>
      { c with
        aesDir := v.getLsbD 1, aesKsize := BitVec.ofNat 2 (fieldN v 5 4), aesBusy := true, aesOut := []
        aesNext := (s.aesSet v).cry.hostBlock } := rfl
  rw [hup, hnext]
  generalize (if v.getLsbD 1 = true then _ else _ : Bytes) = x
  exact State.addJob_of_idle (j := s.hostJob v) (s := s.upCry fun c => { c with
    aesDir := v.getLsbD 1, aesKsize := BitVec.ofNat 2 (fieldN v 5 4), aesBusy := true, aesOut := [], aesNext := x }) hjobs rfl rfl

/-- The host block at the head has run its cycles (R489, R525). -/
theorem State.advanceHead_of_last {s : State} {j : AesJob} (hjobs : s.cry.jobs = [j]) (hpos : 1 ≤ j.left)
    (hend : j.setup + j.left ≤ 25) : s.advanceHead 25 = s.upCry fun c => { c.blocks 1 with
      jobs := [{ j with setup := 0, left := 0 }] } := by
  have hsetup : j.setup - 25 = 0 := by omega
  have hleft : j.left - (25 - j.setup) = 0 := by omega
  have hblocks : (j.left + 27) / 28 = 1 := by omega
  rw [State.advanceHead, hjobs]
  dsimp only
  rw [hsetup, hleft, hblocks]

/-- SIGN_CMD ATTEST that waits for its signature (R505, R509, R510). -/
theorem State.attestCmd_of_able {s : State} (hst : s.cry.signState = 0#2) (hlife : s.tide.life = .fleet) (hxmss : s.keys.xmss = 2#2)
    (hleaf : s.cry.signRec.next < 1048576) (hsig : s.signWindow.1 < 3840) (hatt : s.signWindow.2 < 3584)
    (hcan : s.canVerify = true) :
    s.attestCmd = s.upCry fun c => { c with signState := 1#2, signWhat := .attest, signResult := 0#4 } := by
  unfold State.attestCmd
  dsimp only
  rw [if_neg (by simp [hst]), if_neg (by simp [hlife]), if_neg (by simp [hxmss]), if_neg (by omega), if_neg (by omega),
    if_neg (by simp [hcan])]

/-- SEL of a record that is held (R718). -/
theorem State.logSel_of_held {s : State} {v : BitVec 32} {r : LogRec} (hlow : s.log.tail.toNat ≤ v.toNat)
    (hhigh : v.toNat ≤ s.log.head.toNat) (hfind : s.log.ring.find? (fun r => r.seq == v) = some r) :
    s.logSel v = s.upLog fun l => { l with sel := v, record := r.bytes } := by
  have hin : ¬ (v.toNat < s.log.tail.toNat ∨ s.log.head.toNat < v.toNat) := by omega
  simp [State.logSel, State.noticeIf, State.upLog, hin, hfind]

/-- A SEQ above HEAD names HEAD, with a notice of KIND 1 (R718). -/
theorem State.logSel_of_above {s : State} {v : BitVec 32} (h : s.log.head.toNat < v.toNat) :
    s.logSel v = (s.upLog fun l => { l with
      sel := s.log.head
      record := ((s.log.ring.find? fun r => r.seq == s.log.head).map LogRec.bytes).getD [] }).notice 1 0xC0018 := by
  have hout : v.toNat < s.log.tail.toNat ∨ s.log.head.toNat < v.toNat := .inr h
  simp [State.logSel, State.noticeIf, State.upLog, hout]

/-- The signing record after one more attestation takes the place of the copy that is not in force (R506). -/
theorem State.advanceSign_attest {s : State} (hwhat : s.cry.signWhat = .attest) :
    s.advanceSign = { s with cry := { s.cry with recA := s.advanceSign.cry.recA, recB := s.advanceSign.cry.recB } } ∧
    (s.advanceSign.cry.recA = s.cry.signRec.next' s.aonDay true ∨ s.advanceSign.cry.recB = s.cry.signRec.next' s.aonDay true) := by
  have hbeq : (s.cry.signWhat == .attest) = true := by simp [hwhat]
  unfold State.advanceSign
  dsimp only
  rw [hbeq]
  generalize s.cry.signRec.next' s.aonDay true = r
  simp only [State.upCry]
  split
  · exact ⟨rfl, .inr rfl⟩
  · exact ⟨rfl, .inl rfl⟩

/-- An attestation whose record was read back is released (R506). -/
theorem State.releaseSign_attest {s : State} (hwhat : s.cry.signWhat = .attest) :
    s.releaseSign true = (s.advanceSign.signIdle.upCry fun c => { c with
      signResult := 1#4, attestOut := s.cry.signMsg ++ s.signature }).latch 41 := by
  unfold State.releaseSign
  generalize s.signature = sig
  dsimp only
  rw [if_pos rfl, hwhat]

theorem State.releaseSign_failed {s : State} (hwhat : s.cry.signWhat = .attest) :
    s.releaseSign false = (s.signIdle.upCry fun c => { c with signResult := 7#4 }).latch 41 := by
  unfold State.releaseSign
  generalize s.signature = sig
  dsimp only
  rw [if_neg Bool.false_ne_true, hwhat]

theorem exec_signRelease {s : State} (ok : Bool) (hst : s.cry.signState = 2#2) (hwhat : s.cry.signWhat = .attest) :
    Sys2Proof.Machine.exec (.signRelease ok) s = .next (s.releaseSign ok) :=
  whenDo_next (by simp [hst]) (if_neg (by simp [hwhat]))

/-- Settles O55: jobs by the head that they meet, the host's commands by their branch. -/
theorem cryptoCommands : Obligations.CryptoCommands := by
  refine ⟨fun s v h hgo hsize => ⟨fun hbusy hjobs => ?_, fun hbusy => next_farWrite h ?_⟩,
    fun s j hjobs hhost hsusp hpos hend hself => ?_,
    fun s h level m f k x d hjobs hrun hsusp hlevel => ⟨fun hleft hmod => ?_, fun hmod => ?_⟩,
    fun s level c m f k x d hjobs hno => ⟨fun hlevel => ?_, fun i hi => ?_⟩, fun s h l hjobs hsusp hadmit => ?_,
    fun s level v n x => ⟨fun hjobs hcan => ?_, fun hcan => ?_⟩,
    fun s h => ⟨fun hst hlife hxmss hleaf hsig hatt hcan => next_farWrite h ?_, fun hst => next_farWrite h (if_pos hst)⟩,
    fun s hst hwhat => ⟨?_, ?_⟩, fun s h => ⟨fun hm => next_farWrite h (if_pos hm), fun hm => next_farWrite h (if_neg ?_)⟩,
    fun s htime => State.whenDo_of s _ (decide_eq_true htime),
    fun s v h => ⟨fun r hlow hhigh hfind => next_farWrite h ?_, fun hhigh => ?_⟩⟩
  · refine ⟨_, next_farWrite h (State.aesCtrl_of_idle hgo hsize hbusy hjobs), rfl, rfl, rfl,
      ⟨_, rfl, rfl, rfl, rfl, rfl, rfl, rfl, rfl, ?_⟩, rfl, rfl⟩
    simp [State.keyChange, State.setUp, State.hostJob]
  · exact State.aesCtrl_of_busy hgo hsize hbusy
  · refine whenDo_next (by rw [hself]; simp [State.headJob, hjobs, hhost, hsusp, hend]) ?_
    rw [State.advanceHead_of_last hjobs hpos hend]
    rfl
  · refine (congrArg Host.Outcome.next (State.addJob_of_boundary hjobs hrun hsusp rfl rfl hlevel hleft hmod)).trans ?_
    rw [State.keyChange_of_no_cell rfl]
    rfl
  · exact (congrArg Host.Outcome.next (State.addJob_of_lower hjobs hrun hlevel hmod)).trans rfl
  · refine congrArg Host.Outcome.next ((State.addJob_of_refused hjobs rfl (by exact hno)).trans ?_)
    unfold State.jobAborted
    split
    · exact if_neg hlevel
    · rfl
  · subst hi
    exact congrArg Host.Outcome.next (State.addJob_of_refused hjobs rfl (by exact hno))
  · have hadmitted : s.jobAdmitted h = true := by
      rcases hadmit with hnone | ⟨c, hc, hcell⟩
      · simp [State.jobAdmitted, hnone]
      · simp [State.jobAdmitted, hc, hcell]
    refine whenDo_next (by simp [State.headJob, hjobs, hsusp]) ?_
    rw [State.resumeJob, hjobs]
    exact if_pos hadmitted
  · refine congrArg Host.Outcome.next ((if_pos hcan).trans ?_)
    simp only [State.upCry, hjobs, placeKec]
  · exact congrArg Host.Outcome.next (if_neg (by simp [hcan]))
  · exact State.attestCmd_of_able hst hlife hxmss hleaf hsig hatt hcan
  · refine ⟨_, (exec_signRelease true hst hwhat).trans (congrArg _ (State.releaseSign_attest hwhat)), ?_⟩
    obtain ⟨hframe, hrec⟩ := State.advanceSign_attest hwhat
    generalize s.advanceSign = u at hframe hrec ⊢
    generalize s.signature = sig
    refine ⟨rfl, rfl, rfl, hrec, ?_, ?_⟩
    · rw [hframe]
      rfl
    · rw [hframe]
      rfl
  · exact (exec_signRelease false hst hwhat).trans (congrArg _ (State.releaseSign_failed hwhat))
  · exact Bool.eq_false_iff.mp hm
  · exact State.logSel_of_held hlow hhigh hfind
  · exact ⟨_, next_farWrite h (State.logSel_of_above hhigh), rfl, rfl, rfl, rfl⟩

end Sys2Proof.Machine
end

section
/-! SUPPORT. The CAN controllers: message objects, arbitration, error counters, reception and transactions (R556 to
R595). -/

namespace Sys2Proof.Machine

/-! One controller of the block. -/

theorem State.ctl_modCtl_same {s : State} {n : Nat} (f : CanCtl → CanCtl) (h : n < s.can.ctl.length) :
    (s.modCtl n f).ctl n = f (s.ctl n) := by
  simp [State.ctl, State.modCtl, h]

theorem State.ctl_modCtl_ne {s : State} {m n : Nat} (f : CanCtl → CanCtl) (h : m ≠ n) : (s.modCtl n f).ctl m = s.ctl m := by
  simp [State.ctl, State.modCtl, h.symm]

theorem State.can_lt {s : State} (h : s.can.ok = true) (n : BitVec 3) : n.toNat < s.can.ctl.length := by
  have hlen : s.can.ctl.length = 8 := by simpa [CanBlk.ok] using h
  have := n.isLt
  omega

theorem CanCtl.obj_modObj_same {c : CanCtl} {k : Nat} (f : MObj → MObj) (h : k < c.objs.length) :
    (c.modObj k f).obj k = f (c.obj k) := by
  simp [CanCtl.obj, CanCtl.modObj, h]

theorem CanCtl.obj_modObj_ne {c : CanCtl} {j k : Nat} (f : MObj → MObj) (h : j ≠ k) : (c.modObj k f).obj j = c.obj j := by
  simp [CanCtl.obj, CanCtl.modObj, h.symm]

/-- What happens at controller `n` changes that controller and, by its events, the interrupt controller. -/
def CtlFrame (n : Nat) (s t : State) : Prop :=
  t = { s with can := { s.can with ctl := t.can.ctl }, intc := t.intc } ∧ t.can.ctl.length = s.can.ctl.length ∧
    ∀ m, m ≠ n → t.ctl m = s.ctl m

theorem CtlFrame.refl (n : Nat) (s : State) : CtlFrame n s s := ⟨rfl, rfl, fun _ _ => rfl⟩

theorem CtlFrame.trans {n : Nat} {s t u : State} (h : CtlFrame n s t) (k : CtlFrame n t u) : CtlFrame n s u := by
  obtain ⟨ht, hlent, hnet⟩ := h
  obtain ⟨hu, hlenu, hneu⟩ := k
  refine ⟨?_, hlenu.trans hlent, fun m hm => (hneu m hm).trans (hnet m hm)⟩
  rw [hu, ht]

theorem ctlFrame_modCtl (s : State) (n : Nat) (f : CanCtl → CanCtl) : CtlFrame n s (s.modCtl n f) :=
  ⟨rfl, List.length_modify _ _ _, fun _ hm => State.ctl_modCtl_ne f hm⟩

theorem ctlFrame_latchIf (s : State) (n : Nat) (b : Bool) (k : Nat) : CtlFrame n s (s.latchIf b k) := by
  unfold State.latchIf
  split
  · exact ⟨rfl, rfl, fun _ _ => rfl⟩
  · exact .refl n s

/-- An event of a controller: its bit rises (R599). -/
theorem State.canEvent_facts {s : State} {n : Nat} (b : Nat) (h : n < s.can.ctl.length) :
    CtlFrame n s (s.canEvent n b) ∧ (s.canEvent n b).ctl n = { s.ctl n with events := setBit (s.ctl n).events b true } := by
  refine ⟨(ctlFrame_modCtl s n _).trans (ctlFrame_latchIf _ n _ _), ?_⟩
  unfold State.canEvent State.latchIf
  dsimp only
  split <;> exact State.ctl_modCtl_same _ h

/-- The error counters of a controller are set, its state follows them, and EVENTS.STATE may rise (R592). -/
theorem State.canCounters_facts {s : State} {n : Nat} (tec rec : Nat) (h : n < s.can.ctl.length) :
    CtlFrame n s (s.canCounters n tec rec) ∧ ∃ st p e, (s.canCounters n tec rec).ctl n = { s.ctl n with
      tecN := min tec 255, recN := min rec 255, state := st, protoExc := p, events := e } ∧
      (e = (s.ctl n).events ∨ e = setBit (s.ctl n).events 5 true) := by
  unfold State.canCounters
  dsimp only
  generalize hst : (if (s.ctl n).state = 0#2 then 0#2 else errState tec rec) = st
  have hframe := ctlFrame_modCtl s n fun c => { c with
    tecN := min tec 255, recN := min rec 255, state := st, protoExc := c.protoExc && c.state == st }
  have hctl := State.ctl_modCtl_same (s := s) (fun c => { c with
    tecN := min tec 255, recN := min rec 255, state := st, protoExc := c.protoExc && c.state == st }) h
  generalize (s.modCtl n fun c => { c with
    tecN := min tec 255, recN := min rec 255, state := st, protoExc := c.protoExc && c.state == st }) = u at hframe hctl ⊢
  split
  · exact ⟨hframe, _, _, _, hctl, .inl rfl⟩
  · obtain ⟨hevent, hctl'⟩ := State.canEvent_facts (s := u) 5 (lt_of_lt_of_eq h hframe.2.1.symm)
    exact ⟨hframe.trans hevent, _, _, _, by rw [hctl', hctl], .inr rfl⟩

/-! The host's commands at a transmit object (R558 to R562, R576, R590, R591). -/

theorem State.canReq_of_sends {s : State} {n k : Nat} (howner : (s.ctl n).owner = 1#8) (hsends : ((s.ctl n).obj k).sends = true)
    (hmoored : s.moored (11 + n) = true) (hst : ((s.ctl n).obj k).st = .idle ∨ ((s.ctl n).obj k).st = .aground) :
    s.canReq n k = s.modObj n k fun o =>
      { o with st := .pending, tries := 0#8, cancel := false, heldReq := !s.canSends n } := by
  have hready : (((s.ctl n).obj k).sends && (((s.ctl n).obj k).st == .idle || ((s.ctl n).obj k).st == .aground)) = true := by
    rcases hst with h | h <;> simp [hsends, h]
  rw [State.canReq]
  exact (if_pos (by simp [howner, hsends, hmoored])).trans (if_pos hready)

theorem State.canReq_of_not_sends {s : State} {n k : Nat} (hsends : ((s.ctl n).obj k).sends = false) :
    s.canReq n k = s.notice 3 (mobjCtrl n k) := if_neg (by simp [hsends])

theorem State.canLoadObj_of_idle {s : State} {n k : Nat} (howner : (s.ctl n).owner ≠ 2#8)
    (hsends : ((s.ctl n).obj k).sends = true) (hst : ((s.ctl n).obj k).st = .idle) :
    s.canLoadObj n k = s.modObj n k fun o =>
      { o with data := Mem.load (s.ctl n).txbuf 0 o.len.toNat, loaded := o.len.toNat } :=
  if_pos (by simp [CanCtl.locked, howner, hsends, hst])

theorem State.canWrite_of_not_locked {s : State} {n a : Nat} (eff : State → State) (h : (s.ctl n).owner ≠ 2#8) :
    s.canWrite n a eff = eff s := if_neg (by simp [CanCtl.locked, h])

theorem State.canWrite_of_locked {s : State} {n a : Nat} (eff : State → State) (h : (s.ctl n).owner = 2#8) :
    s.canWrite n a eff = s.notice 3 a := if_pos (by simp [CanCtl.locked, h])

theorem State.canAck_of_owned {s : State} {n c : Nat} (howner : (s.ctl n).owner ≠ 2#8)
    (hlen : c ≤ ((s.ctl n).obj (s.ctl n).rxsel.toNat).queue.length) :
    s.canAck n c = s.modObj n (s.ctl n).rxsel.toNat fun o => { o with queue := o.queue.drop c } := by
  rw [State.canAck, State.canWrite_of_not_locked _ howner]
  exact if_neg (by simpa using hlen)

/-! Arbitration (R561, R587). -/

/-- A controller that runs is not the lock keeper's (R557). -/
theorem State.not_locked_of_canRuns {s : State} {n : Nat} (h : s.canRuns n = true) : (s.ctl n).owner ≠ 2#8 := by
  intro howner
  simp [State.canRuns, howner, ownerRuns] at h

theorem MObj.tagged_of_plain {o : MObj} (tide : BitVec 32) (h : o.bit 6 = false) : o.tagged tide = o := by
  simp [MObj.tagged, h]

/-- The winner goes on the air (R587). -/
theorem exec_canArbitrationStart {s : State} {n : BitVec 3} {k : Nat} (hwin : (s.ctl n.toNat).winner = some k)
    (hsends : s.canSends n.toNat = true) (hbus : (s.ctl n.toNat).onBus = true) (hair : (s.ctl n.toNat).onAir = none)
    (hmode : (s.ctl n.toNat).mode.force ≠ 1#2) (huwb : s.inAir = false) :
    Sys2Proof.Machine.exec (.canArbitrationStart n) s = .next (s.modCtl n.toNat fun c =>
      { (c.modObj k fun o => { o.tagged s.tide.number with st := .onAir }) with onAir := some k, onAirAt := s.now }) := by
  have hrun : s.canRuns n.toNat = true := by
    simp only [State.canSends, Bool.and_eq_true] at hsends
    exact hsends.1
  have hlocked : ¬ (s.ctl n.toNat).locked = true := by simp [CanCtl.locked, State.not_locked_of_canRuns hrun]
  change execCanArbitrationStart n s = _
  unfold execCanArbitrationStart
  dsimp only
  rw [if_neg hlocked, hwin]
  exact State.whenDo_of s _ (by simp [hsends, hbus, hair, hmode, huwb])

/-! The end of a frame on the air (R588 to R592). -/

theorem CanCtl.not_locked {c : CanCtl} (h : c.owner ≠ 2#8) : ¬ c.locked = true := by simp [CanCtl.locked, h]

/-- The object of a frame that was sent: IDLE, or emptied (R111, R588). -/
def MObj.sent (o : MObj) (tide : BitVec 32) : MObj := if o.gone then o.endGone else { o with
  st := .idle, tries := 0#8, cancel := false
  tagNext := if o.bit 6 then o.tagNext + 1#8 else o.tagNext
  txns := if o.bit 6 then o.txns ++ [{ tag := BitVec.ofNat 8 (byteAt o.data 0)
                                       epoch := BitVec.ofNat 4 (byteAt o.data 1), tide := tide }]
          else o.txns }

theorem exec_canTxSuccess {s : State} {n : BitVec 3} {k : Nat} (howner : (s.ctl n.toNat).owner ≠ 2#8)
    (hair : (s.ctl n.toNat).onAir = some k) (hmode : (s.ctl n.toNat).mode.force = 0#2) :
    Sys2Proof.Machine.exec (.canTxSuccess n) s = .next (((s.modCtl n.toNat fun c => { (c.modObj k fun o =>
      o.sent (s.tideOf (s.ctl n.toNat).onAirAt)) with onAir := none }).canEvent n.toNat 1).canCounters n.toNat
        ((s.ctl n.toNat).tecN - 1) (s.ctl n.toNat).recN) := by
  change execCanTxSuccess n s = _
  unfold execCanTxSuccess
  dsimp only
  rw [if_neg (CanCtl.not_locked howner), hair]
  exact congrArg Host.Outcome.next (if_neg (by simp [hmode]))

/-- What a frame that was sent leaves of its controller (R588, R592). -/
theorem exec_canTxSuccess_ctl {s : State} {n : BitVec 3} {k : Nat} (hok : s.can.ok = true)
    (howner : (s.ctl n.toNat).owner ≠ 2#8) (hair : (s.ctl n.toNat).onAir = some k) (hmode : (s.ctl n.toNat).mode.force = 0#2) :
    ∃ t st p e, Sys2Proof.Machine.exec (.canTxSuccess n) s = .next t ∧ CtlFrame n.toNat s t ∧
      t.ctl n.toNat = { (s.ctl n.toNat).modObj k fun o => o.sent (s.tideOf (s.ctl n.toNat).onAirAt) with
        onAir := none, tecN := min ((s.ctl n.toNat).tecN - 1) 255, recN := min (s.ctl n.toNat).recN 255
        state := st, protoExc := p, events := e } ∧ e.getLsbD 1 = true := by
  have hlt := State.can_lt hok n
  have hframe1 := ctlFrame_modCtl s n.toNat fun c => { (c.modObj k fun o =>
    o.sent (s.tideOf (s.ctl n.toNat).onAirAt)) with onAir := none }
  have hctl1 := State.ctl_modCtl_same (s := s) (fun c => { (c.modObj k fun o =>
    o.sent (s.tideOf (s.ctl n.toNat).onAirAt)) with onAir := none }) hlt
  have hexec := exec_canTxSuccess howner hair hmode
  generalize (s.modCtl n.toNat fun c => { (c.modObj k fun o =>
    o.sent (s.tideOf (s.ctl n.toNat).onAirAt)) with onAir := none }) = u at hframe1 hctl1 hexec
  have hltu : n.toNat < u.can.ctl.length := lt_of_lt_of_eq hlt hframe1.2.1.symm
  obtain ⟨hframe2, hctl2⟩ := State.canEvent_facts 1 hltu
  obtain ⟨hframe3, st, p, e, hctl3, he⟩ := State.canCounters_facts (s := u.canEvent n.toNat 1) ((s.ctl n.toNat).tecN - 1)
    (s.ctl n.toNat).recN (lt_of_lt_of_eq hltu hframe2.2.1.symm)
  rw [hctl2, hctl1] at hctl3 he
  refine ⟨_, st, p, e, hexec, (hframe1.trans hframe2).trans hframe3, hctl3, ?_⟩
  have hone := setBit_here (s.ctl n.toNat).events 1 true (by decide)
  rcases he with rfl | rfl
  · exact hone
  · rw [setBit_other _ _ (by decide)]
    exact hone

/-- The object of a failed attempt (R588, R589). -/
def MObj.failed (o : MObj) (tries : Nat) (ground : Bool) : MObj := if o.gone then o.endGone else { o with
  tries := clampNat 8 tries, st := if o.cancel then .idle else if ground then .aground else .pending, cancel := false }

theorem clampNat_byte (n : Nat) : (clampNat 8 n).toNat = min n 255 := by
  rw [clampNat, BitVec.toNat_ofNat]
  omega

theorem MObj.failed_lost {o : MObj} (hgone : o.gone = false) (hcancel : o.cancel = false) :
    o.failed o.tries.toNat false = { o with st := .pending } := by
  have htries : clampNat 8 o.tries.toNat = o.tries := by
    rw [← BitVec.toNat_inj, clampNat_byte]
    have := o.tries.isLt
    omega
  simp [MObj.failed, hgone, hcancel, htries]

theorem MObj.failed_tries {o : MObj} (n : Nat) (ground : Bool) (hgone : o.gone = false) :
    (o.failed n ground).tries = clampNat 8 n := by
  simp [MObj.failed, hgone]

/-- Lost arbitration (R588). -/
theorem exec_canTxAttemptFailed_lost {s : State} {n : BitVec 3} {k : Nat} (howner : (s.ctl n.toNat).owner ≠ 2#8)
    (hair : (s.ctl n.toNat).onAir = some k) :
    Sys2Proof.Machine.exec (.canTxAttemptFailed n 3#2) s = .next (s.modCtl n.toNat fun c => { (c.modObj k fun o =>
      o.failed ((s.ctl n.toNat).obj k).tries.toNat false) with onAir := none }) := by
  change execCanTxAttemptFailed n 3#2 s = _
  unfold execCanTxAttemptFailed
  dsimp only
  rw [if_neg (CanCtl.not_locked howner), hair]
  rfl

/-- A failed attempt with an error (R588 to R592). -/
theorem exec_canTxAttemptFailed_error {s : State} {n : BitVec 3} {k : Nat} (howner : (s.ctl n.toNat).owner ≠ 2#8)
    (hair : (s.ctl n.toNat).onAir = some k) (hcancel : ((s.ctl n.toNat).obj k).cancel = false) :
    let ground := decide ((s.canCfg n.toNat).retry ≤ ((s.ctl n.toNat).obj k).tries.toNat + 1)
    let u := s.modCtl n.toNat fun c => { (c.modObj k fun o =>
      o.failed (((s.ctl n.toNat).obj k).tries.toNat + 1) ground) with onAir := none }
    Sys2Proof.Machine.exec (.canTxAttemptFailed n 0#2) s = .next ((if ground then u.canEvent n.toNat 4 else u).canCounters
      n.toNat ((s.ctl n.toNat).tecN + 8) (s.ctl n.toNat).recN) := by
  intro ground u
  change execCanTxAttemptFailed n 0#2 s = _
  unfold execCanTxAttemptFailed
  dsimp only
  rw [if_neg (CanCtl.not_locked howner), hair]
  dsimp only
  rw [hcancel, Bool.not_false, Bool.and_true]
  rfl

/-- What a failed attempt with an error leaves of its controller (R589, R592). -/
theorem exec_canTxAttemptFailed_ctl {s : State} {n : BitVec 3} {k : Nat} (hok : s.can.ok = true)
    (howner : (s.ctl n.toNat).owner ≠ 2#8) (hair : (s.ctl n.toNat).onAir = some k)
    (hcancel : ((s.ctl n.toNat).obj k).cancel = false) :
    ∃ t st p e, Sys2Proof.Machine.exec (.canTxAttemptFailed n 0#2) s = .next t ∧ CtlFrame n.toNat s t ∧
      t.ctl n.toNat = { (s.ctl n.toNat).modObj k fun o => o.failed (((s.ctl n.toNat).obj k).tries.toNat + 1)
          (decide ((s.canCfg n.toNat).retry ≤ ((s.ctl n.toNat).obj k).tries.toNat + 1)) with
        onAir := none, tecN := min ((s.ctl n.toNat).tecN + 8) 255, recN := min (s.ctl n.toNat).recN 255
        state := st, protoExc := p, events := e } := by
  have hlt := State.can_lt hok n
  have hexec := exec_canTxAttemptFailed_error howner hair hcancel
  dsimp only at hexec
  generalize decide ((s.canCfg n.toNat).retry ≤ ((s.ctl n.toNat).obj k).tries.toNat + 1) = ground at hexec ⊢
  have hframe1 := ctlFrame_modCtl s n.toNat fun c => { (c.modObj k fun o =>
    o.failed (((s.ctl n.toNat).obj k).tries.toNat + 1) ground) with onAir := none }
  have hctl1 := State.ctl_modCtl_same (s := s) (fun c => { (c.modObj k fun o =>
    o.failed (((s.ctl n.toNat).obj k).tries.toNat + 1) ground) with onAir := none }) hlt
  generalize (s.modCtl n.toNat fun c => { (c.modObj k fun o =>
    o.failed (((s.ctl n.toNat).obj k).tries.toNat + 1) ground) with onAir := none }) = u at hframe1 hctl1 hexec
  have hltu : n.toNat < u.can.ctl.length := lt_of_lt_of_eq hlt hframe1.2.1.symm
  obtain ⟨hframe2, hctl2⟩ := State.canEvent_facts 4 hltu
  have hground : CtlFrame n.toNat u (if ground then u.canEvent n.toNat 4 else u) ∧
      ∃ e, (if ground then u.canEvent n.toNat 4 else u).ctl n.toNat = { u.ctl n.toNat with events := e } := by
    cases ground with
    | true => exact ⟨hframe2, _, hctl2⟩
    | false => exact ⟨.refl _ u, _, rfl⟩
  obtain ⟨hframe2, e, hctl2⟩ := hground
  obtain ⟨hframe3, st, p, e', hctl3, -⟩ := State.canCounters_facts ((s.ctl n.toNat).tecN + 8) (s.ctl n.toNat).recN
    (lt_of_lt_of_eq hltu hframe2.2.1.symm)
  rw [hctl2, hctl1] at hctl3
  exact ⟨_, st, p, e', hexec, (hframe1.trans hframe2).trans hframe3, hctl3⟩

/-! Reception (R577 to R586). -/

/-- A frame that no filter takes is counted (R579). -/
theorem State.canFilter_of_none {s : State} {n sof : Nat} {f : CanFrame} (htide : s.tide.startAt ≤ sof)
    (hnone : firstMatch (s.ctl n).active (s.ctl n).activeLen.toNat f = none) :
    s.canFilter n f sof = s.modCtl n fun c => { c with unmatched := satInc c.unmatched } := by
  unfold State.canFilter
  dsimp only
  rw [if_pos htide, if_pos htide, hnone]

/-- A frame that its filter gives to an enabled receive object, which may wake the device (R124, R582). -/
theorem State.canFilter_of_some {s : State} {n sof i : Nat} {f : CanFrame} (htide : s.tide.startAt ≤ sof)
    (hi : firstMatch (s.ctl n).active (s.ctl n).activeLen.toNat f = some i)
    (hpass : Mem.num (s.ctl n).active (16 * i + 8) 4 / 2 ^ 8 % 2 = 0)
    (hrecv : ((s.ctl n).obj (Mem.num (s.ctl n).active (16 * i + 8) 4 % 128)).receives = true) :
    s.canFilter n f sof = (if (s.ctl n).owner = 1#8 then s.wakeHere 5 else s).canAccept n
      (Mem.num (s.ctl n).active (16 * i + 8) 4 % 128) (canEntryOf f i (s.baseAt sof) (s.tideOf sof)) sof := by
  unfold State.canFilter
  dsimp only
  rw [if_pos htide, if_pos htide, hi]
  dsimp only
  rw [if_neg (by rw [hpass]; decide), if_pos hrecv]

/-- A frame joins the queue of a plain receive object that has room (R582, R586). -/
theorem State.canAccept_of_room {s : State} {n k sof : Nat} {e : CanEntry} (hplain : ((s.ctl n).obj k).bit 7 = false)
    (haskers : (s.ctl n).askers k = []) (hroom : ((s.ctl n).obj k).queue.length < cfgDepth ((s.ctl n).obj k).cfgForce) :
    s.canAccept n k e sof = (s.modObj n k fun o => { o with queue := o.queue ++ [e] }).canEvent n 0 := by
  unfold State.canAccept
  dsimp only
  rw [haskers, if_neg (by simp), if_neg (by omega)]
  exact if_neg (by simp [hplain])

theorem State.canAccept_facts {s : State} {n k sof : Nat} {e : CanEntry} (hn : n < s.can.ctl.length)
    (hplain : ((s.ctl n).obj k).bit 7 = false) (haskers : (s.ctl n).askers k = [])
    (hroom : ((s.ctl n).obj k).queue.length < cfgDepth ((s.ctl n).obj k).cfgForce) :
    CtlFrame n s (s.canAccept n k e sof) ∧ (s.canAccept n k e sof).ctl n =
      { (s.ctl n).modObj k fun o => { o with queue := o.queue ++ [e] } with
        events := setBit (s.ctl n).events 0 true } := by
  have hframe := ctlFrame_modCtl s n fun c => c.modObj k fun o => { o with queue := o.queue ++ [e] }
  have hctl := State.ctl_modCtl_same (s := s) (fun c => c.modObj k fun o => { o with queue := o.queue ++ [e] }) hn
  obtain ⟨hevent, hctl'⟩ := State.canEvent_facts (s := s.modObj n k fun o => { o with queue := o.queue ++ [e] }) 0
    (lt_of_lt_of_eq hn hframe.2.1.symm)
  rw [State.canAccept_of_room hplain haskers hroom]
  refine ⟨hframe.trans hevent, hctl'.trans ?_⟩
  rw [State.modObj, hctl]
  rfl

theorem State.canWorks_of_runs {s : State} {n : Nat} (hrun : s.canRuns n = true) (howner : (s.ctl n).owner ≠ 2#8) :
    s.canWorks n = true := (if_neg (CanCtl.not_locked howner)).trans hrun

/-- A wake event of the host's devices changes the tide and, at a tender, what it sends (R124, R126). -/
theorem State.wakeHere_eq (s : State) (b : Nat) :
    s.wakeHere b = { s with tide := (s.wakeHere b).tide, pier := (s.wakeHere b).pier } := by
  unfold State.wakeHere
  split
  · rewrite [(pierSends_report _ _ _ _).1]
    rfl
  · unfold State.wake
    split <;> rfl

/-- A frame at a controller on the bus, by its counters and its filter (R582, R592). -/
theorem exec_canFrameReceived {s : State} {n : BitVec 3} (f : CanFrame) (sof : Nat) (hok : s.can.ok = true)
    (hrun : s.canRuns n.toNat = true) (hbus : (s.ctl n.toNat).onBus = true) (howner : (s.ctl n.toNat).owner ≠ 2#8) :
    ∃ u st p e, Sys2Proof.Machine.exec (.canFrameReceived n f sof) s = .next (u.canFilter n.toNat f sof) ∧
      CtlFrame n.toNat s u ∧ u.ctl n.toNat = { s.ctl n.toNat with
        tecN := min (s.ctl n.toNat).tecN 255, recN := min (goodRec (s.ctl n.toNat).recN) 255
        state := st, protoExc := p, events := e } := by
  obtain ⟨hframe, st, p, e, hctl, -⟩ := State.canCounters_facts (s := s) (s.ctl n.toNat).tecN (goodRec (s.ctl n.toNat).recN)
    (State.can_lt hok n)
  exact ⟨_, st, p, e, (if_neg (CanCtl.not_locked howner)).trans (State.whenDo_of s _ (by simp [hrun, hbus])), hframe, hctl⟩

/-- Settles O57: each command by the branch that its controller takes, and what that does to the controller's objects,
counters and events. -/
theorem canControllers : Obligations.CanControllers := by
  refine ⟨fun s n k h => ⟨fun howner hsends hmoored hst => next_farWrite h ?_, fun hsends => next_farWrite h ?_,
      fun howner hsends hst => next_farWrite h ?_, fun howner => next_farWrite h ?_, fun howner => next_farWrite h ?_⟩,
    fun s n c h howner hlen => next_farWrite h ?_, fun s n k hok hwin hsends hbus hair hmode huwb hplain => ?_,
    fun s n k hok howner hair hk hplain hmode => ?_, fun s n k hok howner hair hk hcancel hgone => ?_,
    fun s n => ⟨fun howner hst => ?_, fun howner hst => ?_, fun hrun howner hst => ?_, fun hrun howner hbus => ⟨?_, ?_, ?_⟩⟩,
    fun s n f sof hok hrun hbus howner htide => ⟨fun hnone => ?_, fun i hi => ?_⟩, fun s n k tag hdue => ?_⟩
  · exact State.canReq_of_sends (s := s.reached _) howner hsends hmoored hst
  · exact State.canReq_of_not_sends (s := s.reached _) hsends
  · exact State.canLoadObj_of_idle (s := s.reached _) howner hsends hst
  · exact State.canWrite_of_not_locked (s := s.reached _) _ howner
  · exact State.canWrite_of_locked (s := s.reached _) _ howner
  · exact State.canAck_of_owned (s := s.reached _) howner hlen
  · have hlt := State.can_lt hok n
    refine ⟨_, exec_canArbitrationStart hwin hsends hbus hair hmode huwb, ?_, ?_, fun hk => ?_, fun j hj => ?_, fun m hm => ?_, rfl⟩
    · rw [State.ctl_modCtl_same _ hlt]
    · rw [State.ctl_modCtl_same _ hlt]
    · rw [State.ctl_modCtl_same _ hlt]
      refine (CanCtl.obj_modObj_same _ hk).trans ?_
      rw [MObj.tagged_of_plain _ hplain]
    · rw [State.ctl_modCtl_same _ hlt]
      exact CanCtl.obj_modObj_ne _ hj
    · exact State.ctl_modCtl_ne _ hm
  · obtain ⟨t, st, p, e, ht, ⟨hframe, -, hne⟩, hctl, he⟩ := exec_canTxSuccess_ctl hok howner hair hmode
    refine ⟨t, ht, ?_, fun hgone => ?_, fun hgone => ?_, ?_, ?_, fun j hj => ?_, hne, hframe⟩
    · rw [hctl]
    · rw [hctl]
      refine (CanCtl.obj_modObj_same _ hk).trans ?_
      simp [MObj.sent, hgone, hplain]
    · rw [hctl]
      refine (CanCtl.obj_modObj_same _ hk).trans ?_
      simp [MObj.sent, MObj.endGone, hgone]
    · rw [hctl]
    · rw [hctl]
      exact he
    · rw [hctl]
      exact CanCtl.obj_modObj_ne _ hj
  · have hlt := State.can_lt hok n
    obtain ⟨u, st, p, e, hu, ⟨hframe, -, -⟩, hctl⟩ := exec_canTxAttemptFailed_ctl hok howner hair hcancel
    have hlost := State.ctl_modCtl_same (s := s) (fun c => { (c.modObj k fun o =>
      o.failed ((s.ctl n.toNat).obj k).tries.toNat false) with onAir := none }) hlt
    refine ⟨_, u, exec_canTxAttemptFailed_lost howner hair, rfl, ?_, ?_, hu, ?_, ?_, ?_, ?_, hframe⟩
    · rw [hlost]
    · rw [hlost]
      exact (CanCtl.obj_modObj_same _ hk).trans (MObj.failed_lost hgone hcancel)
    · rw [hctl]
    · rw [hctl]
      refine (congrArg MObj.st (CanCtl.obj_modObj_same _ hk)).trans ?_
      simp [MObj.failed, hgone, hcancel]
    · rw [hctl]
      refine (congrArg (·.tries.toNat) (CanCtl.obj_modObj_same _ hk)).trans ?_
      exact (congrArg BitVec.toNat (MObj.failed_tries _ _ hgone)).trans (clampNat_byte _)
    · rw [hctl]
  · exact (if_pos (by simp [CanCtl.locked, howner])).trans (congrArg Host.Outcome.next (if_pos hst))
  · exact (if_neg (CanCtl.not_locked howner)).trans (State.whenDo_of s _ (by simp [hst]))
  · exact State.whenDo_of s _ (by simp [State.canWorks_of_runs hrun howner, hst])
  · exact State.whenDo_of s _ (by simp [State.canWorks_of_runs hrun howner, hbus])
  · exact (if_neg (CanCtl.not_locked howner)).trans (State.whenDo_of s _ (by simp [hrun, hbus]))
  · exact (if_neg (CanCtl.not_locked howner)).trans (State.whenDo_of s _ (by simp [hrun, hbus]))
  · obtain ⟨u, st, p, e, hexec, hframe, hctl⟩ := exec_canFrameReceived f sof hok hrun hbus howner
    have hnoneu : firstMatch (u.ctl n.toNat).active (u.ctl n.toNat).activeLen.toNat f = none := by rw [hctl, hnone]
    have htideu : u.tide.startAt ≤ sof := by
      rw [hframe.1]
      exact htide
    rw [State.canFilter_of_none htideu hnoneu] at hexec
    refine ⟨_, hexec, ?_, ?_, (hframe.trans (ctlFrame_modCtl u _ _)).1⟩
    · rw [State.ctl_modCtl_same _ (lt_of_lt_of_eq (State.can_lt hok n) hframe.2.1.symm), hctl]
    · rw [State.ctl_modCtl_same _ (lt_of_lt_of_eq (State.can_lt hok n) hframe.2.1.symm), hctl]
  · intro w o hpass hrecv hplain haskers hroom hk
    obtain ⟨u, st, p, e, hexec, hframe, hctl⟩ := exec_canFrameReceived f sof hok hrun hbus howner
    have htideu : u.tide.startAt ≤ sof := by
      rw [hframe.1]
      exact htide
    have hstamp : u.baseAt sof = s.baseAt sof ∧ u.tideOf sof = s.tideOf sof := by
      rw [hframe.1]
      exact ⟨rfl, rfl⟩
    have hactive : (u.ctl n.toNat).active = (s.ctl n.toNat).active := by rw [hctl]
    have hobj : (u.ctl n.toNat).obj (w % 128) = o := by
      rw [hctl]
      rfl
    have hmatch : firstMatch (u.ctl n.toNat).active (u.ctl n.toNat).activeLen.toNat f = some i := by rw [hctl, hi]
    have hfilter := State.canFilter_of_some (s := u) (n := n.toNat) htideu hmatch (by rwa [hactive])
      (by rw [hactive]; exact (congrArg MObj.receives hobj).trans hrecv)
    rw [hfilter, hactive, hstamp.1, hstamp.2] at hexec
    generalize hwoken : (if (u.ctl n.toNat).owner = 1#8 then u.wakeHere 5 else u) = v at hexec
    have hv : v = { u with tide := v.tide, pier := v.pier } := by
      rw [← hwoken]
      split
      · exact u.wakeHere_eq 5
      · rfl
    have hctlv : ∀ m, v.ctl m = u.ctl m := by
      rw [hv]
      exact fun _ => rfl
    have hlen : n.toNat < v.can.ctl.length := by
      rw [hv]
      exact lt_of_lt_of_eq (State.can_lt hok n) hframe.2.1.symm
    have hlenobj : w % 128 < (v.ctl n.toNat).objs.length := by
      rw [hctlv, hctl]
      exact hk
    have haskv : (v.ctl n.toNat).askers (w % 128) = [] := by
      rw [hctlv, hctl]
      exact haskers
    have hobjv : (v.ctl n.toNat).obj (w % 128) = o := by rw [hctlv, hobj]
    obtain ⟨⟨hframe', -, hne'⟩, hctl'⟩ := State.canAccept_facts (s := v) (n := n.toNat) (k := w % 128) (sof := sof)
      (e := canEntryOf f i (s.baseAt sof) (s.tideOf sof)) hlen (by rw [hobjv, hplain]) haskv (by rwa [hobjv])
    refine ⟨_, hexec, ?_, ?_, fun j hj => ?_, fun m hm => ?_, ?_⟩
    · rw [hctl', ← hobjv]
      exact CanCtl.obj_modObj_same _ hlenobj
    · rw [hctl']
      exact setBit_here _ 0 true (by decide)
    · rw [hctl']
      refine (CanCtl.obj_modObj_ne _ hj).trans ?_
      rw [hctlv, hctl]
      rfl
    · rw [hne' m hm, hctlv, hframe.2.2 m hm]
    · rw [hframe', hv, hframe.1]
  · obtain ⟨x, hx, htag, htime⟩ := hdue
    exact State.whenDo_of s _ (List.any_eq_true.mpr ⟨x, hx, Bool.and_eq_true_iff.mpr ⟨by simp [htag], decide_eq_true htime⟩⟩)

end Sys2Proof.Machine
end

section
/-! SUPPORT. Pier links: what messages leave of a link, training, adrift, blocks and re-sends (R603 to R614). -/

namespace Sys2Proof.Machine

/-! Messages (R611, R616, R618). -/

/-- What a message that is queued or sent leaves of a link: all but its queues, its window and its requests. -/
def Pier.Sent (l k : Pier) : Prop := k = { l with
  msgs := k.msgs, window := k.window, txSeq := k.txSeq, ackFrom := k.ackFrom, reqs := k.reqs, waiting := k.waiting
  tagNext := k.tagNext }

theorem Pier.Sent.refl (l : Pier) : l.Sent l := rfl

theorem Pier.Sent.trans {l k m : Pier} (h : l.Sent k) (j : k.Sent m) : l.Sent m := by
  unfold Pier.Sent at h j ⊢
  rw [j, h]

theorem Pier.sent_pump (t fuel : Nat) (l : Pier) : l.Sent (Pier.pump t fuel l) := by
  induction fuel generalizing l with
  | zero => rfl
  | succ fuel ih =>
    unfold Pier.pump
    split
    · rfl
    · dsimp only
      split
      · rfl
      · refine .trans ?_ (ih _)
        rfl

/-- Messages change the links alone. -/
structure LinksSent (s t : State) : Prop where
  frame : t = { s with pier := { s.pier with links := t.pier.links } }
  length : t.pier.links.length = s.pier.links.length
  link : ∀ m, (s.link m).Sent (t.link m)

theorem LinksSent.refl (s : State) : LinksSent s s := ⟨rfl, rfl, fun _ => rfl⟩

theorem LinksSent.trans {s t u : State} (h : LinksSent s t) (k : LinksSent t u) : LinksSent s u := by
  refine ⟨?_, k.length.trans h.length, fun m => (h.link m).trans (k.link m)⟩
  rw [k.frame, h.frame]

theorem LinksSent.pier {s t : State} (h : LinksSent s t) : t = { s with pier := t.pier } := by
  rw [h.frame]

theorem linksSent_modPier (s : State) (n : Nat) {f : Pier → Pier}
    (hf : ∀ l : Pier, l.Sent (f l)) : LinksSent s (s.modPier n f) := by
  refine ⟨rfl, List.length_modify _ _ _, fun m => ?_⟩
  by_cases hm : m = n
  · subst hm
    by_cases hlt : m < s.pier.links.length
    · rw [State.link_modPier_same f hlt]
      exact hf _
    · have hout : (s.modPier m f).link m = s.link m := by simp [State.link, State.modPier, hlt]
      rw [hout]
      rfl
  · rw [State.link_modPier_ne f hm]
    rfl

theorem linksSent_pierSend (s : State) (n : Nat) (m : PierMsg) : LinksSent s (s.pierSend n m) := by
  refine linksSent_modPier s n fun l => ?_
  dsimp only
  split
  · refine .trans ?_ (Pier.sent_pump _ _ _)
    rfl
  · rfl

theorem linksSent_pierRequest (s : State) (n typ : Nat) (arg : BitVec 32) (body : Bytes) :
    LinksSent s (s.pierRequest n typ arg body) := by
  unfold State.pierRequest
  dsimp only
  split
  · exact linksSent_modPier s n fun _ => rfl
  · refine .trans ?_ (linksSent_pierSend _ _ _)
    exact linksSent_modPier s n fun _ => rfl

theorem linksSent_commitAll (s : State) (links : BitVec 32) (fw : Bool) (t : BitVec 32) : LinksSent s (s.commitAll links fw t) := by
  unfold State.commitAll
  generalize bitsOf links = l
  induction l generalizing s with
  | nil => exact .refl s
  | cons n l ih => exact (linksSent_pierRequest _ _ _ _ _).trans (ih _)

/-! Training (R603, R606, R608). -/

theorem State.link_lt {s : State} (h : s.pier.ok = true) (n : BitVec 5) : n.toNat < s.pier.links.length := by
  have hlen : s.pier.links.length = 32 := by simpa [PierBlk.ok] using h
  have := n.isLt
  omega

/-- A change of link `n` of the table. -/
theorem State.modPier_facts {s : State} {n : BitVec 5} (f : Pier → Pier) (h : s.pier.ok = true) :
    (s.modPier n.toNat f).link n.toNat = f (s.link n.toNat) ∧
    (∀ m, m ≠ n.toNat → (s.modPier n.toNat f).link m = s.link m) ∧
    s.modPier n.toNat f = { s with pier := { s.pier with links := (s.modPier n.toNat f).pier.links } } :=
  ⟨State.link_modPier_same f (State.link_lt h n), fun _ hm => State.link_modPier_ne f hm, rfl⟩

/-- An event of a link: its bit rises (R642). -/
theorem State.pierEvent_facts {s : State} {n : BitVec 5} (b : Nat) (h : s.pier.ok = true) :
    (s.pierEvent n.toNat b).link n.toNat = { s.link n.toNat with events := setBit (s.link n.toNat).events b true } ∧
    (∀ m, m ≠ n.toNat → (s.pierEvent n.toNat b).link m = s.link m) ∧
    s.pierEvent n.toNat b = { s with
      pier := { s.pier with links := (s.pierEvent n.toNat b).pier.links }, intc := (s.pierEvent n.toNat b).intc } ∧
    (s.pierEvent n.toNat b).pier.links.length = s.pier.links.length := by
  obtain ⟨hsame, hne, hframe⟩ := State.modPier_facts (s := s) (n := n) (fun l => { l with events := setBit l.events b true }) h
  unfold State.pierEvent State.latchIf
  dsimp only
  split
  · exact ⟨hsame, hne, rfl, List.length_modify _ _ _⟩
  · exact ⟨hsame, hne, rfl, List.length_modify _ _ _⟩

/-! A link goes adrift (R613, R614). -/

/-- What follows a loss of link `n` leaves of that link, of the time and of the tables. -/
structure LinkLost (n : Nat) (s t : State) : Prop where
  cfg : t.cfg = s.cfg
  number : t.tide.number = s.tide.number
  reg : t.reg = s.reg
  serving : t.pier.serving = s.pier.serving
  length : t.pier.links.length = s.pier.links.length
  link : (t.link n).st = (s.link n).st ∧ (t.link n).adriftLast = (s.link n).adriftLast ∧ (t.link n).bound = (s.link n).bound ∧
    (t.link n).admission = (s.link n).admission ∧ (t.link n).adriftCount = (s.link n).adriftCount ∧
    ((s.link n).events.getLsbD 1 = true → (t.link n).events.getLsbD 1 = true)

theorem LinkLost.refl (n : Nat) (s : State) : LinkLost n s s := ⟨rfl, rfl, rfl, rfl, rfl, rfl, rfl, rfl, rfl, rfl, id⟩

theorem LinkLost.trans {n : Nat} {s t u : State} (h : LinkLost n s t) (k : LinkLost n t u) : LinkLost n s u := by
  obtain ⟨hst, hlast, hbound, hadm, hcount, hev⟩ := h.link
  obtain ⟨kst, klast, kbound, kadm, kcount, kev⟩ := k.link
  exact ⟨k.cfg.trans h.cfg, k.number.trans h.number, k.reg.trans h.reg, k.serving.trans h.serving,
    k.length.trans h.length, kst.trans hst, klast.trans hlast, kbound.trans hbound, kadm.trans hadm, kcount.trans hcount,
    fun e => kev (hev e)⟩

theorem LinksSent.linkLost {s t : State} (n : Nat) (h : LinksSent s t) : LinkLost n s t := by
  have hlink := h.link n
  unfold Pier.Sent at hlink
  refine ⟨?_, ?_, ?_, ?_, h.length, ?_⟩
  · rw [h.frame]
  · rw [h.frame]
  · rw [h.frame]
  · rw [h.frame]
  · rw [hlink]
    exact ⟨rfl, rfl, rfl, rfl, rfl, id⟩

/-- A change outside links, settings, time and register. -/
theorem linkLost_of_frame {n : Nat} {s t : State} (hcfg : t.cfg = s.cfg) (hnumber : t.tide.number = s.tide.number)
    (hreg : t.reg = s.reg) (hpier : t.pier = s.pier) : LinkLost n s t := by
  have hlink : t.link n = s.link n := by rw [State.link, State.link, hpier]
  refine ⟨hcfg, hnumber, hreg, by rw [hpier], by rw [hpier], ?_⟩
  rw [hlink]
  exact ⟨rfl, rfl, rfl, rfl, rfl, id⟩

theorem linkLost_latchIf (n : Nat) (s : State) (b : Bool) (k : Nat) : LinkLost n s (s.latchIf b k) := by
  unfold State.latchIf
  split
  · exact linkLost_of_frame rfl rfl rfl rfl
  · exact .refl n s

theorem linkLost_modPier (n : Nat) (s : State) {f : Pier → Pier} (hf : ∀ l : Pier, (f l).st = l.st ∧
    (f l).adriftLast = l.adriftLast ∧ (f l).bound = l.bound ∧ (f l).admission = l.admission ∧
    (f l).adriftCount = l.adriftCount ∧ (l.events.getLsbD 1 = true → (f l).events.getLsbD 1 = true)) (m : Nat) :
    LinkLost n s (s.modPier m f) := by
  refine ⟨rfl, rfl, rfl, rfl, List.length_modify _ _ _, ?_⟩
  by_cases hm : n = m
  · subst hm
    by_cases hlt : n < s.pier.links.length
    · rw [State.link_modPier_same f hlt]
      exact hf _
    · have hout : (s.modPier n f).link n = s.link n := by simp [State.link, State.modPier, hlt]
      rw [hout]
      exact ⟨rfl, rfl, rfl, rfl, rfl, id⟩
  · rw [State.link_modPier_ne f hm]
    exact ⟨rfl, rfl, rfl, rfl, rfl, id⟩

theorem linkLost_pierEvent (n : Nat) (s : State) (m b : Nat) : LinkLost n s (s.pierEvent m b) := by
  unfold State.pierEvent
  refine .trans ?_ (linkLost_latchIf n _ _ _)
  refine linkLost_modPier n s (f := fun l => { l with events := setBit l.events b true })
    (fun l => ⟨rfl, rfl, rfl, rfl, rfl, fun h => ?_⟩) m
  dsimp only
  by_cases hb : 1 = b
  · rw [← hb]
    exact setBit_here _ 1 true (by decide)
  · rwa [setBit_other _ _ hb]

theorem linkLost_requestLost (n m : Nat) (s : State) (r : PierReq) (code : Nat) : LinkLost n s (s.requestLost m r code) := by
  unfold State.requestLost
  split
  · refine .trans ?_ (linkLost_pierEvent n _ m 6)
    exact linkLost_modPier n s (f := fun l => { l with rbusy := false, rresult := 3#3 })
      (fun l => ⟨rfl, rfl, rfl, rfl, rfl, id⟩) m
  · split
    · exact linkLost_of_frame rfl rfl rfl rfl
    · exact .refl n s

/-- The next link of the order is another one (R634). -/
theorem linkLost_enumAfter (n m : Nat) (s : State) (h : n ∉ s.pier.order) : LinkLost n s (s.enumAfter m) := by
  unfold State.enumAfter
  split
  · unfold State.enumNext
    split
    · exact ⟨rfl, rfl, rfl, rfl, rfl, rfl, rfl, rfl, rfl, rfl, id⟩
    · next k rest horder =>
      have hk : n ≠ k := fun hk => h (by rw [horder, hk]; exact List.mem_cons_self)
      refine .trans ?_ ((linksSent_pierRequest _ _ _ _ _).linkLost n)
      refine ⟨rfl, rfl, rfl, rfl, List.length_modify _ _ _, ?_⟩
      rw [State.link_modPier_ne _ hk]
      exact ⟨rfl, rfl, rfl, rfl, rfl, id⟩
  · exact .refl n s

/-- A commit that waits for a tender no more (R100): only messages follow. -/
theorem mfArm_facts (n : Nat) (s : State) : LinkLost n s s.mfArm ∧ s.mfArm.pier.order = s.pier.order ∧ s.mfArm.bt = s.bt := by
  unfold State.mfArm
  split
  · have hsent := linksSent_commitAll (s.upMf fun m => { m with
      state := .armed, armed := (commitTideOf s.mf.commitTide s.tide.number).1
      late := (commitTideOf s.mf.commitTide s.tide.number).2 }) s.mf.pushAll false
      (commitTideOf s.mf.commitTide s.tide.number).1
    refine ⟨.trans ?_ (hsent.linkLost n), ?_, ?_⟩
    · exact linkLost_of_frame rfl rfl rfl rfl
    · dsimp only
      rw [hsent.frame]
      rfl
    · dsimp only
      rw [hsent.frame]
      rfl
  · exact ⟨.refl n s, rfl, rfl⟩

theorem fwArm_facts (n : Nat) (s : State) : LinkLost n s s.fwArm ∧ s.fwArm.pier.order = s.pier.order ∧ s.fwArm.bt = s.bt := by
  unfold State.fwArm
  split
  · have hsent := linksSent_commitAll (s.upFw fun f => { f with
      state := .armed, armed := (commitTideOf s.fw.switchTide s.tide.number).1 }) s.fw.pushAll true
      (commitTideOf s.fw.switchTide s.tide.number).1
    refine ⟨.trans ?_ (hsent.linkLost n), ?_, ?_⟩
    · exact linkLost_of_frame rfl rfl rfl rfl
    · dsimp only
      rw [hsent.frame]
      rfl
    · dsimp only
      rw [hsent.frame]
      rfl
  · exact ⟨.refl n s, rfl, rfl⟩

theorem State.enumAfter_bt (s : State) (n : Nat) : (s.enumAfter n).bt = s.bt := by
  unfold State.enumAfter
  split
  · unfold State.enumNext
    split
    · rfl
    · rw [(linksSent_pierRequest _ _ _ _ _).frame]
      rfl
  · rfl

theorem State.requestLost_bt (s : State) (n : Nat) (r : PierReq) (code : Nat) : (s.requestLost n r code).bt = s.bt := by
  unfold State.requestLost State.pierEvent State.latchIf
  split
  · dsimp only
    split <;> rfl
  · split <;> rfl

/-- Requests that end unanswered change no berth (R620). -/
theorem foldl_requestLost_facts (n : Nat) (reqs : List PierReq) (s : State) :
    LinkLost n s (reqs.foldl (fun s r => s.requestLost n r 16) s) ∧
    (reqs.foldl (fun s r => s.requestLost n r 16) s).bt = s.bt := by
  induction reqs generalizing s with
  | nil => exact ⟨.refl n s, rfl⟩
  | cons r reqs ih =>
    obtain ⟨hlost, hbt⟩ := ih (s.requestLost n r 16)
    exact ⟨(linkLost_requestLost n n s r 16).trans hlost, hbt.trans (State.requestLost_bt s n r 16)⟩

/-! Berths cast off together (R30). -/

theorem linkLost_castOff (n m : Nat) (s : State) (cause : BitVec 8) : LinkLost n s (s.castOff m cause) := by
  cases hheld : (s.berth m).id.st.held with
  | true =>
    rw [State.castOff_of_held _ hheld]
    exact linkLost_of_frame rfl rfl rfl rfl
  | false =>
    rw [State.castOff_of_not_held _ hheld]
    exact .refl n s

theorem linkLost_castAll (n : Nat) (l : List Nat) (s : State) (cause : BitVec 8) : LinkLost n s (s.castAll l cause) := by
  unfold State.castAll
  induction l generalizing s with
  | nil => exact .refl n s
  | cons m l ih => exact (linkLost_castOff n m s cause).trans (ih _)

theorem State.berth_castOff_ne (s : State) {m k : Nat} (cause : BitVec 8) (h : k ≠ m) :
    (s.castOff m cause).berth k = s.berth k := by
  cases hheld : (s.berth m).id.st.held with
  | true => exact (State.berth_congr (State.castOff_bt_of_held cause hheld) k).trans (State.berth_modBerth_ne _ h)
  | false => rw [State.castOff_of_not_held _ hheld]

theorem State.berth_castOff_same {s : State} {k : Nat} (cause : BitVec 8) (h : (s.berth k).id.st.held = true) :
    (s.castOff k cause).berth k = { s.berth k with id := { (s.berth k).id with st := .castOff, cause := cause } } :=
  (State.berth_congr (State.castOff_bt_of_held cause h) k).trans (State.berth_modBerth_same _ (State.lt_of_held h))

/-- A berth that was cast off stays as it is. -/
theorem State.berth_castOff_of_castOff {s : State} {k : Nat} (m : Nat) (cause : BitVec 8) (h : (s.berth k).id.st = .castOff) :
    (s.castOff m cause).berth k = s.berth k := by
  by_cases hk : k = m
  · subst hk
    rw [State.castOff_of_not_held _ (by simp [h, BerthState.held])]
  · exact s.berth_castOff_ne cause hk

theorem State.berth_castAll_of_castOff (l : List Nat) {s : State} {k : Nat} (cause : BitVec 8)
    (h : (s.berth k).id.st = .castOff) : (s.castAll l cause).berth k = s.berth k := by
  unfold State.castAll
  induction l generalizing s with
  | nil => rfl
  | cons m l ih =>
    have hone := State.berth_castOff_of_castOff m cause h
    exact (ih (by rw [hone, h])).trans hone

/-- A held berth of the list is cast off with the cause (R30). -/
theorem State.berth_castAll {l : List Nat} {s : State} {k : Nat} (cause : BitVec 8) (hmem : k ∈ l)
    (hheld : (s.berth k).id.st.held = true) :
    ((s.castAll l cause).berth k).id.st = .castOff ∧ ((s.castAll l cause).berth k).id.cause = cause := by
  induction l generalizing s with
  | nil => exact absurd hmem List.not_mem_nil
  | cons m l ih =>
    by_cases hk : k = m
    · subst hk
      have hone := State.berth_castOff_same cause hheld
      have hrest := State.berth_castAll_of_castOff l (s := s.castOff k cause) (k := k) cause (by rw [hone])
      rw [show s.castAll (k :: l) cause = (s.castOff k cause).castAll l cause from rfl, hrest, hone]
      exact ⟨rfl, rfl⟩
    · have hone := s.berth_castOff_ne cause hk
      exact ih (s := s.castOff m cause) ((List.mem_cons.mp hmem).resolve_left hk) (by rw [hone, hheld])

/-! The link that goes adrift. -/

/-- The link as it goes adrift, its event and its record (R606, R614, R620). -/
def State.adriftBegun (s : State) (n : Nat) (cause : BitVec 4) : State :=
  ((s.modPier n fun l => { l.emptied with
    st := .adrift, since := s.now, firstRetry := false, adriftCount := satInc l.adriftCount
    adriftLast := cause }).pierEvent n 1).logRecord 0x29 [BitVec.ofNat 8 n, cause.setWidth 8]

/-- What the loss of a link shows at the link (R613, R614, R642). -/
structure Pier.Adrift (l : Pier) (cause : BitVec 4) (count : BitVec 16) : Prop where
  st : l.st = .adrift
  last : l.adriftLast = cause
  bound : l.bound = false
  admission : l.admission = .none
  count : l.adriftCount = satInc count
  event : l.events.getLsbD 1 = true

theorem LinkLost.adrift {n : Nat} {s t : State} {cause : BitVec 4} {count : BitVec 16} (h : LinkLost n s t)
    (k : (s.link n).Adrift cause count) : (t.link n).Adrift cause count := by
  obtain ⟨hst, hlast, hbound, hadm, hcount, hev⟩ := h.link
  exact ⟨hst.trans k.st, hlast.trans k.last, hbound.trans k.bound, hadm.trans k.admission, hcount.trans k.count, hev k.event⟩

theorem State.adriftBegun_facts {s : State} {n : BitVec 5} (cause : BitVec 4) (h : s.pier.ok = true) :
    ((s.adriftBegun n.toNat cause).link n.toNat).Adrift cause (s.link n.toNat).adriftCount ∧
    s.adriftBegun n.toNat cause = { s with
      pier := { s.pier with links := (s.adriftBegun n.toNat cause).pier.links }
      intc := (s.adriftBegun n.toNat cause).intc, log := (s.adriftBegun n.toNat cause).log } := by
  unfold State.adriftBegun
  generalize hf : (fun l : Pier => { l.emptied with
    st := .adrift, since := s.now, firstRetry := false, adriftCount := satInc l.adriftCount, adriftLast := cause }) = f
  have hok : (s.modPier n.toNat f).pier.ok = true := by
    simpa [PierBlk.ok, State.modPier] using h
  have hlink := State.link_modPier_same f (State.link_lt h n)
  obtain ⟨hevent, -, hframe, -⟩ := State.pierEvent_facts (s := s.modPier n.toNat f) (n := n) 1 hok
  generalize (s.modPier n.toNat f).pierEvent n.toNat 1 = u at hevent hframe
  rw [hlink] at hevent
  have hsame : (u.logRecord 0x29 [BitVec.ofNat 8 n.toNat, cause.setWidth 8]).link n.toNat = u.link n.toNat := by
    rw [State.logRecord_eq]
    rfl
  rw [hsame, hevent, ← hf]
  refine ⟨⟨rfl, rfl, rfl, rfl, rfl, setBit_here _ 1 true (by decide)⟩, ?_⟩
  rw [State.logRecord_eq, hframe]
  rfl

/-- What the harbourmaster does as link `n` goes adrift (R30, R614). -/
theorem adriftHost_facts {s : State} {n : BitVec 5} {cause : BitVec 4} {count : BitVec 16} (reqs : List PierReq)
    (hlink : (s.link n.toNat).Adrift cause count) :
    ((s.adriftHost n.toNat reqs).link n.toNat).Adrift cause count ∧
    (s.adriftHost n.toNat reqs).tide.number = s.tide.number ∧ (s.adriftHost n.toNat reqs).reg = s.reg ∧
    (s.adriftHost n.toNat reqs).pier.serving.getLsbD n.toNat = false ∧
    ∀ k, k < 256 → (s.berth k).id.st.held = true → (s.berth k).id.anchor.toNat = n.toNat + 1 →
      ((s.adriftHost n.toNat reqs).berth k).id.st = .castOff ∧ ((s.adriftHost n.toNat reqs).berth k).id.cause = 0x0F#8 := by
  unfold State.adriftHost
  obtain ⟨hreqs, hbt⟩ := foldl_requestLost_facts n.toNat reqs s
  generalize reqs.foldl (fun s r => s.requestLost n.toNat r 16) s = a at hreqs hbt
  dsimp only
  generalize hl : (a.heldBerths.filter fun k => (a.berth k).id.anchor.toNat == n.toNat + 1) = l
  have hcast := hreqs.trans (linkLost_castAll n.toNat l a 0x0F#8)
  have hberths (k : Nat) (h256 : k < 256) (hheld : (s.berth k).id.st.held = true)
      (hanchor : (s.berth k).id.anchor.toNat = n.toNat + 1) :
      ((a.castAll l 0x0F#8).berth k).id.st = .castOff ∧ ((a.castAll l 0x0F#8).berth k).id.cause = 0x0F#8 := by
    have hsame := State.berth_congr hbt k
    have hhelda : (a.berth k).id.st.held = true := by rw [hsame, hheld]
    refine State.berth_castAll 0x0F#8 ?_ hhelda
    rw [← hl]
    refine List.mem_filter.mpr ⟨List.mem_filter.mpr ⟨List.mem_range.mpr h256, hhelda⟩, ?_⟩
    simp [hsame, hanchor]
  generalize a.castAll l 0x0F#8 = b at hcast hberths
  generalize hc : (b.upPier fun p => { p with
    serving := setBit p.serving n.toNat false, order := p.order.filter (· != n.toNat) }) = c
  have hlinkc : c.link n.toNat = b.link n.toNat := by
    rw [← hc]
    rfl
  have hservc : c.pier.serving.getLsbD n.toNat = false := by
    rw [← hc]
    exact setBit_here _ _ false n.isLt
  have horderc : n.toNat ∉ c.pier.order := by
    rw [← hc]
    simp
  have hkeepc : c.tide.number = b.tide.number ∧ c.reg = b.reg ∧ c.bt = b.bt := by
    rw [← hc]
    exact ⟨rfl, rfl, rfl⟩
  generalize hm : (c.upMf fun m => { m with
    pushSet := setBit m.pushSet n.toNat false, pushAll := setBit m.pushAll n.toNat false }) = m
  have hcm : LinkLost n.toNat c m ∧ m.pier.order = c.pier.order ∧ m.bt = c.bt := by
    rw [← hm]
    exact ⟨linkLost_of_frame rfl rfl rfl rfl, rfl, rfl⟩
  obtain ⟨hmf, hmforder, hmfbt⟩ := mfArm_facts n.toNat m
  generalize m.mfArm = d at hmf hmforder hmfbt
  generalize hf : (d.upFw fun f => { f with
    pushSet := setBit f.pushSet n.toNat false, pushAll := setBit f.pushAll n.toNat false }) = f
  have hdf : LinkLost n.toNat d f ∧ f.pier.order = d.pier.order ∧ f.bt = d.bt := by
    rw [← hf]
    exact ⟨linkLost_of_frame rfl rfl rfl rfl, rfl, rfl⟩
  obtain ⟨hfw, hfworder, hfwbt⟩ := fwArm_facts n.toNat f
  generalize f.fwArm = e at hfw hfworder hfwbt
  have horder : n.toNat ∉ e.pier.order := by rwa [hfworder, hdf.2.1, hmforder, hcm.2.1]
  have hlost := (((hcm.1.trans hmf).trans hdf.1).trans hfw).trans (linkLost_enumAfter n.toNat n.toNat e horder)
  have hbt' : (e.enumAfter n.toNat).bt = b.bt := by
    rw [State.enumAfter_bt, hfwbt, hdf.2.2, hmfbt, hcm.2.2, hkeepc.2.2]
  refine ⟨hlost.adrift ?_, ?_, ?_, ?_, fun k h256 hheld hanchor => ?_⟩
  · rw [hlinkc]
    exact hcast.adrift hlink
  · rw [hlost.number, hkeepc.1, hcast.number]
  · rw [hlost.reg, hkeepc.2.1, hcast.reg]
  · rw [hlost.serving, hservc]
  · rw [State.berth_congr hbt' k]
    exact hberths k h256 hheld hanchor

theorem State.goAdrift_eq (s : State) (n : Nat) (cause : BitVec 4) : s.goAdrift n cause =
    if s.isHost then (s.adriftBegun n cause).adriftHost n
      ((s.link n).reqs ++ (s.link n).waiting.map fun m => { PierReq.reset with typ := m.typ, arg := m.arg })
    else (s.adriftBegun n cause).adriftTender := by
  have hhost : (s.adriftBegun n cause).isHost = s.isHost := by
    unfold State.adriftBegun State.pierEvent State.latchIf
    rw [State.logRecord_eq]
    dsimp only
    split <;> rfl
  rw [← hhost]
  rfl

/-! Training (R606). -/

/-- The link as its training completes, and its event (R606). -/
def State.trainedBegun (s : State) (n : Nat) (latency : BitVec 16) : State :=
  (s.modPier n fun l => { l with
    st := .active, latency := latency, trainTime := clampNat 16 ((s.now - l.since) / 64), since := s.now
    firstRetry := false, rxSeq := 0#4, nakSent := false, txSeq := 0#4, window := [], ackFrom := s.now
    admission := .none, cause := 0#4, bound := false, bindDue := false }).pierEvent n 0

/-- What a link shows whose training has completed (R606, R611, R642). -/
structure Pier.Trained (l : Pier) (latency : BitVec 16) : Prop where
  st : l.st = .active
  latency : l.latency = latency
  rxSeq : l.rxSeq = 0#4
  bound : l.bound = false
  event : l.events.getLsbD 0 = true

theorem Pier.Sent.trained {l k : Pier} {latency : BitVec 16} (h : l.Sent k) (t : l.Trained latency) : k.Trained latency := by
  unfold Pier.Sent at h
  rw [h]
  exact ⟨t.st, t.latency, t.rxSeq, t.bound, t.event⟩

theorem State.trainedBegun_facts {s : State} {n : BitVec 5} (latency : BitVec 16) (h : s.pier.ok = true) :
    ((s.trainedBegun n.toNat latency).link n.toNat).Trained latency ∧
    ((s.trainedBegun n.toNat latency).link n.toNat).admission = .none ∧
    ((s.trainedBegun n.toNat latency).link n.toNat).window = [] ∧
    (∀ m, m ≠ n.toNat → (s.trainedBegun n.toNat latency).link m = s.link m) ∧
    (s.trainedBegun n.toNat latency).pier.links.length = 32 ∧
    s.trainedBegun n.toNat latency = { s with
      pier := { s.pier with links := (s.trainedBegun n.toNat latency).pier.links }
      intc := (s.trainedBegun n.toNat latency).intc } := by
  unfold State.trainedBegun
  generalize hf : (fun l : Pier => { l with
    st := .active, latency := latency, trainTime := clampNat 16 ((s.now - l.since) / 64), since := s.now
    firstRetry := false, rxSeq := 0#4, nakSent := false, txSeq := 0#4, window := [], ackFrom := s.now
    admission := .none, cause := 0#4, bound := false, bindDue := false }) = f
  have hok : (s.modPier n.toNat f).pier.ok = true := by
    simpa [PierBlk.ok, State.modPier] using h
  have hlink := State.link_modPier_same f (State.link_lt h n)
  obtain ⟨hevent, hne, hframe, hlen⟩ := State.pierEvent_facts (s := s.modPier n.toNat f) (n := n) 0 hok
  generalize (s.modPier n.toNat f).pierEvent n.toNat 0 = u at hevent hne hframe hlen
  rw [hlink] at hevent
  have hlen32 : u.pier.links.length = 32 := hlen.trans (by simpa [PierBlk.ok] using hok)
  rw [hevent, ← hf]
  refine ⟨⟨rfl, rfl, rfl, rfl, setBit_here _ 0 true (by decide)⟩, rfl, rfl,
    fun m hm => (hne m hm).trans (State.link_modPier_ne f hm), hlen32, ?_⟩
  rw [hframe]
  rfl

/-- The port that trained is a tender's upstream port, and the others are disabled (R603). -/
def PierBlk.upstreamAt (p : PierBlk) (n : Nat) : PierBlk := { p with
  upstream := some (BitVec.ofNat 5 n)
  links := p.links.mapIdx fun k l => if k = n then l else { l with st := .disabled } }

theorem State.trained_eq (s : State) (n : Nat) (latency : BitVec 16) : s.trained n latency =
    if s.isHost then (s.trainedBegun n latency).joinOrder n
    else ((s.trainedBegun n latency).upPier fun p => p.upstreamAt n).modPier n (Pier.pump s.now 8) := by
  have hkeep : (s.trainedBegun n latency).isHost = s.isHost ∧ (s.trainedBegun n latency).now = s.now := by
    unfold State.trainedBegun State.pierEvent State.latchIf
    dsimp only
    split <;> exact ⟨rfl, rfl⟩
  rw [← hkeep.1, ← hkeep.2]
  rfl

theorem State.link_modPier_cases (s : State) (k n : Nat) (f : Pier → Pier) :
    (s.modPier k f).link n = s.link n ∨ (s.modPier k f).link n = f (s.link n) := by
  by_cases hk : n = k
  · subst hk
    by_cases hlt : n < s.pier.links.length
    · exact .inr (State.link_modPier_same f hlt)
    · exact .inl (by simp [State.link, State.modPier, hlt])
  · exact .inl (State.link_modPier_ne f hk)

/-- The next link of the order is asked: the harbourmaster's links, order and place change (R634). -/
theorem enumNext_facts (s : State) (n : Nat) {latency : BitVec 16} (h : (s.link n).Trained latency) :
    (s.enumNext.link n).Trained latency ∧ s.enumNext = { s with pier := s.enumNext.pier } := by
  unfold State.enumNext
  split
  · exact ⟨h, rfl⟩
  · next k rest horder =>
    have hasked : ((((s.upPier fun p => { p with order := rest, next := BitVec.ofNat 6 k }).modPier k
        fun l => { l with admission := .enumerating, cause := 0#4, anchor := BitVec.ofNat 6 (k + 1) })).link n).Trained
          latency := by
      rcases State.link_modPier_cases (s.upPier fun p => { p with order := rest, next := BitVec.ofNat 6 k }) k n
        (fun l => { l with admission := .enumerating, cause := 0#4, anchor := BitVec.ofNat 6 (k + 1) }) with hsame | hsame
      · rw [hsame]
        exact h
      · rw [hsame]
        exact ⟨h.st, h.latency, h.rxSeq, h.bound, h.event⟩
    have hsent := linksSent_pierRequest (((s.upPier fun p => { p with order := rest, next := BitVec.ofNat 6 k }).modPier k
      fun l => { l with admission := .enumerating, cause := 0#4, anchor := BitVec.ofNat 6 (k + 1) })) k 0x01
      (BitVec.ofNat 32 (k + 1)) s.enumBody
    refine ⟨(hsent.link n).trained hasked, ?_⟩
    exact hsent.pier

/-- The order with a link that trained late (R634). -/
def PierBlk.joined (p : PierBlk) (n : Nat) : PierBlk := { p with
  order := (p.order.filter (decide <| · < n)) ++ n :: p.order.filter fun k => decide (n < k) }

theorem State.joinOrder_of_unstarted {s : State} (n : Nat) (h : s.pier.started = false) : s.joinOrder n = s :=
  if_neg (by simp [h])

theorem State.joinOrder_of_started {s : State} (n : Nat) (h : s.pier.started = true) :
    s.joinOrder n = if s.pier.next = 63#6 then (s.upPier fun p => p.joined n).enumNext else s.upPier fun p => p.joined n :=
  if_pos h

/-- What a harbourmaster does as a link trains (R606, R634). -/
theorem joinOrder_facts {s : State} {n : Nat} {latency : BitVec 16} (h : (s.link n).Trained latency) :
    ((s.joinOrder n).link n).Trained latency ∧ s.joinOrder n = { s with pier := (s.joinOrder n).pier } ∧
    (s.pier.started = false ∨ s.pier.next ≠ 63#6 → (∀ m, (s.joinOrder n).link m = s.link m) ∧
      (s.pier.started = true → n ∈ (s.joinOrder n).pier.order)) := by
  cases hstarted : s.pier.started with
  | false =>
    rw [State.joinOrder_of_unstarted n hstarted]
    exact ⟨h, rfl, fun _ => ⟨fun _ => rfl, fun hno => absurd hno Bool.false_ne_true⟩⟩
  | true =>
    rw [State.joinOrder_of_started n hstarted]
    by_cases hnext : s.pier.next = 63#6
    · rw [if_pos hnext]
      obtain ⟨hlink, hframe⟩ := enumNext_facts (s.upPier fun p => p.joined n) n (latency := latency) h
      refine ⟨hlink, ?_, fun hor => ?_⟩
      · rw [hframe]
        rfl
      · rcases hor with hno | hno
        · exact absurd hno Bool.noConfusion
        · exact absurd hnext hno
    · rw [if_neg hnext]
      refine ⟨h, rfl, fun _ => ⟨fun _ => rfl, fun _ => ?_⟩⟩
      exact List.mem_append_right _ List.mem_cons_self

/-- With nobody left to ask, the link that trained late is enumerated at once (R634). -/
theorem joinOrder_alone {s : State} {n : BitVec 5} (hlen : s.pier.links.length = 32) (hstarted : s.pier.started = true)
    (hnext : s.pier.next = 63#6) (horder : s.pier.order = []) :
    ((s.joinOrder n.toNat).link n.toNat).admission = .enumerating ∧ (s.joinOrder n.toNat).pier.next = n.setWidth 6 ∧
      (s.joinOrder n.toNat).pier.order = [] := by
  have hjoined : s.pier.joined n.toNat = { s.pier with order := [n.toNat] } := by simp [PierBlk.joined, horder]
  have hup : (s.upPier fun p => p.joined n.toNat) = s.upPier fun p => { p with order := [n.toNat] } := by
    rw [State.upPier, hjoined]
    rfl
  rw [State.joinOrder_of_started _ hstarted, if_pos hnext, hup]
  have henum : (s.upPier fun p => { p with order := [n.toNat] }).enumNext =
      ((s.upPier fun p => { p with order := [], next := BitVec.ofNat 6 n.toNat }).modPier n.toNat fun l =>
        { l with admission := .enumerating, cause := 0#4, anchor := BitVec.ofNat 6 (n.toNat + 1) }).pierRequest n.toNat 0x01
          (BitVec.ofNat 32 (n.toNat + 1)) s.enumBody := rfl
  have hsent := linksSent_pierRequest ((s.upPier fun p => { p with order := [], next := BitVec.ofNat 6 n.toNat }).modPier
    n.toNat fun l => { l with admission := .enumerating, cause := 0#4, anchor := BitVec.ofNat 6 (n.toNat + 1) }) n.toNat 0x01
      (BitVec.ofNat 32 (n.toNat + 1)) s.enumBody
  have hlink := State.link_modPier_same (s := s.upPier fun p => { p with order := [], next := BitVec.ofNat 6 n.toNat })
    (n := n.toNat) (fun l => { l with admission := .enumerating, cause := 0#4, anchor := BitVec.ofNat 6 (n.toNat + 1) })
    (lt_of_lt_of_eq n.isLt hlen.symm)
  rw [henum]
  have hadmission := hsent.link n.toNat
  have hframe := hsent.frame
  generalize State.pierRequest _ n.toNat 0x01 _ _ = t at hadmission hframe ⊢
  unfold Pier.Sent at hadmission
  refine ⟨?_, ?_, ?_⟩
  · rw [hadmission, hlink]
  · rw [hframe]
    change BitVec.ofNat 6 n.toNat = n.setWidth 6
    exact BitVec.eq_of_toNat_eq (by simp)
  · rw [hframe]
    rfl

theorem upstreamTrained_facts {s : State} {n : BitVec 5} {latency : BitVec 16} (at_ : Nat) (hlen : s.pier.links.length = 32)
    (h : (s.link n.toNat).Trained latency) :
    let t := (s.upPier fun p => p.upstreamAt n.toNat).modPier n.toNat (Pier.pump at_ 8)
    (t.link n.toNat).Trained latency ∧ t.pier.upstream = some n ∧
      (∀ m, m ≠ n.toNat → m < 32 → (t.link m).st = .disabled) ∧ t = { s with pier := t.pier } := by
  intro t
  have hlinks (m : Nat) (hm : m < 32) : (s.upPier fun p => p.upstreamAt n.toNat).link m =
      if m = n.toNat then s.link m else { s.link m with st := .disabled } := by
    simp [State.link, State.upPier, PierBlk.upstreamAt, List.getD_eq_getElem?_getD, hlen, hm]
  have hlt : n.toNat < (s.upPier fun p => p.upstreamAt n.toNat).pier.links.length :=
    lt_of_lt_of_eq n.isLt ((List.length_mapIdx).trans hlen).symm
  refine ⟨?_, ?_, fun m hm hm32 => ?_, rfl⟩
  · rw [State.link_modPier_same _ hlt, hlinks _ n.isLt, if_pos rfl]
    exact (Pier.sent_pump _ _ _).trained h
  · change some (BitVec.ofNat 5 n.toNat) = some n
    rw [BitVec.ofNat_toNat, BitVec.setWidth_eq]
  · rw [State.link_modPier_ne _ hm, hlinks m hm32, if_neg hm]

/-- The blocks from place `i` on are sent again while each has gone out less than 8 times (R611). -/
theorem State.resendFrom_of_room {s : State} {n i : Nat} (h : ∀ w ∈ (s.link n).window.drop i, w.1 < 7) :
    s.resendFrom n i = s.modPier n fun l => { l with
      window := l.window.take i ++ (l.window.drop i).map fun w => (w.1 + 1, w.2)
      resent := satAdd l.resent (l.window.length - i), ackFrom := s.now } := by
  refine if_neg fun hany => ?_
  obtain ⟨w, hw, hseven⟩ := List.any_eq_true.mp hany
  exact absurd (of_decide_eq_true hseven) (Nat.not_le.mpr (h w hw))

/-- The 9th sending of a block sends the link adrift (R613). -/
theorem State.resendFrom_of_ninth {s : State} {n i : Nat} (h : ∃ w ∈ (s.link n).window.drop i, 7 ≤ w.1) :
    s.resendFrom n i = s.goAdrift n 1#4 := by
  obtain ⟨w, hw, hseven⟩ := h
  exact if_pos (List.any_eq_true.mpr ⟨w, hw, decide_eq_true hseven⟩)

/-- Settles O58: training, adrift, blocks and re-sends by what each changes of its link. -/
theorem pierLinks : Obligations.PierLinks := by
  refine ⟨fun s n hok hup hwant => ⟨fun hst => ?_, fun hst htime => ?_, fun hst htime => ?_⟩, fun s n hok hup hst htime => ?_,
    fun s n lat hok hup hst => ?_, fun s n cause hok hbt => ?_, fun s n cause hup hst hcause => ?_,
    fun s n h => ⟨fun hst => next_farWrite h ?_, fun hst => next_farWrite h ?_⟩, fun s n q crcOk codeOk hok hup hst => ?_,
    fun s n q hok hup hst => ?_, fun s n q hup hst => ⟨fun hplace => ?_, fun i hplace => ⟨fun hall => ?_, fun hany => ?_⟩⟩,
    fun s n hup hst hwin htime => ⟨fun hall => ?_, fun hany => ?_⟩⟩
  · obtain ⟨hsame, hne, hframe⟩ := State.modPier_facts (s := s) (n := n)
      (fun l => { l with firstRetry := l.firstRetry || l.st == .adrift, st := .training, since := s.now }) hok
    refine ⟨s.train n.toNat, State.whenDo_of s _ (by simp [hup, hst, hwant]), hsame.trans ?_, hne, hframe⟩
    simp [hst]
  · obtain ⟨hsame, hne, hframe⟩ := State.modPier_facts (s := s) (n := n)
      (fun l => { l with firstRetry := l.firstRetry || l.st == .adrift, st := .training, since := s.now }) hok
    refine ⟨s.train n.toNat, State.whenDo_of s _ (by simp [hup, hst, hwant, State.elapsed, htime]), hsame.trans ?_, hne, hframe⟩
    simp [hst]
  · obtain ⟨hsame, hne, hframe⟩ := State.modPier_facts (s := s) (n := n)
      (fun l => { l with firstRetry := l.firstRetry || l.st == .adrift, st := .training, since := s.now }) hok
    refine ⟨s.train n.toNat, State.whenDo_of s _ (by simp [hup, hst, hwant, State.elapsed, htime]), hsame.trans ?_, hne, hframe⟩
    simp [hst]
  · obtain ⟨hsame, hne, hframe⟩ := State.modPier_facts (s := s) (n := n) (fun l => { l with
      st := .down, since := s.now, trainFails := satInc l.trainFails, trainTime := 2000#16 }) hok
    exact ⟨_, State.whenDo_of s _ (by simp [hup, hst, State.elapsed, htime]), hsame, hne, hframe⟩
  · obtain ⟨hlink, hadmission, hwindow, hne, hlen, hframe⟩ := State.trainedBegun_facts (s := s) (n := n) lat hok
    refine ⟨s.trained n.toNat lat, State.whenDo_of s _ (by simp [hup, hst]), ?_⟩
    rw [State.trained_eq]
    generalize s.trainedBegun n.toNat lat = a at hlink hadmission hwindow hne hlen hframe ⊢
    have hpier : a.pier.started = s.pier.started ∧ a.pier.next = s.pier.next ∧ a.pier.order = s.pier.order := by
      rw [hframe]
      exact ⟨rfl, rfl, rfl⟩
    obtain ⟨hstarted, hnext, horder⟩ := hpier
    by_cases hrole : s.cfg.role = .harbourmaster
    · rw [if_pos (by simp [State.isHost, hrole])]
      obtain ⟨hjoin, hjoinframe, hquiet⟩ := joinOrder_facts hlink
      refine ⟨hjoin.st, hjoin.latency, hjoin.rxSeq, hjoin.bound, hjoin.event, ?_, fun _ hno => ?_, fun _ hstart hend hnone => ?_,
        fun hno => absurd hrole hno⟩
      · rw [hjoinframe, hframe]
      · obtain ⟨hsame, hmem⟩ := hquiet (by rwa [hstarted, hnext])
        exact ⟨by rw [hsame, hadmission], by rw [hsame, hwindow], fun m hm => by rw [hsame, hne m hm],
          fun hstart => hmem (by rw [hstarted, hstart])⟩
      · exact joinOrder_alone hlen (by rw [hstarted, hstart]) (by rw [hnext, hend]) (by rw [horder, hnone])
    · rw [if_neg (by simp [State.isHost, hrole])]
      obtain ⟨hlink', hup, hothers, hframe'⟩ := upstreamTrained_facts (s := a) s.now hlen hlink
      refine ⟨hlink'.st, hlink'.latency, hlink'.rxSeq, hlink'.bound, hlink'.event, ?_, fun hyes => absurd hyes hrole,
        fun hyes => absurd hyes hrole, fun _ => ⟨hup, hothers⟩⟩
      rw [hframe', hframe]
  · have hbegun := State.adriftBegun_facts (s := s) (n := n) cause hok
    obtain ⟨hlink, hframe⟩ := hbegun
    dsimp only
    rw [State.goAdrift_eq]
    generalize s.adriftBegun n.toNat cause = a at hlink hframe ⊢
    have hkeep : a.tide.number = s.tide.number ∧ a.reg = s.reg ∧ a.bt = s.bt := by
      rw [hframe]
      exact ⟨rfl, rfl, rfl⟩
    by_cases hrole : s.cfg.role = .harbourmaster
    · rw [if_pos (by simp [State.isHost, hrole])]
      obtain ⟨hlink', hnumber, hreg, hserving, hberths⟩ := adriftHost_facts _ hlink
      refine ⟨hlink'.st, hlink'.last, hlink'.bound, hlink'.admission, hlink'.count, hlink'.event, hnumber.trans hkeep.1,
        hreg.trans hkeep.2.1, fun _ => ⟨hserving, fun k h256 hheld hanchor => ?_⟩, fun hno => absurd hrole hno⟩
      have hsame := State.berth_congr hkeep.2.2 k
      exact hberths k h256 (by rw [hsame, hheld]) (by rw [hsame, hanchor])
    · rw [if_neg (by simp [State.isHost, hrole])]
      exact ⟨hlink.st, hlink.last, hlink.bound, hlink.admission, hlink.count, hlink.event, hkeep.1, hkeep.2.1,
        fun hyes => absurd hyes hrole, fun _ => ⟨rfl, rfl, rfl, hkeep.2.2⟩⟩
  · have hlive : ((s.link n.toNat).st == .active || (s.link n.toNat).st == .slack) = true := by
      rcases hst with h | h <;> simp [h]
    have hkind : (cause == 2#4 || cause == 3#4 || cause == 4#4) = true := by
      rcases hcause with h | h | h <;> simp [h]
    exact State.whenDo_of s _ (by simp only [hup, hlive, hkind, Bool.and_self])
  · exact if_neg hst
  · exact if_pos hst
  · obtain ⟨hsame, hne, hframe⟩ := State.modPier_facts (s := s) (n := n) (Pier.block q crcOk codeOk) hok
    refine ⟨_, State.whenDo_of s _ (by simp [hup, hst]), hne, hframe, fun hcrc hcode hseq => hsame.trans ?_,
      fun hbad => hsame.trans ?_⟩
    · rw [Pier.block, if_pos (by simp [hcrc, hcode, hseq])]
      rw [hseq]
    · rw [Pier.block, if_neg]
      rcases hbad with hbad | hbad | hbad <;> simp [hbad]
  · obtain ⟨hsame, hne, hframe⟩ := State.modPier_facts (s := s) (n := n) (Pier.acked s.now q) hok
    refine ⟨_, State.whenDo_of s _ (by simp [hup, hst]), hne, hframe, fun i hplace => ?_, fun hplace => hsame.trans ?_⟩
    · have hacked : Pier.acked s.now q (s.link n.toNat) = ({ s.link n.toNat with
          window := (s.link n.toNat).window.drop (i + 1), ackFrom := s.now }).pump s.now 8 := by
        rw [Pier.acked, hplace]
      refine ⟨hsame.trans hacked, fun hmsgs => (hsame.trans hacked).trans ?_⟩
      exact if_pos (.inl (by simp [hmsgs]))
    · simp [Pier.acked, hplace]
  · refine whenDo_next (by simp [hup, hst]) ?_
    rw [State.pierNaked, hplace]
  · refine whenDo_next (by simp [hup, hst]) ?_
    rw [State.pierNaked, hplace]
    exact State.resendFrom_of_room hall
  · refine whenDo_next (by simp [hup, hst]) ?_
    rw [State.pierNaked, hplace]
    exact State.resendFrom_of_ninth hany
  · refine whenDo_next (by simp [hup, hst, hwin, State.elapsed, htime]) ?_
    rw [State.resendFrom_of_room (by simpa using hall)]
    simp only [List.take_zero, List.drop_zero, List.nil_append, Nat.sub_zero]
  · exact whenDo_next (by simp [hup, hst, hwin, State.elapsed, htime]) (State.resendFrom_of_ninth (by simpa using hany))

end Sys2Proof.Machine
end

section
/-! SUPPORT. Pier links: the harbourmaster's side of the messages (R616 to R640). -/

namespace Sys2Proof.Machine

theorem getLsbD_foldl_bitMask {w : Nat} (l : List Nat) (v : BitVec w) {a : Nat} (ha : a < w) :
    (l.foldl (fun v n => v ||| bitMask w n) v).getLsbD a = (v.getLsbD a || decide (a ∈ l)) := by
  induction l generalizing v with
  | nil => simp
  | cons n l ih =>
    rw [List.foldl_cons, ih, BitVec.getLsbD_or, bitMask, getLsbD_mask]
    simp only [ha, and_true, List.mem_cons, Bool.decide_or, Bool.or_assoc]

/-- The bits of a list of numbers. -/
theorem getLsbD_ofBits {w : Nat} (l : List Nat) {a : Nat} (ha : a < w) : (ofBits w l).getLsbD a = decide (a ∈ l) := by
  rw [ofBits, getLsbD_foldl_bitMask l _ ha]
  simp

/-! Requests (R618 to R620). -/

/-- With nothing waiting a request that retires leaves its place. -/
theorem State.retire_of_none_waiting {s : State} {n : Nat} (tag : BitVec 8) (h : (s.link n).waiting = []) :
    s.retire n tag = s.modPier n fun l => { l with reqs := l.reqs.filter fun r => r.tag != tag } := by
  have hwaiting : ((s.modPier n fun l => { l with reqs := l.reqs.filter fun r => r.tag != tag }).link n).waiting = [] := by
    rcases s.link_modPier_cases n n (fun l => { l with reqs := l.reqs.filter fun r => r.tag != tag }) with hsame | hsame
    · rw [hsame, h]
    · rw [hsame, h]
  unfold State.retire
  dsimp only
  rw [hwaiting]

/-- A response that no request awaits is dropped and counted (R620). -/
theorem State.pierResponded_of_stale {s : State} {n : Nat} {typ tag : BitVec 8} {epoch : BitVec 4} (arg : BitVec 32) (body : Bytes)
    (h : ∀ r ∈ (s.link n).reqs, r.tag ≠ tag ∨ r.epoch ≠ epoch ∨ r.typ + 0x80#8 ≠ typ) :
    s.pierResponded n typ tag epoch arg body = (s.modPier n fun l => { l with stale := satInc l.stale }).pierEvent n 4 := by
  have hnone : ((s.link n).reqs.find? fun r => r.tag == tag && r.epoch == epoch && r.typ + 0x80#8 == typ &&
      decide ((s.tide.number - r.tide).toNat < 4)) = none := by
    refine List.find?_eq_none.mpr fun r hr hfit => ?_
    simp only [Bool.and_eq_true, beq_iff_eq] at hfit
    obtain ⟨⟨⟨htag, hepoch⟩, htyp⟩, -⟩ := hfit
    rcases h r hr with hno | hno | hno
    · exact hno htag
    · exact hno hepoch
    · exact hno htyp
  unfold State.pierResponded
  rw [hnone]

/-- The only request, answered in time, retires and its response is acted on (R619). -/
theorem State.pierResponded_of_one {s : State} {n : Nat} {r : PierReq} (arg : BitVec 32) (body : Bytes)
    (h : (s.link n).reqs = [r]) (htime : (s.tide.number - r.tide).toNat < 4) :
    s.pierResponded n (r.typ + 0x80#8) r.tag r.epoch arg body = (s.retire n r.tag).responseTo n r arg body := by
  have hfind : ((s.link n).reqs.find? fun x => x.tag == r.tag && x.epoch == r.epoch && x.typ + 0x80#8 == r.typ + 0x80#8 &&
      decide ((s.tide.number - x.tide).toNat < 4)) = some r := by
    rw [h]
    refine List.find?_cons_of_pos ?_
    rw [decide_eq_true htime]
    simp
  unfold State.pierResponded
  rw [hfind]

/-- REMOTE is answered in RDATA and RRESULT (R640). -/
theorem State.responseTo_remote (s : State) (n : Nat) {r : PierReq} (arg : BitVec 32) (body : Bytes) (h : r.typ = 0x30#8) :
    s.responseTo n r arg body = (s.modPier n fun l =>
      { l with rbusy := false, rdata := arg, rresult := if byteAt body 0 = 2 then 2#3 else 1#3 }).pierEvent n 6 := by
  unfold State.responseTo
  rw [h]
  rfl

/-- REMOTE that is not answered ends with RRESULT 3, and nothing of a push or of the enumeration follows (R620, R640). -/
theorem State.requestTimeout_remote {s : State} {n : Nat} {r : PierReq} (hwait : (s.link n).waiting = []) (h : r.typ = 0x30#8) :
    s.requestTimeout n r = ((((s.modPier n fun l => { l with reqs := l.reqs.filter fun x => x.tag != r.tag }).modPier n
      fun l => { l with timeout := satInc l.timeout }).pierEvent n 5).modPier n
        fun l => { l with rbusy := false, rresult := 3#3 }).pierEvent n 6 := by
  unfold State.requestTimeout State.requestLost
  dsimp only
  rw [State.retire_of_none_waiting r.tag hwait, h, if_pos rfl]
  exact if_neg fun hpush => by simp at hpush

/-! Remote access (R640). -/

theorem State.remote_of_admitted {s : State} {n cmd : Nat} (hrole : s.cfg.role = .harbourmaster) (hcmd : cmd = 1 ∨ cmd = 2)
    (hbusy : (s.link n).rbusy = false) (hadm : (s.link n).admission = .admitted) :
    s.remote n cmd = (s.leaveSlack.modPier n fun l => { l with rbusy := true, rresult := 0#3 }).pierRequest n 0x30
      ((s.link n).raddr.setWidth 32) (BitVec.ofNat 8 cmd :: (if cmd = 2 then le 4 (s.link n).rdata.toNat else [])) := by
  unfold State.remote
  dsimp only
  rw [if_neg (by simp [State.isHost, hrole]), if_neg (by omega), if_neg (by simp [hbusy]), if_neg (not_not_intro hadm)]

theorem State.remote_of_busy {s : State} {n cmd : Nat} (hrole : s.cfg.role = .harbourmaster) (hcmd : cmd = 1 ∨ cmd = 2)
    (hbusy : (s.link n).rbusy = true) :
    s.remote n cmd = (s.modPier n fun l => { l with rresult := 5#3 }).notice 3 (pierAddr n 0x48) := by
  unfold State.remote
  dsimp only
  rw [if_neg (by simp [State.isHost, hrole]), if_neg (by omega), if_pos hbusy]

theorem State.remote_of_unadmitted {s : State} {n cmd : Nat} (hrole : s.cfg.role = .harbourmaster) (hcmd : cmd = 1 ∨ cmd = 2)
    (hbusy : (s.link n).rbusy = false) (hadm : (s.link n).admission ≠ .admitted) :
    s.remote n cmd = (s.modPier n fun l => { l with rresult := 4#3 }).pierEvent n 6 := by
  unfold State.remote
  dsimp only
  rw [if_neg (by simp [State.isHost, hrole]), if_neg (by omega), if_neg (by simp [hbusy]), if_pos hadm]

/-! Results of tenders (R171, R205, R249, R629). -/

/-- A measurement of a UWB frame goes to the round that is on the air (R249). -/
theorem State.takeEntry_of_uwb {s : State} {n : Nat} {r : TenderResult} (hkind : r.kind.toNat < 3) :
    s.takeEntry n r = if r.rx.anchor.toNat = n + 1 ∧ s.exported (n + 1) [0, 1, 2, 3] then s.takeResult r else s := by
  have hk (k : BitVec 3) (h : 3 ≤ k.toNat) : r.kind ≠ k := fun he => by rw [he] at hkind; omega
  unfold State.takeEntry
  rw [if_neg (hk 3#3 (by decide)), if_neg (not_or.mpr ⟨hk 4#3 (by decide), hk 6#3 (by decide)⟩), if_neg (hk 5#3 (by decide))]

/-- What a measurement of the round on the air does, by its kind. -/
theorem State.takeResult_of_round {s : State} {r : TenderResult} {x : Round}
    (hfind : s.uwb.schedule.find? (fun x => x.berth == r.berth.toNat && x.airborne) = some x)
    (htime : s.tide.startAt ≤ s.tickOf (BitVec.ofNat 48 r.tick)) (hhears : s.hears x r.rx.anchor.toNat = true) :
    s.takeResult r = match r.kind.toNat with
      | 0 => s.takePoll x r.rx
      | 1 => if x.slots.contains r.rx.anchor.toNat then s.setResponse x r.rx.anchor.toNat r.rx.stamp else s
      | 2 => s.takeFinal x r.rx
      | _ => s := by
  unfold State.takeResult
  rw [hfind]
  refine if_neg ?_
  rw [hhears, decide_eq_false (Nat.not_lt.mpr htime)]
  decide

/-- What the harbourmaster knows of a tender's drivers (R171). -/
def Lf.told (l : Lf) (drivers : List (BitVec 4 × BitVec 11 × Bool)) : Lf := { l with
  farOff := (l.farOff &&& ~~~(ofBits 16 (drivers.map fun d => d.1.toNat))) |||
    ofBits 16 ((drivers.filter fun d => d.2.2).map fun d => d.1.toNat) }

theorem Lf.told_farOff (l : Lf) (drivers : List (BitVec 4 × BitVec 11 × Bool)) {a : Nat} (ha : a < 16) :
    (l.told drivers).farOff.getLsbD a = ((l.farOff.getLsbD a && !decide (∃ d ∈ drivers, d.1.toNat = a)) ||
      decide (∃ d ∈ drivers, d.1.toNat = a ∧ d.2.2 = true)) := by
  unfold Lf.told
  dsimp only
  rw [BitVec.getLsbD_or, BitVec.getLsbD_and, BitVec.getLsbD_not, getLsbD_ofBits _ ha, getLsbD_ofBits _ ha]
  simp [ha, and_assoc, and_comm]

theorem State.tenderWake_of_awake {s : State} (bit : Nat) (h : s.tide.beacon = false) : s.tenderWake bit = s.wake bit :=
  if_neg (by simp [h])

/-- The event that a beacon announced is named (R126, R633). -/
theorem State.tenderWake_of_beacon {s : State} {bit : Nat} (h : s.tide.beacon = true) (hbit : bit < 9) :
    s.tenderWake bit = { s with tide := (s.tenderWake bit).tide } ∧ (s.tenderWake bit).tide.beacon = false ∧
    (s.tenderWake bit).tide.wakeCause.getLsbD bit = true := by
  unfold State.tenderWake
  dsimp only
  rw [if_pos h]
  exact ⟨rfl, rfl, setBit_here _ _ _ hbit⟩

theorem State.takeDrivers_facts (s : State) (r : TenderResult) :
    (s.takeDrivers r).lf = s.lf.told r.drivers ∧ s.takeDrivers r = { s with
      lf := (s.takeDrivers r).lf, bt := (s.takeDrivers r).bt } ∧
    (r.kind ≠ 4#3 → s.takeDrivers r = { s with lf := (s.takeDrivers r).lf }) := by
  unfold State.takeDrivers
  dsimp only
  split
  · exact ⟨rfl, rfl, fun _ => rfl⟩
  · next hno => exact ⟨rfl, rfl, fun hkind => absurd (.inl hkind) hno⟩

/-- Settles O59: each message of a tender by the branch of its kind, and REMOTE by the state of its link. -/
theorem pierHost : Obligations.PierHost := by
  refine ⟨fun s hup hrole hsys hnot => ?_, fun s n typ tag ep arg body hup hrole hst => ⟨fun hstale => ?_,
    fun r hreqs hwait htyp htime => ?_⟩, fun s n r hup hreqs hwait htyp htime => ?_,
    fun s n rq hup hst => ⟨fun hrole hasleep harmed hasked hreqs => ?_, fun hrole hport => ?_⟩,
    fun s n hup hst => ⟨fun hrole => ?_, fun hrole => ?_⟩,
    fun s n x r hup hrole hserv hanchor htime hfind hhears hexp => ?_,
    fun s n r hup hrole hserv => ⟨fun hkind hexp => ?_, fun hkind hexp => ?_, fun hkind hexp hmoored hanchor => ?_,
      fun hkind => ?_⟩,
    fun s n arg stamp body hup hrole hadm => ?_, fun s n hready hrole => ?_⟩
  · exact State.whenDo_of s _ (by simp [hup, State.isHost, hrole, hsys, hnot])
  · have hlive : ((s.link n.toNat).st == .active || (s.link n.toNat).st == .slack) = true := by
      rcases hst with h | h <;> simp [h]
    exact whenDo_next (by simp [hup, State.isHost, hrole, hlive]) (State.pierResponded_of_stale arg body hstale)
  · have hlive : ((s.link n.toNat).st == .active || (s.link n.toNat).st == .slack) = true := by
      rcases hst with h | h <;> simp [h]
    refine whenDo_next (by simp [hup, State.isHost, hrole, hlive]) ?_
    have hone := State.pierResponded_of_one arg body hreqs htime
    rw [htyp] at hone
    exact hone.trans (by rw [State.retire_of_none_waiting _ hwait, State.responseTo_remote _ _ arg body htyp])
  · have hfind : ((s.link n.toNat).reqs.find? fun x => x.tag == r.tag) = some r := by
      rw [hreqs]
      exact List.find?_cons_of_pos (by simp)
    change execPierRequestTimeout n r.tag s = _
    unfold execPierRequestTimeout
    rw [hfind]
    refine whenDo_next ?_ (State.requestTimeout_remote hwait htyp)
    exact Bool.and_eq_true_iff.mpr ⟨hup, decide_eq_true htime⟩
  · refine (if_pos (by simp [State.isHost, hrole])).trans (State.whenDo_of s _ ?_)
    simpa [hup, hasleep, hst, hasked, harmed] using hreqs
  · refine (if_neg (by simp [State.isHost, hrole])).trans (State.whenDo_of s _ ?_)
    simp [hup, hst, State.upPort?, hport]
  · exact whenDo_next (by simp [hup, hst]) (if_pos (by simp [State.isHost, hrole]))
  · exact whenDo_next (by simp [hup, hst]) (if_neg (by simp [State.isHost, hrole]))
  · have hopen : (s.mainUp && s.isHost && s.pier.serving.getLsbD n.toNat) = true := by
      simp only [hup, State.isHost, hrole, hserv, beq_self_eq_true, Bool.and_self]
    have htake (hkind : r.kind.toNat < 3) : s.takeEntry n.toNat r = s.takeResult r :=
      (State.takeEntry_of_uwb hkind).trans (if_pos ⟨hanchor, hexp⟩)
    have hresult := State.takeResult_of_round hfind htime hhears
    refine ⟨fun hkind => ?_, fun hkind hslot => ?_, fun hkind => ?_⟩
    · refine whenDo_next hopen ((htake (by rw [hkind]; decide)).trans (hresult.trans ?_))
      rw [hkind]
      rfl
    · refine whenDo_next hopen ((htake (by rw [hkind]; decide)).trans (hresult.trans ?_))
      rw [hkind]
      exact if_pos (List.contains_iff_mem.mpr hslot)
    · refine whenDo_next hopen ((htake (by rw [hkind]; decide)).trans (hresult.trans ?_))
      rw [hkind]
      rfl
  · refine whenDo_next (by simp [hup, State.isHost, hrole, hserv]) ((State.takeEntry_of_uwb hkind).trans (if_neg ?_))
    rw [hexp]
    exact fun h => absurd h.2 Bool.false_ne_true
  · refine whenDo_next (by simp [hup, State.isHost, hrole, hserv]) ((if_pos hkind).trans (if_neg ?_))
    rw [hexp]
    exact Bool.false_ne_true
  · exact whenDo_next (by simp [hup, State.isHost, hrole, hserv])
      ((if_pos hkind).trans ((if_pos hexp).trans (if_pos ⟨hmoored, hanchor⟩)))
  · have hthree : r.kind ≠ 3#3 := by rcases hkind with h | h <;> rw [h] <;> decide
    obtain ⟨hlf, hframe, hquiet⟩ := s.takeDrivers_facts r
    refine ⟨s.takeDrivers r, whenDo_next (by simp [hup, State.isHost, hrole, hserv]) ((if_neg hthree).trans (if_pos hkind)),
      fun a ha hnone => ?_, fun a ha hoff => ?_, fun a ha hsome hon => ?_, fun hsix => hquiet (by rw [hsix]; decide), hframe⟩
    · rw [hlf, Lf.told_farOff _ _ ha, decide_eq_false (fun ⟨d, hd, he⟩ => hnone d hd he),
        decide_eq_false (fun ⟨d, hd, he, _⟩ => hnone d hd he)]
      simp
    · rw [hlf, Lf.told_farOff _ _ ha, decide_eq_true hoff, Bool.or_true]
    · rw [hlf, Lf.told_farOff _ _ ha, decide_eq_true hsome,
        decide_eq_false (fun ⟨d, hd, he, hoff⟩ => absurd (hon d hd he) (by rw [hoff]; decide))]
      simp
  · have hopen : (s.mainUp && s.isHost && (s.link n.toNat).admission == .admitted) = true := by
      simp [hup, State.isHost, hrole, hadm]
    have hcause (harg : arg.toNat < 9) : s.tenderEvent n.toNat 3 arg stamp body = s.tenderWake arg.toNat :=
      congrArg s.tenderWake (Nat.mod_eq_of_lt harg)
    refine ⟨State.whenDo_of s _ hopen, fun hbeacon harg => ?_, fun hbeacon harg => ?_⟩
    · exact whenDo_next hopen ((hcause harg).trans (State.tenderWake_of_awake _ hbeacon))
    · exact ⟨_, whenDo_next hopen (hcause harg), State.tenderWake_of_beacon hbeacon harg⟩
  · refine ⟨fun hbusy hadm => ⟨next_farWrite hready ?_, next_farWrite hready ?_⟩, fun hbusy => next_farWrite hready ?_,
      fun hbusy hadm => next_farWrite hready ?_⟩
    · exact State.remote_of_admitted (s := s.reached _) hrole (.inl rfl) hbusy hadm
    · exact State.remote_of_admitted (s := s.reached _) hrole (.inr rfl) hbusy hadm
    · exact State.remote_of_busy (s := s.reached _) hrole (.inl rfl) hbusy
    · exact State.remote_of_unadmitted (s := s.reached _) hrole (.inr rfl) hbusy hadm

end Sys2Proof.Machine
end

section
/-! SUPPORT. Pier links: the tender's side of the messages (R616 to R639). -/

namespace Sys2Proof.Machine

/-! Binding and protected messages (R622, R623). -/

/-- BIND_FINISH with the right MAC_H binds (R622). -/
theorem State.bindFinished_of_right {s : State} (rq : ReqId) {mac : Bytes} (hcan : s.canDerive = true)
    (h : mac = (s.bindKeys s.hostLink (s.link s.up).nh (s.link s.up).nt s.ident.device s.tend.hostDev).2.2) :
    s.bindFinished rq mac = (s.modPier s.up fun l =>
      { l with bound := true, txCtr := 0#64, rxCtr := none }).answerUp 0x03 rq 1#32 [] := by
  have hok : (s.canDerive && mac ==
      (s.bindKeys s.hostLink (s.link s.up).nh (s.link s.up).nt s.ident.device s.tend.hostDev).2.2) = true := by
    rw [hcan, ← h, beq_self_eq_true, Bool.and_self]
  unfold State.bindFinished
  dsimp only
  rw [hok]
  rfl

/-- BIND_FINISH with another one, or without a working engine, ends the binding (R622). -/
theorem State.bindFinished_of_wrong {s : State} (rq : ReqId) {mac : Bytes} (h : s.canDerive = false ∨
    mac ≠ (s.bindKeys s.hostLink (s.link s.up).nh (s.link s.up).nt s.ident.device s.tend.hostDev).2.2) :
    s.bindFinished rq mac = (s.modPier s.up fun l => { l with bound := false }).answerUp 0x03 rq 3#32 [] := by
  have hbad : (s.canDerive && mac ==
      (s.bindKeys s.hostLink (s.link s.up).nh (s.link s.up).nt s.ident.device s.tend.hostDev).2.2) = false := by
    rcases h with hno | hno
    · rw [hno, Bool.false_and]
    · rw [beq_eq_false_iff_ne.mpr hno, Bool.and_false]
  unfold State.bindFinished
  dsimp only
  rw [hbad]
  rfl

/-- A link that is not bound drops a protected message and counts it (R623). -/
theorem State.pierOpen_of_unbound {s : State} {n : Nat} (header body : Bytes) (h : (s.link n).bound = false) :
    s.pierOpen n header body = (none, s.modPier n fun l => { l with stale := satInc l.stale }) := by
  simp [State.pierOpen, h]

/-- The slot of a session identifier holds what SESSION_SET brought (R456). -/
theorem State.slot_sessionIn (s : State) (b : Bytes) : (s.sessionIn b).slot (leAt b 0 4 % 4096) = some {
    k := leAt b 0 4 % 4096, sts := slice b 4 16, mac := slice b 20 16, link := slice b 36 16, ctr := slice b 52 12
    attr := BitVec.ofNat 32 (leAt b 64 4) } :=
  List.find?_cons_of_pos (beq_self_eq_true _)

/-! Pushes (R621, R635, R636, R707). -/

theorem State.pushFragment_in_order {s : State} {p : Push} {offset : Nat} (data : Bytes) (hgood : p.bad = false)
    (h : offset = p.got) : s.pushFragment p offset data = s.upTend fun t => { t with
      push := some { p with got := p.got + data.length, data := Mem.store p.data offset data } } :=
  (if_neg (by simp [hgood])).trans (if_neg (not_not_intro h))

/-- A gap spoils the object and is counted (R621). -/
theorem State.pushFragment_of_gap {s : State} {p : Push} {offset : Nat} (data : Bytes) (hgood : p.bad = false)
    (h : offset ≠ p.got) : s.pushFragment p offset data = (s.upTend fun t => { t with
      push := some { p with bad := true } }).modPier s.up fun l => { l with timeout := satInc l.timeout } :=
  (if_neg (by simp [hgood])).trans (if_pos h)

/-- The bank of R67 is written now where no adopted image waits for it or for its record (R636). -/
theorem State.writePushed_of_free {s : State} (rq : ReqId) (hown : s.tend.own = none) (hdue : s.tend.recordDue = none) :
    s.writePushed rq = (s.upMf fun m => m.modBank m.target Bank.invalid).upTend fun t => { t with
      writing := true, pushRq := some rq } :=
  if_neg (by simp [hown, hdue])

theorem State.writePushed_of_waiting {s : State} (rq : ReqId) (h : ¬(s.tend.own = none ∧ s.tend.recordDue = none)) :
    s.writePushed rq = s.upTend fun t => { t with pushRq := some rq } := by
  refine if_pos (Bool.not_eq_false _ ▸ fun hno => h ?_)
  simpa using hno

/-- The checks of a whole image that was pushed, and what each end of them does (R635, R636). -/
theorem State.pushEnded_image {s : State} {p : Push} (rq : ReqId) (hgood : p.bad = false) (hwhole : p.got = p.len)
    (hfw : p.fw = false) : s.pushEnded rq p = (
      let c := s.imageCheck p.len (Mem.load p.data 0 p.len)
      let u := s.countVerify c.2
      match c.1 with
      | .error e => (u.upTend fun t => { t with push := none }).answerUp 0x12 rq (BitVec.ofNat 32 e.1) []
      | .ok _ =>
        if p.adopt = true then (u.upTend fun t => { t with push := none, adopt := some p }).answerUp 0x12 rq 1#32 []
        else if s.tend.own = none ∧ s.tend.recordDue = none then
          { (u.upMf fun m => m.modBank m.target Bank.invalid) with
            tend := { s.tend with push := some { p with done := true }, writing := true, pushRq := some rq } }
        else { u with tend := { s.tend with push := some { p with done := true }, pushRq := some rq } }) := by
  unfold State.pushEnded
  dsimp only
  rw [if_neg (by simp [hgood, hwhole]), if_neg (by simp [hfw])]
  generalize s.imageCheck p.len (Mem.load p.data 0 p.len) = c
  obtain ⟨result, verified⟩ := c
  dsimp only
  cases result with
  | error e => rfl
  | ok clamps =>
    dsimp only
    split
    · rfl
    · split
      · next hfree => exact State.writePushed_of_free rq hfree.1 hfree.2
      · next hwait => exact State.writePushed_of_waiting rq hwait

/-- The checks of a whole firmware image (R701, R707). -/
theorem State.pushEnded_fw {s : State} {p : Push} (rq : ReqId) (hgood : p.bad = false) (hwhole : p.got = p.len)
    (hfw : p.fw = true) : s.pushEnded rq p = (
      let b := Mem.load p.data 0 p.len
      let c := s.fwCheck b
      let u := (s.countVerify c.2).upTend fun t => { t with push := none }
      if c.1 = 1 then
        (u.upFw fun f => { (f.modBank f.other fun _ => { Bank.reset with valid := true, image := p.data, len := p.len }) with
          stagedVer := BitVec.ofNat 16 (leAt b 0xC 2), stagedFloor := BitVec.ofNat 16 (leAt b 0xE 2) }).answerUp 0x12 rq 1#32 []
      else u.answerUp 0x12 rq (BitVec.ofNat 32 c.1) []) := by
  unfold State.pushEnded State.pushedFw
  dsimp only
  rw [if_neg (by simp [hgood, hwhole]), if_pos hfw]
  generalize Mem.load p.data 0 p.len = b
  generalize s.fwCheck b = c
  obtain ⟨result, verified⟩ := c
  dsimp only
  split
  · rfl
  · rfl

/-! Banks of a tender (R636). -/

theorem State.writeBank_facts (s : State) (m : Mem) (len : Nat) :
    (((s.writeBank m len).mf.bank s.mf.target).valid = true ∧ ((s.writeBank m len).mf.bank s.mf.target).image = m ∧
      ((s.writeBank m len).mf.bank s.mf.target).len = len) ∧ s.writeBank m len = { s with mf := (s.writeBank m len).mf } := by
  have hbank := (s.mf.bank_modBank s.mf.target fun _ =>
    { valid := true, image := m, len := len, tag := bindingTag s.keys.vr.key (Mem.load m 0 len) }).1
  have hmf : (s.writeBank m len).mf.bank s.mf.target =
    { valid := true, image := m, len := len, tag := bindingTag s.keys.vr.key (Mem.load m 0 len) } := hbank
  rw [hmf]
  exact ⟨⟨rfl, rfl, rfl⟩, rfl⟩

/-- An answer on the upstream link changes the links alone. -/
theorem State.answerUp_pier (s : State) (typ : Nat) (rq : ReqId) (arg : BitVec 32) (body : Bytes) :
    s.answerUp typ rq arg body = { s with pier := (s.answerUp typ rq arg body).pier } :=
  (linksSent_pierSend s _ _).pier

/-- A good write of the bank of a commit's image (R636). -/
theorem pushWritten_facts {s : State} {p : Push} (rq : ReqId) (hpush : s.tend.push = some p) :
    let t := s.pushWritten rq true
    (t.mf.bank s.mf.target).valid = true ∧ (t.mf.bank s.mf.target).image = p.data ∧ (t.mf.bank s.mf.target).len = p.len ∧
      t.tend.writing = false ∧ t = { s with mf := t.mf, tend := t.tend, pier := t.pier } := by
  have hwritten : s.pushWritten rq true = ((s.writeBank p.data p.len).upTend fun t => { t with
      writing := false, pushRq := none }).answerUp 0x12 rq 1#32 [] := by
    rw [State.pushWritten, hpush]
    rfl
  obtain ⟨⟨hvalid, himage, hlen⟩, hframe⟩ := s.writeBank_facts p.data p.len
  have hanswer := State.answerUp_pier ((s.writeBank p.data p.len).upTend fun t => { t with
    writing := false, pushRq := none }) 0x12 rq 1#32 []
  dsimp only
  rw [hwritten, hanswer]
  generalize (State.answerUp _ 0x12 rq 1#32 []).pier = links
  generalize s.writeBank p.data p.len = w at hvalid himage hlen hframe ⊢
  refine ⟨hvalid, himage, hlen, rfl, ?_⟩
  rw [hframe]
  rfl

/-- A good write of the bank of an adopted image, whose record is now due (R102, R636). -/
theorem ownWritten_facts (s : State) (p : Push) :
    let t := s.ownWritten p true
    (t.mf.bank s.mf.target).valid = true ∧ (t.mf.bank s.mf.target).image = p.data ∧
      t.tend = { s.tend with writing := false, own := none, recordDue := some p.serial } ∧
      t = { s with mf := t.mf, tend := t.tend } := by
  have hwritten : s.ownWritten p true = (s.writeBank p.data p.len).upTend fun t => { t with
      writing := false, own := none, recordDue := some p.serial } := rfl
  obtain ⟨⟨hvalid, himage, -⟩, hframe⟩ := s.writeBank_facts p.data p.len
  dsimp only
  rw [hwritten]
  generalize s.writeBank p.data p.len = w at hvalid himage hframe ⊢
  refine ⟨hvalid, himage, ?_, ?_⟩
  · rw [hframe]
    rfl
  · rw [hframe]
    rfl

/-- COMMIT_AT keeps the tide of a manifest image (R99). -/
theorem State.commitAt_manifest {s : State} {tide : BitVec 32} (h : tide ≠ 0#32) :
    s.commitAt false tide = s.upTend fun t => { t with commitTide := some tide } :=
  (if_neg Bool.false_ne_true).trans (if_neg h)

theorem State.commitAt_fw {s : State} {tide : BitVec 32} (h : tide ≠ 0#32) :
    s.commitAt true tide = s.upTend fun t => { t with fwTide := some tide } :=
  (if_pos rfl).trans (if_neg h)

/-! Forwarded commands and the schedule (R468, R630). -/

/-- A forwarded fleet identifier is stored in PROVISION (R468). -/
theorem State.keyFwd_fleet {s : State} (rq : ReqId) (body : Bytes) (hinst : s.trng.inst = true) (hbusy : s.keys.busy = false)
    (hlife : s.tide.life = .provision) : s.keyFwd rq 3#8 body = (((s.upKeys fun k => { k with
      fleetId := BitVec.ofNat 64 (leAt body 0 8) }).keysEnd 1).answerUp 0x18 rq 1#32 []) := by
  have hhere : s.forwarded (3#8).toNat body = (s.upKeys fun k => { k with fleetId := BitVec.ofNat 64 (leAt body 0 8) }).keysEnd 1 :=
    if_neg (not_not_intro hlife)
  unfold State.keyFwd
  dsimp only
  rw [if_neg (by decide), if_neg (by simp [hinst]), if_neg (by simp [hbusy]), hhere]
  rfl

theorem State.scheduleOne_of_late {s : State} {at_ : Nat} (tide : BitVec 32) (d : Bytes) (h : at_ < s.now + us 100) :
    s.scheduleOne tide (at_, d) = s.modPier s.up fun l => { l with lateSched := satInc l.lateSched } := if_pos h

theorem State.scheduleOne_round {s : State} {at_ : Nat} (tide : BitVec 32) {d : Bytes} (h : s.now + us 100 ≤ at_)
    (hkind : byteAt d 0 = 2) : s.scheduleOne tide (at_, d) = s.upUwb fun u => { u with
      schedule := u.schedule ++ [scheduledRound tide (at_, d)], rounds := u.rounds + 1#8 } :=
  (if_neg (Nat.not_lt.mpr h)).trans (if_pos hkind)

theorem State.scheduleOne_frame {s : State} {at_ : Nat} (tide : BitVec 32) {d : Bytes} (h : s.now + us 100 ≤ at_)
    (hkind : byteAt d 0 = 1) : s.scheduleOne tide (at_, d) =
      if byteAt d 1 = 6 then s.cutAt at_ else s.upTend fun t => { t with sched := t.sched ++ [(at_, d)] } := by
  unfold State.scheduleOne
  rw [if_neg (Nat.not_lt.mpr h), if_neg (by rw [hkind]; decide)]
  simp only [hkind, true_and]

/-- Settles O60: each message by the branch that its hypotheses choose. -/
theorem pierTender : Obligations.PierTender := by
  refine ⟨fun s rq host a hup => ?_, fun s rq nh hup hvr => ?_, fun s rq mac hup hnt => ⟨fun hcan hmac => ?_, fun hbad => ?_⟩,
    fun s rq fw adopt serial len hup => State.whenDo_of s _ hup,
    fun s p off d hup hpush hgood => ⟨fun hoff => ?_, fun hoff => ?_⟩,
    fun s p rq hup hpush hbad => ?_, fun s p rq hup hpush hgood hwhole => ⟨fun hfw => ?_, fun hfw => ?_⟩,
    fun s p rq hup hwriting hown hrq hpush => ?_, fun s p hup hwriting hown => ?_,
    fun s rq tide hup htide => ⟨?_, ?_⟩, fun s rq body hup hinst hbusy hlife => ?_,
    fun s header body hup => ⟨fun b u hopen => ⟨?_, u.slot_sessionIn b, ?_⟩, fun hbound => ?_⟩,
    fun s tide at_ d hup => ⟨fun htime hone hkind => ?_, fun htime htwo => ?_,
      fun w htime hone hsix hair hkind => ?_, fun hlate => ?_⟩,
    fun s hup => ⟨_, State.whenDo_of s _ hup, rfl, ?_⟩⟩
  · refine whenDo_next hup ?_
    unfold State.enumerated
    dsimp only
    rw [BitVec.ofNat_toNat, BitVec.setWidth_eq]
    rfl
  · exact State.whenDo_of s _ (by simp [hup, hvr])
  · exact whenDo_next (by simp [hup, hnt]) (State.bindFinished_of_right rq hcan hmac)
  · exact whenDo_next (by simp [hup, hnt]) (State.bindFinished_of_wrong rq hbad)
  · change execPushData off d false s = _
    unfold execPushData
    rw [hpush]
    exact whenDo_next hup ((if_neg Bool.false_ne_true).trans (State.pushFragment_in_order d hgood hoff))
  · change execPushData off d false s = _
    unfold execPushData
    rw [hpush]
    exact whenDo_next hup ((if_neg Bool.false_ne_true).trans (State.pushFragment_of_gap d hgood hoff))
  · change execPushEnd rq s = _
    unfold execPushEnd
    rw [hpush]
    exact whenDo_next hup (if_pos hbad)
  · change execPushEnd rq s = _
    unfold execPushEnd
    rw [hpush]
    exact whenDo_next hup (State.pushEnded_image rq hgood hwhole hfw)
  · change execPushEnd rq s = _
    unfold execPushEnd
    rw [hpush]
    exact whenDo_next hup (State.pushEnded_fw rq hgood hwhole hfw)
  · have hwrite : (s.mainUp && s.tend.writing) = true := by rw [hup, hwriting, Bool.and_self]
    refine ⟨⟨s.pushWritten rq true, whenDo_next hwrite ?_, pushWritten_facts rq hpush⟩, whenDo_next hwrite ?_⟩
    · rw [hown, hrq]
    · rw [hown, hrq]
      rfl
  · have hwrite : (s.mainUp && s.tend.writing) = true := by rw [hup, hwriting, Bool.and_self]
    refine ⟨⟨s.ownWritten p true, whenDo_next hwrite ?_, ownWritten_facts s p⟩, whenDo_next hwrite ?_⟩
    · rw [hown]
    · rw [hown]
      rfl
  · exact whenDo_next hup (congrArg (State.answerUp · 0x13 rq 0#32 []) (State.commitAt_manifest htide))
  · exact whenDo_next hup (congrArg (State.answerUp · 0x13 rq 0#32 []) (State.commitAt_fw htide))
  · exact whenDo_next hup (State.keyFwd_fleet rq body hinst hbusy hlife)
  · refine whenDo_next hup ?_
    rw [hopen]
  · refine whenDo_next hup ?_
    rw [hopen]
  · refine whenDo_next hup ?_
    rw [State.pierOpen_of_unbound header body hbound]
  · exact whenDo_next hup ((State.scheduleOne_frame tide htime hone).trans (if_neg hkind))
  · exact whenDo_next hup (State.scheduleOne_round tide htime htwo)
  · refine whenDo_next hup (((State.scheduleOne_frame tide htime hone).trans (if_pos hsix)).trans ?_)
    unfold State.cutAt
    rw [hair]
    exact if_pos hkind
  · exact whenDo_next hup (State.scheduleOne_of_late tide d hlate)
  · have hkeys := s.tamperEffects_keys
    have hframe := s.tamperEffects_eq
    generalize s.tamperEffects = e at hkeys hframe ⊢
    have hrest : e.pins.pulses = [] ∧ e.cfg = s.cfg ∧ e.tide.number = s.tide.number := by
      rw [hframe]
      exact ⟨rfl, rfl, rfl⟩
    refine ⟨?_, rfl, ?_, ?_, hrest⟩
    · rw [State.unstageRoots, State.upKeys_keys, hkeys]
    · rw [State.unstageRoots, State.upKeys_keys, hkeys]
    · rw [State.unstageRoots, State.upKeys_keys, hkeys]

end Sys2Proof.Machine
end
